-- ==== Sys2Proof/Word.lean ====
section
/-! DEFINITION. The word types of the EZA-4896 model and the index types of R4 to R8. -/

namespace Sys2Proof

abbrev Byte := BitVec 8
abbrev W16 := BitVec 16
abbrev W32 := BitVec 32
abbrev W64 := BitVec 64

/-- A core site number, 0 to 3,071 (R8). -/
abbrev Site := Fin 3072
/-- A field index, 0 to 47 (R4). -/
abbrev FieldIx := Fin 48
/-- A core index within a field, 0 to 63 (R5). -/
abbrev CoreIx := Fin 64
/-- A quad index within a field, 0 to 15 (R6). -/
abbrev QuadIx := Fin 16
/-- A terrace index, 0 to 95 (R7). -/
abbrev TerIx := Fin 96
/-- A partition number, 0 to 15 (R256). -/
abbrev PartIx := Fin 16
/-- A col number, 0 to 8,191 (R190). -/
abbrev ColIx := Fin 8192
/-- A fabric port number, 0 to 27 (R235). -/
abbrev PortIx := Fin 28
/-- A bank number of a core, 0 to 31 (R116). -/
abbrev BankIx := Fin 32
/-- A watershed slot of a field, 0 to 31 (R156). -/
abbrev SlotIx := Fin 32

/-- A cycle of module time: the tick number and the cycle offset within the tick (R183). -/
structure Stamp where
  tick : BitVec 48 := 0
  ofs : Nat := 0
  deriving DecidableEq, Repr

/-- The wafer cycle order of two time-stamps: tick number first, then cycle offset. -/
def Stamp.le (a b : Stamp) : Bool :=
  a.tick.toNat < b.tick.toNat || (a.tick == b.tick && a.ofs ≤ b.ofs)

end Sys2Proof
end

