-- ==== Sys2Proof/Config.lean ====
section
/-! DEFINITION. What the module fixes once and the free values: the values that the spec leaves open have no body, so
that nothing can prove a value of them. -/

namespace Sys2Proof

/-- Draw `n` of the values that the spec leaves open (`State.freeCtr` counts the draws). -/
opaque Config.freeValue : Nat → W64

/-- Draw `n` of the long values that the spec leaves open: nonces, signatures and other random words of the root of
trust (R404, R414, R415). -/
opaque Config.freeBytes : Nat → Nat

/-- Which register DETAIL of REG_BUSY names when an instruction names several of V24 to V31 (R82 gives one number). -/
opaque Config.busyPick : List Nat → Nat

/-- The tick digest of a chunk of a probe run on healthy cores, by key, pair and chunk: Table 9.7 names the work of a probe and not
its tiles and operations one by one (R307). -/
opaque Config.probeDigest : W64 → Nat → Nat → W64

/-- What the code of an instruction word delivers when more than two of its bits have flipped: it corrects one and detects
two (R106), and the spec says nothing of more. None is a detected word. -/
opaque Config.wordBeyond : W64 → List Nat → Option W64

/-- The format of an MX row record that VADN and VAUP read, from its 256 bytes: the record names none, and no field of the
instruction is used for it (R81, R85, R102); the code is taken modulo 6. -/
opaque Config.rowFormat : Nat → Nat

/-- SHA-384 of Fyong firmware key 0 or 1, in OTP (Table 13.3). -/
opaque Config.fwKeyHash : Nat → Nat

/-- SHA-384 of the Fyong manufacturing key, in OTP (Table 13.3). -/
opaque Config.mfgKeyHash : Nat

/-- The module ID (R237, R407). -/
opaque Config.moduleId : W64

/-- The serial number, 32 bytes, and the wafer stepping code (Table 12.10). -/
opaque Config.serial : Nat
opaque Config.stepping : W32

/-- The digests of the boot ROM and of trim copy 1 or 2 (Table 13.6). -/
opaque Config.romHash : Nat
opaque Config.trimHash : Nat → Nat

/-- The module's certificate chain (R409) as a number of its bytes. -/
opaque Config.certChain : Nat

end Sys2Proof
end

