-- ==== Sys2Proof/Machine/Fp.lean ====
section
/-! DEFINITION. Exact binary arithmetic and the formats of the manual: IEEE 754 binary32 with the rounding rules of R51 to
R53 and R88, the element and scale encodings of R45 to R49, BF16, stochastic rounding (R62), the generator G (R63) and
the conversions of R66. -/

namespace Sys2Proof

/-- A decoded value: a NaN, a signed infinity, or (−1)^neg × m × 2^e (a zero keeps its sign). -/
inductive Fp where
  | nan
  | inf (neg : Bool)
  | fin (neg : Bool) (m : Nat) (e : Int)
  deriving DecidableEq, Repr

/-- An exact real number m × 2^e: the block dot products of R50 are sums of these. -/
structure Dy where
  m : Int := 0
  e : Int := 0
  deriving DecidableEq, Repr

def pow2 (k : Int) : Int := (2 : Int) ^ k.toNat

def Dy.add (a b : Dy) : Dy :=
  let e := min a.e b.e
  { m := a.m * pow2 (a.e - e) + b.m * pow2 (b.e - e), e := e }

def Dy.mul (a b : Dy) : Dy := { m := a.m * b.m, e := a.e + b.e }
def Dy.neg (a : Dy) : Dy := { a with m := -a.m }
def Dy.abs (a : Dy) : Dy := { a with m := a.m.natAbs }
def Dy.scale (a : Dy) (k : Int) : Dy := { a with e := a.e + k }
def Dy.sum (l : List Dy) : Dy := l.foldl Dy.add {}
/-- a < b, exactly. -/
def Dy.lt (a b : Dy) : Bool := decide ((Dy.add a b.neg).m < 0)

/-- The exact value of a finite `Fp`. -/
def Fp.dy : Fp → Dy
  | .fin neg m e => { m := if neg then -(m : Int) else (m : Int), e := e }
  | _ => {}

def Fp.isFin : Fp → Bool
  | .fin _ _ _ => true
  | _ => false

def Fp.isZero : Fp → Bool
  | .fin _ m _ => m == 0
  | _ => false

/-- The product of two decoded values: NaN when a factor is NaN or an infinity meets a zero (R50). -/
def Fp.mul : Fp → Fp → Fp
  | .nan, _ => .nan
  | _, .nan => .nan
  | .inf s, .inf t => .inf (s != t)
  | .inf s, .fin t m _ => if m = 0 then .nan else .inf (s != t)
  | .fin s m _, .inf t => if m = 0 then .nan else .inf (s != t)
  | .fin s m e, .fin t n f => .fin (s != t) (m * n) (e + f)

/-- The exact sum of a list of products with the special values of R50, in the order R50 lists them. -/
def Fp.exactSum (l : List Fp) : Fp :=
  if l.any (· == .nan) then .nan
  else
    let p := l.any (· == .inf false)
    let n := l.any (· == .inf true)
    if p && n then .nan
    else if p then .inf false
    else if n then .inf true
    else
      let d := Dy.sum (l.map Fp.dy)
      .fin (decide (d.m < 0)) d.m.natAbs d.e

/-- How a magnitude is rounded. -/
inductive Rnd where
  | rne
  | up
  | trunc
  | sr (draw : Nat)
  deriving DecidableEq, Repr

/-- Round the magnitude n × 2^e to `p` significant bits with a unit of at least 2^qmin: (mantissa, exponent of its unit).
The stochastic mode is R62's: d is the integer part of the fraction times 2^16. -/
def roundMag (r : Rnd) (p : Nat) (qmin : Int) (n : Nat) (e : Int) : Nat × Int :=
  if n = 0 then (0, qmin)
  else
    let q := max ((Nat.log2 n : Int) + e - ((p : Int) - 1)) qmin
    if q ≤ e then (n * 2 ^ (e - q).toNat, q)
    else
      let sh := (q - e).toNat
      let lo := n / 2 ^ sh
      let rem := n % 2 ^ sh
      let half := 2 ^ (sh - 1)
      let bump : Bool := match r with
        | .rne => decide (half < rem) || (decide (rem = half) && lo % 2 == 1)
        | .up => decide (0 < rem)
        | .trunc => false
        | .sr d => decide (65536 ≤ rem * 65536 / 2 ^ sh + d)
      (if bump then lo + 1 else lo, q)

/-- The magnitude code of a binary format with `mb` fraction bits and smallest unit 2^qmin. -/
def magCode (mb : Nat) (qmin : Int) (mq : Nat × Int) : Nat :=
  let m := mq.1
  let q := mq.2
  if m < 2 ^ mb then m
  else if m = 2 ^ (mb + 1) then (q - qmin + 2).toNat * 2 ^ mb
  else (q - qmin + 1).toNat * 2 ^ mb + (m - 2 ^ mb)

/-- The quiet NaN of R52. -/
def qnan32 : W32 := 0x7FC00000#32
def inf32 (neg : Bool) : W32 := if neg then 0xFF800000#32 else 0x7F800000#32
def zero32 (neg : Bool) : W32 := if neg then 0x80000000#32 else 0#32

/-- Round a magnitude to binary32: RNE and upward rounding overflow to infinity, truncation to the largest finite value. -/
def round32 (r : Rnd) (neg : Bool) (m : Nat) (e : Int) : W32 :=
  let c := magCode 23 (-149) (roundMag r 24 (-149) m e)
  let c := if c ≥ 0x7F800000 then (if r = .trunc then 0x7F7FFFFF else 0x7F800000) else c
  BitVec.ofNat 32 (c + if neg then 0x80000000 else 0)

/-- RNE32 of R51 on a decoded value. -/
def Fp.rne32 : Fp → W32
  | .nan => qnan32
  | .inf s => inf32 s
  | .fin s m e => if m = 0 then zero32 s else round32 .rne s m e

/-- Rounding towards +∞ of a value that is not negative (R67, R68). -/
def Fp.up32 : Fp → W32
  | .nan => qnan32
  | .inf s => inf32 s
  | .fin _ m e => if m = 0 then 0#32 else round32 .up false m e

/-- RNE32 of an exact real number; an exact zero is +0. -/
def Dy.rne32 (d : Dy) : W32 :=
  if d.m = 0 then 0#32 else round32 .rne (decide (d.m < 0)) d.m.natAbs d.e

/-- Decode a binary format of `eb` exponent and `mb` fraction bits that has no special codes. -/
def decodeBin (eb mb : Nat) (bias : Int) (c : Nat) : Fp :=
  let m := c % 2 ^ mb
  let x := c / 2 ^ mb % 2 ^ eb
  let s := c / 2 ^ (mb + eb) % 2 == 1
  if x = 0 then .fin s m (1 - bias - mb) else .fin s (m + 2 ^ mb) ((x : Int) - bias - mb)

/-- Decode an IEEE binary format (infinity and NaN at the top exponent). -/
def decodeIeee (eb mb : Nat) (bias : Int) (c : Nat) : Fp :=
  if c / 2 ^ mb % 2 ^ eb = 2 ^ eb - 1 then
    (if c % 2 ^ mb = 0 then .inf (c / 2 ^ (mb + eb) % 2 == 1) else .nan)
  else decodeBin eb mb bias c

def dec32 (b : W32) : Fp := decodeIeee 8 23 127 b.toNat
def isNan32 (b : W32) : Bool := dec32 b == .nan
def isFin32 (b : W32) : Bool := (dec32 b).isFin

/-- The binary32 add of R52 and R88. -/
def fadd32 (a b : W32) : W32 :=
  match dec32 a, dec32 b with
  | .nan, _ => qnan32
  | _, .nan => qnan32
  | .inf s, .inf t => if s = t then inf32 s else qnan32
  | .inf s, _ => inf32 s
  | _, .inf t => inf32 t
  | .fin s m e, .fin t n f =>
    let d := Dy.add (Fp.fin s m e).dy (Fp.fin t n f).dy
    if d.m = 0 then zero32 (s && t) else d.rne32

def fneg32 (a : W32) : W32 := a ^^^ 0x80000000#32
def fsub32 (a b : W32) : W32 := fadd32 a (if isNan32 b then b else fneg32 b)
def fmul32 (a b : W32) : W32 := ((dec32 a).mul (dec32 b)).rne32

/-- a × b + c, rounded once (R88). -/
def ffma32 (a b c : W32) : W32 :=
  match (dec32 a).mul (dec32 b), dec32 c with
  | .nan, _ => qnan32
  | _, .nan => qnan32
  | .inf s, .inf t => if s = t then inf32 s else qnan32
  | .inf s, _ => inf32 s
  | _, .inf t => inf32 t
  | .fin s m e, .fin t n f =>
    let d := Dy.add (Fp.fin s m e).dy (Fp.fin t n f).dy
    if d.m = 0 then zero32 (s && t) else d.rne32

/-- a < b, false when either is NaN. -/
def flt32 (a b : W32) : Bool :=
  match dec32 a, dec32 b with
  | .nan, _ => false
  | _, .nan => false
  | .inf s, .inf t => s && !t
  | .inf s, _ => s
  | _, .inf t => !t
  | x, y => Dy.lt x.dy y.dy

/-- a = b as numbers, false when either is NaN. -/
def feq32 (a b : W32) : Bool := !isNan32 a && !isNan32 b && !flt32 a b && !flt32 b a

/-- The maximum of R59 and R88: NaN wins, +0 ranks above −0. -/
def fmax32 (a b : W32) : W32 :=
  if isNan32 a || isNan32 b then qnan32
  else if flt32 a b then b
  else if flt32 b a then a
  else if (dec32 a).isZero then (if a = 0#32 then a else b)
  else a

def fmin32 (a b : W32) : W32 :=
  if isNan32 a || isNan32 b then qnan32
  else if flt32 a b then a
  else if flt32 b a then b
  else if (dec32 a).isZero then (if a = 0#32 then b else a)
  else a

/-- Correctly rounded binary32 division (R225, and the square roots of no rule). -/
def fdiv32 (a b : W32) : W32 :=
  match dec32 a, dec32 b with
  | .nan, _ => qnan32
  | _, .nan => qnan32
  | .inf _, .inf _ => qnan32
  | .inf s, .fin t _ _ => inf32 (s != t)
  | .fin s _ _, .inf t => zero32 (s != t)
  | .fin s m e, .fin t n f =>
    if n = 0 then (if m = 0 then qnan32 else inf32 (s != t))
    else if m = 0 then zero32 (s != t)
    else
      let k := 34 + Nat.log2 n
      let q := m * 2 ^ k / n
      let st := if m * 2 ^ k % n = 0 then 0 else 1
      round32 .rne (s != t) (2 * q + st) (e - f - k - 1)

/-- The fixed tree of R60 and R90: a balanced binary tree of RNE32 adds, left operand first; `n` halvings. -/
def treeLevel : List W32 → List W32
  | a :: b :: r => fadd32 a b :: treeLevel r
  | l => l

def fixedTree : Nat → List W32 → W32
  | 0, l => l.headD 0#32
  | n + 1, l => fixedTree n (treeLevel l)

/-- VEXP2's polynomial constants c6 to c0 (R91). -/
def exp2Coef : List W32 := [0x3AAEC3FF#32, 0x3C1D955B#32, 0x3D635847#32, 0x3E75FDF0#32, 0x3F317218#32, 0x3F800000#32]

/-- The nearest integer of an exact number, ties to even. -/
def Dy.nearest (d : Dy) : Int :=
  let m := (roundMag .rne 64 0 d.m.natAbs d.e)
  let n : Int := m.1 * pow2 m.2
  if d.m < 0 then -n else n

/-- VEXP2 of one lane (R91). -/
def exp2of (x : W32) : W32 :=
  match dec32 x with
  | .nan => qnan32
  | .inf s => if s then 0#32 else inf32 false
  | .fin s m e =>
    let d := (Fp.fin s m e).dy
    if ! Dy.lt d { m := 128 } then inf32 false
    else if Dy.lt d { m := -150 } then 0#32
    else
      let n := d.nearest
      let f := (Dy.add d { m := -n }).rne32
      let p := exp2Coef.foldl (fun p c => ffma32 p f c) 0x39218498#32
      ((dec32 p).dy.scale n).rne32

/-- VRSQRT of one lane (R92). -/
def rsqrt32 (x : W32) : W32 :=
  match dec32 x with
  | .nan => qnan32
  | .inf s => if s then qnan32 else 0#32
  | .fin s m e =>
    if m = 0 then inf32 s
    else if s then qnan32
    else
      let sub := decide (x.toNat < 0x00800000)
      let t := if sub then (Fp.fin false m (e + 24)).rne32 else x
      let sc : W32 := if sub then 0x45800000#32 else 0x3F800000#32
      let y0 : W32 := 0x5F375A86#32 - (t >>> 1)
      let h := fmul32 0x3F000000#32 t
      let it := fun (y : W32) => fmul32 y (fsub32 0x3FC00000#32 (fmul32 (fmul32 y y) h))
      fmul32 (it (it y0)) sc

/-- Element width in bits of a format code (Table 2.5). -/
def elemBits (fmt : Nat) : Nat :=
  match fmt with
  | 2 | 3 => 6
  | 4 => 4
  | 6 => 16
  | 7 => 32
  | _ => 8

/-- Decode one element (Table 2.4, R45); an INT8 element decodes to its raw integer (R47, R50). -/
def decodeElem (fmt c : Nat) : Fp :=
  match fmt with
  | 0 => if c % 128 = 127 then .nan else decodeBin 4 3 7 c
  | 1 => decodeIeee 5 2 15 c
  | 2 => decodeBin 2 3 1 c
  | 3 => decodeBin 3 2 3 c
  | 4 => decodeBin 2 1 1 c
  | 5 => if c ≥ 128 then .fin true (256 - c) 0 else .fin false c 0
  | 6 => decodeIeee 8 7 127 c
  | _ => .nan

/-- The exponent that the implicit INT8 factor 2^−6 adds to a block scale (R47, R93). -/
def intExp (fmt : Nat) : Int := if fmt = 5 then -6 else 0

/-- z of R51. -/
def zExp (fmt : Nat) : Int := if fmt = 5 then -12 else 0

/-- The unbiased exponent of an E8M0 scale code; none for the NaN code 0xFF (R46). -/
def scaleExp (c : Nat) : Option Int := if c = 255 then none else some ((c : Int) - 127)

/-- emax of a format (Table 2.4). -/
def emaxOf (fmt : Nat) : Int :=
  match fmt with
  | 0 => 8
  | 1 => 15
  | 3 => 4
  | 5 => 0
  | _ => 2

/-- Fraction bits, smallest unit, largest magnitude code and sign bit of an FP element format. -/
def fmtParams (fmt : Nat) : Nat × Int × Nat × Nat :=
  match fmt with
  | 0 => (3, -9, 0x7E, 7)
  | 1 => (2, -16, 0x7B, 7)
  | 2 => (3, -3, 0x1F, 5)
  | 3 => (2, -4, 0x1F, 5)
  | _ => (1, -1, 0x7, 3)

/-- One element of R66: v × 2^−X rounded to the target, saturating. -/
def encodeElem (fmt : Nat) (r : Rnd) (x : Int) (v : Fp) : Nat :=
  match v with
  | .fin neg m e =>
    if fmt = 5 then
      let mq := roundMag r 400 0 m (e - x + 6)
      let raw := min 127 (mq.1 * 2 ^ mq.2.toNat)
      if neg && raw ≠ 0 then 256 - raw else raw
    else
      let (mb, qmin, top, sb) := fmtParams fmt
      let c := min top (magCode mb qmin (roundMag r (mb + 1) qmin m (e - x)))
      c + if neg then 2 ^ sb else 0
  | _ => 0

/-- floor(log2 m) of a non-zero finite value. -/
def Fp.log2 : Fp → Int
  | .fin _ m e => (Nat.log2 m : Int) + e
  | _ => 0

/-- The conversion of R66 on exact values: the scale code and the element codes; `rs` gives each element's rounding. -/
def toMX (fmt : Nat) (rs : List Rnd) (vs : List Fp) : Nat × List Nat :=
  if vs.any (fun v => !v.isFin) then (255, vs.map (fun _ => 0))
  else
    let nz := vs.filter (fun v => !v.isZero)
    match nz with
    | [] => (0, vs.map (fun v => encodeElem fmt .rne 0 v))
    | v :: r =>
      let l := r.foldl (fun a w => max a w.log2) v.log2
      let x := max (-127) (min 127 (l - emaxOf fmt))
      ((x + 127).toNat, (vs.zip rs).map (fun p => encodeElem fmt p.2 x p.1))

/-- FP32 to BF16 (R66): RNE as IEEE 754, the stochastic mode saturates (R62). -/
def toBF16 (r : Rnd) (b : W32) : Nat :=
  match dec32 b with
  | .nan => 0x7FC0
  | .inf s => if s then 0xFF80 else 0x7F80
  | .fin s m e =>
    let c := magCode 7 (-133) (roundMag r 8 (-133) m e)
    let top := match r with
      | .sr _ => 0x7F7F
      | _ => 0x7F80
    min top c + if s then 0x8000 else 0

/-- BF16 to FP32 (R93): exact, every NaN the quiet NaN. -/
def fromBF16 (c : Nat) : W32 := (decodeElem 6 c).rne32

/-- The generator G of R63. -/
def gen (key : W64) (stream : W32) (counter : BitVec 48) : W64 :=
  let z := key + counter.setWidth 64 * 0x9E3779B97F4A7C15#64 + stream.setWidth 64 * 0xD1B54A32D192ED03#64
  let z := (z ^^^ (z >>> 30)) * 0xBF58476D1CE4E5B9#64
  let z := (z ^^^ (z >>> 27)) * 0x94D049BB133111EB#64
  z ^^^ (z >>> 31)

/-- Draw `i` (0 to 3) of a generator output (R63). -/
def drawOf (z : W64) (i : Nat) : Nat := z.toNat / 65536 ^ (i % 4) % 65536

/-- Lane `l`'s draw from a counter base (R64, R226). -/
def laneDraw (key : W64) (stream : W32) (base : BitVec 48) (l : Nat) : Nat :=
  drawOf (gen key stream (base + BitVec.ofNat 48 (l / 4))) l

/-- The step seed of step n (R65). -/
def stepSeed (job : W64) (n : W64) : W64 := gen job 0xFFFFFFFF#32 (n.setWidth 48)

/-- CRC-64 of R252 (polynomial 0x42F0_E1EB_A9EA_3693 reflected, initial value and final XOR all ones). -/
def crc64Bit : Nat → W64 → W64
  | 0, c => c
  | n + 1, c => crc64Bit n (if c.getLsbD 0 then (c >>> 1) ^^^ 0xC96C5795D7870F42#64 else c >>> 1)

def crc64Byte (c : W64) (b : Byte) : W64 := crc64Bit 8 (c ^^^ b.setWidth 64)

/-- The CRC-64 of bytes that follow those of digest d; the digest of no bytes is 0. -/
def crc64More (d : W64) (bs : List Byte) : W64 := (bs.foldl crc64Byte (d ^^^ BitVec.allOnes 64)) ^^^ BitVec.allOnes 64

def crc64 (bs : List Byte) : W64 := (bs.foldl crc64Byte (BitVec.allOnes 64)) ^^^ BitVec.allOnes 64

/-- CRC-32 of R238 (polynomial 0x04C1_1DB7 reflected, initial value and final XOR all ones). -/
def crc32Bit : Nat → W32 → W32
  | 0, c => c
  | n + 1, c => crc32Bit n (if c.getLsbD 0 then (c >>> 1) ^^^ 0xEDB88320#32 else c >>> 1)

def crc32 (bs : List Byte) : W32 :=
  (bs.foldl (fun c b => crc32Bit 8 (c ^^^ b.setWidth 32)) (BitVec.allOnes 32)) ^^^ BitVec.allOnes 32

/-- The low `n` bytes of a number, little-endian (R17). -/
def bytesLE (v n : Nat) : List Byte := (List.range n).map (fun i => BitVec.ofNat 8 (v / 256 ^ i))

/-- The number of a list of bytes, little-endian (R17). -/
def natLE : List Byte → Nat
  | [] => 0
  | b :: r => b.toNat + 256 * natLE r

end Sys2Proof
end

