-- ==== Sys2Proof/Machine/Tab.lean ====
section
/-! DEFINITION. Sparse tables: a list of key and value pairs in one canonical form (keys strictly rising, no
entry equal to what an unlisted key reads as). Memories, register tables and the tables of cores and fields use it. -/

namespace Sys2Proof

/-- A sparse table; what an unlisted key reads as is the argument `d` of every operation. -/
abbrev Tab (α : Type) := List (Nat × α)

/-- Read key `x`. -/
def Tab.get {α : Type} (d : α) : Tab α → Nat → α
  | [], _ => d
  | (k, v) :: r, x => if x = k then v else Tab.get d r x

/-- Insert an entry before the first larger key. -/
def Tab.ins {α : Type} : Tab α → Nat → α → Tab α
  | [], x, v => [(x, v)]
  | (k, w) :: r, x, v => if x < k then (x, v) :: (k, w) :: r else (k, w) :: Tab.ins r x v

/-- Remove every entry of key `x`. -/
def Tab.del {α : Type} (t : Tab α) (x : Nat) : Tab α := t.filter (fun p => p.1 ≠ x)

/-- Write key `x`: writing what an unlisted key reads as removes the entry. -/
def Tab.set {α : Type} [DecidableEq α] (d : α) (t : Tab α) (x : Nat) (v : α) : Tab α :=
  if v = d then Tab.del t x else Tab.ins (Tab.del t x) x v

/-- Update one key. -/
def Tab.upd {α : Type} [DecidableEq α] (d : α) (t : Tab α) (x : Nat) (f : α → α) : Tab α :=
  Tab.set d t x (f (Tab.get d t x))

/-- Update every key of a list, in its order. -/
def Tab.updAll {α : Type} [DecidableEq α] (d : α) (t : Tab α) (xs : List Nat) (f : Nat → α → α) : Tab α :=
  xs.foldl (fun t x => Tab.upd d t x (f x)) t

/-- Rewrite every listed entry. -/
def Tab.mapV {α : Type} [DecidableEq α] (d : α) (t : Tab α) (f : Nat → α → α) : Tab α :=
  (t.map (fun p => (p.1, f p.1 p.2))).filter (fun p => p.2 ≠ d)

/-- Write a list of values at consecutive keys. -/
def Tab.setRange {α : Type} [DecidableEq α] (d : α) (t : Tab α) (x : Nat) (vs : List α) : Tab α :=
  match vs with
  | [] => t
  | v :: r => Tab.setRange d (Tab.set d t x v) (x + 1) r

/-- Read `n` consecutive keys. -/
def Tab.getRange {α : Type} (d : α) (t : Tab α) (x n : Nat) : List α :=
  (List.range n).map (fun i => Tab.get d t (x + i))

/-- The canonical form. -/
def Tab.wf {α : Type} [DecidableEq α] (d : α) (t : Tab α) : Bool :=
  decide (t.Pairwise (fun a b => a.1 < b.1)) && t.all (fun p => p.2 ≠ d)

end Sys2Proof
end

