-- ==== Sys2Proof/Machine/CoreState.lean ====
section
/-! DEFINITION. The state of one core site: sequencer, registers, array, banks, ring windows, queues and records
(chapters 02 to 06, 08 and 09). -/

namespace Sys2Proof.Machine

open Sys2Proof

/-- A record that keeps the first event after VALID was last cleared, and the cycle of that event: among the events of one
cycle each record has an order of its own (R71, R114, R137, R199, R233, R275). -/
structure FirstRec (α : Type) where
  valid : Bool := false
  more : Bool := false
  body : α
  cycle : Stamp := {}
  deriving DecidableEq, Repr

/-- Body of COR_FAULT_INFO, TICK, CYC and DETAIL (R114, R115). -/
structure FaultBody where
  kind : BitVec 8 := 0
  pc : Nat := 0
  detail : W32 := 0
  at_ : Stamp := {}
  deriving DecidableEq, Repr

/-- Body of the check record (R71, R75). -/
structure ChkBody where
  injected : Bool := false
  wfmt : Nat := 0
  afmt : Nat := 0
  group : Nat := 0
  block : Nat := 0
  row : Nat := 0
  at_ : Stamp := {}
  sOut : W32 := 0
  sChk : W32 := 0
  tau : W32 := 0
  deriving DecidableEq, Repr

/-- What the capture buffer takes of a disagreement (R299): the tile image and the formats under which it was loaded, the row
record, the row-block and its values, and what the check lane formed. -/
structure Captured where
  headed : Bool := false
  wfmt : Nat := 0
  afmt : Nat := 0
  tileRaw : Nat := 0
  tileLen : Nat := 0
  rec_ : Nat := 0
  block : Nat := 0
  vals : List W32 := []
  sChk : W32 := 0
  m : W32 := 0
  isInt : Bool := false
  deriving DecidableEq, Repr

/-- Body of the bank error record (R137). -/
structure BankErrBody where
  req : Nat := 0
  word : Nat := 0
  at_ : Stamp := {}
  deriving DecidableEq, Repr

/-- One open loop level (R96). -/
structure LoopFrame where
  level : Nat := 0
  start : Nat := 0
  stop : Nat := 0
  left : Nat := 0
  deriving DecidableEq, Repr

/-- STATE of COR_SEQ_STAT (R115). -/
inductive SeqSt where
  | stopped | running | waiting | ended | held | faulted
  deriving DecidableEq, Repr

/-- Which staging instruction came last in program order (R82). -/
inductive StageOrd where
  | none | stage | unstage
  deriving DecidableEq, Repr

/-- The scalar sequencer (R95, R96, R107 to R112, R115). -/
structure Seq where
  st : SeqSt := .stopped
  wcause : Nat := 0
  mult : Nat := 0
  entry : Nat := 0
  rep : Nat := 0
  pc : Nat := 0
  loops : List LoopFrame := []
  ord : StageOrd := .none
  staged : Bool := false
  stageReq : Bool := false
  unstageReq : Bool := false
  endIssued : Bool := false
  full : Bool := false
  spanLeft : Nat := 0
  deriving DecidableEq, Repr

inductive GSt where
  | free | opened | closed
  deriving DecidableEq, Repr

/-- An accumulation group (R55); `drains` holds the drains under way, oldest first, and whether each writes V24 to V31. -/
structure Group where
  st : GSt := .free
  base : Nat := 0
  count : Nat := 0
  closing : Bool := false
  drains : List Bool := []
  releasing : Bool := false
  deriving DecidableEq, Repr

/-- A weight tile (R36, R140 to R150): `vals` holds the packed elements, `codes` the position codes, `scales` the scale
bytes, `raw` the image as loaded; `cks` and `mks` are the check lane's row sums (R67). -/
structure Tile where
  sfmt : Nat := 0
  efmt : Nat := 0
  g : Nat := 1
  headed : Bool := false
  denseBit : Bool := false
  trans : Bool := false
  nnz : Nat := 0
  vals : Nat := 0
  codes : Nat := 0
  scales : Nat := 0
  raw : Nat := 0
  rawLen : Nat := 0
  cks : List Fp := []
  mks : List Fp := []
  deriving DecidableEq, Repr

/-- A physical error of one product of the array: it is added to the exact product of row record `row`, array row `k`,
column `j` (the errors that the check lane of R70 exists to see). -/
structure Upset where
  row : Nat
  k : Nat
  j : Nat
  add : W32
  deriving DecidableEq, Repr

/-- An array instruction in the array's queue, with its scalar operands read at issue (R76, R77, R97). A TLOAD keeps the
bytes it has taken (`raw`, `len`), a PASS the rows it has still to take. -/
inductive ArrOp where
  | tload (wfmt win : Nat) (hdr : Bool) (raw len : Nat)
  | pass (g afmt first n win : Nat) (upsets : List Upset)
  | gopen (g base count : Nat)
  | gclose (g : Nat)
  | gdrainB (g fuse addr : Nat)
  | gdrainV (g fuse row vd : Nat)
  | grel (g : Nat)
  | gside (row sd : Nat)
  | stage
  | unstage
  deriving DecidableEq, Repr

/-- An entry of the array's queue: its instruction, how many of the vector engine's queued instructions come before it in
program order, and the idle cause under which it waits (Table 3.8). -/
structure QArr where
  pc : Nat
  op : ArrOp
  before : Nat := 0
  why : Option Nat := none
  deriving DecidableEq, Repr

/-- An entry of the vector engine's queue (R76): the instruction word, and the idle cause under which it waits. -/
structure QVec where
  pc : Nat
  word : W64
  why : Option Nat := none
  deriving DecidableEq, Repr

/-- One block of a row waiting for its check compare (R68, R69, R147). -/
structure BlkChk where
  skip : Bool := false
  sOut : W32 := 0
  sChk : W32 := 0
  m : W32 := 0
  intDiff : Int := 0
  vals : List W32 := []
  deriving DecidableEq, Repr

/-- A row that has entered the array and whose compares have not completed (R44). -/
structure RowChk where
  group : Nat := 0
  row : Nat := 0
  headed : Bool := false
  wfmt : Nat := 0
  afmt : Nat := 0
  tileRaw : Nat := 0
  tileLen : Nat := 0
  rec_ : Nat := 0
  blocks : List BlkChk := []
  deriving DecidableEq, Repr

/-- A store row: 128 FP32 values (R54). -/
abbrev AccRow := Vector W32 128
/-- ROWMAX and ROWSUM of a store row (R59). -/
structure Side where
  rmax : W32 := 0xFF800000#32
  rsum : W32 := 0#32
  deriving DecidableEq, Repr

/-- The capture buffer (R299) and its replay state (R300, R318). -/
structure Capture where
  captured : Bool := false
  replaying : Bool := false
  rdone : Bool := false
  rchk : Bool := false
  src : Captured := {}
  replay : List W32 := []
  deriving DecidableEq, Repr

/-- The matrix array (R36 to R60). -/
structure Arr where
  active : Option Tile := none
  shadow : Option Tile := none
  shadowReady : Bool := false
  loadPc : Nat := 0
  groups : Vector Group 8 := Vector.replicate 8 {}
  store : Tab AccRow := []
  sides : Tab Side := []
  pend : List RowChk := []
  q : List QArr := []
  deriving DecidableEq, Repr

/-- The check lane (R67 to R75). -/
structure Chk where
  suspect : BitVec 8 := 0
  off : Bool := false
  inj : Bool := false
  events : W32 := 0
  skips : W32 := 0
  blocks : W64 := 0
  blocksHi : W32 := 0
  record : FirstRec ChkBody := { body := {} }
  cap : Capture := {}
  deriving DecidableEq, Repr

/-- The stochastic-rounding registers (R64, R65, R75). -/
structure SrReg where
  seed : W64 := 0
  stream : W32 := 0
  ctr : BitVec 48 := 0
  deriving DecidableEq, Repr

/-- A ring window (R128, R138). -/
structure Win where
  base : Nat := 0
  size : Nat := 0
  head : Nat := 0
  tail : Nat := 0
  deriving DecidableEq, Repr

/-- BNK_MARCH registers and the march engine (R132 to R134). -/
structure March where
  mode : Bool := false
  maskReg : W32 := 0
  running : Bool := false
  done : Bool := false
  fail : Bool := false
  aborted : Bool := false
  aborting : Bool := false
  element : Nat := 0
  bank : Nat := 0
  todo : List Nat := []
  runMode : Bool := false
  failWord : Nat := 0
  failBank : Nat := 0
  failBit : Nat := 0
  abortFail : Option (Nat × Nat) := none
  deriving DecidableEq, Repr

/-- The banks of a core (R116 to R137): data bytes, and for each raw symbol the pattern by which it differs from the
codeword of the data (key 68 × word + symbol; symbols 0 to 63 data, 64 to 67 check). `counted` holds the reads of bad words
that have been counted: word, requester and cycle (R122). -/
structure Bank where
  data : Tab Byte := []
  err : Tab Byte := []
  writeBack : List Nat := []
  counted : List (Nat × Nat × Stamp) := []
  own : W64 := 0
  target : W64 := 0
  pend : W32 := 0
  secure : W32 := 0
  secSet : W32 := 0
  secClr : W32 := 0
  busy : W32 := 0
  late : W32 := 0
  wiping : W32 := 0
  waking : Bool := false
  zfail : Bool := false
  zbank : Nat := 0
  corr : W32 := 0
  uncorr : W32 := 0
  record : FirstRec BankErrBody := { body := {} }
  rejects : W32 := 0
  march : March := {}
  deriving DecidableEq, Repr

/-- A destination entry (Table 6.9). -/
structure Dest where
  kind : Nat := 15
  rsemEn : Bool := false
  rsem : Nat := 0
  site : Nat := 0
  win : Nat := 0
  field : Nat := 0
  addr : Nat := 0
  dst : Nat := 0
  part : Nat := 0
  coll : Nat := 0
  sop : W64 := 0
  deriving DecidableEq, Repr

/-- The binding of a reduction ID at a core (R181). -/
structure RxBind where
  on : Bool := false
  win : Nat := 0
  sem : Nat := 0
  deriving DecidableEq, Repr

/-- One entry of a core's copy of the cols (R194): the state shown and whether the col is the core's own partition's. -/
inductive ColShow where
  | unresolved | ok | okLate | expired
  deriving DecidableEq, Repr

structure ColCopy where
  show_ : ColShow := .unresolved
  own : Bool := false
  deriving DecidableEq, Repr

/-- A DMA operation in its queue, with its scalar operands read at issue (R207) and the bytes it has moved. -/
structure DmaOp where
  pc : Nat := 0
  op : Nat := 0
  sa : W64 := 0
  sb : W64 := 0
  sc : W64 := 0
  sem : Nat := 0
  win : Nat := 0
  w : Bool := false
  xp : Nat := 0
  fmt : Nat := 0
  add : Bool := false
  moved : Nat := 0
  deriving DecidableEq, Repr

/-- A network-port operation in its queue (R181) and the bytes it has sent; `noCredit` while it waits for credit (R100). -/
structure NetOp where
  pc : Nat := 0
  op : Nat := 0
  sa : W64 := 0
  sb : W64 := 0
  sc : W64 := 0
  sem : Nat := 0
  win : Nat := 0
  w : Bool := false
  vc : Nat := 0
  rid : Nat := 0
  moved : Nat := 0
  noCredit : Bool := false
  digest : W64 := 0
  deriving DecidableEq, Repr

/-- A stream entry (Table 7.4). -/
structure StreamEntry where
  addr : Nat := 0
  stride : Nat := 0
  ntile : Nat := 0
  rep : Nat := 0
  win : Nat := 0
  xp : Nat := 0
  hdr : Bool := false
  wsen : Bool := false
  wslot : Nat := 0
  step : Bool := false
  last : Bool := false
  sem : Nat := 0
  efmt : Nat := 0
  mb0 : Nat := 0
  deriving DecidableEq, Repr

/-- The position of a core's stream list (R203): the entry and the pass, the tiles of the pass still to send once its list
is `ready`, and the bytes of the tile in progress that have gone. -/
structure StreamPos where
  step : Option W64 := none
  active : Bool := false
  entry : Nat := 0
  pass : Nat := 0
  ready : Bool := false
  todo : List Nat := []
  moved : Nat := 0
  deriving DecidableEq, Repr

/-- A schedule entry (Table 3.10). -/
structure SchedEntry where
  stepFirst : Bool := false
  last : Bool := false
  rep : Nat := 0
  span : Nat := 0
  addr : Nat := 0
  deriving DecidableEq, Repr

/-- The idle counters and COR_RUN with their latches (R259, R276). -/
structure IdleCtr where
  idle : Vector W64 8 := Vector.replicate 8 0
  run : W64 := 0
  idleHi : Vector W32 8 := Vector.replicate 8 0
  runHi : W32 := 0
  deriving DecidableEq, Repr

/-- A tick message (R187). -/
inductive TickMsg where
  | start | hold | lift | stop
  deriving DecidableEq, Repr

/-- One core site (Table 3.2 and the registers of its COR_ and BNK_ windows). `ierr` holds the bits of the instruction
store's codewords that have flipped: word index and code bit (R106). -/
structure Core where
  seq : Seq := {}
  sr : Vector W64 32 := Vector.replicate 32 0
  vr : Vector (Vector W32 64) 32 := Vector.replicate 32 (Vector.replicate 64 0)
  mr : Vector W64 8 := Vector.replicate 8 0
  sem : Vector W16 64 := Vector.replicate 64 0
  adpBase : Nat := 0
  adpLen : Nat := 0
  fault : FirstRec FaultBody := { body := {} }
  istore : Tab W64 := []
  ierr : List (Nat × Nat) := []
  sched : List SchedEntry := []
  logical : Option Nat := none
  arr : Arr := {}
  vq : List QVec := []
  chk : Chk := {}
  rnd : SrReg := {}
  bank : Bank := {}
  win : Vector Win 16 := Vector.replicate 16 {}
  dest : Tab Dest := []
  rx : Tab RxBind := []
  col : Tab ColCopy := []
  dma : List DmaOp := []
  net : List NetOp := []
  streams : List StreamEntry := []
  stream : StreamPos := {}
  sprHdr : W32 := 0
  sprDense : W32 := 0
  idle : IdleCtr := {}
  digest : W64 := 0
  tdig : W64 := 0
  msgs : List (TickMsg × BitVec 48) := []
  held : Bool := false
  deriving DecidableEq, Repr

end Sys2Proof.Machine
end

