-- ==== Sys2Proof/Machine/FieldState.lean ====
section
/-! DEFINITION. The state of one field: stack, regions, rules, bindings, update engine, watershed slots, routers and
power (chapters 05 to 07 and 10). -/

namespace Sys2Proof.Machine

open Sys2Proof

/-- A region descriptor (Table 7.1) with its state handle (R282). -/
structure Region where
  en : Bool := false
  kind : Nat := 0
  rule : Nat := 0
  efmt : Nat := 0
  sfmt : Nat := 0
  master : Bool := false
  frozen : Bool := false
  fmen : Bool := false
  pcen : Bool := false
  pcidx : Nat := 0
  part : Nat := 0
  base : Nat := 0
  len : Nat := 0
  grad : Nat := 0
  map : Nat := 0
  slot : Vector Nat 4 := Vector.replicate 4 0
  masterBase : Nat := 0
  fmask : Nat := 0
  shard : Nat := 0
  handle : W32 := 0
  deriving DecidableEq, Repr

/-- A slot update of a rule: α, β, the term word of f and its ε (Table 7.8). -/
structure RuleSlot where
  alpha : W32 := 0
  beta : W32 := 0
  term : Nat := 0
  eps : W32 := 0
  deriving DecidableEq, Repr

/-- An output term of a rule: γ, the term word and its ε (Table 7.8). -/
structure RuleTerm where
  gamma : W32 := 0
  term : Nat := 0
  eps : W32 := 0
  deriving DecidableEq, Repr

/-- A recurrence rule (R221) and the engine's powers P_k for it (R225). -/
structure Rule where
  en : Bool := false
  nslot : Nat := 0
  nterm : Nat := 1
  prnd : Bool := false
  srnd : Bool := false
  sbf16 : Nat := 0
  bca : Nat := 0
  eta : W32 := 0
  lambda : W32 := 0
  slots : List RuleSlot := []
  terms : List RuleTerm := []
  deriving DecidableEq, Repr

/-- A preconditioner binding (Table 7.10). -/
structure Binding where
  en : Bool := false
  active : Bool := false
  newroot : Bool := false
  k : Nat := 0
  beta : W32 := 0
  statBase : Nat := 0
  rootBase : Nat := 0
  statEvery : Nat := 0
  rootEvery : Nat := 0
  jobRunning : Bool := false
  part : Nat := 0
  deriving DecidableEq, Repr

inductive UpePhase where
  | collect | norm | apply
  deriving DecidableEq, Repr

structure UpeFaultBody where
  part : Nat := 0
  kind : Nat := 0
  region : Nat := 0
  addr : W32 := 0
  deriving DecidableEq, Repr

/-- The lower kind code (R233). -/
def UpeFaultBody.lower (a b : UpeFaultBody) : Bool := a.kind < b.kind

/-- The update engine (R218 to R233). -/
structure Upe where
  share : Nat := 8
  redId : Nat := 0
  phase : Vector UpePhase 16 := Vector.replicate 16 .collect
  nonfinite : Bool := false
  part : Nat := 0
  ssq : W32 := 0
  total : W32 := 0
  scale : W32 := 0x3F800000#32
  blocks : W32 := 0
  skips : W32 := 0
  discard : W32 := 0
  rootLate : W32 := 0
  fault : FirstRec UpeFaultBody := { body := {} }
  halted : BitVec 16 := 0
  clip : Vector W32 16 := Vector.replicate 16 0x7F800000#32
  powers : Tab (Vector W32 4) := []
  srCtr : Tab (BitVec 48) := []
  deriving DecidableEq, Repr

/-- One micro-batch a watershed slot has formed and not yet evaluated (R158 to R160). -/
structure WsBatch where
  step : W64 := 0
  mb : Nat := 0
  sel : Nat := 0
  audited : Nat := 0
  aCount : Nat := 0
  dense : Bool := false
  reports : Nat := 0
  y : Nat := 0
  deriving DecidableEq, Repr

/-- A watershed slot (R156, R164, R165). -/
structure WsSlot where
  en : Bool := false
  reports : Nat := 0
  missBound : Nat := 0
  nblk : Nat := 0
  denseSlots : Nat := 0
  mbase : Nat := 0
  frecSem : Nat := 0
  frecAddr : Nat := 0
  fallback : Bool := false
  run : Nat := 0
  badmsg : Bool := false
  remain : Nat := 0
  lastA : Nat := 0
  lastMiss : Nat := 0
  sel : W32 := 0
  aud : W32 := 0
  miss : W32 := 0
  false_ : W32 := 0
  fallbacks : W32 := 0
  ctr : BitVec 48 := 0
  part : Nat := 0
  cores : List Nat := []
  batches : List WsBatch := []
  formed : List Nat := []
  deriving DecidableEq, Repr

/-- A reduction entry (R178) with the packets waiting for their partners, one queue per input port, oldest first. -/
structure RedEntry where
  en : Bool := false
  inMask : Nat := 0
  out : Nat := 0
  len : Nat := 0
  part : Nat := 0
  coll : Nat := 0
  waiting : Vector (List (List W32)) 10 := Vector.replicate 10 []
  deriving DecidableEq, Repr

structure RedRecBody where
  reason : Nat := 0
  port : Nat := 0
  id : Nat := 0
  deriving DecidableEq, Repr

/-- The lower input port (R199). -/
def RedRecBody.lower (a b : RedRecBody) : Bool := a.port < b.port

/-- A router (R166 to R173, R178 to R180, R199): port states 0 absent, 1 up, 2 on the spare link, 3 down. `table` is the
route table that firmware loaded: the X-first one, or one of its own, from a draw on. `due` counts the flit slots of a port
(key 8 × port + channel) in which a channel had no grant and VC0 took none. -/
structure Router where
  port : Vector Nat 10 := Vector.replicate 10 0
  crc : W32 := 0
  streak : Vector Nat 10 := Vector.replicate 10 0
  spareFree : Vector Bool 10 := Vector.replicate 10 true
  table : Option (Option Nat) := none
  bmask : BitVec 10 := 0
  due : Tab Nat := []
  red : Tab RedEntry := []
  record : FirstRec RedRecBody := { body := {} }
  deriving DecidableEq, Repr

/-- STATE of a terrace (Table 10.3). -/
inductive TerSt where
  | off | switching | ready | zeroing | lit | stopping | failed
  deriving DecidableEq, Repr

/-- STATE of a transit, memory-interface or link domain (Table 10.3). -/
inductive DomSt where
  | off | on | failed
  deriving DecidableEq, Repr

/-- A minimum-voltage record (R322, R350). -/
structure Vmin where
  valid : Bool := false
  mv : Nat := 0
  at_ : Stamp := {}
  deriving DecidableEq, Repr

/-- A compute terrace (R326 to R334, R351). -/
structure Ter where
  st : TerSt := .off
  heat : Bool := false
  senseFb : Bool := false
  hold : Bool := false
  switches : Nat := 0
  heldCyc : Nat := 0
  holdSince : W64 := 0
  vddFail : BitVec 48 := 0
  vcsFail : BitVec 6 := 0
  temp : Vector Nat 8 := Vector.replicate 8 0
  convTemp : Nat := 0
  hotRun : Vector Nat 8 := Vector.replicate 8 0
  convRun : Nat := 0
  vdd : Vmin := {}
  vcs : Vmin := {}
  litAt : Option (BitVec 48) := none
  darkAt : Option (BitVec 48) := none
  deriving DecidableEq, Repr

/-- A transit domain, a memory-interface domain and the stack's sensor (R324, R331 to R334, R351). -/
structure FieldPwr where
  trn : DomSt := .off
  trnHeat : Bool := false
  trnFail : BitVec 12 := 0
  trnTemp : Tab Nat := []
  trnHot : Tab Nat := []
  trnOffAt : Option (BitVec 48) := none
  mif : DomSt := .off
  mifVddFail : BitVec 4 := 0
  mifFail : BitVec 4 := 0
  stackT : Nat := 0
  stackHalf : Bool := false
  convTemp : Nat := 0
  convRun : Nat := 0
  trnV : Vmin := {}
  lost : Bool := false
  pll : Bool := false
  deriving DecidableEq, Repr

/-- One field of the wafer. -/
structure Field where
  hbm : Tab Byte := []
  hbmBad : List Nat := []
  regions : Tab Region := []
  rules : Tab Rule := []
  bindings : Tab Binding := []
  upe : Upe := {}
  ws : Vector WsSlot 32 := Vector.replicate 32 {}
  routers : Vector Router 16 := Vector.replicate 16 {}
  ter : Vector Ter 2 := Vector.replicate 2 {}
  pwr : FieldPwr := {}
  deriving DecidableEq, Repr

end Sys2Proof.Machine
end

