-- ==== Sys2Proof/Machine/PlanTypes.lean ====
section
/-! DEFINITION. Plans and their image (chapter 12, R395, R396), membership lists, intake lists and packets: the data
that commands carry into the module. -/

namespace Sys2Proof.Machine

open Sys2Proof

/-- A logical core of a placement (sections 0x01, 0x02 and 0x08 of Table 12.12). In `dest`, the `site` of a kind-0 or
kind-1 entry is a logical core (R182). -/
structure PlanCore where
  logical : Nat := 0
  site : Nat := 0
  words : Tab W64 := []
  sched : List SchedEntry := []
  dest : Tab Dest := []
  streams : List StreamEntry := []
  wins : Tab Win := []
  own : W64 := 0
  secure : W32 := 0
  deriving DecidableEq, Repr

/-- A region of a placement: field, number, descriptor. -/
structure PlanRegion where
  field : Nat := 0
  n : Nat := 0
  r : Region := {}
  deriving DecidableEq, Repr

structure PlanCol where
  col : Nat := 0
  target : Nat := 0
  deriving DecidableEq, Repr

/-- A reduction entry of a placement: field, quad, reduction ID, content (R178). -/
structure PlanRed where
  field : Nat := 0
  quad : Nat := 0
  id : Nat := 0
  e : RedEntry := {}
  deriving DecidableEq, Repr

/-- A complete placement (R294): the base, a detour or an envelope level. -/
structure Placement where
  terraces : BitVec 96 := 0
  cores : List PlanCore := []
  regions : List PlanRegion := []
  reds : List PlanRed := []
  cols : List PlanCol := []
  deriving DecidableEq, Repr

/-- A detour plan: for a terrace (`isField` false) or a field. -/
structure Detour where
  isField : Bool := false
  unit : Nat := 0
  pl : Placement := {}
  deriving DecidableEq, Repr

structure Level where
  level : Nat := 0
  pl : Placement := {}
  deriving DecidableEq, Repr

/-- A rule of a plan on a field, with its schedule of η and λ: (step, η, λ) from that step on (R227). -/
structure PlanRule where
  field : Nat := 0
  idx : Nat := 0
  rule : Rule := {}
  rates : List (Nat × W32 × W32) := []
  deriving DecidableEq, Repr

/-- A binding of a plan and the entries of its root job: (logical core, schedule entry) (R230). -/
structure PlanBinding where
  field : Nat := 0
  idx : Nat := 0
  b : Binding := {}
  job : List (Nat × Nat) := []
  deriving DecidableEq, Repr

/-- A watershed slot of a plan and the fields of the stacks its tiles lie on (R156). -/
structure PlanWs where
  field : Nat := 0
  slot : Nat := 0
  cfg : WsSlot := {}
  tileFields : List Nat := []
  deriving DecidableEq, Repr

/-- A member of a job (R248). -/
structure Member where
  addr : Nat := 0
  part : Nat := 0
  weight : Nat := 0
  designated : Bool := false
  deriving DecidableEq, Repr

/-- A range of blocks of one PARAM region: what a slot of the state area holds of a unit (R261). -/
structure UnitRange where
  field : Nat := 0
  region : Nat := 0
  first : Nat := 0
  count : Nat := 0
  deriving DecidableEq, Repr

/-- An intake entry (Table 8.13). -/
structure IntakeEntry where
  shard : W64 := 0
  remote : W64 := 0
  len : Nat := 0
  target : Nat := 0
  field : Nat := 0
  ofs : Nat := 0
  crc : W64 := 0
  deriving DecidableEq, Repr

/-- An intake list (Tables 8.12, 8.13). -/
structure Intake where
  entries : List IntakeEntry := []
  shards : Nat := 1
  slots : Nat := 2
  region : Nat := 0
  slotSize : Nat := 0
  deriving DecidableEq, Repr

/-- A staging area in a stack, in 64-byte units (R265). -/
structure StagingArea where
  field : Nat := 0
  base : Nat := 0
  units : Nat := 0
  deriving DecidableEq, Repr

/-- What a plan carries for one membership size (R246, R248, R261, R265): the schedule and regions, the blocks of each slot of the
state area, the staging areas and the intake list. -/
structure JobSize where
  size : Nat := 1
  base : Placement := {}
  slots : List UnitRange := []
  staging : List StagingArea := []
  intake : Option Intake := none
  deriving DecidableEq, Repr

/-- Section 0x0A: membership list, smallest membership, the number U of units, and what the plan carries for each size. -/
structure JobList where
  members : List Member := []
  dmin : Nat := 1
  units : Nat := 1
  sizes : List JobSize := []
  deriving DecidableEq, Repr

/-- Kinds of collective (Table 8.6a). -/
inductive CollKind where
  | reduceScatter | allGather | allReduce | broadcast | permute
  deriving DecidableEq, Repr

/-- A collective instance of a plan (R249): its COLL number, its kind, and the buffer of n elements that holds its result. -/
structure Collective where
  coll : Nat := 0
  kind : CollKind := .permute
  field : Nat := 0
  base : Nat := 0
  n : Nat := 0
  deriving DecidableEq, Repr

/-- The content of a plan, section by section (Table 12.12). `upe` gives SHARE and RED_ID of UPE_CTL by field: Table 12.12
names no section for them (DESIGN CHOICE, log 29). -/
structure Plan where
  period : Nat := 0
  mult : Nat := 1
  nodetour : Bool := false
  base : Placement := {}
  detours : List Detour := []
  levels : List Level := []
  rules : List PlanRule := []
  bindings : List PlanBinding := []
  ws : List PlanWs := []
  job : Option JobList := none
  clips : List (Nat × W32) := []
  upe : List (Nat × Nat × Nat) := []
  colls : List Collective := []
  intake : Option Intake := none
  hash : Nat := 0
  deriving DecidableEq, Repr

/-- A section directory entry (R396). -/
structure SecEntry where
  type : Nat
  rsv : Nat
  len : Nat
  ofs : Nat
  deriving DecidableEq, Repr

/-- A plan image as firmware reads it: the bytes of its header and directory (Table 12.11, R396), its SHA-384, and the
content of its sections. -/
structure PlanImage where
  head : List Byte
  sha : Nat
  plan : Plan
  deriving DecidableEq, Repr

/-- `n` bytes of a byte string from byte `ofs`, little-endian (R17). -/
def fieldLE (bs : List Byte) (ofs n : Nat) : Nat := natLE ((bs.drop ofs).take n)

def PlanImage.magic (i : PlanImage) : Nat := fieldLE i.head 0 4
def PlanImage.version (i : PlanImage) : Nat := fieldLE i.head 4 2
def PlanImage.nsec (i : PlanImage) : Nat := fieldLE i.head 6 2
def PlanImage.length (i : PlanImage) : Nat := fieldLE i.head 8 8
def PlanImage.period (i : PlanImage) : Nat := fieldLE i.head 16 2
def PlanImage.mult (i : PlanImage) : Nat := fieldLE i.head 18 1
def PlanImage.flags (i : PlanImage) : Nat := fieldLE i.head 19 1
def PlanImage.terraces (i : PlanImage) : BitVec 96 := BitVec.ofNat 96 (fieldLE i.head 20 12)

/-- Entry k of the directory, 16 bytes. -/
def PlanImage.entry (i : PlanImage) (k : Nat) : SecEntry :=
  let a := 64 + 16 * k
  { type := fieldLE i.head a 2, rsv := fieldLE i.head (a + 2) 2, len := fieldLE i.head (a + 4) 4, ofs := fieldLE i.head (a + 8) 8 }

def PlanImage.dir (i : PlanImage) : List SecEntry := (List.range i.nsec).map i.entry

/-- The plan that an image holds: the period, the multiple, NODETOUR and the base's terraces stand in its header. -/
def PlanImage.content (i : PlanImage) : Plan :=
  { i.plan with period := i.period, mult := i.mult, nodetour := i.flags % 2 = 1, base := { i.plan.base with terraces := i.terraces } }

/-- The header of a Jorlek packet (Table 12.5), with the agent it came from. -/
structure Pkt where
  agent : Fin 3
  magic : W16 := 0x4A4C#16
  version : Nat := 1
  rsv : Nat := 0
  opcode : W16
  flags : W16 := 0
  seq : W32
  part : Nat := 0xFF
  plen : Nat := 0
  data : W64 := 0
  dlen : W32 := 0
  deriving DecidableEq, Repr

/-- A reply (Table 12.6); `phase` and `replayed` are set as it is written. -/
structure Reply where
  agent : Fin 3
  seq : W32
  opcode : W16
  status : W16
  part : Nat := 0xFF
  phase : Bool := false
  replayed : Bool := false
  owner : Bool := false
  dataLen : Nat := 0
  result : W64 := 0
  at_ : Stamp := {}
  deriving DecidableEq, Repr

/-- The header of the packet in a byte string (Table 12.5); the reserved bytes 3, 13 and 28 to 31 stand in `rsv`. -/
def Pkt.ofBytes (a : Fin 3) (bs : List Byte) : Pkt :=
  { agent := a, magic := BitVec.ofNat 16 (fieldLE bs 0 2), version := fieldLE bs 2 1
    rsv := fieldLE bs 3 1 + 256 * fieldLE bs 13 1 + 65536 * fieldLE bs 28 4
    opcode := BitVec.ofNat 16 (fieldLE bs 4 2), flags := BitVec.ofNat 16 (fieldLE bs 6 2), seq := BitVec.ofNat 32 (fieldLE bs 8 4)
    part := fieldLE bs 12 1, plen := fieldLE bs 14 2, data := BitVec.ofNat 64 (fieldLE bs 16 8), dlen := BitVec.ofNat 32 (fieldLE bs 24 4) }

/-- The 32 bytes of a reply (Table 12.6). -/
def Reply.bytes (r : Reply) : List Byte :=
  bytesLE r.seq.toNat 4 ++ bytesLE r.opcode.toNat 2 ++ bytesLE r.status.toNat 2 ++ bytesLE r.part 1 ++ bytesLE r.agent.val 1 ++
    bytesLE ((if r.phase then 1 else 0) + (if r.replayed then 2 else 0) + (if r.owner then 4 else 0)) 1 ++ bytesLE 0 1 ++
    bytesLE r.dataLen 4 ++ bytesLE r.result.toNat 8 ++ bytesLE r.at_.tick.toNat 4 ++ bytesLE (r.at_.ofs % 2 ^ 26) 4

/-- A fabric packet that has arrived, or a flit's addressing (Table 8.2). -/
structure FabPkt where
  vc : Nat := 0
  dst : Nat := 0
  part : Nat := 0
  src : Nat := 0
  epoch : W16 := 0
  coll : W16 := 0
  tkind : Nat := 0
  field : Nat := 0
  core : Nat := 0
  addr : Nat := 0
  payload : List W32 := []
  deriving DecidableEq, Repr

/-- A flit on the mesh (R167): 128 bytes of a SEND, or the last flit of a message or of a VC1 packet, which then carries the
packet's whole content. `kind` is the destination kind of Table 6.9, 5 for VC1, or 6 and 7 for a packet
from the fabric to a stack and to a reduction entry; `tail` ends a packet, `last` the operation;
`at_` is the router that holds it, 768 once it has left the mesh, and `from_` the input port at which it is buffered; `to_` and
`oport` are the router and the port it is bound for; `outp` is the output port of a sum. -/
structure MeshPkt where
  src : Nat
  kind : Nat
  dst : Nat
  win : Nat := 0
  addr : Nat := 0
  vc : Nat := 3
  bytes : List Byte := []
  rsemEn : Bool := false
  rsem : Nat := 0
  id : Nat := 0
  len : Nat := 1
  tail : Bool := true
  last : Bool := true
  at_ : Nat := 768
  from_ : Nat := 0
  to_ : Nat := 0
  oport : Nat := 0
  outp : Option Nat := none
  fab : Option FabPkt := none
  deriving DecidableEq, Repr

/-- A fabric flit (Table 8.2): its bytes 0 to 251 in order and its CRC-32, and what the FEC found in the codewords that brought
it (R241): how many it corrected and how many it could not. -/
structure FabFlit where
  bytes : List Byte := []
  crc : W32 := 0
  corr : Nat := 0
  uncorr : Nat := 0
  deriving DecidableEq, Repr

/-- TYPE, bits [7:4] of byte 0: 0 data, 1 control; others are reserved. -/
def FabFlit.kind (f : FabFlit) : Nat := fieldLE f.bytes 0 1 / 16
def FabFlit.vc (f : FabFlit) : Nat := fieldLE f.bytes 0 1 % 8
/-- CTYPE of a control flit. -/
def FabFlit.ctype (f : FabFlit) : Nat := fieldLE f.bytes 1 1 / 16
def FabFlit.eop (f : FabFlit) : Bool := (fieldLE f.bytes 1 1).testBit 6
def FabFlit.seq (f : FabFlit) : BitVec 12 := BitVec.ofNat 12 (fieldLE f.bytes 2 2)
def FabFlit.nak (f : FabFlit) : Bool := (fieldLE f.bytes 4 2).testBit 15
def FabFlit.ack (f : FabFlit) : BitVec 12 := BitVec.ofNat 12 (fieldLE f.bytes 4 2)

/-- The six credit counts of a control flit, bytes 8 to 19. -/
def FabFlit.counts (f : FabFlit) : List Nat := (List.range 6).map (fun i => fieldLE f.bytes (8 + 2 * i) 2)

/-- The credits that a data flit returns: CREDIT flits on channel CVC. -/
def FabFlit.credits (f : FabFlit) : List Nat :=
  (List.range 6).map (fun i => if i = fieldLE f.bytes 6 2 / 2 ^ 13 then fieldLE f.bytes 6 2 % 2 ^ 13 else 0)

/-- The valid payload: NVAL values from byte 28. -/
def FabFlit.payload (f : FabFlit) : List W32 :=
  (List.range (fieldLE f.bytes 1 1 % 64)).map (fun i => BitVec.ofNat 32 (fieldLE f.bytes (28 + 4 * i) 4))

/-- The fields of an INIT flit (R237, bytes 20 to 31): address, port index, version, module ID, in the order in which R237 names
them (DEDUCED, log 79: their twelve bytes fill the field). -/
def FabFlit.initAddr (f : FabFlit) : Nat := fieldLE f.bytes 20 2 % 4096
def FabFlit.initPort (f : FabFlit) : Nat := fieldLE f.bytes 22 1
def FabFlit.initVersion (f : FabFlit) : Nat := fieldLE f.bytes 23 1

/-- The packet that flits carry: the addressing of its first flit, the SOP, and the payload of all. -/
def FabPkt.ofFlits (l : List FabFlit) : FabPkt :=
  let b := (l.headD {}).bytes
  let w := fieldLE b 16 8
  { vc := (l.headD {}).vc, dst := fieldLE b 8 2 % 4096, part := fieldLE b 10 2 / 4096, src := fieldLE b 10 2 % 4096
    epoch := BitVec.ofNat 16 (fieldLE b 12 2), coll := BitVec.ofNat 16 (fieldLE b 14 2), tkind := w / 2 ^ 56, field := w / 2 ^ 50 % 64
    core := w / 2 ^ 44 % 64, addr := w % 2 ^ 44, payload := l.flatMap FabFlit.payload }

/-- The content of a trim copy (R366): the Fused sites, the repair map of the mesh links (R170: router, port, faulty wires of
the worst wire group) and the options. -/
structure Trim where
  fused : List Nat := []
  wires : List (Nat × Nat × Nat) := []
  startMarch : Bool := false
  refSel : Nat := 0
  deriving DecidableEq, Repr

/-- A firmware image (Table 13.4): the fields of the header, the key it carries, its signature and its body. -/
structure FwImage where
  magic : W32 := 0
  version : W64 := 0
  svn : Nat := 0
  keyIx : Nat := 0
  bodyLen : Nat := 0
  bodyHash : Nat := 0
  header : List Byte := []
  keyX : Nat := 0
  keyY : Nat := 0
  sigR : Nat := 0
  sigS : Nat := 0
  body : List Byte := []
  deriving DecidableEq, Repr

end Sys2Proof.Machine
end

