-- ==== Sys2Proof/Machine/ModuleState.lean ====
section
/-! DEFINITION. The state of the module outside its fields: tick unit and cols, partitions and their recovery, fabric,
power, clocks and reset, host ports and firmware, security (chapters 06 and 08 to 13). -/

namespace Sys2Proof.Machine

open Sys2Proof

/-- The tick generator and its registers (R183 to R185, R197). -/
structure TickGen where
  running : Bool := false
  period : Nat := 0
  nextPeriod : Option Nat := none
  refused : Bool := false
  tick : BitVec 48 := 0
  ofs : Nat := 0
  cyc : W64 := 0
  tickHi : W16 := 0
  tickOfs : Nat := 0
  cycHi : W32 := 0
  hops : Nat := 0
  cross : Nat := 0
  bound : Nat := 0
  routesFor : List Nat := []
  lost : Bool := false
  lostField : Nat := 0
  routed : Bool := false
  detourDraw : Option Nat := none
  deriving DecidableEq, Repr

inductive ColSt where
  | idle | armed | done | doneLate | expired
  deriving DecidableEq, Repr

/-- A col in the col unit (R190, R198); `rearm` is the re-arm edge E of R194. -/
structure Col where
  en : Bool := false
  part : Nat := 0
  target : Nat := 0
  st : ColSt := .idle
  count : Nat := 0
  dl : Option Stamp := none
  mismatch : Bool := false
  excess : Bool := false
  rearm : Option (BitVec 48) := none
  deriving DecidableEq, Repr

/-- An ARRIVE flit on its way to the col unit (R175, R191): `router` is the router that queues it, at input port `from_`, 768
for the col unit's own side of the Vale link; `dl` is the deadline word it carries. -/
structure Arrival where
  col : Nat
  count : Nat
  dl : Option W64 := none
  router : Nat := 0
  from_ : Nat := 0
  deriving DecidableEq, Repr

/-- A resolution flit and the cores it has still to reach (R194). -/
structure ResFlit where
  col : Nat
  status : ColShow
  edge : BitVec 48
  todo : List Nat
  deriving DecidableEq, Repr

/-- Why a partition is held (R30, R264, R283, R300, R343, R398). -/
inductive HoldWhy where
  | input | snapshot | reshard | arbitration | envelope | stop
  deriving DecidableEq, Repr

/-- A unit lost to a partition (R278, Table 9.4). -/
inductive Loss where
  | none
  | core (site : Nat)
  | terrace (t : Nat)
  | field (f : Nat)
  | member (addr : Nat)
  deriving DecidableEq, Repr

/-- What a fault report names (Tables 3.11, 6.7, 7.11, 7.12, 8.6 and the events of Table 9.2). -/
inductive FaultWhat where
  | core (kind : BitVec 8) (site : Nat)
  | colFault (col : Nat)
  | reduction (id : Nat)
  | engine (kind : Nat) (field : Nat)
  | fabric (kind : Nat) (port : Nat)
  | meshLink (field : Nat) (quad : Nat)
  | tickLost (field : Nat)
  | lost
  | alarm
  deriving DecidableEq, Repr

/-- A fault of a partition as reported to firmware (R277, R278). -/
structure FaultReport where
  part : Nat
  what : FaultWhat
  loss : Loss := .none
  addr : Nat := 0
  deriving DecidableEq, Repr

/-- A region as a snapshot holds it: handle, shape and the bytes of its areas (R280, R282). -/
structure GenRegion where
  handle : W32 := 0
  kind : Nat := 1
  len : Nat := 0
  efmt : Nat := 0
  sfmt : Nat := 0
  master : Bool := false
  nslot : Nat := 0
  sbf16 : Nat := 0
  areas : List (Tab Byte) := []
  deriving DecidableEq, Repr

/-- The partition state record of a snapshot (R280). -/
structure PartRec where
  step : W64 := 0
  seed : W64 := 0
  epoch : W16 := 0
  members : List Member := []
  powers : List (Nat × Nat × Vector W32 4) := []
  rates : List (Nat × Nat × W32 × W32) := []
  ws : List (Nat × Nat × WsSlot) := []
  bindings : List (Nat × Nat × Bool × Bool) := []
  intakePos : Nat := 0
  detour : Nat × Nat := (0, 0)
  deriving DecidableEq, Repr

/-- A snapshot generation and the places that hold a copy of it (R285, R288, R289). -/
structure Gen where
  id : W64 := 0
  confirmed : Bool := false
  jobValid : Bool := false
  near : Bool := false
  shelf : Bool := false
  store : Bool := false
  own : Bool := false
  regions : List GenRegion := []
  rec_ : PartRec := {}
  deriving DecidableEq, Repr

/-- SNAP_POLICY's parameters (R312). -/
structure SnapPolicy where
  mode : Nat := 0
  k : Nat := 1
  m0 : Nat := 1
  n : Nat := 1
  nMax : Nat := 1
  rate : Nat := 0
  target : Nat := 0xFF
  storeEvery : Nat := 1
  deriving DecidableEq, Repr

inductive SnapPhase where
  | idle | held | copying | confirming | restoring
  deriving DecidableEq, Repr

/-- A retrace record (Table 9.8). -/
structure Retrace where
  step : W64 := 0
  snapId : W64 := 0
  seed : W64 := 0
  hash : Nat := 0
  detour : Nat × Nat := (0, 0)
  siteMap : List (Nat × Nat) := []
  epoch : W16 := 0
  memberGen : Nat := 0
  shards : List W64 := []
  firstTick : BitVec 48 := 0
  ticks : Nat := 0
  deriving DecidableEq, Repr

/-- A recovery in progress (R278, R293). -/
structure Recovery where
  active : Bool := false
  reports : List FaultReport := []
  losses : List Loss := []
  path : Nat := 0
  source : Nat := 0
  startCyc : W64 := 0
  march : List Nat := []
  spares : List (Nat × Nat) := []
  gen : Option W64 := none
  detour : Option (Nat × Nat) := none
  ready : Bool := false
  deriving DecidableEq, Repr

/-- A retrace under way in its target (R310): what stood loaded there before, the generation restored, the source, and the first
tick of every step replayed. -/
structure Replay where
  plan : Option Plan := none
  detour : Nat × Nat := (0, 0)
  level : Nat := 0
  remap : List (Nat × Nat) := []
  members : List Member := []
  gen : W64 := 0
  src : Nat := 0
  last : W64 := 0
  begun : List (W64 × BitVec 48) := []
  deriving DecidableEq, Repr

/-- A past fault of the partition, for the rows of Table 9.2 that act on a second occurrence. -/
structure PastFault where
  what : FaultWhat
  addr : Nat := 0
  step : W64 := 0
  deriving DecidableEq, Repr

/-- A pending policy change, snapshot request and the recovery registers of a partition (R312, R313, R317). -/
structure SnapState where
  policy : SnapPolicy := {}
  nextPolicy : Option SnapPolicy := none
  phase : SnapPhase := .idle
  wanted : Bool := false
  nowIn : Bool := false
  rebaseIn : Bool := false
  confirms : List (W64 × Nat) := []
  announced : Option W64 := none
  since : Nat := 0
  ivl : Nat := 0
  mtbfMs : Nat := 0
  stepCyc : List Nat := []
  runCyc : W64 := 0
  lastRecCyc : W64 := 0
  beganCyc : W64 := 0
  rebase : Bool := false
  stopMs : Nat := 0
  rateB : Nat := 0
  size : Nat := 0
  gens : List Gen := []
  taking : Option Gen := none
  ownFlash : Bool := false
  rcvValid : Bool := false
  rcvPath : Nat := 0
  rcvSource : Nat := 0
  rcvMs : Nat := 0
  rcvCount : W32 := 0
  deriving DecidableEq, Repr

/-- The re-shard of a partition (Table 8.8). -/
structure Reshard where
  stage : Nat := 0
  newList : List Member := []
  fences : List (Nat × Nat) := []
  arrived : List (Nat × Nat) := []
  expected : List Nat := []
  doneFrom : List Nat := []
  oldList : List Member := []
  sentFence : Bool := false
  advanceAt : Bool := false
  deriving DecidableEq, Repr

/-- A step that has begun and not committed: its number, the tick and the cycle of its first tick edge (R28). -/
structure Begun where
  step : W64 := 0
  tick : BitVec 48 := 0
  cyc : W64 := 0
  deriving DecidableEq, Repr

/-- The intake of a partition (R246, R247). -/
structure IntakeSt where
  pos : Nat := 0
  stalled : Bool := false
  crcBad : Bool := false
  entry : Nat := 0
  landed : List (W64 × Nat) := []
  fetching : List (W64 × Nat × Nat) := []
  deriving DecidableEq, Repr

/-- A partition (R256). -/
structure Part where
  on : Bool := false
  diag : Bool := false
  terraces : BitVec 96 := 0
  ports : BitVec 28 := 0
  plan : Option Plan := none
  started : Bool := false
  fresh : Bool := true
  startAt : Option (BitVec 48) := none
  stopAt : Option (BitVec 48) := none
  stopAtCommit : Bool := false
  edgeIn : Nat := 0
  seed : W64 := 0
  step : W64 := 0
  nextStep : W64 := 0
  committed : Option W64 := none
  stepOpen : Bool := false
  begun : List Begun := []
  hold : List HoldWhy := []
  lift : List HoldWhy := []
  enginesDone : List Nat := []
  digestBad : Bool := false
  checkSites : List Nat := []
  arb : List (Nat × Nat) := []
  rollBack : Bool := false
  suspects : List (Nat × W64) := []
  detour : Nat × Nat := (0, 0)
  level : Nat := 0
  nextLevel : Option Nat := none
  remap : List (Nat × Nat) := []
  epoch : W16 := 0
  resharding : Bool := false
  rs : Reshard := {}
  members : List Member := []
  joins : List Member := []
  rejoin : List Member := []
  memberGen : Nat := 0
  digests : List (Nat × W64) := []
  contribs : List ((Nat × Nat × W16) × W64) := []
  ready : List Nat := []
  restartWanted : Bool := false
  quorumLost : Bool := false
  stopStatus : W16 := 0
  retraces : List Retrace := []
  replay : Option Replay := none
  past : List PastFault := []
  snap : SnapState := {}
  rcv : Recovery := {}
  intake : IntakeSt := {}
  deriving DecidableEq, Repr

inductive FabSt where
  | down | training | init | up | failed
  deriving DecidableEq, Repr

/-- An RDMA READ, or an RDMA WRITE of a generation to the store, on an Ethernet-mode port (R243, R247, R288): the storage target,
its address, the length, the packets of the path MTU in which the data cross, the generation, and the rate limit in 100 MB/s. -/
structure RoceOp where
  target : Nat
  addr : W64 := 0
  len : Nat := 0
  packets : Nat := 0
  store : Option (Nat × W64) := none
  rate : Nat := 0
  deriving DecidableEq, Repr

/-- A fabric port (R235 to R241, R270, R275). `rxb` holds the receive buffers in the order of arrival, `ret` the flits of buffer
to return; `ethRate` is the Ethernet rate in GB/s. -/
structure FabPort where
  en : Bool := false
  eth : Bool := false
  st : FabSt := .down
  hbLost : Bool := false
  memberDown : Bool := false
  peer : Nat := 0
  peerPort : Nat := 0
  crc : W32 := 0
  replay : W32 := 0
  fecCorr : W32 := 0
  fecUncorr : W32 := 0
  downs : W32 := 0
  txSeq : BitVec 12 := 0
  txAck : BitVec 12 := 0
  buffer : List FabFlit := []
  txq : List FabFlit := []
  rxb : List FabFlit := []
  ret : Vector Nat 6 := Vector.replicate 6 0
  ackDue : Bool := false
  slots : Vector Nat 6 := Vector.replicate 6 0
  rxExp : BitVec 12 := 0
  nakSent : Bool := false
  nakSeq : Option (BitVec 12) := none
  nakRun : Nat := 0
  credit : Vector Nat 6 := Vector.replicate 6 0
  lastHb : W64 := 0
  lowPower : Bool := true
  present : Bool := false
  powerClass : Nat := 0
  link : DomSt := .off
  linkFail : BitVec 8 := 0
  ethRate : Nat := 100
  pfcPaused : Bool := false
  roceq : List RoceOp := []
  deriving DecidableEq, Repr

structure FabFaultBody where
  part : Nat := 0
  port : Nat := 0
  kind : Nat := 0
  src : Nat := 0
  epoch : W16 := 0
  coll : W16 := 0
  at_ : Stamp := {}
  deriving DecidableEq, Repr

/-- The lower kind code (R275). -/
def FabFaultBody.lower (a b : FabFaultBody) : Bool := a.kind < b.kind

/-- A storage target (Table 8.5). -/
structure StoreTarget where
  ip : Nat := 0
  qp : Nat := 0
  rkey : Nat := 0
  port : Nat := 0xFF
  deriving DecidableEq, Repr

/-- A slot of a near copy that this module holds for another (R285 to R288). -/
structure HeldSlot where
  part : Nat := 0
  id : W64 := 0
  valid : Bool := false
  shelf : Bool := false
  size : Nat := 0
  pol : SnapPolicy := {}
  regions : List GenRegion := []
  deriving DecidableEq, Repr

/-- The shelf of this module as a holder (R288). -/
structure Shelf where
  writing : Option (Nat × W64) := none
  waiting : List (Nat × W64) := []
  complete : List (Nat × W64) := []
  count : Tab Nat := []
  stored : List (Nat × W64) := []
  deriving DecidableEq, Repr

/-- The fabric of the module (R242 to R244, R267 to R275). -/
structure Fab where
  addr : Nat := 0xFFF
  hb : Nat := 20
  mac : Nat := 0
  ip : Nat := 0
  pfcEn : Bool := false
  pfcPri : Nat := 0
  dscp : Nat := 0
  targets : Vector StoreTarget 16 := Vector.replicate 16 {}
  feedId : Nat := 0xFF
  holderFeed : Nat := 0
  unprotected : Bool := false
  cofed : Bool := false
  forced : Bool := false
  holder : Nat := 0xFFF
  reserve : Nat := 0
  held : Nat := 0xFFF
  ports : Vector FabPort 28 := Vector.replicate 28 {}
  fault : FirstRec FabFaultBody := { body := {} }
  view : List (Nat × Nat × Nat × Nat) := []
  fwd : Tab Nat := []
  viewAt : W64 := 0
  slots : List HeldSlot := []
  shelf : Shelf := {}
  room : Option Nat := none
  deriving DecidableEq, Repr

/-- An envelope in force or being carried out (R342 to R344). -/
structure Envelope where
  bound : Nat := 30000
  level : Nat := 0
  point : Nat := 0
  pending : Bool := false
  forced : Bool := false
  tLevel : Nat := 0
  tPoint : Nat := 0
  deadline : W64 := 0
  deriving DecidableEq, Repr

/-- Module-wide power (R335 to R350). -/
structure Pwr where
  vbus : Nat := 0
  ibus : Nat := 0
  pairA : Nat := 0
  pairB : Nat := 0
  holdupOk : Bool := false
  vbank : Nat := 0
  cap : Nat := 0
  alarm : BitVec 9 := 0
  mask : BitVec 9 := 0
  warn : Nat := 95
  hot : Nat := 105
  droop : Nat := 25
  stkWarn : Nat := 85
  stkHot : Nat := 95
  sagShort : W32 := 0
  sagging : Bool := false
  inV : Vmin := {}
  env : Envelope := {}
  vddMv : Nat := 700
  vddTarget : Nat := 700
  pwrGood : Bool := false
  paced : List (W64 × Nat) := []
  valeTemp : List Nat := []
  linkTemp : Vector Nat 10 := Vector.replicate 10 0
  deriving DecidableEq, Repr

/-- RCK_DIV (R357, R358, R372). -/
structure Divider where
  current : Nat := 32
  target : Nat := 32
  phase : Nat := 0
  bad : Bool := false
  deriving DecidableEq, Repr

/-- The reset and clock block (R352 to R372); STAGE codes of Table 11.5. -/
structure Rck where
  refSel : Nat := 0
  refLost : Bool := false
  unchecked : Bool := false
  active : Nat := 0
  oscRun : Bool := false
  a3 : Bool := false
  h4 : Bool := false
  stable : Bool := false
  judgedBad : List Nat := []
  valePll : Bool := false
  causeStage : Nat := 0
  cause : Nat := 1
  trimValid : Bool := false
  trimFault : Bool := false
  aBad : Bool := false
  bBad : Bool := false
  copy : Nat := 0
  loadingB : Bool := false
  startMarch : Bool := false
  wires : List (Nat × Nat × Nat) := []
  ready : Bool := false
  failed : Bool := false
  lost : Nat := 0
  stage : Nat := 0
  held : Option Nat := none
  coldWanted : Bool := true
  fmcSel : Nat := 0
  fmcPort : Nat := 0
  fmcGate : Nat := 100000
  fmcDone : Bool := false
  fmcRunning : Bool := false
  fmcNoclk : Bool := false
  fmcCount : W32 := 0
  wdog : W64 := 0
  warmAt : Bool := false
  wdogStage : Nat := 0
  deriving DecidableEq, Repr

/-- A host port's ring and link (R373, R385 to R388, R405). -/
structure Ring where
  link : Bool := false
  en : Bool := false
  poll : Nat := 2
  size : Nat := 4
  sq : W64 := 0
  cq : W64 := 0
  seqw : W64 := 0
  startSeq : W32 := 0
  overrun : Bool := false
  fetchErr : Bool := false
  last : W32 := 0
  entry : Nat := 0
  phase : Bool := true
  pcie : DomSt := .off
  linkFail : BitVec 8 := 0
  inReset : Bool := false
  deriving DecidableEq, Repr

/-- A fetched packet awaiting execution and whether its issuer was owner at fetch (R384, R391). -/
structure Fetched where
  pkt : Pkt
  owner : Bool := false
  deriving DecidableEq, Repr

/-- The counters of a core as a TELEMETRY window latches them at its start (R400). -/
structure TeleLatch where
  idle : List W64 := []
  run : W64 := 0
  events : W32 := 0
  skips : W32 := 0
  blocks : W64 := 0
  deriving DecidableEq, Repr

/-- A TELEMETRY window in flight (R400) with the latches of its two edges. -/
structure TeleWin where
  part : Nat := 0xFF
  mask : Nat := 0
  start : BitVec 48 := 0
  len : Nat := 0
  opened : Bool := false
  partial_ : Bool := false
  cores : Tab TeleLatch := []
  fab : List (W32 × W32) := []
  closed : Bool := false
  endCores : Tab TeleLatch := []
  endFab : List (W32 × W32) := []
  deriving DecidableEq, Repr

/-- What a long command in flight is doing. -/
inductive LongKind where
  | claim (priority : Nat)
  | planStart (p : Nat)
  | planStop (p : Nat)
  | snapNow (p : Nat)
  | partner (holder reserve : Nat) (force : Bool)
  | recover (p : Nat)
  | retest (t : Nat) (bad laneOk : List Nat)
  | rebase (p : Nat)
  | retrace (t : Nat) (src : Nat) (step : W64)
  | envelope
  | terraces (mask : BitVec 96) (light : Bool) (status : W16)
  | probe (p : Nat) (fields : BitVec 48) (retire : Bool) (seed : W64)
  | march (site : Nat)
  | fwStage (slotB : Bool) (revert : Bool)
  | fwSwitch
  | lifecycle (target : Nat)
  | telemetry (w : TeleWin)
  | fabConfig
  deriving DecidableEq, Repr

structure Long where
  f : Fetched
  kind : LongKind
  deriving DecidableEq, Repr

/-- The owner, the rings, the apertures and the management interface (R379 to R388, R403 to R405). -/
structure HostIf where
  owner : Nat := 3
  changes : BitVec 8 := 0
  priority : Nat := 0
  claimOpen : Bool := false
  hbExpired : Bool := false
  hbDeadline : W64 := 0
  timeout : Nat := 1000
  ring : Vector Ring 2 := Vector.replicate 2 {}
  ap : Vector W64 64 := Vector.replicate 64 0
  dynAddr : Option Nat := none
  mtu : Nat := 64
  deriving DecidableEq, Repr

/-- A core of a recorded probe or retrace comparison (R307, R310, R317). -/
structure ResultRegs where
  rtrDone : Bool := false
  rtrResult : Nat := 0
  rtrN : Nat := 0
  rtrTick : Nat := 0
  rtrStep : W32 := 0
  rtrSite : Nat := 0
  rtrLogical : Nat := 0
  prbDone : Bool := false
  prbMismatch : Bool := false
  prbSites : List Nat := []
  deriving DecidableEq, Repr

/-- One partition tick of the digest log (R305). -/
structure LogTick where
  part : Nat := 0
  tick : BitVec 48 := 0
  digests : List (Nat × W64) := []
  deriving DecidableEq, Repr

/-- Firmware: packets, long commands, stored replies, fault reports, the digest log (chapters 09 and 12). -/
structure Fw where
  inbox : List Fetched := []
  flight : List Long := []
  expSeq : Vector (Option W32) 3 := Vector.replicate 3 none
  stored : Vector (List Reply) 3 := Vector.replicate 3 []
  reports : List FaultReport := []
  log : List LogTick := []
  regs : ResultRegs := {}
  nonce : Option Nat := none
  deriving DecidableEq, Repr

/-- A firmware slot (R410, R413). -/
structure FwSlot where
  ok : Bool := false
  version : W64 := 0
  svn : Nat := 0
  sha : Nat := 0
  deriving DecidableEq, Repr

structure AlarmBody where
  level : Nat := 0
  source : Nat := 0
  at_ : Stamp := {}
  deriving DecidableEq, Repr

/-- Alarms sampled in one cycle act at the highest level among them, and the record takes the lowest source code (R419). -/
def AlarmBody.lower (a b : AlarmBody) : Bool := a.source < b.source

/-- What manufacture writes into OTP: the module ID (R237, R407) and the hashes of Fyong's firmware keys 0 and 1 and of its
manufacturing key (Table 13.3). -/
structure Ident where
  moduleId : W64 := 0
  fwKeys : Vector Nat 2 := Vector.replicate 2 0
  mfgKey : Nat := 0
  deriving DecidableEq, Repr

/-- Identity, life cycle, control cores and alarms (chapter 13). -/
structure Sec where
  ident : Ident := {}
  otp : List (Nat × Bool) := []
  idKey : Bool := false
  idErased : Bool := false
  ownerKey : Nat := 0
  revoke : BitVec 2 := 0
  minSvn : Nat := 0
  slotA : FwSlot := {}
  slotB : FwSlot := {}
  factory : FwSlot := { ok := true }
  activeB : Bool := false
  standbyB : Bool := false
  standbyStaged : Bool := false
  recovery : Bool := false
  coresOk : BitVec 4 := 0
  noStandby : Bool := false
  standby : Nat := 0
  active : Nat := 0
  debugOpen : Bool := false
  cfg : BitVec 8 := 0xAB#8
  cfgLock : BitVec 4 := 0
  halt : Bool := false
  erasePending : Bool := false
  src : BitVec 4 := 0
  record : FirstRec AlarmBody := { body := {} }
  mediaKey : Nat := 0
  lcTarget : Option (Nat × Nat) := none
  keyDraw : Option Nat := none
  spdm : Vector Nat 3 := Vector.replicate 3 0
  deriving DecidableEq, Repr

end Sys2Proof.Machine
end

