-- ==== Sys2Proof/Syntax.lean ====
section
/-! DEFINITION. The commands of the module: one constructor per row of spec/opcode_table.json, each with the operands its
rule gives it. The instruction rows carry the fields of Table 3.4, reserved bits included. -/

namespace Sys2Proof

open Sys2Proof.Machine

/-- Class 0x0 fields (Table 3.4). -/
structure ScalarF where
  sd : BitVec 5 := 0
  sa : BitVec 5 := 0
  sb : BitVec 5 := 0
  rsv : BitVec 5 := 0
  imm : W32 := 0
  deriving DecidableEq, Repr

/-- Class 0x1 fields. -/
structure BranchF where
  sa : BitVec 5 := 0
  cond : BitVec 4 := 0
  level : BitVec 2 := 0
  rsv : BitVec 9 := 0
  ofs : W32 := 0
  deriving DecidableEq, Repr

/-- Class 0x2 to 0x5 fields. -/
structure VecF where
  mask : BitVec 3 := 0
  zm : BitVec 1 := 0
  rnd : BitVec 2 := 0
  vd : BitVec 5 := 0
  va : BitVec 5 := 0
  vb : BitVec 5 := 0
  vc : BitVec 5 := 0
  fmt : BitVec 4 := 0
  rsv : BitVec 6 := 0
  imm : W16 := 0
  deriving DecidableEq, Repr

/-- Class 0x6 fields. -/
structure ArrF where
  group : BitVec 3 := 0
  afmt : BitVec 4 := 0
  wfmt : BitVec 4 := 0
  fuse : BitVec 2 := 0
  first : BitVec 11 := 0
  n : BitVec 11 := 0
  win : BitVec 4 := 0
  sa : BitVec 5 := 0
  rsv : BitVec 8 := 0
  deriving DecidableEq, Repr

/-- Class 0x7 fields (Table 7.5). -/
structure DmaF where
  sa : BitVec 5 := 0
  sb : BitVec 5 := 0
  sc : BitVec 5 := 0
  sem : BitVec 6 := 0
  win : BitVec 4 := 0
  w : BitVec 1 := 0
  xp : BitVec 3 := 0
  fmt : BitVec 4 := 0
  gmode : BitVec 1 := 0
  rsv : BitVec 18 := 0
  deriving DecidableEq, Repr

/-- Class 0x8 fields (R181). -/
structure NetF where
  sa : BitVec 5 := 0
  sb : BitVec 5 := 0
  sc : BitVec 5 := 0
  sem : BitVec 6 := 0
  win : BitVec 4 := 0
  w : BitVec 1 := 0
  vc : BitVec 3 := 0
  rid : BitVec 10 := 0
  rsv : BitVec 13 := 0
  deriving DecidableEq, Repr

/-- Class 0x9 fields. -/
structure SyncF where
  cause : BitVec 3 := 0
  sem : BitVec 6 := 0
  col : BitVec 13 := 0
  sa : BitVec 5 := 0
  rsv : BitVec 9 := 0
  imm : W16 := 0
  deriving DecidableEq, Repr

/-- A minimum-voltage record of R322 (Table 10.9). -/
inductive VminIx where
  | input
  | terVdd (t : TerIx)
  | terVcs (t : TerIx)
  | transit (f : FieldIx)
  deriving DecidableEq, Repr

/-- A temperature sensor of Table 10.5. -/
inductive Sensor where
  | terrace (t : TerIx) (quad : Fin 8)
  | transit (f : FieldIx) (i : Nat)
  | stack (f : FieldIx)
  | terConv (t : TerIx)
  | fieldConv (f : FieldIx)
  | linkConv (i : Fin 10)
  | vale (i : Fin 2)
  deriving DecidableEq, Repr

/-- A regulator phase of Tables 10.2 and 10.4. -/
inductive PhaseIx where
  | terVdd (t : TerIx) (i : Fin 48)
  | terVcs (t : TerIx) (i : Fin 6)
  | trn (f : FieldIx) (i : Fin 12)
  | mifVdd (f : FieldIx) (i : Fin 4)
  | mifVmif (f : FieldIx) (i : Fin 4)
  | link (p : PortIx) (i : Fin 8)
  | pcie (p : Fin 2) (i : Fin 8)
  deriving DecidableEq, Repr

/-- Where a gradient write comes from (R218, R219). -/
inductive GradSrc where
  | core (site : Site)
  | tree
  | fabric (port : PortIx) (src : Nat) (epoch : W16)
  deriving DecidableEq, Repr

/-- What a cold bring-up stage found (Tables 11.5, 11.6): fields that failed, the phases that failed, the control cores
that passed their self-test, the firmware slots as read, and what HOLDUP_OK and the Vale PLL show. -/
structure StageInfo where
  badFields : List FieldIx := []
  badPhases : List PhaseIx := []
  badSites : List Site := []
  coresOk : BitVec 4 := 0xF
  slotA : FwImage := {}
  slotB : FwImage := {}
  factoryOk : Bool := true
  valeLocked : Bool := true
  holdupOk : Bool := true
  capMf : Nat := 600
  disagree : List FieldIx := []
  deriving DecidableEq, Repr

/-- Kinds of frame on an Ethernet-mode port (R243, Table 8.4). -/
inductive EthKind where
  | arp
  | neighbour
  | roceRequest
  | ecnMarked
  | pfc (priority : Nat) (pause : Bool)
  | other
  deriving DecidableEq, Repr

/-- A host transfer that completes (R393, R386): which buffer it was for. -/
inductive HostDma where
  | seqWord
  | packet
  | buffer (seq : W32)
  | image (seq : W32)
  deriving DecidableEq, Repr

inductive Instr where
  /-- ADD -/
  | add (site : Site) (f : ScalarF)
  /-- SUB -/
  | sub (site : Site) (f : ScalarF)
  /-- AND -/
  | and (site : Site) (f : ScalarF)
  /-- OR -/
  | or (site : Site) (f : ScalarF)
  /-- XOR -/
  | xor (site : Site) (f : ScalarF)
  /-- SHL -/
  | shl (site : Site) (f : ScalarF)
  /-- SHR -/
  | shr (site : Site) (f : ScalarF)
  /-- SAR -/
  | sar (site : Site) (f : ScalarF)
  /-- MUL -/
  | mul (site : Site) (f : ScalarF)
  /-- SLT -/
  | slt (site : Site) (f : ScalarF)
  /-- SLTU -/
  | sltu (site : Site) (f : ScalarF)
  /-- LDI -/
  | ldi (site : Site) (f : ScalarF)
  /-- LDIH -/
  | ldih (site : Site) (f : ScalarF)
  /-- ADDI -/
  | addi (site : Site) (f : ScalarF)
  /-- LD -/
  | ld (site : Site) (f : ScalarF)
  /-- ST -/
  | st (site : Site) (f : ScalarF)
  /-- SRD -/
  | srd (site : Site) (f : ScalarF)
  /-- CTLW -/
  | ctlw (site : Site) (f : ScalarF)
  /-- BR -/
  | br (site : Site) (f : BranchF)
  /-- LOOP -/
  | loop (site : Site) (f : BranchF)
  /-- VADD -/
  | vadd (site : Site) (f : VecF)
  /-- VSUB -/
  | vsub (site : Site) (f : VecF)
  /-- VADDS -/
  | vadds (site : Site) (f : VecF)
  /-- VSUBS -/
  | vsubs (site : Site) (f : VecF)
  /-- VADDU -/
  | vaddu (site : Site) (f : VecF)
  /-- VSUBU -/
  | vsubu (site : Site) (f : VecF)
  /-- VAND -/
  | vand (site : Site) (f : VecF)
  /-- VOR -/
  | vor (site : Site) (f : VecF)
  /-- VXOR -/
  | vxor (site : Site) (f : VecF)
  /-- VANDN -/
  | vandn (site : Site) (f : VecF)
  /-- VSHL -/
  | vshl (site : Site) (f : VecF)
  /-- VSHR -/
  | vshr (site : Site) (f : VecF)
  /-- VSAR -/
  | vsar (site : Site) (f : VecF)
  /-- VSHLI -/
  | vshli (site : Site) (f : VecF)
  /-- VSHRI -/
  | vshri (site : Site) (f : VecF)
  /-- VSARI -/
  | vsari (site : Site) (f : VecF)
  /-- VCMPEQ -/
  | vcmpeq (site : Site) (f : VecF)
  /-- VCMPLT -/
  | vcmplt (site : Site) (f : VecF)
  /-- VCMPLTU -/
  | vcmpltu (site : Site) (f : VecF)
  /-- VSEL -/
  | vsel (site : Site) (f : VecF)
  /-- VMOV -/
  | vmov (site : Site) (f : VecF)
  /-- VBCAST -/
  | vbcast (site : Site) (f : VecF)
  /-- VLD -/
  | vld (site : Site) (f : VecF)
  /-- VST -/
  | vst (site : Site) (f : VecF)
  /-- FADD -/
  | fadd (site : Site) (f : VecF)
  /-- FSUB -/
  | fsub (site : Site) (f : VecF)
  /-- FMUL -/
  | fmul (site : Site) (f : VecF)
  /-- FFMA -/
  | ffma (site : Site) (f : VecF)
  /-- FMAX -/
  | fmax (site : Site) (f : VecF)
  /-- FMIN -/
  | fmin (site : Site) (f : VecF)
  /-- FCMPEQ -/
  | fcmpeq (site : Site) (f : VecF)
  /-- FCMPLT -/
  | fcmplt (site : Site) (f : VecF)
  /-- FCMPLE -/
  | fcmple (site : Site) (f : VecF)
  /-- FCMPUN -/
  | fcmpun (site : Site) (f : VecF)
  /-- VEXP2 -/
  | vexp2 (site : Site) (f : VecF)
  /-- VRSQRT -/
  | vrsqrt (site : Site) (f : VecF)
  /-- VCVT_TOMX -/
  | vcvtTomx (site : Site) (f : VecF)
  /-- VCVT_FROMMX -/
  | vcvtFrommx (site : Site) (f : VecF)
  /-- VCVT_TOBF16 -/
  | vcvtTobf16 (site : Site) (f : VecF)
  /-- VCVT_FROMBF16 -/
  | vcvtFrombf16 (site : Site) (f : VecF)
  /-- VRSUM -/
  | vrsum (site : Site) (f : VecF)
  /-- VRMAX -/
  | vrmax (site : Site) (f : VecF)
  /-- MSETN -/
  | msetn (site : Site) (f : VecF)
  /-- MAND -/
  | mand (site : Site) (f : VecF)
  /-- MOR -/
  | mor (site : Site) (f : VecF)
  /-- MNOT -/
  | mnot (site : Site) (f : VecF)
  /-- MCOUNT -/
  | mcount (site : Site) (f : VecF)
  /-- VADN -/
  | vadn (site : Site) (f : VecF)
  /-- VAUP -/
  | vaup (site : Site) (f : VecF)
  /-- TLOAD -/
  | tload (site : Site) (f : ArrF)
  /-- PASS: `upsets` are physical errors of the array's products -/
  | pass (site : Site) (f : ArrF) (upsets : List Upset)
  /-- GOPEN -/
  | gopen (site : Site) (f : ArrF)
  /-- GCLOSE -/
  | gclose (site : Site) (f : ArrF)
  /-- GDRAIN_B -/
  | gdrainB (site : Site) (f : ArrF)
  /-- GDRAIN_V -/
  | gdrainV (site : Site) (f : ArrF)
  /-- GREL -/
  | grel (site : Site) (f : ArrF)
  /-- GSIDE -/
  | gside (site : Site) (f : ArrF)
  /-- STAGE -/
  | stage (site : Site) (f : ArrF)
  /-- UNSTAGE -/
  | unstage (site : Site) (f : ArrF)
  /-- SEMPOST -/
  | sempost (site : Site) (f : SyncF)
  /-- SEMWAIT -/
  | semwait (site : Site) (f : SyncF)
  /-- END -/
  | endRun (site : Site) (f : SyncF)
  /-- ARRIVE -/
  | arrive (site : Site) (f : SyncF)
  /-- WAIT -/
  | wait (site : Site) (f : SyncF)
  /-- ARRIVE_WAIT -/
  | arriveWait (site : Site) (f : SyncF)
  /-- SEND -/
  | send (site : Site) (f : NetF)
  /-- RED -/
  | red (site : Site) (f : NetF)
  /-- MSG -/
  | msg (site : Site) (f : NetF)
  /-- RXBIND -/
  | rxbind (site : Site) (f : NetF)
  /-- RXFREE -/
  | rxfree (site : Site) (f : NetF)
  /-- COPY -/
  | copy (site : Site) (f : DmaF)
  /-- HRD -/
  | hrd (site : Site) (f : DmaF)
  /-- HWR -/
  | hwr (site : Site) (f : DmaF)
  /-- GWR -/
  | gwr (site : Site) (f : DmaF)
  /-- TILE_READY -/
  | tileReady (site : Site)
  /-- CHECK_COMPARE -/
  | checkCompare (site : Site)
  /-- GCLOSE_DONE -/
  | gcloseDone (site : Site) (g : Fin 8)
  /-- DRAIN_DONE -/
  | drainDone (site : Site) (g : Fin 8)
  /-- GREL_DONE -/
  | grelDone (site : Site) (g : Fin 8)
  /-- STAGE_BIND -/
  | stageBind (site : Site)
  /-- UNSTAGE_DONE -/
  | unstageDone (site : Site)
  /-- SEMWAIT_DONE -/
  | semwaitDone (site : Site)
  /-- END_RETIRE -/
  | endRetire (site : Site)
  /-- DMA_COMPLETE -/
  | dmaComplete (site : Site)
  /-- NET_SEND_COMPLETE -/
  | netSendComplete (site : Site)
  /-- SEND_LANDING -/
  | sendLanding (site : Site)
  /-- SUM_PACKET_EJECT -/
  | sumPacketEject (site : Site) (rid : BitVec 10) (payload : List W32)
  /-- BANK_WRITE_BACK -/
  | bankWriteBack (site : Site) (word : Nat)
  /-- BNK_OWN_WRITE: `who` is the agent of a BAR0 write, none for firmware -/
  | bnkOwnWrite (who : Option (Fin 3)) (site : Site) (hi : Bool) (value : W32)
  /-- BANK_HANDOVER_DONE -/
  | bankHandoverDone (site : Site) (b : BankIx)
  /-- BNK_SECURE_WRITE -/
  | bnkSecureWrite (site : Site) (value : W32)
  /-- WIPE_DONE: `differs` says that a read-back differed -/
  | wipeDone (site : Site) (b : BankIx) (differs : Bool)
  /-- MARCH_START -/
  | marchStart (who : Option (Fin 3)) (site : Site)
  /-- MARCH_ABORT: element (or sweep) and word in progress, and the lowest failing bit when its compare fails -/
  | marchAbort (who : Option (Fin 3)) (site : Site) (element : Fin 6) (word : Fin 4096) (fail : Option (Fin 544))
  /-- MARCH_BANK_DONE: `fail` is the first failing compare: element (or sweep), word, lowest bit -/
  | marchBankDone (site : Site) (fail : Option (Fin 6 × Fin 4096 × Fin 544))
  /-- WAKE_ZEROING_DONE: `differs` is the first bank whose read-back differed -/
  | wakeZeroingDone (site : Site) (differs : Option BankIx)
  /-- CHK_INJ_ARM -/
  | chkInjArm (who : Option (Fin 3)) (site : Site)
  /-- CLR_EVENTS: `same` counts the events of the same cycle -/
  | clrEvents (who : Option (Fin 3)) (site : Site) (same : Nat)
  /-- CLR_SKIPS -/
  | clrSkips (who : Option (Fin 3)) (site : Site) (same : Nat)
  /-- CLR_BLOCKS -/
  | clrBlocks (who : Option (Fin 3)) (site : Site) (same : Nat)
  /-- CHK_RECORD_CLEAR: `same` are the disagreements of the same cycle -/
  | chkRecordClear (who : Option (Fin 3)) (site : Site) (same : List (ChkBody × Captured))
  /-- FAULT_RECORD_CLEAR -/
  | faultRecordClear (who : Option (Fin 3)) (site : Site) (same : List FaultBody)
  /-- BANK_ERR_RECORD_CLEAR -/
  | bankErrRecordClear (who : Option (Fin 3)) (site : Site) (same : List BankErrBody)
  /-- RED_RECORD_CLEAR -/
  | redRecordClear (who : Option (Fin 3)) (field : FieldIx) (quad : QuadIx) (same : List RedRecBody)
  /-- UPE_FAULT_CLEAR -/
  | upeFaultClear (who : Option (Fin 3)) (field : FieldIx) (same : List UpeFaultBody)
  /-- FAB_FAULT_CLEAR -/
  | fabFaultClear (who : Option (Fin 3)) (same : List FabFaultBody)
  /-- ALARM_RECORD_CLEAR -/
  | alarmRecordClear (who : Option (Fin 3)) (same : List AlarmBody)
  /-- VMIN_RESTART -/
  | vminRestart (who : Option (Fin 3)) (r : VminIx)
  /-- CLR_HDR -/
  | clrHdr (who : Option (Fin 3)) (site : Site) (same : Nat)
  /-- CLR_DENSE -/
  | clrDense (who : Option (Fin 3)) (site : Site) (same : Nat)
  /-- CLR_SEL -/
  | clrSel (who : Option (Fin 3)) (field : FieldIx) (slot : SlotIx) (same : Nat)
  /-- CLR_AUD -/
  | clrAud (who : Option (Fin 3)) (field : FieldIx) (slot : SlotIx) (same : Nat)
  /-- CLR_MISS -/
  | clrMiss (who : Option (Fin 3)) (field : FieldIx) (slot : SlotIx) (same : Nat)
  /-- CLR_FALSE -/
  | clrFalse (who : Option (Fin 3)) (field : FieldIx) (slot : SlotIx) (same : Nat)
  /-- CLR_FALLBACKS -/
  | clrFallbacks (who : Option (Fin 3)) (field : FieldIx) (slot : SlotIx) (same : Nat)
  /-- UPE_CLR_BLOCKS -/
  | upeClrBlocks (who : Option (Fin 3)) (field : FieldIx) (same : Nat)
  /-- UPE_CLR_SKIPS -/
  | upeClrSkips (who : Option (Fin 3)) (field : FieldIx) (same : Nat)
  /-- CLR_DISCARD -/
  | clrDiscard (who : Option (Fin 3)) (field : FieldIx) (same : Nat)
  /-- CLR_ROOT_LATE -/
  | clrRootLate (who : Option (Fin 3)) (field : FieldIx) (same : Nat)
  /-- CLR_RUN -/
  | clrRun (who : Option (Fin 3)) (site : Site) (same : Bool)
  /-- CLR_IDLE: bit c of `mask` clears cause c; `same` is the cause counted in the same cycle -/
  | clrIdle (who : Option (Fin 3)) (site : Site) (mask : BitVec 8) (same : Option (Fin 8))
  /-- CHK_BLOCKS_LO_READ -/
  | chkBlocksLoRead (who : Fin 3) (site : Site)
  /-- IDLE_LO_READ: cause 0 to 7, or 8 for COR_RUN_LO -/
  | idleLoRead (who : Fin 3) (site : Site) (c : Fin 9)
  /-- TICK_LO_READ -/
  | tickLoRead (who : Fin 3)
  /-- CYC_LO_READ -/
  | cycLoRead (who : Fin 3)
  /-- TICK_PERIOD_WRITE: by firmware, in µs -/
  | tickPeriodWrite (us : Nat)
  /-- RCK_DIV_WRITE: by firmware -/
  | rckDivWrite (n : BitVec 6)
  /-- DIVIDER_STEP -/
  | dividerStep
  /-- FMC_START -/
  | fmcStart (who : Option (Fin 3))
  /-- FMC_GATE_CLOSE: the edges counted -/
  | fmcGateClose (count : W32)
  /-- RING_ENABLE: an access on port `on` to the ring registers of port `p` -/
  | ringEnable (on : Fin 2) (p : Fin 2)
  /-- IMBALANCE_CLEAR: `balanced` says that the currents have stayed balanced for 1 s -/
  | imbalanceClear (who : Fin 3) (balanced : Bool)
  /-- HALT_CLEAR -/
  | haltClear (who : Fin 3)
  /-- REGISTER_WRITE: a BAR0 write of `wide` (64) or 32 bits -/
  | registerWrite (who : Fin 3) (addr : Nat) (wide : Bool) (value : W64)
  /-- TICK_EDGE: `disagree` are the fields whose own count differs -/
  | tickEdge (disagree : List FieldIx)
  /-- TICK_MESSAGE -/
  | tickMessage (site : Site) (m : TickMsg) (edge : BitVec 48)
  /-- MESH_CRC_ERROR -/
  | meshCrcError (field : FieldIx) (quad : QuadIx) (port : Fin 10)
  /-- REDUCTION_PACKET: `len` flits of 32 values -/
  | reductionPacket (field : FieldIx) (quad : QuadIx) (port : Fin 10) (id : BitVec 10) (len : Nat) (payload : List W32)
  /-- COL_ARRIVAL -/
  | colArrival (col : ColIx)
  /-- COL_EXPIRY -/
  | colExpiry (col : ColIx)
  /-- RESOLUTION_FLIT -/
  | resolutionFlit (site : Site) (col : ColIx)
  /-- STREAM_ENTRY_START -/
  | streamEntryStart (site : Site)
  /-- STREAM_TILE_SEND -/
  | streamTileSend (site : Site)
  /-- WS_SELECTION -/
  | wsSelection (field : FieldIx) (slot : SlotIx) (mb : W16) (sel : BitVec 1024)
  /-- WS_ACTIVITY_REPORT -/
  | wsActivityReport (field : FieldIx) (slot : SlotIx) (mb : W16) (act : BitVec 1024)
  /-- GRADIENT_WRITE: 64-byte unit `unit` of the GRAD area -/
  | gradientWrite (field : FieldIx) (region : Fin 256) (unit : Nat) (add : Bool) (vals : List W32) (src : GradSrc)
  /-- NORM_MESSAGE -/
  | normMessage (field : FieldIx) (part : PartIx)
  /-- SCALAR_BROADCAST -/
  | scalarBroadcast (field : FieldIx) (part : PartIx) (n2 : W32)
  /-- APPLY_DONE -/
  | applyDone (field : FieldIx) (part : PartIx)
  /-- STEP_BEGIN -/
  | stepBegin (part : PartIx)
  /-- STEP_COMMIT -/
  | stepCommit (part : PartIx)
  /-- PORT_TRAINED -/
  | portTrained (p : PortIx)
  /-- INIT_FLIT -/
  | initFlit (p : PortIx) (f : FabFlit)
  /-- INIT_TIMEOUT -/
  | initTimeout (p : PortIx)
  /-- PORT_RETRY -/
  | portRetry (p : PortIx)
  /-- FABRIC_DATA_FLIT -/
  | fabricDataFlit (p : PortIx) (f : FabFlit)
  /-- CREDIT_FLIT: a control flit -/
  | creditFlit (p : PortIx) (f : FabFlit)
  /-- NAK_RECEIVED: a control flit with NAK -/
  | nakReceived (p : PortIx) (f : FabFlit)
  /-- ACK_TIMEOUT -/
  | ackTimeout (p : PortIx)
  /-- FABRIC_PACKET: the packet of the port's receive buffers whose last flit came first -/
  | fabricPacket (p : PortIx)
  /-- CONTRIB_TRAILER: that packet, when it is a trailer -/
  | contribTrailer (p : PortIx)
  /-- RESULT_DIGEST_EXCHANGE: (rank, digest) of the other members for a collective instance -/
  | resultDigestExchange (part : PartIx) (coll : W16) (digests : List (Nat × W64))
  /-- LINK_STATE_EVENT: the links of the view, (address, port, address, port) -/
  | linkStateEvent (links : List (Nat × Nat × Nat × Nat))
  /-- FABRIC_HEARTBEAT_SEND -/
  | fabricHeartbeatSend
  /-- HB_LOST -/
  | hbLost (p : PortIx)
  /-- MEMBERSHIP_DECISION -/
  | membershipDecision (part : PartIx)
  /-- JOIN -/
  | join (part : PartIx) (m : Member)
  /-- RESHARD_DRAIN -/
  | reshardDrain (part : PartIx)
  /-- FENCE: a FENCE(E) from member `src` reaches the controller of a field -/
  | fence (part : PartIx) (field : FieldIx) (src : BitVec 12) (epoch : W16)
  /-- PERMUTE_UNIT_ARRIVAL: the bytes of a unit and the contribution digest sent with them -/
  | permuteUnitArrival (part : PartIx) (unit : Nat) (bytes : List Byte) (sent : W64)
  /-- PERMUTE_DONE -/
  | permuteDone (part : PartIx) (src : BitVec 12)
  /-- JOB_STOP -/
  | jobStop (part : PartIx)
  /-- MEMBER_READY -/
  | memberReady (part : PartIx) (src : BitVec 12)
  /-- RESTART -/
  | restart (part : PartIx)
  /-- PAIRING_REQUEST: from a module that names this one as holder -/
  | pairingRequest (src : BitVec 12) (feed : Byte) (reserve : Nat) (force : Bool)
  /-- PAIRING_REPLY -/
  | pairingReply (feed : Byte) (status : W16)
  /-- HOLDER_LOST -/
  | holderLost
  /-- INTAKE_FETCH: the shards of step `step` -/
  | intakeFetch (part : PartIx) (step : W64)
  /-- SHARD_LANDED: shard `i` of step `step`, its bytes and whether the read failed -/
  | shardLanded (part : PartIx) (step : W64) (i : Nat) (bytes : List Byte) (readErr : Bool)
  /-- INTAKE_RETRY -/
  | intakeRetry (part : PartIx)
  /-- FAULT_REPORT -/
  | faultReport
  /-- RESTORE_DONE: the generations that each other member can read -/
  | restoreDone (part : PartIx) (avail : List (BitVec 12 × List W64))
  /-- CHECK_ARBITRATION -/
  | checkArbitration (part : PartIx)
  /-- REPLAY_DONE: the replay of the capture of `site` on `on`, the physical errors of its products, and those of the bits of the
  check lane's sum -/
  | replayDone (part : PartIx) (site on : Site) (upsets : List Upset) (lane : W32)
  /-- SNAPSHOT_BEGIN -/
  | snapshotBegin (part : PartIx)
  /-- SNAP_BEGIN: at the holder -/
  | snapBegin (src : BitVec 12) (part : PartIx) (id : W64) (size : Nat) (pol : SnapPolicy)
  /-- SNAPSHOT_COPY_DONE: at the holder, the regions that have arrived and the digests sent with them -/
  | snapshotCopyDone (part : PartIx) (id : W64) (regions : List (GenRegion × W64))
  /-- CONFIRM: from the holder or the own flash, or from a member of the job -/
  | confirm (part : PartIx) (from_ : Option (BitVec 12)) (id : W64)
  /-- JOB_VALID -/
  | jobValid (part : PartIx) (id : W64)
  /-- SHELF_WRITE_DONE: the local shelf's write, or the holder's notice of a generation and whether it is in the store -/
  | shelfWriteDone (notice : Option (PartIx × W64 × Bool))
  /-- PROBE_CHUNK_COMPARE: the number of the chunk, the pair, and by how much physical errors change the digests of the pair and
  of the core that re-runs the chunk -/
  | probeChunkCompare (part : PartIx) (chunk : Nat) (a b : Site) (ea eb ec : W64) (last : Bool)
  /-- RETRACE_TICK_COMPARE: the tick that has just ended in the target -/
  | retraceTickCompare (target : PartIx)
  /-- TERRACE_LIGHT_START -/
  | terraceLightStart (t : TerIx)
  /-- SUBSWITCH_CLOSE -/
  | subswitchClose (t : TerIx)
  /-- DROOP_HOLD -/
  | droopHold (t : TerIx)
  /-- DROOP_RESUME -/
  | droopResume (t : TerIx)
  /-- DROOP_TIMEOUT -/
  | droopTimeout (t : TerIx)
  /-- TERRACE_READY -/
  | terraceReady (t : TerIx)
  /-- TERRACE_OFF -/
  | terraceOff (t : TerIx)
  /-- PHASE_FAIL -/
  | phaseFail (p : PhaseIx)
  /-- SENSE_OPEN -/
  | senseOpen (t : TerIx)
  /-- THERMAL_SAMPLE: the readings in °C -/
  | thermalSample (rs : List (Sensor × Nat))
  /-- SAG_DECLARED -/
  | sagDeclared
  /-- SAG_SHORT -/
  | sagShort
  /-- SAG_SAVE_DONE -/
  | sagSaveDone
  /-- HOLDUP_LOW -/
  | holdupLow
  /-- IMBALANCE_HALT -/
  | imbalanceHalt (ia ib : W16)
  /-- ENVELOPE_DEADLINE -/
  | envelopeDeadline
  /-- REF_JUDGE: candidate (1 oscillator, 2 A3, 3 H4) and the edges counted in the window of R354 -/
  | refJudge (cand : Fin 4) (count : Nat)
  /-- REF_LOST -/
  | refLost
  /-- PLL_LOCK: a field PLL, or the Vale PLL -/
  | pllLock (f : Option FieldIx)
  /-- PLL_LOCK_TIMEOUT -/
  | pllLockTimeout (f : FieldIx)
  /-- PLL_LOCK_LOST -/
  | pllLockLost (f : FieldIx)
  /-- POWER_ON -/
  | powerOn
  /-- PERST -/
  | perst (p : Fin 2)
  /-- HOT_RESET -/
  | hotReset (p : Fin 2)
  /-- WARM_CMD -/
  | warmCmd
  /-- WATCHDOG -/
  | watchdog
  /-- WATCHDOG_REFRESH -/
  | watchdogRefresh
  /-- PORT_RESET -/
  | portReset (p : Fin 2)
  /-- RESET_RELEASE -/
  | resetRelease
  /-- WARM_RESET_READY -/
  | warmResetReady
  /-- TRIM_COPY_LOADED: whether its CRC matched, its content and the straps -/
  | trimCopyLoaded (crcOk : Bool) (trim : Trim) (straps : Byte)
  /-- TRIM_CHECK -/
  | trimCheck (ok : Bool)
  /-- BRINGUP_STAGE_DONE -/
  | bringupStageDone (info : StageInfo)
  /-- STANDBY_TAKEOVER -/
  | standbyTakeover
  /-- RING_POLL: the sequence word read, the packets fetched, and whether the read failed -/
  | ringPoll (p : Fin 2) (word : W64) (pkts : List (List Byte)) (readErr : Bool)
  /-- CLAIM_WINDOW_END -/
  | claimWindowEnd
  /-- OWNER_HB_EXPIRED -/
  | ownerHbExpired
  /-- DEV_INFO -/
  | devInfo (k : Pkt)
  /-- CLAIM -/
  | claim (k : Pkt) (priority : Byte) (rsv : BitVec 24)
  /-- RELEASE -/
  | release (k : Pkt) (successor : Byte) (force : Bool) (rsv : BitVec 7)
  /-- HEARTBEAT -/
  | heartbeat (k : Pkt)
  /-- PART_CREATE (Table 8.7) -/
  | partCreate (k : Pkt) (part : Byte) (diag : Bool) (terraces : BitVec 96) (ports : W32) (rsv : Nat)
  /-- PART_DESTROY -/
  | partDestroy (k : Pkt) (part : Byte)
  /-- PLAN_LOAD: the parameters of R395 and the image that firmware reads -/
  | planLoad (k : Pkt) (part : Byte) (replace : Bool) (rsv : Nat) (addr : W64) (length : W32) (hash : Nat) (image : PlanImage)
  /-- PLAN_START -/
  | planStart (k : Pkt) (part : Byte) (rsv : Nat) (seed step tick : W64)
  /-- PLAN_STOP -/
  | planStop (k : Pkt) (part mode : Byte)
  /-- SNAP_POLICY (R312) -/
  | snapPolicy (k : Pkt) (part : Byte) (pol : SnapPolicy) (rsv : Nat)
  /-- SNAP_NOW -/
  | snapNow (k : Pkt) (part : Byte)
  /-- PARTNER_SET -/
  | partnerSet (k : Pkt) (holder : BitVec 12) (force : Bool) (reserve : W32) (rsv : Nat)
  /-- RECOVER_RESTART -/
  | recoverRestart (k : Pkt) (part : Byte)
  /-- RECOVER_RESTART_FROM -/
  | recoverRestartFrom (k : Pkt) (part : Byte) (id : W64)
  /-- RECOVER_RETEST -/
  | recoverRetest (k : Pkt) (terrace : W16) (bad : List Site) (laneOk : List Site)
  /-- RECOVER_REBASE -/
  | recoverRebase (k : Pkt) (part : Byte)
  /-- RETRACE -/
  | retrace (k : Pkt) (part : Byte) (target : Byte) (dx dy : Int) (step : W64) (joint : Bool) (rsv : Nat)
  /-- ENVELOPE_SET -/
  | envelopeSet (k : Pkt) (bound deadline : W32) (clockOnly : Bool) (rsv : Nat)
  /-- TERRACE_SET_DARKEN -/
  | terraceSetDarken (k : Pkt) (mask : BitVec 96) (rsv : Nat)
  /-- TERRACE_SET_LIGHT -/
  | terraceSetLight (k : Pkt) (mask : BitVec 96) (rsv : Nat)
  /-- WARM_RESET -/
  | warmReset (k : Pkt)
  /-- PROBE_RUN -/
  | probeRun (k : Pkt) (part : Byte) (retire : Bool) (fields : BitVec 48) (seed : W64) (rsv : Nat)
  /-- MARCH_RUN -/
  | marchRun (k : Pkt) (field core : Byte) (mode : Bool) (mask : W32) (rsv : Nat)
  /-- FW_UPDATE_STAGE: the image that firmware reads -/
  | fwUpdateStage (k : Pkt) (addr : W64) (length : W32) (image : FwImage)
  /-- FW_UPDATE_SWITCH -/
  | fwUpdateSwitch (k : Pkt)
  /-- FW_UPDATE_REVERT: the image in the other slot as read -/
  | fwUpdateRevert (k : Pkt) (image : FwImage)
  /-- FW_UPDATE_COMMIT_SVN -/
  | fwUpdateCommitSvn (k : Pkt)
  /-- ATTEST: the SPDM request code carried -/
  | attest (k : Pkt) (code : Byte) (slot : Nat)
  /-- LIFECYCLE_NONCE -/
  | lifecycleNonce (k : Pkt) (rsv : Nat)
  /-- LIFECYCLE_TRANSITION: the target, the key (x, y), the signature (r, s) and the manufacturing key it was made under -/
  | lifecycleTransition (k : Pkt) (rsv : Nat) (target : Byte) (x y r s : Nat) (mx my : Nat)
  /-- TELEMETRY -/
  | telemetry (k : Pkt) (part : Byte) (mask : Byte) (length : W32) (start : W64) (rsv : Nat)
  /-- TELEMETRY_WINDOW_END: the input power and energy measured over the window -/
  | telemetryWindowEnd (seq : W32) (agent : Fin 3) (pmin pmax energy : Nat)
  /-- FAB_CONFIG (Table 8.5) -/
  | fabConfig (k : Pkt) (addr : BitVec 12) (hb : W16) (enable eth : BitVec 28) (mac ip : Nat) (pfcEn : Bool) (pfcPri : BitVec 3) (dscp : BitVec 6) (targets : List StoreTarget) (rsv : Nat)
  /-- MCTP_CONTROL: a control command code -/
  | mctpControl (code : Byte) (arg : Nat)
  /-- PLDM_REQUEST: PLDM type and command code -/
  | pldmRequest (type code : Byte)
  /-- MGMT_JORLEK_REQUEST -/
  | mgmtJorlekRequest (k : Pkt)
  /-- GET_VERSION -/
  | getVersion (agent : Fin 3)
  /-- GET_CAPABILITIES -/
  | getCapabilities (agent : Fin 3)
  /-- NEGOTIATE_ALGORITHMS -/
  | negotiateAlgorithms (agent : Fin 3)
  /-- GET_DIGESTS -/
  | getDigests (agent : Fin 3)
  /-- GET_CERTIFICATE -/
  | getCertificate (agent : Fin 3) (slot : Nat)
  /-- CHALLENGE -/
  | challenge (agent : Fin 3) (slot : Nat)
  /-- GET_MEASUREMENTS -/
  | getMeasurements (agent : Fin 3)
  /-- TAMPER -/
  | tamper
  /-- VGLITCH -/
  | vglitch
  /-- CGLITCH -/
  | cglitch
  /-- DEBUG -/
  | debugAccess
  /-- ALARM_L3_ERASE_DONE -/
  | alarmL3EraseDone
  /-- DEBUG_TOKEN: the signature (r, s) under the key (x, y) -/
  | debugToken (x y r s : Nat)
  /-- CAGE_PRESENCE: fitted with a declared power class in mW, or removed -/
  | cagePresence (p : PortIx) (assembly : Option Nat)
  /-- MARCH_ABORT_DONE -/
  | marchAbortDone (site : Site)
  /-- LANE_ALIGNMENT_LOST -/
  | laneAlignmentLost (p : PortIx)
  /-- ETHERNET_FRAME -/
  | ethernetFrame (p : PortIx) (kind : EthKind)
  /-- BAR2_ACCESS: a write when `bytes` is given, else a read of `len` bytes -/
  | bar2Access (p : Fin 2) (size : W64) (ofs : Nat) (len : Nat) (bytes : Option (List Byte))
  /-- PCIE_LINK_CHANGE -/
  | pcieLinkChange (p : Fin 2) (up : Bool)
  /-- INPUT_VOLTAGE_CHANGE: the input in mV -/
  | inputVoltageChange (mv : Nat)
  /-- HOLDUP_RESTORED -/
  | holdupRestored
  /-- VDD_STEP -/
  | vddStep
  /-- RAIL_SAMPLE: the reading in mV (10 mV units for the input) -/
  | railSample (r : VminIx) (reading : W16)
  /-- REFCLK_PRESENT: source (1 oscillator, 2 A3, 3 H4) -/
  | refclkPresent (src : Fin 4) (present : Bool)
  /-- HOST_DMA_COMPLETE -/
  | hostDmaComplete (p : Fin 2) (what : HostDma) (err : Bool)
  /-- ENTDAA -/
  | entdaa (addr : BitVec 7)
  /-- STANDBY_REPLAY_DONE -/
  | standbyReplayDone
  /-- LIFECYCLE_ERASE_DONE -/
  | lifecycleEraseDone
  /-- SNAPSHOT_ANNOUNCE -/
  | snapshotAnnounce (part : PartIx) (step : W64)
  /-- GENERATION_LOSS_NOTICE: the generations lost and the holder's remaining reserve in bytes -/
  | generationLossNotice (part : PartIx) (ids : List W64) (room : Nat)
  deriving DecidableEq, Repr

end Sys2Proof
end

