-- ==== Sys2Proof/Decode.lean ====
section
/-! DEFINITION. The instruction words of a core (R83, R84, Tables 3.4, 7.5 and the fields of R181): their encoder and
their decoder, and the table words of the block's commands, of which the spec gives none. -/

namespace Sys2Proof

open Sys2Proof.Machine

/-- Class and operation in bits [63:52] (R83). -/
def opWord (cls op : Nat) (rest : Nat) : W64 := BitVec.ofNat 64 (cls * 2 ^ 60 + op * 2 ^ 52 + rest)

def encScalar (op : Nat) (f : ScalarF) : W64 :=
  opWord 0 op (f.sd.toNat * 2 ^ 47 + f.sa.toNat * 2 ^ 42 + f.sb.toNat * 2 ^ 37 + f.rsv.toNat * 2 ^ 32 + f.imm.toNat)

def encBranch (op : Nat) (f : BranchF) : W64 :=
  opWord 1 op (f.sa.toNat * 2 ^ 47 + f.cond.toNat * 2 ^ 43 + f.level.toNat * 2 ^ 41 + f.rsv.toNat * 2 ^ 32 + f.ofs.toNat)

def encVec (cls op : Nat) (f : VecF) : W64 :=
  opWord cls op (f.mask.toNat * 2 ^ 49 + f.zm.toNat * 2 ^ 48 + f.rnd.toNat * 2 ^ 46 + f.vd.toNat * 2 ^ 41 +
    f.va.toNat * 2 ^ 36 + f.vb.toNat * 2 ^ 31 + f.vc.toNat * 2 ^ 26 + f.fmt.toNat * 2 ^ 22 + f.rsv.toNat * 2 ^ 16 + f.imm.toNat)

def encArr (op : Nat) (f : ArrF) : W64 :=
  opWord 6 op (f.group.toNat * 2 ^ 49 + f.afmt.toNat * 2 ^ 45 + f.wfmt.toNat * 2 ^ 41 + f.fuse.toNat * 2 ^ 39 +
    f.first.toNat * 2 ^ 28 + f.n.toNat * 2 ^ 17 + f.win.toNat * 2 ^ 13 + f.sa.toNat * 2 ^ 8 + f.rsv.toNat)

def encDma (op : Nat) (f : DmaF) : W64 :=
  opWord 7 op (f.sa.toNat * 2 ^ 47 + f.sb.toNat * 2 ^ 42 + f.sc.toNat * 2 ^ 37 + f.sem.toNat * 2 ^ 31 +
    f.win.toNat * 2 ^ 27 + f.w.toNat * 2 ^ 26 + f.xp.toNat * 2 ^ 23 + f.fmt.toNat * 2 ^ 19 + f.gmode.toNat * 2 ^ 18 + f.rsv.toNat)

def encNet (op : Nat) (f : NetF) : W64 :=
  opWord 8 op (f.sa.toNat * 2 ^ 47 + f.sb.toNat * 2 ^ 42 + f.sc.toNat * 2 ^ 37 + f.sem.toNat * 2 ^ 31 +
    f.win.toNat * 2 ^ 27 + f.w.toNat * 2 ^ 26 + f.vc.toNat * 2 ^ 23 + f.rid.toNat * 2 ^ 13 + f.rsv.toNat)

def encSync (op : Nat) (f : SyncF) : W64 :=
  opWord 9 op (f.cause.toNat * 2 ^ 49 + f.sem.toNat * 2 ^ 43 + f.col.toNat * 2 ^ 30 + f.sa.toNat * 2 ^ 25 +
    f.rsv.toNat * 2 ^ 16 + f.imm.toNat)

/-- The word of an instruction row; none for the rows that are no instruction of a core. -/
def encodeInsn : Instr → Option W64
  | .add _ f => some (encScalar 0x00 f)
  | .sub _ f => some (encScalar 0x01 f)
  | .and _ f => some (encScalar 0x02 f)
  | .or _ f => some (encScalar 0x03 f)
  | .xor _ f => some (encScalar 0x04 f)
  | .shl _ f => some (encScalar 0x05 f)
  | .shr _ f => some (encScalar 0x06 f)
  | .sar _ f => some (encScalar 0x07 f)
  | .mul _ f => some (encScalar 0x08 f)
  | .slt _ f => some (encScalar 0x09 f)
  | .sltu _ f => some (encScalar 0x0A f)
  | .ldi _ f => some (encScalar 0x10 f)
  | .ldih _ f => some (encScalar 0x11 f)
  | .addi _ f => some (encScalar 0x12 f)
  | .ld _ f => some (encScalar 0x20 f)
  | .st _ f => some (encScalar 0x21 f)
  | .srd _ f => some (encScalar 0x30 f)
  | .ctlw _ f => some (encScalar 0x31 f)
  | .br _ f => some (encBranch 0x00 f)
  | .loop _ f => some (encBranch 0x01 f)
  | .vadd _ f => some (encVec 2 0x00 f)
  | .vsub _ f => some (encVec 2 0x01 f)
  | .vadds _ f => some (encVec 2 0x02 f)
  | .vsubs _ f => some (encVec 2 0x03 f)
  | .vaddu _ f => some (encVec 2 0x04 f)
  | .vsubu _ f => some (encVec 2 0x05 f)
  | .vand _ f => some (encVec 2 0x08 f)
  | .vor _ f => some (encVec 2 0x09 f)
  | .vxor _ f => some (encVec 2 0x0A f)
  | .vandn _ f => some (encVec 2 0x0B f)
  | .vshl _ f => some (encVec 2 0x10 f)
  | .vshr _ f => some (encVec 2 0x11 f)
  | .vsar _ f => some (encVec 2 0x12 f)
  | .vshli _ f => some (encVec 2 0x14 f)
  | .vshri _ f => some (encVec 2 0x15 f)
  | .vsari _ f => some (encVec 2 0x16 f)
  | .vcmpeq _ f => some (encVec 2 0x18 f)
  | .vcmplt _ f => some (encVec 2 0x19 f)
  | .vcmpltu _ f => some (encVec 2 0x1A f)
  | .vsel _ f => some (encVec 2 0x20 f)
  | .vmov _ f => some (encVec 2 0x21 f)
  | .vbcast _ f => some (encVec 2 0x22 f)
  | .vld _ f => some (encVec 2 0x30 f)
  | .vst _ f => some (encVec 2 0x31 f)
  | .fadd _ f => some (encVec 3 0x00 f)
  | .fsub _ f => some (encVec 3 0x01 f)
  | .fmul _ f => some (encVec 3 0x02 f)
  | .ffma _ f => some (encVec 3 0x03 f)
  | .fmax _ f => some (encVec 3 0x04 f)
  | .fmin _ f => some (encVec 3 0x05 f)
  | .fcmpeq _ f => some (encVec 3 0x08 f)
  | .fcmplt _ f => some (encVec 3 0x09 f)
  | .fcmple _ f => some (encVec 3 0x0A f)
  | .fcmpun _ f => some (encVec 3 0x0B f)
  | .vexp2 _ f => some (encVec 4 0x00 f)
  | .vrsqrt _ f => some (encVec 4 0x01 f)
  | .vcvtTomx _ f => some (encVec 4 0x08 f)
  | .vcvtFrommx _ f => some (encVec 4 0x09 f)
  | .vcvtTobf16 _ f => some (encVec 4 0x0A f)
  | .vcvtFrombf16 _ f => some (encVec 4 0x0B f)
  | .vrsum _ f => some (encVec 4 0x10 f)
  | .vrmax _ f => some (encVec 4 0x11 f)
  | .msetn _ f => some (encVec 4 0x20 f)
  | .mand _ f => some (encVec 4 0x21 f)
  | .mor _ f => some (encVec 4 0x22 f)
  | .mnot _ f => some (encVec 4 0x23 f)
  | .mcount _ f => some (encVec 4 0x24 f)
  | .vadn _ f => some (encVec 5 0x00 f)
  | .vaup _ f => some (encVec 5 0x01 f)
  | .tload _ f => some (encArr 0x00 f)
  | .pass _ f _ => some (encArr 0x01 f)
  | .gopen _ f => some (encArr 0x08 f)
  | .gclose _ f => some (encArr 0x09 f)
  | .gdrainB _ f => some (encArr 0x0A f)
  | .gdrainV _ f => some (encArr 0x0B f)
  | .grel _ f => some (encArr 0x0C f)
  | .gside _ f => some (encArr 0x0D f)
  | .stage _ f => some (encArr 0x10 f)
  | .unstage _ f => some (encArr 0x11 f)
  | .sempost _ f => some (encSync 0x00 f)
  | .semwait _ f => some (encSync 0x01 f)
  | .endRun _ f => some (encSync 0x02 f)
  | .arrive _ f => some (encSync 0x10 f)
  | .wait _ f => some (encSync 0x11 f)
  | .arriveWait _ f => some (encSync 0x12 f)
  | .send _ f => some (encNet 0x00 f)
  | .red _ f => some (encNet 0x01 f)
  | .msg _ f => some (encNet 0x02 f)
  | .rxbind _ f => some (encNet 0x03 f)
  | .rxfree _ f => some (encNet 0x04 f)
  | .copy _ f => some (encDma 0x00 f)
  | .hrd _ f => some (encDma 0x01 f)
  | .hwr _ f => some (encDma 0x02 f)
  | .gwr _ f => some (encDma 0x03 f)
  | _ => none

/-- A field of `n` bits from bit `lo`. -/
def bits (w : W64) (lo n : Nat) : BitVec n := BitVec.ofNat n (w.toNat / 2 ^ lo)

def decScalar (w : W64) : ScalarF :=
  { sd := bits w 47 5, sa := bits w 42 5, sb := bits w 37 5, rsv := bits w 32 5, imm := bits w 0 32 }
def decBranch (w : W64) : BranchF :=
  { sa := bits w 47 5, cond := bits w 43 4, level := bits w 41 2, rsv := bits w 32 9, ofs := bits w 0 32 }
def decVec (w : W64) : VecF :=
  { mask := bits w 49 3, zm := bits w 48 1, rnd := bits w 46 2, vd := bits w 41 5, va := bits w 36 5, vb := bits w 31 5,
    vc := bits w 26 5, fmt := bits w 22 4, rsv := bits w 16 6, imm := bits w 0 16 }
def decArr (w : W64) : ArrF :=
  { group := bits w 49 3, afmt := bits w 45 4, wfmt := bits w 41 4, fuse := bits w 39 2, first := bits w 28 11,
    n := bits w 17 11, win := bits w 13 4, sa := bits w 8 5, rsv := bits w 0 8 }
def decDma (w : W64) : DmaF :=
  { sa := bits w 47 5, sb := bits w 42 5, sc := bits w 37 5, sem := bits w 31 6, win := bits w 27 4, w := bits w 26 1,
    xp := bits w 23 3, fmt := bits w 19 4, gmode := bits w 18 1, rsv := bits w 0 18 }
def decNet (w : W64) : NetF :=
  { sa := bits w 47 5, sb := bits w 42 5, sc := bits w 37 5, sem := bits w 31 6, win := bits w 27 4, w := bits w 26 1,
    vc := bits w 23 3, rid := bits w 13 10, rsv := bits w 0 13 }
def decSync (w : W64) : SyncF :=
  { cause := bits w 49 3, sem := bits w 43 6, col := bits w 30 13, sa := bits w 25 5, rsv := bits w 16 9, imm := bits w 0 16 }

/-- The instruction that a word of a core's store spells, at a site; none where class or operation is reserved (R85). -/
def decodeInsn (s : Site) (w : W64) : Option Instr :=
  match w.toNat / 2 ^ 60, w.toNat / 2 ^ 52 % 256 with
  | 0, 0x00 => some (.add s (decScalar w))
  | 0, 0x01 => some (.sub s (decScalar w))
  | 0, 0x02 => some (.and s (decScalar w))
  | 0, 0x03 => some (.or s (decScalar w))
  | 0, 0x04 => some (.xor s (decScalar w))
  | 0, 0x05 => some (.shl s (decScalar w))
  | 0, 0x06 => some (.shr s (decScalar w))
  | 0, 0x07 => some (.sar s (decScalar w))
  | 0, 0x08 => some (.mul s (decScalar w))
  | 0, 0x09 => some (.slt s (decScalar w))
  | 0, 0x0A => some (.sltu s (decScalar w))
  | 0, 0x10 => some (.ldi s (decScalar w))
  | 0, 0x11 => some (.ldih s (decScalar w))
  | 0, 0x12 => some (.addi s (decScalar w))
  | 0, 0x20 => some (.ld s (decScalar w))
  | 0, 0x21 => some (.st s (decScalar w))
  | 0, 0x30 => some (.srd s (decScalar w))
  | 0, 0x31 => some (.ctlw s (decScalar w))
  | 1, 0x00 => some (.br s (decBranch w))
  | 1, 0x01 => some (.loop s (decBranch w))
  | 2, 0x00 => some (.vadd s (decVec w))
  | 2, 0x01 => some (.vsub s (decVec w))
  | 2, 0x02 => some (.vadds s (decVec w))
  | 2, 0x03 => some (.vsubs s (decVec w))
  | 2, 0x04 => some (.vaddu s (decVec w))
  | 2, 0x05 => some (.vsubu s (decVec w))
  | 2, 0x08 => some (.vand s (decVec w))
  | 2, 0x09 => some (.vor s (decVec w))
  | 2, 0x0A => some (.vxor s (decVec w))
  | 2, 0x0B => some (.vandn s (decVec w))
  | 2, 0x10 => some (.vshl s (decVec w))
  | 2, 0x11 => some (.vshr s (decVec w))
  | 2, 0x12 => some (.vsar s (decVec w))
  | 2, 0x14 => some (.vshli s (decVec w))
  | 2, 0x15 => some (.vshri s (decVec w))
  | 2, 0x16 => some (.vsari s (decVec w))
  | 2, 0x18 => some (.vcmpeq s (decVec w))
  | 2, 0x19 => some (.vcmplt s (decVec w))
  | 2, 0x1A => some (.vcmpltu s (decVec w))
  | 2, 0x20 => some (.vsel s (decVec w))
  | 2, 0x21 => some (.vmov s (decVec w))
  | 2, 0x22 => some (.vbcast s (decVec w))
  | 2, 0x30 => some (.vld s (decVec w))
  | 2, 0x31 => some (.vst s (decVec w))
  | 3, 0x00 => some (.fadd s (decVec w))
  | 3, 0x01 => some (.fsub s (decVec w))
  | 3, 0x02 => some (.fmul s (decVec w))
  | 3, 0x03 => some (.ffma s (decVec w))
  | 3, 0x04 => some (.fmax s (decVec w))
  | 3, 0x05 => some (.fmin s (decVec w))
  | 3, 0x08 => some (.fcmpeq s (decVec w))
  | 3, 0x09 => some (.fcmplt s (decVec w))
  | 3, 0x0A => some (.fcmple s (decVec w))
  | 3, 0x0B => some (.fcmpun s (decVec w))
  | 4, 0x00 => some (.vexp2 s (decVec w))
  | 4, 0x01 => some (.vrsqrt s (decVec w))
  | 4, 0x08 => some (.vcvtTomx s (decVec w))
  | 4, 0x09 => some (.vcvtFrommx s (decVec w))
  | 4, 0x0A => some (.vcvtTobf16 s (decVec w))
  | 4, 0x0B => some (.vcvtFrombf16 s (decVec w))
  | 4, 0x10 => some (.vrsum s (decVec w))
  | 4, 0x11 => some (.vrmax s (decVec w))
  | 4, 0x20 => some (.msetn s (decVec w))
  | 4, 0x21 => some (.mand s (decVec w))
  | 4, 0x22 => some (.mor s (decVec w))
  | 4, 0x23 => some (.mnot s (decVec w))
  | 4, 0x24 => some (.mcount s (decVec w))
  | 5, 0x00 => some (.vadn s (decVec w))
  | 5, 0x01 => some (.vaup s (decVec w))
  | 6, 0x00 => some (.tload s (decArr w))
  | 6, 0x01 => some (.pass s (decArr w) [])
  | 6, 0x08 => some (.gopen s (decArr w))
  | 6, 0x09 => some (.gclose s (decArr w))
  | 6, 0x0A => some (.gdrainB s (decArr w))
  | 6, 0x0B => some (.gdrainV s (decArr w))
  | 6, 0x0C => some (.grel s (decArr w))
  | 6, 0x0D => some (.gside s (decArr w))
  | 6, 0x10 => some (.stage s (decArr w))
  | 6, 0x11 => some (.unstage s (decArr w))
  | 7, 0x00 => some (.copy s (decDma w))
  | 7, 0x01 => some (.hrd s (decDma w))
  | 7, 0x02 => some (.hwr s (decDma w))
  | 7, 0x03 => some (.gwr s (decDma w))
  | 8, 0x00 => some (.send s (decNet w))
  | 8, 0x01 => some (.red s (decNet w))
  | 8, 0x02 => some (.msg s (decNet w))
  | 8, 0x03 => some (.rxbind s (decNet w))
  | 8, 0x04 => some (.rxfree s (decNet w))
  | 9, 0x00 => some (.sempost s (decSync w))
  | 9, 0x01 => some (.semwait s (decSync w))
  | 9, 0x02 => some (.endRun s (decSync w))
  | 9, 0x10 => some (.arrive s (decSync w))
  | 9, 0x11 => some (.wait s (decSync w))
  | 9, 0x12 => some (.arriveWait s (decSync w))
  | _, _ => none

/-- Whether a word has a class and an operation that exist (R83, R85). -/
def knownWord (w : W64) : Bool := (decodeInsn 0 w).isSome

/-- The command that a table word spells: the opcode table of this block gives no row any bits, so none. -/
def decodeTableWord (_nbits _w : Nat) : Option Instr := none

end Sys2Proof
end

