-- ==== Sys2Proof/Machine/State.lean ====
section
/-! DEFINITION. The state of the EZA-4896 module: every register, buffer, queue, counter and mode that the spec gives it,
the packets in flight on its networks, and the queue of commands that wait. -/

namespace Sys2Proof.Machine

open Sys2Proof

/-- State of a core site (R11, Table 0.4). -/
inductive SiteSt where
  | fused | enabled | spare | retired
  deriving DecidableEq, Repr

/-- Messages between modules (Table 8.2 kinds, R242 to R290). -/
inductive ModMsg where
  | heartbeat
  | data (f : FabFlit)
  | linkState (links : List (Nat × Nat × Nat × Nat))
  | epochAdvance (epoch : W16)
  | fence (epoch : W16)
  | permuteDone
  | ready
  | jobStop
  | restart
  | pairing (feed reserve : Nat) (force : Bool)
  | pairingReply (feed : Nat) (status : W16)
  | snapBegin (part : Nat) (id : W64) (size : Nat) (pol : SnapPolicy)
  | snapRecord (part : Nat) (id : W64) (rec_ : PartRec)
  | confirm (part : Nat) (id : W64)
  | jobValid (part : Nat) (id : W64)
  | shelfDone (part : Nat) (id : W64) (stored : Bool)
  | generationLoss (part : Nat) (ids : List W64) (room : Nat)
  | snapAnnounce (part : Nat) (step : W64)
  | unit (part u : Nat) (epoch : W16) (bytes : List Byte) (digest : W64)
  | contrib (region unit : Nat)
  | resultDigest (part : Nat) (coll : W16) (digest : W64)
  | join (part : Nat) (m : Member)
  | joinRefused (part : Nat)
  | params (part : Nat) (regions : List GenRegion)
  | region (part : Nat) (id : W64) (r : GenRegion) (digest : W64)
  deriving DecidableEq, Repr

/-- What leaves the module or one of its units, newest first in `State.out`: replies, interrupts, messages and
signals on pins. -/
inductive Output where
  | reply (r : Reply)
  | hostWrite (agent : Nat) (addr : W64) (bytes : List Byte)
  | msix (agent vec : Nat)
  | flit (port : Nat) (m : ModMsg)
  | module_ (dst : Nat) (m : ModMsg)
  | meshFlit (kind : Nat) (dst : Nat) (args : List Nat)
  | bar (agent : Nat) (value : W64)
  | mctp (code : Nat) (args : List Nat)
  | pldm (type code : Nat) (args : List Nat)
  | spdm (agent : Nat) (code : Nat) (args : List Nat)
  | roce (port : Nat) (op : RoceOp)
  | eth (port : Nat) (code : Nat)
  | event (agent code : Nat) (args : List Nat)
  deriving DecidableEq, Repr

/-- The module. -/
structure State where
  cores : Tab Core := []
  fields : Tab Field := []
  sites : Tab SiteSt := []
  tg : TickGen := {}
  cols : Tab Col := []
  arrivals : List Arrival := []
  res : List ResFlit := []
  parts : Vector Part 16 := Vector.replicate 16 {}
  fab : Fab := {}
  pwr : Pwr := {}
  div : Divider := {}
  rck : Rck := {}
  host : HostIf := {}
  fw : Fw := {}
  sec : Sec := {}
  mesh : List MeshPkt := []
  out : List Output := []
  freeCtr : Nat := 0
  pending : List Instr := []
  deriving DecidableEq, Repr

/-- Reasons for a fault of the model. -/
inductive Fault where
  /-- Raised by no command today: kept for an access to an address that the spec says does not exist. Safe. -/
  | noSuchAddress (addr : Nat)
  deriving DecidableEq, Repr

/-- Reasons for a refusal. -/
inductive Refusal where
  /-- Raised by Dispatch for a command that has no meaning yet. Safe: no claim about the command can be proved. -/
  | notModelled (mnemonic : String)
  deriving DecidableEq, Repr

/-- The Spare sites of a module as it leaves manufacturing (R12): core indices 60 to 63 of every field (DESIGN CHOICE: the
manual gives the number and not the sites; log entry 5). -/
def spareSites : Tab SiteSt := (List.range 48).flatMap (fun f => (List.range 4).map (fun i => (64 * f + 60 + i, .spare)))

/-- The module in its power-on reset (Table 11.2, code 1), which it holds until RESET_RELEASE: every register at its reset
value. What manufacture wrote into OTP is left open. -/
def State.reset : State :=
  { sites := spareSites
    rck := { held := some 1 }
    sec := { ident := { moduleId := Config.moduleId, fwKeys := #v[Config.fwKeyHash 0, Config.fwKeyHash 1], mfgKey := Config.mfgKeyHash } } }

end Sys2Proof.Machine
end

