-- ==== Sys2Proof/Machine/Bank.lean ====
section
/-! DEFINITION. The banks of a core: the word code of R117 to R119, ownership (R123 to R125), reads, full and partial
writes (R118 to R124), the tick digest (R304) and the ring windows (R128 to R131). -/

namespace Sys2Proof.Machine

open Sys2Proof

/-- A counter that saturates at 0xFFFF_FFFF. -/
def satAdd (c : W32) (n : Nat) : W32 := BitVec.ofNat 32 (min (c.toNat + n) 0xFFFFFFFF)

/-- A record that keeps its first event: a later event sets MORE only. Of the events of one cycle it takes the lowest by
`lower` (R71). -/
def FirstRec.note {α : Type} (lower : α → α → Bool) (now : Stamp) (r : FirstRec α) (b : α) : FirstRec α :=
  if !r.valid then { valid := true, more := r.more, body := b, cycle := now }
  else if r.cycle = now && lower b r.body then { r with more := true, body := b }
  else { r with more := true }

/-- A clearing write: VALID, MORE and the body clear, then the events of the same cycle fill the record as they would fill
an empty one (R71). -/
def FirstRec.clear {α : Type} (lower : α → α → Bool) (now : Stamp) (d : α) (same : List α) : FirstRec α :=
  same.foldl (FirstRec.note lower now) { body := d }

/-- The lower store row, or the lower block within one row (R71). -/
def ChkBody.lower (a b : ChkBody) : Bool := a.row < b.row || (a.row = b.row && a.block < b.block)

/-- The lower kind code (R114). -/
def FaultBody.lower (a b : FaultBody) : Bool := a.kind < b.kind

/-- What an access or an instruction comes to: its result, a wait under an idle cause (none for a busy wait), or a
program fault with kind and DETAIL. -/
inductive Out (α : Type) where
  | ok (a : α)
  | wait (cause : Option Nat)
  | fault (kind detail : Nat)
  deriving DecidableEq, Repr

/-- Requesters of a bank with their REQ codes (BNK_ERR_REC). -/
inductive Req where
  | scalar | vector | feed | drain | adapter | dma | net | upe | host
  deriving DecidableEq, Repr

def Req.code : Req → Nat
  | .scalar => 0 | .vector => 1 | .feed => 2 | .drain => 3 | .adapter => 4
  | .dma => 5 | .net => 6 | .upe => 7 | .host => 8

/-- Table 4.4: whether an owner code admits a requester. -/
def Req.admitted (r : Req) (own : Nat) : Bool :=
  match r with
  | .dma | .net => own == 0 || own == 1
  | .upe => own == 3
  | .host => own == 2
  | _ => own == 0

/-- The fault kind of a refused access, by requester (R124). -/
def Req.ownerKind : Req → Nat
  | .dma => 0x55 | .net => 0x47 | .upe => 0x04 | _ => 0x08

/-- The fault kind of an uncorrectable read, by requester (Table 4.2). -/
def Req.uncorrKind : Req → Nat
  | .dma => 0x56 | .net => 0x48 | .upe => 0x05 | _ => 0x09

/-! ## The word code -/

/-- Multiplication by α = 0x02 in GF(2^8) with x^8 + x^4 + x^3 + x^2 + 1 (R117). -/
def gfX (a : Byte) : Byte := if a.msb then (a <<< 1) ^^^ 0x1D#8 else a <<< 1

def gfMulAux : Nat → Byte → Byte → Byte → Byte
  | 0, _, _, acc => acc
  | n + 1, a, b, acc => gfMulAux n (gfX a) (b >>> 1) (if b.getLsbD 0 then acc ^^^ a else acc)

/-- Product in GF(2^8). -/
def gfMul (a b : Byte) : Byte := gfMulAux 8 a b 0

def gfPow (a : Byte) : Nat → Byte
  | 0 => 1
  | n + 1 => gfMul a (gfPow a n)

/-- The inverse: a^254. -/
def gfInv (a : Byte) : Byte :=
  let a2 := gfMul a a
  let a4 := gfMul a2 a2
  let a8 := gfMul a4 a4
  let a16 := gfMul a8 a8
  let a32 := gfMul a16 a16
  let a64 := gfMul a32 a32
  let a128 := gfMul a64 a64
  gfMul a128 (gfMul a64 (gfMul a32 (gfMul a16 (gfMul a8 (gfMul a4 a2)))))

/-- One step of the division by g(x) = (x + 1)(x + α)(x + α²)(x + α³): remainder bytes, highest power first. -/
def rsStep (r : Byte × Byte × Byte × Byte) (d : Byte) : Byte × Byte × Byte × Byte :=
  let f := d ^^^ r.1
  (r.2.1 ^^^ gfMul f 0x0F#8, r.2.2.1 ^^^ gfMul f 0x36#8, r.2.2.2 ^^^ gfMul f 0x78#8, gfMul f 0x40#8)

/-- The four check bytes of 64 data bytes (R117). -/
def rsCheck (data : List Byte) : List Byte :=
  let r := data.foldl rsStep (0, 0, 0, 0)
  [r.1, r.2.1, r.2.2.1, r.2.2.2]

/-- The field element of symbol i: the coefficient of x^(67 − i). -/
def rsLoc (i : Nat) : Byte := gfPow 2#8 (67 - i)

/-- Syndrome j of an error pattern: its value at α^j. -/
def rsSyndrome (e : List (Nat × Byte)) (j : Nat) : Byte :=
  e.foldl (fun acc p => acc ^^^ gfMul p.2 (gfPow (rsLoc p.1) j)) 0

/-- A single-symbol correction with the given syndromes, if symbol i has one. -/
def rsFit1 (s0 s1 s2 s3 : Byte) (i : Nat) : Option (List (Nat × Byte)) :=
  let x := rsLoc i
  if s0 ≠ 0 ∧ gfMul s0 x = s1 ∧ gfMul s1 x = s2 ∧ gfMul s2 x = s3 then some [(i, s0)] else none

/-- A correction of symbols i and j with the given syndromes, if one exists. -/
def rsFit2 (s0 s1 s2 s3 : Byte) (i j : Nat) : Option (List (Nat × Byte)) :=
  let x := rsLoc i
  let y := rsLoc j
  let b := gfMul (s1 ^^^ gfMul s0 x) (gfInv (x ^^^ y))
  let a := s0 ^^^ b
  if a ≠ 0 ∧ b ≠ 0 ∧ gfMul (gfMul a x) x ^^^ gfMul (gfMul b y) y = s2 ∧
      gfMul (gfMul (gfMul a x) x) x ^^^ gfMul (gfMul (gfMul b y) y) y = s3 then some [(i, a), (j, b)] else none

/-- The decoder: the correction of at most two symbols that matches an error pattern, none when there is none (R118,
R119). The code is linear, so the correction depends on the error pattern alone. -/
def rsCorrection (e : List (Nat × Byte)) : Option (List (Nat × Byte)) :=
  let s0 := rsSyndrome e 0
  let s1 := rsSyndrome e 1
  let s2 := rsSyndrome e 2
  let s3 := rsSyndrome e 3
  if s0 = 0 ∧ s1 = 0 ∧ s2 = 0 ∧ s3 = 0 then some []
  else match (List.range 68).findSome? (rsFit1 s0 s1 s2 s3) with
    | some c => some c
    | none => (List.range 68).findSome? (fun i => ((List.range 68).drop (i + 1)).findSome? (rsFit2 s0 s1 s2 s3 i))

/-- Cut a list into pieces of `n`. -/
def chunks {α : Type} (n : Nat) : Nat → List α → List (List α)
  | 0, _ => []
  | k + 1, l => l.take n :: chunks n k (l.drop n)

/-! ## Words -/

/-- The bank of word address w = A[22:6] (Table 4.1). -/
def bankOf (w : Nat) : Nat := 8 * (w / 0x8000) + w % 8

/-- The word within its bank, A[20:9]. -/
def wordInBank (w : Nat) : Nat := w / 8 % 0x1000

/-- The word address of word `i` of bank `b`. -/
def wordOf (b i : Nat) : Nat := b / 8 * 0x8000 + i * 8 + b % 8

/-- The owner code of a bank in a 64-bit ownership image. -/
def ownOf (o : W64) (b : Nat) : Nat := o.toNat / 4 ^ b % 4

/-- The lower bank number (R137). -/
def BankErrBody.lower (a b : BankErrBody) : Bool := bankOf a.word < bankOf b.word

/-- The 64 stored data bytes of a word, errors left out. -/
def Bank.word (b : Bank) (w : Nat) : List Byte := Tab.getRange 0 b.data (64 * w) 64

/-- The error pattern of a word: symbol and difference. -/
def Bank.errOf (b : Bank) (w : Nat) : List (Nat × Byte) :=
  (b.err.filter (fun p => p.1 / 68 = w)).map (fun p => (p.1 % 68, p.2))

/-- Apply symbol differences to the 64 data bytes. -/
def applyDelta (d : List (Nat × Byte)) (bs : List Byte) : List Byte :=
  bs.mapIdx (fun i x => d.foldl (fun acc p => if p.1 = i then acc ^^^ p.2 else acc) x)

/-- What a read of a word delivers, and whether it was corrected; none when it is uncorrectable (R118, R119). -/
def Bank.decoded (b : Bank) (w : Nat) : Option (List Byte × Bool) :=
  match b.errOf w with
  | [] => some (b.word w, false)
  | e => match rsCorrection e with
    | none => none
    | some c => some (applyDelta (e ++ c) (b.word w), !c.isEmpty)

/-- Store a codeword: the data bytes and no error. -/
def Bank.store (b : Bank) (w : Nat) (bs : List Byte) : Bank :=
  { b with
    data := Tab.setRange 0 b.data (64 * w) bs
    err := b.err.filter (fun p => p.1 / 68 ≠ w)
    writeBack := b.writeBack.erase w }

/-- Whether a requester may reach a bank now: under a handover the new owner waits, and everyone else is refused (R124,
R125). -/
def Bank.grant (b : Bank) (r : Req) (w : Nat) : Out Unit :=
  let k := bankOf w
  if b.busy.getLsbD k then .fault r.ownerKind 0
  else if b.pend.getLsbD k then
    if r.admitted (ownOf b.target k) then .wait (some 5) else .fault r.ownerKind 0
  else if r.admitted (ownOf b.own k) then .ok () else .fault r.ownerKind 0

/-- Admit every access of a request, in address order, before any word is read (a refusal has the lower kind code, R85):
the byte address of the first refusal is its DETAIL and REJECTS counts it (R124). -/
def Bank.admitAll (r : Req) : List (Nat × Nat) → Bank → Bank × Out Unit
  | [], b => (b, .ok ())
  | (addr, w) :: ws, b =>
    match b.grant r w with
    | .ok _ => Bank.admitAll r ws b
    | .wait c => (b, .wait c)
    | .fault k _ => ({ b with rejects := satAdd b.rejects 1 }, .fault k addr)

/-- Whether a read of a bad word shares its access with another requester's read of the same cycle, which has been counted
(Table 4.3). -/
def Bank.shared (b : Bank) (r : Req) (now : Stamp) (w : Nat) : Bool :=
  b.counted.any (fun p => p.1 = w && p.2.1 ≠ r.code && p.2.2 = now)

/-- A read of a bad word is noted with its cycle; those of earlier cycles go. -/
def Bank.count (b : Bank) (r : Req) (now : Stamp) (w : Nat) : Bank :=
  { b with counted := (w, r.code, now) :: b.counted.filter (fun p => p.2.2 = now) }

/-- A corrected read (R118): counted, and written back later. -/
def Bank.noteCorr (b : Bank) (r : Req) (now : Stamp) (w : Nat) : Bank :=
  if b.shared r now w then b
  else { b.count r now w with
    corr := satAdd b.corr 1
    writeBack := if b.writeBack.contains w then b.writeBack else w :: b.writeBack }

/-- An uncorrectable read (R119): counted and recorded. -/
def Bank.noteUncorr (b : Bank) (r : Req) (now : Stamp) (w : Nat) : Bank :=
  if b.shared r now w then b
  else { b.count r now w with
    uncorr := satAdd b.uncorr 1
    record := b.record.note BankErrBody.lower now { req := r.code, word := w, at_ := now } }

/-- Read one word (R118, R119, R124): `addr` is the byte address that a refusal names. -/
def Bank.readWord (b : Bank) (r : Req) (now : Stamp) (addr w : Nat) : Bank × Out (List Byte) :=
  match b.grant r w with
  | .wait c => (b, .wait c)
  | .fault k _ => ({ b with rejects := satAdd b.rejects 1 }, .fault k addr)
  | .ok _ =>
    match b.decoded w with
    | some (bs, false) => (b, .ok bs)
    | some (bs, true) => (b.noteCorr r now w, .ok bs)
    | none => (b.noteUncorr r now w, .fault r.uncorrKind (64 * w))

/-- The words that a requester reads in one cycle: 256 bytes for the feed, VLD and the side-path (R81, R82, R94), one word
for the others. -/
def Req.perCycle : Req → Nat
  | .vector | .feed | .adapter => 4
  | _ => 1

/-- Read the words of one cycle, all of them: each bad word counts; the first refusal, wait or uncorrectable word answers. -/
def Bank.readCycle (r : Req) (now : Stamp) (addr : Nat) : List Nat → Bank → Bank × Out (List Byte)
  | [], b => (b, .ok [])
  | w :: ws, b =>
    let one := b.readWord r now (max addr (64 * w)) w
    let rest := Bank.readCycle r now addr ws one.1
    match one.2, rest.2 with
    | .ok bs, .ok more => (rest.1, .ok (bs ++ more))
    | .ok _, o => (rest.1, o)
    | .wait c, _ => (rest.1, .wait c)
    | .fault k d, _ => (rest.1, .fault k d)

/-- Read words cycle after cycle; the first cycle with a refusal, a wait or an uncorrectable word ends the access. -/
def Bank.readCycles (r : Req) (now : Stamp) (addr : Nat) : List (List Nat) → Bank → Bank × Out (List Byte)
  | [], b => (b, .ok [])
  | ws :: wss, b =>
    match Bank.readCycle r now addr ws b with
    | (b1, .ok bs) =>
      match Bank.readCycles r now addr wss b1 with
      | (b2, .ok rest) => (b2, .ok (bs ++ rest))
      | (b2, .wait c) => (b2, .wait c)
      | (b2, .fault k d) => (b2, .fault k d)
    | (b1, .wait c) => (b1, .wait c)
    | (b1, .fault k d) => (b1, .fault k d)

/-- Read words in order. -/
def Bank.readWords (r : Req) (now : Stamp) (addr : Nat) (ws : List Nat) (b : Bank) : Bank × Out (List Byte) :=
  Bank.readCycles r now addr (chunks r.perCycle ((ws.length + r.perCycle - 1) / r.perCycle) ws) b

/-- The word addresses that `len` bytes from `addr` touch. -/
def wordsOf (addr len : Nat) : List Nat :=
  if len = 0 then [] else (List.range ((addr + len - 1) / 64 - addr / 64 + 1)).map (· + addr / 64)

/-- Read `len` bytes at `addr`. -/
def Bank.read (b : Bank) (r : Req) (now : Stamp) (addr len : Nat) : Bank × Out (List Byte) :=
  match Bank.admitAll r ((wordsOf addr len).map (fun w => (max addr (64 * w), w))) b with
  | (b0, .wait c) => (b0, .wait c)
  | (b0, .fault k d) => (b0, .fault k d)
  | (b0, .ok _) =>
    match Bank.readWords r now addr (wordsOf addr len) b0 with
    | (b1, .ok bs) => (b1, .ok ((bs.drop (addr % 64)).take len))
    | (b1, .wait c) => (b1, .wait c)
    | (b1, .fault k d) => (b1, .fault k d)

/-- A write cut into words: word address and 64 byte lanes, `none` where a lane is not written. -/
abbrev WordWrite := Nat × List (Option Byte)

def cutWords : Nat → Nat → List (Option Byte) → List WordWrite
  | 0, _, _ => []
  | n + 1, w, l => (w, l.take 64) :: cutWords n (w + 1) (l.drop 64)

/-- The word writes of byte lanes from `addr` on. -/
def wordWrites (addr : Nat) (lanes : List (Option Byte)) : List WordWrite :=
  let n := (wordsOf addr lanes.length).length
  let l := List.replicate (addr % 64) none ++ lanes
  cutWords n (addr / 64) (l ++ List.replicate (64 * n - l.length) none)

/-- Merge written lanes over a word's bytes. -/
def mergeLanes : List (Option Byte) → List Byte → List Byte
  | some x :: l, _ :: r => x :: mergeLanes l r
  | none :: l, y :: r => y :: mergeLanes l r
  | _, r => r

/-- Prepare word writes: a word with no lane is not written, a whole word needs admission only, and a partial write reads
the word first (R121, R124); the words of one VST are read in one cycle, so each bad one counts. -/
def Bank.prepare (r : Req) (now : Stamp) : List WordWrite → Bank → Bank × Out (List (Nat × List Byte))
  | [], b => (b, .ok [])
  | (w, l) :: ws, b =>
    if l.all Option.isNone then Bank.prepare r now ws b
    else
      let first := 64 * w + (l.findIdx Option.isSome)
      let one : Bank × Out (List Byte) :=
        if l.all Option.isSome then
          match b.grant r w with
          | .ok _ => (b, .ok (l.map (·.getD 0)))
          | .wait c => (b, .wait c)
          | .fault k _ => ({ b with rejects := satAdd b.rejects 1 }, .fault k first)
        else
          match b.readWord r now first w with
          | (b1, .ok bs) => (b1, .ok (mergeLanes l bs))
          | (b1, .wait c) => (b1, .wait c)
          | (b1, .fault k d) => (b1, .fault k d)
      match one with
      | (b1, .wait c) => (b1, .wait c)
      | (b1, .fault k d) => (if r.perCycle = 1 then b1 else (Bank.prepare r now ws b1).1, .fault k d)
      | (b1, .ok bs) =>
        match Bank.prepare r now ws b1 with
        | (b2, .ok rest) => (b2, .ok ((w, bs) :: rest))
        | (b2, .wait c) => (b2, .wait c)
        | (b2, .fault k d) => (b2, .fault k d)

/-- Store one word of a requester and add its CRC to the tick digest (R304). -/
def Core.storeWord (c : Core) (p : Nat × List Byte) : Core :=
  { c with
    bank := c.bank.store p.1 p.2
    digest := c.digest + crc64 (bytesLE p.1 8 ++ p.2) }

/-- Write byte lanes at `addr`: all of them, or none when any word is refused, waits or cannot be read (R113, R121). -/
def Core.writeLanes (c : Core) (r : Req) (now : Stamp) (addr : Nat) (lanes : List (Option Byte)) : Core × Out Unit :=
  let wr := (wordWrites addr lanes).filter (fun p => p.2.any Option.isSome)
  match Bank.admitAll r (wr.map (fun p => (64 * p.1 + p.2.findIdx Option.isSome, p.1))) c.bank with
  | (b, .wait w) => ({ c with bank := b }, .wait w)
  | (b, .fault k d) => ({ c with bank := b }, .fault k d)
  | (b0, .ok _) =>
    match Bank.prepare r now wr b0 with
    | (b, .ok ws) => (ws.foldl Core.storeWord { c with bank := b }, .ok ())
    | (b, .wait w) => ({ c with bank := b }, .wait w)
    | (b, .fault k d) => ({ c with bank := b }, .fault k d)

def Core.writeBytes (c : Core) (r : Req) (now : Stamp) (addr : Nat) (bs : List Byte) : Core × Out Unit :=
  c.writeLanes r now addr (bs.map some)

def Core.readBytes (c : Core) (r : Req) (now : Stamp) (addr len : Nat) : Core × Out (List Byte) :=
  match c.bank.read r now addr len with
  | (b, .ok bs) => ({ c with bank := b }, .ok bs)
  | (b, .wait w) => ({ c with bank := b }, .wait w)
  | (b, .fault k d) => ({ c with bank := b }, .fault k d)

/-! ## Ring windows -/

def Core.window (c : Core) (n : Nat) : Win := c.win.toList.getD n {}

def Core.setWindow (c : Core) (n : Nat) (w : Win) : Core :=
  if h : n < 16 then { c with win := c.win.set n w h } else c

/-- (head − tail) mod (2 × size) (R129). -/
def Win.fill (w : Win) : Nat := if w.size = 0 then 0 else (w.head + 2 * w.size - w.tail) % (2 * w.size)
def Win.space (w : Win) : Nat := w.size - w.fill
/-- The bank address of position p. -/
def Win.addr (w : Win) (p : Nat) : Nat := w.base + (if p < w.size then p else p - w.size)
def Win.advance (w : Win) (p n : Nat) : Nat := if w.size = 0 then 0 else (p + n) % (2 * w.size)

/-- The contiguous pieces (address, length) of `n` bytes from position p: at most two, as n ≤ SIZE. -/
def Win.pieces (w : Win) (p n : Nat) : List (Nat × Nat) :=
  let ofs := if p < w.size then p else p - w.size
  let first := min n (w.size - ofs)
  (if first = 0 then [] else [(w.base + ofs, first)]) ++ (if n - first = 0 then [] else [(w.base, n - first)])

def Core.readPieces (r : Req) (now : Stamp) : List (Nat × Nat) → Core → Core × Out (List Byte)
  | [], c => (c, .ok [])
  | (a, n) :: ps, c =>
    match c.readBytes r now a n with
    | (c1, .ok bs) =>
      match Core.readPieces r now ps c1 with
      | (c2, .ok rest) => (c2, .ok (bs ++ rest))
      | (c2, .wait w) => (c2, .wait w)
      | (c2, .fault k d) => (c2, .fault k d)
    | (c1, .wait w) => (c1, .wait w)
    | (c1, .fault k d) => (c1, .fault k d)

/-- Take `n` bytes from the tail of window `k`; the fill must cover them (R130). -/
def Core.consume (c : Core) (r : Req) (now : Stamp) (k n : Nat) : Core × Out (List Byte) :=
  let w := c.window k
  match Core.readPieces r now (w.pieces w.tail n) c with
  | (c1, .ok bs) => (c1.setWindow k { w with tail := w.advance w.tail n }, .ok bs)
  | (c1, .wait x) => (c1, .wait x)
  | (c1, .fault f d) => (c1, .fault f d)

/-- Append bytes at the head of window `k`; the space must hold them (R130). -/
def Core.produce (c : Core) (r : Req) (now : Stamp) (k : Nat) (bs : List Byte) : Core × Out Unit :=
  let w := c.window k
  let p := w.pieces w.head bs.length
  let first := (p.head?.map Prod.snd).getD 0
  let base := (p.head?.map Prod.fst).getD 0
  match c.writeBytes r now base (bs.take first) with
  | (c1, .ok _) =>
    match (if bs.length ≤ first then (c1, .ok ()) else c1.writeBytes r now w.base (bs.drop first)) with
    | (c2, .ok _) => (c2.setWindow k { w with head := w.advance w.head bs.length }, .ok ())
    | (c2, .wait x) => (c2, .wait x)
    | (c2, .fault f d) => (c2, .fault f d)
  | (c1, .wait x) => (c1, .wait x)
  | (c1, .fault f d) => (c1, .fault f d)

end Sys2Proof.Machine
end

