-- ==== Sys2Proof/Machine/Operands.lean ====
section
/-! DEFINITION. The operands of a core's instructions: scalar, vector and mask registers (R79, R80), their byte views,
row records (R81), packed elements, and the write of a masked vector result (R86). -/

namespace Sys2Proof.Machine

open Sys2Proof

/-- Read a scalar register: S0 reads zero (Table 3.2). -/
def Core.S (c : Core) (k : BitVec 5) : W64 := if k = 0 then 0 else c.sr[k.toNat]

/-- Write a scalar register: writes to S0 are discarded (Table 3.2). -/
def Core.setS (c : Core) (k : BitVec 5) (v : W64) : Core :=
  if k = 0 then c else { c with sr := c.sr.set k.toNat v }

abbrev VReg := Vector W32 64

/-- Read a vector register. -/
def Core.V (c : Core) (k : BitVec 5) : VReg := c.vr[k.toNat]
def Core.setV (c : Core) (k : BitVec 5) (v : VReg) : Core := { c with vr := c.vr.set k.toNat v }

/-- Read a mask register: M0 reads all ones (Table 3.2). -/
def Core.M (c : Core) (k : BitVec 3) : W64 := if k = 0 then BitVec.allOnes 64 else c.mr[k.toNat]
/-- Write a mask register: M0 cannot be written (Table 3.2). -/
def Core.setM (c : Core) (k : BitVec 3) (v : W64) : Core :=
  if k = 0 then c else { c with mr := c.mr.set k.toNat v }

/-- Read a local semaphore. -/
def Core.L (c : Core) (k : Nat) : W16 := c.sem.toList.getD k 0
def Core.setL (c : Core) (k : Nat) (v : W16) : Core :=
  if h : k < 64 then { c with sem := c.sem.set k v h } else c

/-- The 256 bytes of a vector register (R80). -/
def vregBytes (v : VReg) : List Byte := v.toList.flatMap (fun x => bytesLE x.toNat 4)

/-- The vector register of 256 bytes (R80). -/
def vregOf (bs : List Byte) : VReg :=
  Vector.ofFn (fun i => BitVec.ofNat 32 (natLE ((bs.drop (4 * i.val)).take 4)))

/-- The image of a vector register as a number: bit 0 of the first byte is bit 0 (R80). -/
def vregNat (v : VReg) : Nat := v.toList.foldr (fun x a => x.toNat + 2 ^ 32 * a) 0

/-- A vector register from its image. -/
def vregOfNat (n : Nat) : VReg := Vector.ofFn (fun i => BitVec.ofNat 32 (n / 2 ^ (32 * i.val)))

/-- Element i of width w of a packed image (R80). -/
def packedAt (img w i : Nat) : Nat := img / 2 ^ (w * i) % 2 ^ w

/-- Pack elements of width w (R80). -/
def pack (w : Nat) : List Nat → Nat
  | [] => 0
  | c :: r => c % 2 ^ w + 2 ^ w * pack w r

/-- Replace `n` bits of an image from bit `lo`. -/
def putBits (img lo n v : Nat) : Nat :=
  img % 2 ^ lo + (v % 2 ^ n) * 2 ^ lo + img / 2 ^ (lo + n) * 2 ^ (lo + n)

/-- E of Table 3.3: element bytes of a 128-element row. -/
def rowElemBytes (fmt : Nat) : Nat := 16 * elemBits fmt

/-- Bytes of a row record in banks: Table 3.3, and 264 for BF16 (R81). -/
def recBytes (fmt : Nat) : Nat := rowElemBytes fmt + 8

/-- Scale code of block b of a row record (R81). -/
def recScale (fmt img b : Nat) : Nat := img / 2 ^ (8 * (rowElemBytes fmt + b)) % 256

/-- The variant tag of an MX row record: bits [9:0] of its tag word (R81, R101). -/
def recTag (fmt img : Nat) : Nat := img / 2 ^ (8 * (rowElemBytes fmt + 4)) % 1024

/-- R86: lanes whose mask bit is 0 keep the old value, or become zero with ZM. -/
def maskWrite (old new : VReg) (m : W64) (zm : Bool) : VReg :=
  Vector.ofFn (fun i => if m.getLsbD i.val then new[i] else if zm then 0 else old[i])

/-- Write a vector result under the instruction's mask (R86). -/
def Core.putV (c : Core) (f : VecF) (new : VReg) : Core :=
  c.setV f.vd (maskWrite (c.V f.vd) new (c.M f.mask) (f.zm == 1))

/-- A value times 2^k. -/
def fpScale (v : Fp) (k : Int) : Fp :=
  match v with
  | .fin s m e => .fin s m (e + k)
  | v => v

/-- An FP value times the power of two of a scale exponent; a NaN scale gives NaN (R46, R51). -/
def fpScaled (v : Fp) : Option Int → Fp
  | none => .nan
  | some k => fpScale v k

/-- Sum of two scale exponents; NaN when either is (R46). -/
def addExp : Option Int → Option Int → Option Int
  | some a, some b => some (a + b)
  | _, _ => none

/-- R40: the pairings of Table 2.1. -/
def pairs (afmt wfmt : Nat) : Bool :=
  (afmt ≤ 4 && wfmt ≤ 4) || (afmt == 5 && wfmt == 5) || (afmt == 6 && wfmt == 6)

/-- The word of the instruction store at an index: its code corrects one flipped bit and detects two (R106), and what it
does with more is open. None is a detected uncorrectable word. -/
def Core.fetch (c : Core) (i : Nat) : Option W64 :=
  let flips := ((c.ierr.filter (fun p => p.1 = i)).map Prod.snd).dedup
  if flips.length ≤ 1 then some (Tab.get 0 c.istore i)
  else if flips.length = 2 then none
  else Config.wordBeyond (Tab.get 0 c.istore i) flips

/-- What an instruction does beside its core: the target of a taken branch, and arrivals for the col unit. -/
structure Eff where
  jump : Option Nat := none
  arrivals : List Arrival := []
  deriving DecidableEq, Repr

/-- DETAIL of ILLEGAL_INSN: bits [63:32] of the word (Table 3.11). -/
def hiWord (w : W64) : Nat := w.toNat / 2 ^ 32

/-- The cause by which a unit's full queue stops the sequencer: no code of Table 3.8. -/
def queueFull : Nat := 8

/-- Registers that group drains and side reads in the array's queue have still to write (R77). -/
def ArrOp.vRegs : ArrOp → List Nat
  | .gdrainV _ _ _ vd => [vd, vd + 1]
  | _ => []

def ArrOp.sRegs : ArrOp → List Nat
  | .gside _ sd => [sd]
  | _ => []

/-- A V24 to V31 that an instruction names while the last staging instruction is a STAGE: REG_BUSY (R82). When it names
several, which one is open (log 64). -/
def Core.regBusy (c : Core) (vs : List Nat) : Option Nat :=
  if c.seq.ord = .stage then
    match (vs.filter (fun v => 24 ≤ v && v ≤ 31)).dedup with
    | [] => none
    | [v] => some v
    | l => l[Config.busyPick l % l.length]?
  else none

/-- The first fault, in kind order, of a list of conditions with kind and DETAIL (R85). -/
def firstFault : List (Bool × Nat × Nat) → Option (Nat × Nat)
  | [] => none
  | (b, k, d) :: r => if b then some (k, d) else firstFault r

end Sys2Proof.Machine
end

