-- ==== Sys2Proof/Machine/Flags.lean ====
section
/-! DEFINITION. Status that instructions compute: compare results into masks (R89), semaphore counts (R98), loop and
branch control (R96), the suspect bits and the check lane's verdicts (R68 to R70). A core has no condition flags. -/

namespace Sys2Proof.Machine

open Sys2Proof

/-- A mask image from a predicate on lanes. -/
def laneMask (p : Nat → Bool) : W64 :=
  BitVec.ofNat 64 ((List.range 64).foldr (fun i a => (if p i then 1 else 0) + 2 * a) 0)

/-- R89: bit L is 1 where the relation holds and the instruction's mask bit is 1. -/
def compareMask (rel : W32 → W32 → Bool) (a b : VReg) (m : W64) : W64 :=
  laneMask (fun i => m.getLsbD i && rel (a.toList.getD i 0) (b.toList.getD i 0))

/-- FCMPLE: less or equal, false when either operand is NaN. -/
def fle32 (a b : W32) : Bool := flt32 a b || feq32 a b
/-- FCMPUN: true when either operand is NaN. -/
def fun32 (a b : W32) : Bool := isNan32 a || isNan32 b

/-- Number of set bits. -/
def popCount (n : Nat) (v : Nat) : Nat := (List.range n).countP (fun i => v.testBit i)

/-- Post `n` to a semaphore: above 65,535 it raises SEM_OVERFLOW (R98). -/
def Core.post (c : Core) (k n : Nat) : Core × Out Unit :=
  if (c.L k).toNat + n > 65535 then (c, .fault 0x20 k)
  else (c.setL k (BitVec.ofNat 16 ((c.L k).toNat + n)), .ok ())

/-- The end of the word at `pc`: the innermost loop that ends here repeats or closes (R96). -/
def loopEnd (pc : Nat) : List LoopFrame → Nat × List LoopFrame
  | [] => ((pc + 1) % 16384, [])
  | f :: r =>
    if f.stop = pc then
      if 1 < f.left then (f.start, { f with left := f.left - 1 } :: r) else loopEnd pc r
    else ((pc + 1) % 16384, f :: r)

/-- A branch to `t` closes every open loop whose body it leaves, and every deeper one (R96); innermost loop first. -/
def loopsAt (t : Nat) (l : List LoopFrame) : List LoopFrame :=
  (l.reverse.takeWhile (fun f => f.start ≤ t && t ≤ f.stop)).reverse

/-- Move past the instruction at the program counter, or to the target of a taken branch. -/
def Seq.advance (q : Seq) : Option Nat → Seq
  | some t => { q with st := .running, full := false, pc := t, loops := loopsAt t q.loops }
  | none => let n := loopEnd q.pc q.loops; { q with st := .running, full := false, pc := n.1, loops := n.2 }

end Sys2Proof.Machine
end

