-- ==== Sys2Proof/Machine/Array.lean ====
section
/-! DEFINITION. The matrix array (chapter 02) and headed tiles (chapter 05): tile images, tile passes, accumulation groups,
drains, the check lane and the array's queue. -/

namespace Sys2Proof.Machine

open Sys2Proof

/-! ## Tile images -/

/-- Element bytes of a dense tile (Table 2.2). -/
def tileElemBytes (fmt : Nat) : Nat := 2048 * elemBits fmt
/-- Bytes of a dense tile with its scales (R34, Table 1.3). -/
def denseBytes (fmt : Nat) : Nat := tileElemBytes fmt + if fmt = 6 then 0 else 512
/-- G of Table 5.3. -/
def sfmtG (sfmt : Nat) : Nat := match sfmt with | 1 => 2 | 2 => 4 | 3 => 4 | _ => 1
/-- Code bits per value (Table 5.3). -/
def sfmtCode (sfmt : Nat) : Nat := match sfmt with | 3 => 4 | _ => 2
/-- Bytes of a structured tile image (Table 5.3). -/
def structBytes (sfmt efmt : Nat) : Nat := 8 + tileElemBytes efmt + 2048 * sfmtCode sfmt + 512 * sfmtG sfmt
/-- Bytes of a compressed BM16 image (R149). -/
def bm16Bytes (efmt nnz : Nat) : Nat := 8 + 2048 + 512 + (nnz * elemBits efmt + 63) / 64 * 8
/-- Tile stride of a parameter region (R201): the image padded to 64 bytes, BM16 by its DENSE 1 form. -/
def tileStride (sfmt efmt : Nat) : Nat :=
  let n := if sfmt = 0 then denseBytes efmt else if sfmt = 4 then denseBytes efmt + 8 else structBytes sfmt efmt
  (n + 63) / 64 * 64

/-- The fields of a tile header (Table 5.1). -/
structure TileHdr where
  nnz : Nat
  size : Nat
  magic : Nat
  trans : Bool
  dense : Bool
  efmt : Nat
  sfmt : Nat
  rsv : Bool
  deriving DecidableEq, Repr

def tileHdr (h : Nat) : TileHdr :=
  { nnz := h / 2 ^ 48 % 65536, size := h / 2 ^ 32 % 65536, magic := h / 2 ^ 24 % 256, trans := h.testBit 17,
    dense := h.testBit 16, efmt := h / 2 ^ 8 % 16, sfmt := h % 16,
    rsv := h / 2 ^ 18 % 64 ≠ 0 || h / 2 ^ 12 % 16 ≠ 0 || h / 2 ^ 4 % 16 ≠ 0 }

/-- Table 5.2: the reason of the first failing check, 0 when none fails (R142). -/
def TileHdr.reason (h : TileHdr) (wfmt : Nat) : Nat :=
  if h.magic ≠ 0xE5 then 1
  else if h.sfmt = 0 || 4 < h.sfmt || 5 < h.efmt || h.rsv then 2
  else if h.efmt ≠ wfmt then 3
  else if (h.sfmt = 1 && !h.trans) || ((h.sfmt = 2 || h.sfmt = 4) && h.trans) || (h.sfmt ≠ 4 && h.dense) then 4
  else if h.sfmt ≠ 4 then (if h.size * 8 = structBytes h.sfmt h.efmt then 0 else 5)
  else if h.dense then (if h.size * 8 = denseBytes h.efmt + 8 then 0 else 5)
  else if h.size * 8 = bm16Bytes h.efmt h.nnz && h.size * 8 ≤ denseBytes h.efmt + 8 then 0 else 5

/-- Bits [lo, lo + n) of an image, byte counts. -/
def sliceBytes (img lo n : Nat) : Nat := img / 2 ^ (8 * lo) % 2 ^ (8 * n)

/-- Stored elements of a compressed BM16 tile, placed at their dense positions (R149): bitmap bit 128j + k marks row k of
column j, and values come in ascending bit order. -/
def bm16Expand (w bitmaps vals : Nat) : Nat :=
  ((List.range 16384).foldl (fun (st : Nat × Nat) i =>
    if bitmaps.testBit i then
      (st.1 + packedAt vals w st.2 * 2 ^ (w * (128 * (i % 128) + i / 128)), st.2 + 1)
    else st) (0, 0)).1

/-- A dense tile image (R41). -/
def denseTile (fmt raw : Nat) : Tile :=
  { efmt := fmt, vals := sliceBytes raw 0 (tileElemBytes fmt),
    scales := if fmt = 6 then 0 else sliceBytes raw (tileElemBytes fmt) 512, raw := raw, rawLen := denseBytes fmt }

/-- A headed tile image (R143, R149, R150). -/
def headedTile (raw len : Nat) : Tile :=
  let h := tileHdr (raw % 2 ^ 64)
  let eb := tileElemBytes h.efmt
  let base : Tile := { sfmt := h.sfmt, efmt := h.efmt, g := sfmtG h.sfmt, headed := true, denseBit := h.dense, trans := h.trans, nnz := h.nnz, raw := raw, rawLen := len }
  if h.sfmt ≠ 4 then
    let cb := 2048 * sfmtCode h.sfmt
    { base with vals := sliceBytes raw 8 eb, codes := sliceBytes raw (8 + eb) cb, scales := sliceBytes raw (8 + eb + cb) (512 * sfmtG h.sfmt) }
  else if h.dense then
    { base with vals := sliceBytes raw 8 eb, scales := sliceBytes raw (8 + eb) 512 }
  else
    { base with vals := bm16Expand (elemBits h.efmt) (sliceBytes raw 8 2048) (raw / 2 ^ (8 * 2568)), codes := sliceBytes raw 8 2048, scales := sliceBytes raw 2056 512 }

/-- Whether the array reads positions from codes (Table 5.3). -/
def Tile.structured (t : Tile) : Bool := t.headed && t.sfmt ≠ 4

/-- Group width in k of a structured format. -/
def Tile.gw (t : Tile) : Nat := if t.sfmt = 3 then 16 else 4

/-- Cells that serve a logical column within one group. -/
def Tile.perGroup (t : Tile) : Nat := match t.sfmt with | 1 => 2 | 3 => 4 | _ => 1

/-- Element code of value index v. -/
def Tile.elem (t : Tile) (v : Nat) : Nat := packedAt t.vals (elemBits t.efmt) v

def Tile.code (t : Tile) (v : Nat) : Nat := packedAt t.codes (sfmtCode t.sfmt) v

/-- The stored elements (reduction row k, element code) of logical column j in block b, ascending (R48, R143). -/
def Tile.column (t : Tile) (j b : Nat) : List (Nat × Nat) :=
  if t.structured then
    let n := t.perGroup
    let s := j / 128
    (List.range (32 / t.gw)).flatMap (fun i =>
      let q := 32 * b / t.gw + i
      (List.range n).map (fun x =>
        let v := 128 * (t.gw * q + n * s + x) + j % 128
        (t.gw * q + t.code v, t.elem v)))
  else (List.range 32).map (fun i => (32 * b + i, t.elem (128 * (32 * b + i) + j)))

/-- Scale exponent of logical column j, block b (R48, R143); 0 for BF16. -/
def Tile.scale (t : Tile) (j b : Nat) : Option Int :=
  if t.efmt = 6 then some 0 else scaleExp (t.scales / 2 ^ (8 * (4 * j + b)) % 256)

/-- Elements of reduction row k over all logical columns (R67, R147). -/
def Tile.rowElems (t : Tile) (k : Nat) : List Fp :=
  if t.structured then
    (List.range (128 * t.g)).flatMap (fun j => ((t.column j (k / 32)).filter (fun p => p.1 = k)).map (fun p => decodeElem t.efmt p.2))
  else (List.range 128).map (fun j => decodeElem t.efmt (t.elem (128 * k + j)))

def fpAbs : Fp → Fp
  | .fin _ m e => .fin false m e
  | .inf _ => .inf false
  | .nan => .nan

/-- The check lane's row sums c(k) and m(k) (R67): exact for INT8, else RNE32 and rounded up. -/
def Tile.withSums (t : Tile) : Tile :=
  let cs := (List.range 128).map (fun k => Fp.exactSum (t.rowElems k))
  let ms := (List.range 128).map (fun k => Fp.exactSum ((t.rowElems k).map fpAbs))
  if t.efmt = 5 then { t with cks := cs, mks := ms }
  else { t with cks := cs.map (fun v => dec32 v.rne32), mks := ms.map (fun v => dec32 v.up32) }

/-- The first value index whose code does not ascend within its group (R144, kind 1): the later cell of the pair (DESIGN
CHOICE, log 70). -/
def Tile.codeBreak (t : Tile) : Option Nat :=
  let n := t.perGroup
  if !t.structured || n = 1 then none
  else (List.range 16384).find? (fun v =>
    let r := v / 128
    r % n ≠ 0 && t.code v ≤ t.code (v - 128))

/-- The first block that breaks the transposable constraint (R144, kind 2): every k of a block holds exactly 2 of 4 or 4
of 16 columns. -/
def Tile.transBreak (t : Tile) : Option (Nat × Nat) :=
  if !t.trans || !t.structured then none
  else
    let gw := t.gw
    let blocks := (List.range (128 / gw)).flatMap (fun q => (List.range (128 * t.g / gw)).map (fun u => (q, u)))
    blocks.find? (fun p =>
      (List.range gw).any (fun i =>
        let k := gw * p.1 + i
        (List.range gw).countP (fun x => (t.column (gw * p.2 + x) (k / 32)).any (fun e => e.1 = k)) ≠ t.perGroup))

/-- The DETAIL of TILE_CODE for the first violation of a tile (R144), none when it is clean. Of violations of several kinds
the lowest kind is reported, and kind 3 leaves DETAIL[15:0] 0 (DESIGN CHOICE, log 70). -/
def Tile.codeFault (t : Tile) : Option Nat :=
  match t.codeBreak with
  | some v => some (1 * 65536 + v / 128 * 256 + v % 128)
  | none =>
    match t.transBreak with
    | some (q, u) => some (2 * 65536 + q * 256 + u % 256)
    | none => if t.headed && t.sfmt = 4 && !t.denseBit && popCount 16384 t.codes ≠ t.nnz then some (3 * 65536) else none

/-! ## Rows -/

/-- Activation element k of a row record. -/
def rowElem (afmt img k : Nat) : Fp := decodeElem afmt (packedAt img (elemBits afmt) k)

/-- Activation scale exponent of block b; 0 for BF16 (R48). -/
def rowScale (afmt img b : Nat) : Option Int := if afmt = 6 then some 0 else scaleExp (recScale afmt img b)

/-- P(b, j) (R50, R146), with the physical errors of the column's products. -/
def blockDot (t : Tile) (afmt img : Nat) (ups : List Upset) (j b : Nat) : Fp :=
  Fp.exactSum ((t.column j b).map (fun p => (rowElem afmt img p.1).mul (decodeElem t.efmt p.2)) ++
    (ups.filter (fun u => u.j = j && u.k / 32 = b)).map (fun u => dec32 u.add))

/-- q(b, j) (R51). -/
def blockValue (t : Tile) (afmt img j b : Nat) (p : Fp) : W32 :=
  match addExp (rowScale afmt img b) (t.scale j b) with
  | none => qnan32
  | some x => (fpScale p (x + zExp t.efmt)).rne32

/-- R52: the new accumulator of one column. -/
def accumulate (t : Tile) (afmt img j : Nat) (ps : List Fp) (acc : W32) : W32 :=
  (ps.mapIdx (fun b p => (b, p))).foldl (fun a bp => fadd32 a (blockValue t afmt img j bp.1 bp.2)) acc

/-- Sum rounded towards +∞ of two values that are not negative (R68). -/
def addUp (a b : W32) : W32 := (Fp.exactSum [dec32 a, dec32 b]).up32

/-- The integer value of a decoded INT8 sum. -/
def fpInt : Fp → Int
  | .fin s m e =>
    let n := m * 2 ^ e.toNat / 2 ^ (-e).toNat
    if s then -(n : Int) else (n : Int)
  | _ => 0

/-- S_out of R68 and R147 from the values RNE32(P(b, j)). -/
def sOutOf (g : Nat) (vals : List W32) : W32 :=
  match (List.range g).map (fun s => fixedTree 7 ((vals.drop (128 * s)).take 128)) with
  | [] => 0
  | t :: ts => ts.foldl fadd32 t

/-- What the check lane forms for one row-block (R68, R69, R147). -/
def checkBlock (t : Tile) (afmt img b : Nat) (ps : List Fp) : BlkChk :=
  let ks := (List.range 32).map (fun i => 32 * b + i)
  let vals := ps.map Fp.rne32
  let badScale := (rowScale afmt img b).isNone || (List.range (128 * t.g)).any (fun j => (t.scale j b).isNone)
  if t.efmt = 5 then
    let so := (ps.map fpInt).foldl (· + ·) 0
    let sc := (ks.map (fun k => fpInt (rowElem afmt img k) * fpInt (t.cks.getD k .nan))).foldl (· + ·) 0
    { skip := badScale, sOut := BitVec.ofInt 32 so, sChk := BitVec.ofInt 32 sc, intDiff := so - sc, vals := vals }
  else
    let so := sOutOf t.g vals
    let sc := ks.foldl (fun a k => fadd32 a ((rowElem afmt img k).mul (t.cks.getD k .nan)).rne32) 0#32
    let m := ks.foldl (fun a k => addUp a ((fpAbs (rowElem afmt img k)).mul (t.mks.getD k .nan)).up32) 0#32
    { skip := badScale || !isFin32 so || !isFin32 sc || !isFin32 m, sOut := so, sChk := sc, m := m, vals := vals }

/-- Whether a compared row-block disagrees (R68): any difference for INT8, else a difference above τ = M × 2^−17. -/
def disagrees (isInt : Bool) (k : BlkChk) : Bool :=
  if isInt then k.intDiff ≠ 0
  else
    let d := Dy.add (dec32 k.sOut).dy (dec32 k.sChk).dy.neg
    Dy.lt ((dec32 k.m).dy.scale (-17)) d.abs

/-- τ rounded towards zero to FP32, as COR_CHK_REC_TOL records it (R75). -/
def tauOf (isInt : Bool) (m : W32) : W32 :=
  if isInt then 0
  else match dec32 m with
    | .fin _ n e => if n = 0 then 0 else round32 .trunc false n (e - 17)
    | _ => 0

def zeroRow : AccRow := Vector.replicate 128 0

/-- Read a store row. -/
def Arr.row (a : Arr) (r : Nat) : AccRow := Tab.get zeroRow a.store r
def Arr.side (a : Arr) (r : Nat) : Side := Tab.get {} a.sides r
def Arr.group (a : Arr) (g : Nat) : Group := a.groups.toList.getD g {}
def Arr.setGroup (a : Arr) (g : Nat) (x : Group) : Arr :=
  if h : g < 8 then { a with groups := a.groups.set g x h } else a

/-- One row record through the active tile into store rows `r0` to `r0 + G − 1` (R52, R145), with its compares pending. -/
def Arr.enterRow (a : Arr) (t : Tile) (g afmt img len r0 : Nat) (ups : List Upset) : Arr :=
  let ps := fun j => (List.range 4).map (fun b => blockDot t afmt img ups j b)
  let store := (List.range t.g).foldl (fun st s =>
    let old := Tab.get zeroRow st (r0 + s)
    Tab.set zeroRow st (r0 + s) (Vector.ofFn (fun i => accumulate t afmt img (128 * s + i.val) (ps (128 * s + i.val)) old[i]))) a.store
  let blocks := (List.range 4).map (fun b => checkBlock t afmt img b ((List.range (128 * t.g)).map (fun j => blockDot t afmt img ups j b)))
  { a with
    store := store
    pend := a.pend ++ [{ group := g, row := r0, headed := t.headed, wfmt := t.efmt, afmt := afmt, tileRaw := t.raw, tileLen := t.rawLen, rec_ := img % 2 ^ (8 * len), blocks := blocks }] }

/-- Fused statistics of a drained row (R59): 0 NONE, 1 NEW, 2 RUN. -/
def fuseSide (fuse : Nat) (row : AccRow) (old : Side) : Side :=
  let mx := row.toList.foldl fmax32 0xFF800000#32
  let sm := fixedTree 7 row.toList
  if fuse = 1 then { rmax := mx, rsum := sm }
  else if fuse = 2 then { rmax := fmax32 old.rmax mx, rsum := fadd32 old.rsum sm }
  else old

def Arr.fuseRow (fuse : Nat) (a : Arr) (r : Nat) : Arr :=
  { a with sides := Tab.set {} a.sides r (fuseSide fuse (a.row r) (a.side r)) }

def accBytes (r : AccRow) : List Byte := r.toList.flatMap (fun x => bytesLE x.toNat 4)

/-! ## The array's queue -/

/-- What the head of the queue comes to: it completes, it stays (with what it has still to do, and the idle cause of Table
3.8 where it waits under one), or it faults. -/
inductive ArrRes where
  | done
  | stay (op : ArrOp) (why : Option Nat)
  | fault (kind detail : Nat)
  deriving DecidableEq, Repr

/-- TLOAD (R41, R140 to R142, R436): takes the bytes that its window holds; a load over a ready tile discards it. V24 to
V31, through which the bytes pass while they are bound (R82), keep their values (DESIGN CHOICE, log 69). -/
def Core.stepTload (c : Core) (now : Stamp) (pc wfmt win : Nat) (hdr : Bool) (raw len : Nat) : Core × ArrRes :=
  if c.arr.shadow.isSome && !c.arr.shadowReady then (c, .stay (.tload wfmt win hdr raw len) (some 2))
  else
    let size := (tileHdr (raw % 2 ^ 64)).size * 8
    let need := if hdr then (if len < 8 then 8 else size) else denseBytes wfmt
    let take := min (c.window win).fill (need - len)
    let c := if len = 0 && 0 < take then { c with arr := { c.arr with shadow := none, shadowReady := false } } else c
    match c.consume .feed now win take with
    | (c1, .wait _) => (c1, .stay (.tload wfmt win hdr raw len) (some 5))
    | (c1, .fault k d) => (c1, .fault k d)
    | (c1, .ok bs) =>
      let raw1 := raw + natLE bs * 2 ^ (8 * len)
      let len1 := len + take
      if hdr && len < 8 && len1 = 8 && (tileHdr (raw1 % 2 ^ 64)).reason wfmt ≠ 0 then
        (c1, .fault 0x13 ((tileHdr (raw1 % 2 ^ 64)).reason wfmt))
      else
        let done := len1 = need && (!hdr || 8 ≤ len)
        if done then
          ({ c1 with arr := { c1.arr with shadow := some (if hdr then headedTile raw1 len1 else denseTile wfmt raw1), shadowReady := false, loadPc := pc } }, .done)
        else (c1, .stay (.tload wfmt win hdr raw1 len1) (some 2))

/-- The rows of a PASS that its window holds, one after another (R37, R130, R145); V24 to V31 as in TLOAD. -/
def Core.passRows (now : Stamp) (t : Tile) (g afmt win : Nat) : Nat → Nat → List Upset → Core → Core × ArrRes
  | _, 0, _, c => (c, .done)
  | first, n + 1, ups, c =>
    if (c.window win).fill < recBytes afmt then (c, .stay (.pass g afmt first (n + 1) win ups) (some 0))
    else
      match c.consume .feed now win (recBytes afmt) with
      | (c1, .wait _) => (c1, .stay (.pass g afmt first (n + 1) win ups) (some 5))
      | (c1, .fault k d) => (c1, .fault k d)
      | (c1, .ok bs) =>
        let r0 := (c1.arr.group g).base + first
        let here := ups.filter (fun u => u.row = 0)
        let rest := (ups.filter (fun u => u.row ≠ 0)).map (fun u => { u with row := u.row - 1 })
        Core.passRows now t g afmt win (first + t.g) n rest { c1 with arr := c1.arr.enterRow t g afmt (natLE bs) (recBytes afmt) r0 here }

/-- PASS (R37, R40, R55, R436). -/
def Core.stepPass (c : Core) (now : Stamp) (g afmt first n win : Nat) (ups : List Upset) : Core × ArrRes :=
  if c.arr.shadow.isSome && !c.arr.shadowReady then (c, .stay (.pass g afmt first n win ups) (some 2))
  else
    let tile := match c.arr.shadow with | some t => some t | none => c.arr.active
    let gr := c.arr.group g
    let width := match tile with | some t => t.g | none => 1
    let bad := firstFault [
      (match tile with | some t => !pairs afmt t.efmt | none => false, 0x03, afmt + 16 * (match tile with | some t => t.efmt | none => 0)),
      (gr.st ≠ .opened, 0x10, g),
      (n = 0 || gr.count < first + width * n, 0x12, g * 65536 + n),
      (tile.isNone, 0x15, g)]
    match bad, tile with
    | some (k, d), _ => (c, .fault k d)
    | none, none => (c, .done)
    | none, some t =>
      Core.passRows now t g afmt win first n ups { c with arr := { c.arr with active := some t, shadow := none, shadowReady := false } }

/-- Rows of a group, ascending. -/
def Group.rows (g : Group) : List Nat := (List.range g.count).map (· + g.base)

def Group.overlaps (x : Group) (base count : Nat) : Bool :=
  x.st ≠ .free && base < x.base + x.count && x.base < base + count

/-- GOPEN (Table 2.6). -/
def Core.stepOpen (c : Core) (g base count : Nat) : Core × ArrRes :=
  let gr := c.arr.group g
  if gr.st ≠ .free then (c, .fault 0x10 g)
  else if count = 0 || 1280 < base + count || c.arr.groups.toList.any (fun x => x.overlaps base count) then (c, .fault 0x11 g)
  else
    ({ c with arr := { c.arr.setGroup g { st := .opened, base := base, count := count } with
        store := c.arr.store.filter (fun p => p.1 < base || base + count ≤ p.1) } }, .done)

/-- GCLOSE (Table 2.6): the array holds until every row entered for the group is written and checked; GCLOSE_DONE ends it. -/
def Core.stepClose (c : Core) (g : Nat) : Core × ArrRes :=
  let gr := c.arr.group g
  if gr.st ≠ .opened then (c, .fault 0x10 g)
  else ({ c with arr := c.arr.setGroup g { gr with closing := true } }, .stay (.gclose g) none)

/-- GDRAIN.B (R58, R59): every row of the closed group into consecutive 512-byte rows of the banks. -/
def Core.stepDrainB (c : Core) (now : Stamp) (g fuse addr : Nat) : Core × ArrRes :=
  let gr := c.arr.group g
  if gr.st ≠ .closed then (c, .fault 0x10 g)
  else
    match c.writeBytes .drain now addr (gr.rows.flatMap (fun r => accBytes (c.arr.row r))) with
    | (c1, .wait _) => (c1, .stay (.gdrainB g fuse addr) (some 5))
    | (c1, .fault k d) => (c1, .fault k d)
    | (c1, .ok _) =>
      ({ c1 with arr := (gr.rows.foldl (Arr.fuseRow fuse) c1.arr).setGroup g { gr with drains := gr.drains ++ [false] } }, .done)

/-- GDRAIN.V (R58, R59): one store row into Vd and Vd + 1. -/
def Core.stepDrainV (c : Core) (g fuse row vd : Nat) : Core × ArrRes :=
  let gr := c.arr.group g
  if gr.st ≠ .closed then (c, .fault 0x10 g)
  else if row < gr.base || gr.base + gr.count ≤ row then (c, .fault 0x11 g)
  else
    let v := c.arr.row row
    let c1 := (c.setV (BitVec.ofNat 5 vd) (Vector.ofFn (fun i => v.toList.getD i.val 0))).setV (BitVec.ofNat 5 (vd + 1))
      (Vector.ofFn (fun i => v.toList.getD (64 + i.val) 0))
    ({ c1 with arr := (c1.arr.fuseRow fuse row).setGroup g { gr with drains := gr.drains ++ [decide (24 ≤ vd)] } }, .done)

/-- GREL (Table 2.6): during a drain the array holds until the drain completes; GREL_DONE ends it. -/
def Core.stepRel (c : Core) (g : Nat) : Core × ArrRes :=
  let gr := c.arr.group g
  if gr.st ≠ .closed then (c, .fault 0x10 g)
  else if !gr.drains.isEmpty then ({ c with arr := c.arr.setGroup g { gr with releasing := true } }, .stay (.grel g) none)
  else ({ c with arr := c.arr.setGroup g {} }, .done)

/-- GSIDE (Table 3.7): ROWMAX in bits [31:0], ROWSUM in bits [63:32]; a row outside the store gives a free value. -/
def Core.stepSide (c : Core) (free : Nat → W64) (row sd : Nat) : Core × ArrRes :=
  let x := c.arr.side row
  let v := if row < 1280 then BitVec.ofNat 64 (x.rmax.toNat + 2 ^ 32 * x.rsum.toNat) else free row
  (c.setS (BitVec.ofNat 5 sd) v, .done)

/-- One attempt of the array at the head of its queue. -/
def Core.stepArr (c : Core) (now : Stamp) (h : QArr) (free : Nat → W64) : Core × ArrRes :=
  match h.op with
  | .tload wfmt win hdr raw len => c.stepTload now h.pc wfmt win hdr raw len
  | .pass g afmt first n win ups => c.stepPass now g afmt first n win ups
  | .gopen g base count => c.stepOpen g base count
  | .gclose g => c.stepClose g
  | .gdrainB g fuse addr => c.stepDrainB now g fuse addr
  | .gdrainV g fuse row vd => c.stepDrainV g fuse row vd
  | .grel g => c.stepRel g
  | .gside row sd => c.stepSide free row sd
  | .stage => ({ c with seq := { c.seq with stageReq := true } }, .stay .stage none)
  | .unstage => ({ c with seq := { c.seq with unstageReq := true } }, .stay .unstage none)

end Sys2Proof.Machine
end

