-- ==== Sys2Proof/Machine/VecOps.lean ====
section
/-! DEFINITION. The vector engine's operations (R86 to R94, Table 3.5), the adapter side-path (R101 to R105), and the
operation that a word names. -/

namespace Sys2Proof.Machine

open Sys2Proof

/-- A vector operation: whether its fields are legal, whether it admits SR, whether its FMT is bad (Table 3.13), the vector
registers it names, the scalar registers it reads and writes, and what it does when the engine takes it. -/
structure VecOp where
  legal : Bool := true
  sr : Bool := false
  fmtBad : Bool := false
  vs : List (BitVec 5) := []
  rs : List (BitVec 5) := []
  ws : List (BitVec 5) := []
  run : Core → Core × Out Eff

def lanes2 (op : W32 → W32 → W32) (a b : VReg) : VReg := Vector.ofFn (fun i => op a[i] b[i])
def lanes1 (op : W32 → W32) (a : VReg) : VReg := Vector.ofFn (fun i => op a[i])

/-- VD ← VA op VB under the mask. -/
def vbinOp (op : W32 → W32 → W32) (f : VecF) : VecOp :=
  { vs := [f.vd, f.va, f.vb],
    run := fun c => (c.putV f (lanes2 op (c.V f.va) (c.V f.vb)), .ok {}) }

/-- VD ← op VA under the mask. -/
def vunOp (op : W32 → W32) (f : VecF) : VecOp :=
  { vs := [f.vd, f.va],
    run := fun c => (c.putV f (lanes1 op (c.V f.va)), .ok {}) }

/-- A mask register field: its unused high bits must be zero (R84). -/
def maskField (x : BitVec 5) : Bool := x.toNat < 8
/-- A mask destination: not M0 either (R85). -/
def maskDest (x : BitVec 5) : Bool := x.toNat < 8 && x ≠ 0

/-- A compare into the mask named by VD[2:0] (R89). -/
def vcmpOp (rel : W32 → W32 → Bool) (f : VecF) : VecOp :=
  { legal := maskDest f.vd, vs := [f.va, f.vb],
    run := fun c =>
    (c.setM (f.vd.setWidth 3) (compareMask rel (c.V f.va) (c.V f.vb) (c.M f.mask)), .ok {}) }

/-- Clamp to the signed 32-bit range (R87). -/
def clampS (x : Int) : W32 := BitVec.ofInt 32 (max (-2147483648) (min 2147483647 x))
/-- Clamp to the unsigned 32-bit range (R87). -/
def clampU (x : Int) : W32 := BitVec.ofInt 32 (max 0 (min 4294967295 x))

/-- The shift count of a lane: bits [5:0] (R87). -/
def laneCount (b : W32) : Nat := b.toNat % 64
def immCount (f : VecF) : Nat := f.imm.toNat % 64

/-- The address of VLD and VST: the scalar named by VC plus IMM16 × 64 (Table 3.5). -/
def vAddr (c : Core) (f : VecF) : Nat := (c.S f.vc + BitVec.ofNat 64 (f.imm.toNat * 64)).toNat

def vAddrFault (a : Nat) : Option (Nat × Nat) := firstFault [(a % 64 ≠ 0, 0x06, a), (0x7FFFFF < a + 255, 0x07, a)]

/-- Read the words of VLD that have a lane enabled (R86), all in one cycle: 64 bytes each, zero for the others; the first
uncorrectable word answers, and each bad one counts. -/
def vldWords (now : Stamp) (m : W64) (a : Nat) : List Nat → Bank → Bank × Out (List Byte)
  | [], b => (b, .ok [])
  | i :: is, b =>
    let one : Bank × Out (List Byte) :=
      if m.toNat / 2 ^ (16 * i) % 65536 = 0 then (b, .ok (List.replicate 64 0)) else b.readWord .vector now (a + 64 * i) (a / 64 + i)
    let rest := vldWords now m a is one.1
    match one.2, rest.2 with
    | .ok bs, .ok more => (rest.1, .ok (bs ++ more))
    | .ok _, o => (rest.1, o)
    | .wait c, _ => (rest.1, .wait c)
    | .fault k d, _ => (rest.1, .fault k d)

/-- VLD (R94). -/
def vldOp (now : Stamp) (f : VecF) : VecOp :=
  { vs := [f.vd], rs := [f.vc],
    run := fun c =>
    let a := vAddr c f
    let m := c.M f.mask
    match vAddrFault a with
    | some (k, d) => (c, .fault k d)
    | none =>
      let ws := (List.range 4).filter (fun i => m.toNat / 2 ^ (16 * i) % 65536 ≠ 0)
      match Bank.admitAll .vector (ws.map (fun i => (a + 64 * i, a / 64 + i))) c.bank with
      | (b, .wait x) => ({ c with bank := b }, .wait x)
      | (b, .fault k d) => ({ c with bank := b }, .fault k d)
      | (b, .ok _) =>
        match vldWords now m a (List.range 4) b with
        | (b1, .wait x) => ({ c with bank := b1 }, .wait x)
        | (b1, .fault k d) => ({ c with bank := b1 }, .fault k d)
        | (b1, .ok bs) => (Core.putV { c with bank := b1 } f (vregOf bs), .ok {}) }

/-- The byte lanes of a masked vector store: lane L is bytes 4L to 4L + 3. -/
def storeLanes (v : VReg) (m : W64) : List (Option Byte) :=
  (v.toList.mapIdx (fun i x => (bytesLE x.toNat 4).map (fun b => if m.getLsbD i then some b else none))).flatten

/-- VST (R94, R121). -/
def vstOp (now : Stamp) (f : VecF) : VecOp :=
  { vs := [f.va], rs := [f.vc],
    run := fun c =>
    match vAddrFault (vAddr c f) with
    | some (k, d) => (c, .fault k d)
    | none =>
      match c.writeLanes .vector now (vAddr c f) (storeLanes (c.V f.va) (c.M f.mask)) with
      | (c1, .ok _) => (c1, .ok {})
      | (c1, .wait x) => (c1, .wait x)
      | (c1, .fault k d) => (c1, .fault k d) }

/-- The rounding of lane L: RNE, or the draw of R64. -/
def laneRnd (c : Core) (f : VecF) (l : Nat) : Rnd :=
  if f.rnd = 1 then .sr (laneDraw c.rnd.seed c.rnd.stream c.rnd.ctr l) else .rne

/-- An instruction that rounds stochastically consumes 16 counter values (R64, R86). -/
def Core.consumed (c : Core) (f : VecF) : Core :=
  if f.rnd = 1 then { c with rnd := { c.rnd with ctr := c.rnd.ctr + 16 } } else c

/-- VCVT.TOMX (R66, R93). -/
def tomxOp (f : VecF) : VecOp :=
  { legal := f.mask = 0, sr := true, fmtBad := (5 < f.fmt.toNat), vs := [f.vd, f.va],
    run := fun c =>
    let fmt := f.fmt.toNat
    let h := f.imm.toNat % 2
    let eb := rowElemBytes fmt
    let vs := (c.V f.va).toList.map dec32
    let rs := (List.range 64).map (laneRnd c f)
    let b0 := toMX fmt (rs.take 32) (vs.take 32)
    let b1 := toMX fmt (rs.drop 32) (vs.drop 32)
    let img := vregNat (c.V f.vd)
    let img := putBits img (8 * (h * (eb / 2))) (8 * (eb / 2)) (pack (elemBits fmt) (b0.2 ++ b1.2))
    let img := putBits img (8 * (eb + 2 * h)) 16 (b0.1 + 256 * b1.1)
    ((c.setV f.vd (vregOfNat img)).consumed f, .ok {}) }

/-- VCVT.FROMMX (R93). -/
def frommxOp (f : VecF) : VecOp :=
  { fmtBad := (5 < f.fmt.toNat), vs := [f.vd, f.va],
    run := fun c =>
    let fmt := f.fmt.toNat
    let h := f.imm.toNat % 2
    let img := vregNat (c.V f.va)
    (c.putV f (Vector.ofFn (fun i =>
      let e := 64 * h + i.val
      (fpScaled (rowElem fmt img e) ((scaleExp (recScale fmt img (e / 32))).map (· + intExp fmt))).rne32)), .ok {}) }

/-- VCVT.TOBF16 (R86, R93): element L goes to bytes 128h + 2L and 128h + 2L + 1 under the mask. -/
def tobf16Op (f : VecF) : VecOp :=
  { sr := true, vs := [f.vd, f.va],
    run := fun c =>
    let h := f.imm.toNat % 2
    let m := c.M f.mask
    let old := vregNat (c.V f.vd)
    let es := (c.V f.va).toList.mapIdx (fun i x =>
      if m.getLsbD i then toBF16 (laneRnd c f i) x else if f.zm = 1 then 0 else old / 2 ^ (1024 * h + 16 * i) % 65536)
    ((c.setV f.vd (vregOfNat (putBits old (1024 * h) 1024 (pack 16 es)))).consumed f, .ok {}) }

/-- VCVT.FROMBF16 (R93). -/
def frombf16Op (f : VecF) : VecOp :=
  { vs := [f.vd, f.va],
    run := fun c =>
    let img := vregNat (c.V f.va)
    (c.putV f (Vector.ofFn (fun i => fromBF16 (img / 2 ^ (1024 * (f.imm.toNat % 2) + 16 * i.val) % 65536))), .ok {}) }

/-- VRSUM and VRMAX (R90): `pad` is what a masked-off lane enters as. -/
def vredOp (pad : W32) (red : List W32 → W32) (f : VecF) : VecOp :=
  { vs := [f.va], ws := [f.vd],
    run := fun c =>
    let ls := (c.V f.va).toList.mapIdx (fun i x => if (c.M f.mask).getLsbD i then x else pad)
    (c.setS f.vd ((red ls).setWidth 64), .ok {}) }

/-- MSETN, MAND, MOR and MNOT ignore MASK and ZM and write every bit (R86). -/
def maskOp (srcs : List (BitVec 5)) (val : Core → W64) (f : VecF) : VecOp :=
  { legal := maskDest f.vd && srcs.all maskField, vs := [],
    run := fun c => (c.setM (f.vd.setWidth 3) (val c), .ok {}) }

/-- The adapter descriptor of a tag (Table 3.9). -/
structure AdpDesc where
  a : Nat
  b : Nat
  valid : Bool
  rank : Nat
  bfmt : Nat
  afmt : Nat
  deriving DecidableEq, Repr

def adpDesc (bs : List Byte) : AdpDesc :=
  let n := natLE bs
  { a := n % 2 ^ 23, b := n / 2 ^ 32 % 2 ^ 23, valid := n.testBit 71, rank := n / 2 ^ 64 % 128,
    bfmt := n / 2 ^ 76 % 16, afmt := n / 2 ^ 72 % 16 }

/-- Whether the descriptor raises ADP_DESC for a row of format `fmt` (R102). -/
def AdpDesc.bad (d : AdpDesc) (fmt : Nat) : Bool :=
  64 < d.rank || 5 < d.afmt || !(d.bfmt = 0 || d.bfmt = 1 || d.bfmt = 6) || !pairs fmt d.afmt

/-- Read adapter bytes at an address of the side-path: beyond 0x7F_FFFF raises ADDR_RANGE. -/
def Core.readAdapter (c : Core) (now : Stamp) (a n : Nat) : Core × Out (List Byte) :=
  if n = 0 then (c, .ok [])
  else if 0x800000 < a + n then (c, .fault 0x07 a)
  else c.readBytes .adapter now a n

/-- The descriptor of a row's tag, with the faults of R102. -/
def Core.descriptor (c : Core) (now : Stamp) (fmt img : Nat) : Core × Out AdpDesc :=
  let tag := recTag fmt img
  if c.adpLen ≤ tag then (c, .fault 0x30 tag)
  else match c.readAdapter now (c.adpBase + 16 * tag) 16 with
    | (c1, .wait x) => (c1, .wait x)
    | (c1, .fault k d) => (c1, .fault k d)
    | (c1, .ok bs) =>
      let d := adpDesc bs
      if !d.valid then (c1, .fault 0x31 tag)
      else if d.bad fmt then (c1, .fault 0x32 tag)
      else (c1, .ok d)

/-- h[k] of VADN: R50 to R52 with the A slice in the place of the weight tile (R103). -/
def adnLane (fmt img : Nat) (d : AdpDesc) (slice : Nat) (start : W32) (k : Nat) : W32 :=
  let w := elemBits d.afmt
  (List.range 4).foldl (fun acc b =>
    let p := Fp.exactSum ((List.range 32).map (fun i =>
      (rowElem fmt img (32 * b + i)).mul (decodeElem d.afmt (packedAt slice w ((32 * b + i) * d.rank + k)))))
    let sc := scaleExp (slice / 2 ^ (w * 128 * d.rank + 8 * (4 * k + b)) % 256)
    let q := match addExp (rowScale fmt img b) sc with
      | none => qnan32
      | some x => (fpScale p (x + zExp d.afmt)).rne32
    fadd32 acc q) start

/-- VADN (R103). The row's format is open (log 23); A_ADDR and the value of VC add up as they stand, so that a sum beyond
the banks is ADDR_RANGE (DESIGN CHOICE, log 66). -/
def vadnOp (now : Stamp) (f : VecF) : VecOp :=
  { legal := f.mask = 0, vs := [f.vd, f.va], rs := [f.vc],
    run := fun c =>
    let img := vregNat (c.V f.va)
    let fmt := Config.rowFormat img % 6
    match c.descriptor now fmt img with
    | (c1, .wait x) => (c1, .wait x)
    | (c1, .fault k d) => (c1, .fault k d)
    | (c1, .ok d) =>
      match c1.readAdapter now (d.a + (c.S f.vc).toNat) (if d.rank = 0 then 0 else 16 * d.rank * elemBits d.afmt + 4 * d.rank) with
      | (c2, .wait x) => (c2, .wait x)
      | (c2, .fault k e) => (c2, .fault k e)
      | (c2, .ok bs) =>
        let slice := natLE bs
        let old := c.V f.vd
        (c2.setV f.vd (Vector.ofFn (fun i =>
          if i.val < d.rank then adnLane fmt img d slice (if f.imm.toNat % 2 = 1 then old[i] else 0) i.val else 0)), .ok {}) }

/-- One column of VAUP (R104). -/
def aupLane (d : AdpDesc) (slice : Nat) (h : VReg) (acc : W32) (col : Nat) : W32 :=
  let w := elemBits d.bfmt
  let nb := (d.rank + 31) / 32
  (List.range nb).foldl (fun acc b =>
    let ks := ((List.range 32).map (fun i => 32 * b + i)).filter (· < d.rank)
    let p := Fp.exactSum (ks.map (fun k => (dec32 (h.toList.getD k 0)).mul (decodeElem d.bfmt (packedAt slice w (128 * k + col)))))
    let sc := if d.bfmt = 6 then some 0 else scaleExp (slice / 2 ^ (8 * (128 * d.rank + nb * col + b)) % 256)
    fadd32 acc (fpScaled p sc).rne32) acc

/-- VAUP (R104), with the row's format and the sum of B_ADDR as in VADN. -/
def vaupOp (now : Stamp) (f : VecF) : VecOp :=
  { vs := [f.vd, f.va, f.vb], rs := [f.vc],
    run := fun c =>
    let img := vregNat (c.V f.va)
    match c.descriptor now (Config.rowFormat img % 6) img with
    | (c1, .wait x) => (c1, .wait x)
    | (c1, .fault k d) => (c1, .fault k d)
    | (c1, .ok d) =>
      let n := if d.bfmt = 6 then 256 * d.rank else 128 * d.rank + 128 * ((d.rank + 31) / 32)
      match c1.readAdapter now (d.b + (c.S f.vc).toNat) n with
      | (c2, .wait x) => (c2, .wait x)
      | (c2, .fault k e) => (c2, .fault k e)
      | (c2, .ok bs) =>
        let slice := natLE bs
        let old := c.V f.vd
        (c2.putV f (Vector.ofFn (fun i => aupLane d slice (c.V f.vb) old[i] (64 * (f.imm.toNat % 2) + i.val))), .ok {}) }

/-! ## The operations by name -/

def vaddOp (f : VecF) : VecOp :=
  vbinOp (· + ·) f
def vsubOp (f : VecF) : VecOp :=
  vbinOp (· - ·) f
def vaddsOp (f : VecF) : VecOp :=
  vbinOp (fun a b => clampS (a.toInt + b.toInt)) f
def vsubsOp (f : VecF) : VecOp :=
  vbinOp (fun a b => clampS (a.toInt - b.toInt)) f
def vadduOp (f : VecF) : VecOp :=
  vbinOp (fun a b => clampU ((a.toNat : Int) + b.toNat)) f
def vsubuOp (f : VecF) : VecOp :=
  vbinOp (fun a b => clampU ((a.toNat : Int) - b.toNat)) f
def vandOp (f : VecF) : VecOp :=
  vbinOp (· &&& ·) f
def vorOp (f : VecF) : VecOp :=
  vbinOp (· ||| ·) f
def vxorOp (f : VecF) : VecOp :=
  vbinOp (· ^^^ ·) f
def vandnOp (f : VecF) : VecOp :=
  vbinOp (fun a b => a &&& ~~~b) f
def vshlOp (f : VecF) : VecOp :=
  vbinOp (fun a b => a <<< laneCount b) f
def vshrOp (f : VecF) : VecOp :=
  vbinOp (fun a b => a >>> laneCount b) f
def vsarOp (f : VecF) : VecOp :=
  vbinOp (fun a b => a.sshiftRight (laneCount b)) f
def vshliOp (f : VecF) : VecOp :=
  vunOp (fun a => a <<< immCount f) f
def vshriOp (f : VecF) : VecOp :=
  vunOp (fun a => a >>> immCount f) f
def vsariOp (f : VecF) : VecOp :=
  vunOp (fun a => a.sshiftRight (immCount f)) f
def vcmpeqOp (f : VecF) : VecOp :=
  vcmpOp (fun a b => a == b) f
def vcmpltOp (f : VecF) : VecOp :=
  vcmpOp (fun a b => a.slt b) f
def vcmpltuOp (f : VecF) : VecOp :=
  vcmpOp (fun a b => a.ult b) f
def vselOp (f : VecF) : VecOp :=
  { vs := [f.vd, f.va, f.vb],
    run := fun c => (c.setV f.vd (Vector.ofFn (fun i => if (c.M f.mask).getLsbD i.val then (c.V f.va)[i] else (c.V f.vb)[i])), .ok {}) }
def vmovOp (f : VecF) : VecOp :=
  vunOp id f
def vbcastOp (f : VecF) : VecOp :=
  { vs := [f.vd], rs := [f.va],
    run := fun c => (c.putV f (Vector.replicate 64 ((c.S f.va).setWidth 32)), .ok {}) }
def faddOp (f : VecF) : VecOp :=
  vbinOp fadd32 f
def fsubOp (f : VecF) : VecOp :=
  vbinOp fsub32 f
def fmulOp (f : VecF) : VecOp :=
  vbinOp fmul32 f
def ffmaOp (f : VecF) : VecOp :=
  { vs := [f.vd, f.va, f.vb, f.vc],
    run := fun c => (c.putV f (Vector.ofFn (fun i => ffma32 (c.V f.va)[i] (c.V f.vb)[i] (c.V f.vc)[i])), .ok {}) }
def fmaxOp (f : VecF) : VecOp :=
  vbinOp fmax32 f
def fminOp (f : VecF) : VecOp :=
  vbinOp fmin32 f
def fcmpeqOp (f : VecF) : VecOp :=
  vcmpOp feq32 f
def fcmpltOp (f : VecF) : VecOp :=
  vcmpOp flt32 f
def fcmpleOp (f : VecF) : VecOp :=
  vcmpOp fle32 f
def fcmpunOp (f : VecF) : VecOp :=
  vcmpOp fun32 f
def vexp2Op (f : VecF) : VecOp :=
  vunOp exp2of f
def vrsqrtOp (f : VecF) : VecOp :=
  vunOp rsqrt32 f
def vcvtTomxOp (f : VecF) : VecOp :=
  tomxOp f
def vcvtFrommxOp (f : VecF) : VecOp :=
  frommxOp f
def vcvtTobf16Op (f : VecF) : VecOp :=
  tobf16Op f
def vcvtFrombf16Op (f : VecF) : VecOp :=
  frombf16Op f
def vrsumOp (f : VecF) : VecOp :=
  vredOp 0#32 (fixedTree 6) f
def vrmaxOp (f : VecF) : VecOp :=
  vredOp 0xFF800000#32 (fun l => l.foldl fmax32 0xFF800000#32) f
def msetnOp (f : VecF) : VecOp :=
  maskOp [] (fun _ => BitVec.ofNat 64 (2 ^ (min f.imm.toNat 64) - 1)) f
def mandOp (f : VecF) : VecOp :=
  maskOp [f.va, f.vb] (fun c => c.M (f.va.setWidth 3) &&& c.M (f.vb.setWidth 3)) f
def morOp (f : VecF) : VecOp :=
  maskOp [f.va, f.vb] (fun c => c.M (f.va.setWidth 3) ||| c.M (f.vb.setWidth 3)) f
def mnotOp (f : VecF) : VecOp :=
  maskOp [f.va] (fun c => ~~~(c.M (f.va.setWidth 3))) f
def mcountOp (f : VecF) : VecOp :=
  { legal := maskField f.va, vs := [], ws := [f.vd],
    run := fun c => (c.setS f.vd (BitVec.ofNat 64 (popCount 64 (c.M (f.va.setWidth 3)).toNat)), .ok {}) }

/-- The operation of a word of classes 0x2 to 0x5 (Table 3.5). -/
def vecOpOf (now : Stamp) (w : W64) : Option VecOp :=
  match w.toNat / 2 ^ 52 with
  | 0x200 => some (vaddOp (decVec w))
  | 0x201 => some (vsubOp (decVec w))
  | 0x202 => some (vaddsOp (decVec w))
  | 0x203 => some (vsubsOp (decVec w))
  | 0x204 => some (vadduOp (decVec w))
  | 0x205 => some (vsubuOp (decVec w))
  | 0x208 => some (vandOp (decVec w))
  | 0x209 => some (vorOp (decVec w))
  | 0x20A => some (vxorOp (decVec w))
  | 0x20B => some (vandnOp (decVec w))
  | 0x210 => some (vshlOp (decVec w))
  | 0x211 => some (vshrOp (decVec w))
  | 0x212 => some (vsarOp (decVec w))
  | 0x214 => some (vshliOp (decVec w))
  | 0x215 => some (vshriOp (decVec w))
  | 0x216 => some (vsariOp (decVec w))
  | 0x218 => some (vcmpeqOp (decVec w))
  | 0x219 => some (vcmpltOp (decVec w))
  | 0x21A => some (vcmpltuOp (decVec w))
  | 0x220 => some (vselOp (decVec w))
  | 0x221 => some (vmovOp (decVec w))
  | 0x222 => some (vbcastOp (decVec w))
  | 0x230 => some (vldOp now (decVec w))
  | 0x231 => some (vstOp now (decVec w))
  | 0x300 => some (faddOp (decVec w))
  | 0x301 => some (fsubOp (decVec w))
  | 0x302 => some (fmulOp (decVec w))
  | 0x303 => some (ffmaOp (decVec w))
  | 0x304 => some (fmaxOp (decVec w))
  | 0x305 => some (fminOp (decVec w))
  | 0x308 => some (fcmpeqOp (decVec w))
  | 0x309 => some (fcmpltOp (decVec w))
  | 0x30A => some (fcmpleOp (decVec w))
  | 0x30B => some (fcmpunOp (decVec w))
  | 0x400 => some (vexp2Op (decVec w))
  | 0x401 => some (vrsqrtOp (decVec w))
  | 0x408 => some (vcvtTomxOp (decVec w))
  | 0x409 => some (vcvtFrommxOp (decVec w))
  | 0x40A => some (vcvtTobf16Op (decVec w))
  | 0x40B => some (vcvtFrombf16Op (decVec w))
  | 0x410 => some (vrsumOp (decVec w))
  | 0x411 => some (vrmaxOp (decVec w))
  | 0x420 => some (msetnOp (decVec w))
  | 0x421 => some (mandOp (decVec w))
  | 0x422 => some (morOp (decVec w))
  | 0x423 => some (mnotOp (decVec w))
  | 0x424 => some (mcountOp (decVec w))
  | 0x500 => some (vadnOp now (decVec w))
  | 0x501 => some (vaupOp now (decVec w))
  | _ => none

end Sys2Proof.Machine
end

