-- ==== Sys2Proof/Machine/Units.lean ====
section
/-! DEFINITION. The units of a core and their queues (R76, R77, R82): what an instruction waits for in another unit, and
how far the array and the vector engine go by themselves. -/

namespace Sys2Proof.Machine

open Sys2Proof

/-- The operations in the vector engine's queue, oldest first. -/
def Core.vecOps (c : Core) : List VecOp := c.vq.filterMap (fun q => vecOpOf {} q.word)

def namesAny (xs : List (BitVec 5)) (rs : List Nat) : Bool := xs.any (fun x => rs.contains x.toNat)

/-- Whether a scalar register of these is one that a unit has still to write: the later instruction waits (R77). -/
def Core.depends (c : Core) (ss : List Nat) : Bool :=
  c.arr.q.any (fun a => a.op.sRegs.any (fun r => r ≠ 0 && ss.contains r)) ||
    c.vecOps.any (fun o => o.ws.any (fun r => r ≠ 0 && ss.contains r.toNat))

/-- Whether a scalar register of these is one that the vector engine has still to read: an instruction that writes it waits,
so that the engine reads the value of program order (R77). -/
def Core.overwrites (c : Core) (ss : List Nat) : Bool :=
  c.vecOps.any (fun o => o.rs.any (fun r => r ≠ 0 && ss.contains r.toNat))

/-- Whether an operation at the head of the vector engine's queue waits for the array: an earlier array instruction has
still to write a register that it names, or an earlier UNSTAGE has not completed and it names V24 to V31 (R77, R82). -/
def Core.vecBlocked (c : Core) (o : VecOp) : Bool :=
  c.arr.q.any (fun a => a.before = 0 &&
    (namesAny o.vs a.op.vRegs || namesAny ((o.rs ++ o.ws).filter (· ≠ 0)) a.op.sRegs ||
      (a.op = .unstage && o.vs.any (fun v => 24 ≤ v.toNat))))

/-- Whether the head of the array's queue waits for the vector engine: an earlier operation there names a register that it
writes, or it is a STAGE and an earlier operation names V24 to V31 (R77, R82). -/
def Core.arrBlocked (c : Core) (a : QArr) : Bool :=
  ((c.vq.take a.before).filterMap (fun q => vecOpOf {} q.word)).any (fun o =>
    namesAny o.vs a.op.vRegs || namesAny ((o.rs ++ o.ws).filter (· ≠ 0)) a.op.sRegs ||
      (a.op = .stage && o.vs.any (fun v => 24 ≤ v.toNat)))

/-- One attempt of the vector engine at an operation. -/
def Core.tryVec (c : Core) (o : VecOp) : Core × Out Eff := if c.vecBlocked o then (c, .wait none) else o.run c

/-- The vector engine's queue without its head. -/
def Core.popVec (c : Core) : Core :=
  { c with vq := c.vq.drop 1, arr := { c.arr with q := c.arr.q.map (fun a => { a with before := a.before - 1 }) } }

/-- What one turn of a unit comes to: whether its queue went on, and the fault that ends it with kind, DETAIL and program
counter. -/
inductive Turn where
  | on
  | stands
  | fault (kind detail pc : Nat)
  deriving DecidableEq, Repr

/-- The array takes the head of its queue (R76). -/
def Core.turnArr (free : Nat → W64) (now : Stamp) (c : Core) : Core × Turn :=
  match c.arr.q with
  | [] => (c, .stands)
  | h :: t =>
    if c.arrBlocked h then ({ c with arr := { c.arr with q := { h with why := none } :: t } }, .stands)
    else match c.stepArr now h free with
      | (c1, .done) => ({ c1 with arr := { c1.arr with q := t } }, .on)
      | (c1, .stay op why) => ({ c1 with arr := { c1.arr with q := { h with op := op, why := why } :: t } }, if op = h.op then .stands else .on)
      | (c1, .fault k d) => (c1, .fault k d h.pc)

/-- The vector engine takes the head of its queue (R76). -/
def Core.turnVec (now : Stamp) (c : Core) : Core × Turn :=
  match c.vq with
  | [] => (c, .stands)
  | h :: t =>
    match vecOpOf now h.word with
    | none => (c.popVec, .on)
    | some o =>
      match c.tryVec o with
      | (c1, .ok _) => (c1.popVec, .on)
      | (c1, .wait x) => ({ c1 with vq := { h with why := x } :: t }, .stands)
      | (c1, .fault k d) => (c1, .fault k d h.pc)

/-- The array and the vector engine take instructions from their queues in order, as far as they go (R76). The fuel covers
both queues: a headed TLOAD takes three turns. -/
def Core.pumpN (free : Nat → W64) (now : Stamp) : Nat → Core → Core × Option (Nat × Nat × Nat)
  | 0, c => (c, none)
  | n + 1, c =>
    match c.turnArr free now with
    | (c1, .fault k d pc) => (c1, some (k, d, pc))
    | (c1, .on) => Core.pumpN free now n c1
    | (c1, .stands) =>
      match c1.turnVec now with
      | (c2, .fault k d pc) => (c2, some (k, d, pc))
      | (c2, .on) => Core.pumpN free now n c2
      | (c2, .stands) => (c2, none)

def Core.pump (free : Nat → W64) (now : Stamp) (c : Core) : Core × Option (Nat × Nat × Nat) :=
  if c.seq.st = .faulted then (c, none) else Core.pumpN free now 40 c

end Sys2Proof.Machine
end

