-- ==== Sys2Proof/Machine/Ops.lean ====
section
/-! DEFINITION. The shared operations over the module's state: cores, fields, partitions and sites, output, program
faults (R113, R114), and the issue of an instruction by a core's sequencer (R76, R85, R96, R106). -/

namespace Sys2Proof.Machine

open Sys2Proof

/-- The wafer cycle now (R183). -/
def State.now (s : State) : Stamp := { tick := s.tg.tick, ofs := s.tg.ofs }

/-- The wafer cycle that lies `n` cycles before this one; the present period counts for the tick before. -/
def State.ago (s : State) (n : Nat) : Stamp :=
  if n ≤ s.tg.ofs then { tick := s.tg.tick, ofs := s.tg.ofs - n }
  else { tick := s.tg.tick - 1, ofs := 1200 * s.tg.period + s.tg.ofs - n }

/-- The core clock runs `current` of every 32 wafer cycles (R357), evenly spread (DESIGN CHOICE, log 75); `phase` counts in
parts of 32. The core cycles that begin in the next `n` wafer cycles. -/
def Divider.cycles (d : Divider) (n : Nat) : Nat := (d.phase + n * d.current) / 32
def Divider.pass (d : Divider) (n : Nat) : Divider := { d with phase := (d.phase + n * d.current) % 32 }
/-- The wafer cycles from this one to the next that begins a core cycle. -/
def Divider.toNext (d : Divider) : Nat := (32 - d.phase + d.current - 1) / d.current

/-- The wafer cycle in which the core cycle under way began: the stamp of a core's events (R186). -/
def State.coreNow (s : State) : Stamp := s.ago (s.div.phase / s.div.current)

/-- The core cycle in which a field sees the edge of this wafer cycle: the first that begins at or after it (R186). -/
def State.coreEdge (s : State) : Stamp :=
  if s.div.phase < s.div.current then s.now else { tick := s.tg.tick, ofs := s.tg.ofs + s.div.toNext }

/-- The core cycle that follows it. -/
def State.coreAfterEdge (s : State) : Stamp :=
  let d := s.div.pass (if s.div.phase < s.div.current then 0 else s.div.toNext)
  { tick := s.tg.tick, ofs := s.coreEdge.ofs + max 1 d.toNext }

def State.core (s : State) (k : Nat) : Core := Tab.get {} s.cores k
def State.setCore (s : State) (k : Nat) (c : Core) : State := { s with cores := Tab.set {} s.cores k c }
def State.field (s : State) (f : Nat) : Field := Tab.get {} s.fields f
def State.setField (s : State) (f : Nat) (x : Field) : State := { s with fields := Tab.set {} s.fields f x }
def State.part (s : State) (p : Nat) : Part := s.parts.toList.getD p {}
def State.setPart (s : State) (p : Nat) (x : Part) : State :=
  { s with parts := if h : p < 16 then s.parts.set p x h else s.parts }
def State.site (s : State) (k : Nat) : SiteSt := Tab.get .enabled s.sites k
def State.ter (s : State) (t : Nat) : Ter := (s.field (t / 2)).ter.toList.getD (t % 2) {}
def State.col (s : State) (k : Nat) : Col := Tab.get {} s.cols k
def State.port (s : State) (p : Nat) : FabPort := s.fab.ports.toList.getD p {}
def State.ring (s : State) (p : Nat) : Ring := s.host.ring.toList.getD p {}

/-- Put outputs out, newest first. -/
def State.emit (s : State) (o : List Output) : State := { s with out := o.reverse ++ s.out }

/-- The partition that holds a terrace (R256, R257). -/
def State.partOfTer (s : State) (t : Nat) : Option Nat :=
  (List.range 16).find? (fun p => (s.part p).on && (s.part p).terraces.getLsbD t)

/-- The partition that holds a core site: site number div 32 is its terrace (R7, R8). -/
def State.partOfSite (s : State) (k : Nat) : Option Nat := s.partOfTer (k / 32)

/-- The sites of a partition (R257). -/
def State.sitesOf (s : State) (p : Nat) : List Nat :=
  (List.range 3072).filter (fun k => (s.part p).terraces.getLsbD (k / 32))

/-- The fields with a terrace of a partition. -/
def Part.fields (p : Part) : List Nat :=
  (List.range 48).filter (fun f => p.terraces.getLsbD (2 * f) || p.terraces.getLsbD (2 * f + 1))

def State.fieldsOf (s : State) (p : Nat) : List Nat := (s.part p).fields

/-- Whether a terrace is lit. -/
def State.lit (s : State) (t : Nat) : Bool := (s.ter t).st = .lit

/-- The placement in force of a partition: its envelope level, its detour or the base plan (R294, R343). -/
def Part.placement (p : Part) : Placement :=
  match p.plan with
  | none => {}
  | some pl =>
    match pl.levels.find? (fun l => l.level = p.level && p.level ≠ 0) with
    | some l => l.pl
    | none =>
      if p.detour.1 = 0 then pl.base
      else match pl.detours.find? (fun d => d.isField = (p.detour.1 = 2) && d.unit = p.detour.2) with
        | some d => d.pl
        | none => pl.base

/-- What the plan carries for a membership of d members (R248). -/
def Part.sizeOf (p : Part) (d : Nat) : Option JobSize := (p.plan.bind Plan.job).bind (fun j => j.sizes.find? (fun z => z.size = d))

/-- The plan with the schedule, the regions and the intake list of a membership of d members in force (R246, R264). -/
def Plan.sized (pl : Plan) (d : Nat) : Plan :=
  match pl.job.bind (fun j => j.sizes.find? (fun z => z.size = d)) with
  | none => pl
  | some z => { pl with base := z.base, intake := z.intake }

/-- A draw of a value that the spec leaves open. -/
def State.draw (s : State) : W64 := Config.freeValue s.freeCtr

/-- R113: the core stops issuing; instructions in a queue are discarded, and the operations under way in the DMA engine
and the network port stay. The record keeps the first fault (R114). -/
def Core.fail (c : Core) (kind detail pc : Nat) (now : Stamp) : Core :=
  { c with
    seq := { c.seq with st := .faulted }
    arr := { c.arr with q := [] }
    vq := []
    dma := c.dma.take 1
    net := c.net.take 1
    fault := c.fault.note FaultBody.lower now { kind := BitVec.ofNat 8 kind, pc := pc, detail := BitVec.ofNat 32 detail, at_ := now } }

/-- The report of a core's fault to firmware (R113): it names the core, and for a stack read that is uncorrectable the address;
a core of no partition reports none. -/
def State.coreReport (s : State) (k kind detail : Nat) : List FaultReport :=
  match s.partOfSite k with
  | some p => [{ part := p, what := .core (BitVec.ofNat 8 kind) k, addr := if kind = 0x51 then detail else k }]
  | none => []

/-- The core at site k, now `c`, raises a program fault: record, stop, report (R113, R114). -/
def State.raiseFault (s : State) (k : Nat) (c : Core) (kind detail pc : Nat) : State :=
  { s with
    cores := Tab.set {} s.cores k (c.fail kind detail pc s.coreNow)
    fw := { s.fw with reports := s.fw.reports ++ s.coreReport k kind detail } }

/-- Raise a program fault of the core at site k as it stands. -/
def State.failCore (s : State) (k kind detail pc : Nat) : State := s.raiseFault k (s.core k) kind detail pc

/-- Put a core back and let its array and its vector engine go on (R76); a fault of theirs is raised. -/
def State.putCore (s : State) (k : Nat) (c : Core) : State :=
  match c.pump Config.freeValue s.coreNow with
  | (c1, none) => s.setCore k c1
  | (c1, some (kind, d, pc)) => s.raiseFault k c1 kind d pc

/-- A core's sequencer can issue the word `w`: it runs or waits, has not issued END, and its store holds `w` at its
program counter (R76, R109). -/
def Core.canIssue (c : Core) (w : W64) : Bool :=
  (c.seq.st = .running || c.seq.st = .waiting) && !c.seq.endIssued && c.fetch c.seq.pc = some w

/-- Whether the sequencer may fetch at all. -/
def Core.fetches (c : Core) : Bool := (c.seq.st = .running || c.seq.st = .waiting) && !c.seq.endIssued

/-- Issue the word `w` at site k. A store word that its code cannot correct raises INSN_CHECK (R106); a word of no class
or operation raises ILLEGAL_INSN (R85); when the store holds another word, nothing issues. `body` gives the
instruction's effect on its core: it completes and the program counter moves on, it waits, or it faults. -/
def State.issue (s : State) (k : Nat) (w : W64) (body : Core → Core × Out Eff) : State :=
  let c := s.core k
  if !c.fetches then s
  else match c.fetch c.seq.pc with
  | none => s.failCore k 0x02 c.seq.pc c.seq.pc
  | some v =>
    if !knownWord v then s.failCore k 0x01 (hiWord v) c.seq.pc
    else if v ≠ w then s
    else match body c with
    | (c1, .ok e) => { s.putCore k { c1 with seq := c1.seq.advance e.jump } with arrivals := s.arrivals ++ e.arrivals }
    | (c1, .wait none) => s.putCore k { c1 with seq := { c1.seq with st := .running, full := false } }
    | (c1, .wait (some w)) =>
      if w = queueFull then s.putCore k { c1 with seq := { c1.seq with st := .running, full := true } }
      else s.putCore k { c1 with seq := { c1.seq with st := .waiting, wcause := w, full := false } }
    | (c1, .fault kd d) => s.raiseFault k c1 kd d c.seq.pc
end Sys2Proof.Machine
end

