-- ==== Sys2Proof/Machine/Hbm.lean ====
section
/-! DEFINITION. The stack of a field: bytes, regions and their companions (R200, R201, R437), gradient writes (R218), and
the transposes of Table 7.6 (R208 to R211). -/

namespace Sys2Proof.Machine

open Sys2Proof

/-! ## Bytes -/

/-- Read `n` bytes of the stack: the first uncorrectable 64-byte unit ends the read (R206). -/
def Field.hbmRead (f : Field) (addr n : Nat) : Except Nat (List Byte) :=
  match (wordsOf addr n).find? (fun u => f.hbmBad.contains u) with
  | some u => .error u
  | none => .ok (Tab.getRange 0 f.hbm addr n)

/-- Write bytes to the stack; a unit written whole is good again. -/
def Field.hbmWrite (f : Field) (addr : Nat) (bs : List Byte) : Field :=
  { f with
    hbm := Tab.setRange 0 f.hbm addr bs
    hbmBad := f.hbmBad.filter (fun u => u * 64 < addr || addr + bs.length < u * 64 + 64) }

/-- An FP32 of the stack. -/
def Field.f32 (f : Field) (addr : Nat) : W32 := BitVec.ofNat 32 (natLE (Tab.getRange 0 f.hbm addr 4))
def Field.setF32 (f : Field) (addr : Nat) (v : W32) : Field := f.hbmWrite addr (bytesLE v.toNat 4)
def Field.bf16 (f : Field) (addr : Nat) : Nat := natLE (Tab.getRange 0 f.hbm addr 2)
/-- One bit of the stack. -/
def Field.bit (f : Field) (addr i : Nat) : Bool := (Tab.get 0 f.hbm (addr + i / 8)).getLsbD (i % 8)
def Field.setBit (f : Field) (addr i : Nat) (v : Bool) : Field :=
  let b := Tab.get 0 f.hbm (addr + i / 8)
  let m : Byte := BitVec.ofNat 8 (2 ^ (i % 8))
  { f with hbm := Tab.set 0 f.hbm (addr + i / 8) (if v then b ||| m else b &&& ~~~m) }

/-! ## Regions -/

def Field.region (f : Field) (n : Nat) : Region := Tab.get {} f.regions n
def Field.rule (f : Field) (n : Nat) : Rule := Tab.get {} f.rules n

/-- G of a region's tiles: 1 for dense and BM16 (R201). -/
def Region.g (r : Region) : Nat := sfmtG r.sfmt
def Region.stride (r : Region) : Nat := tileStride r.sfmt r.efmt
/-- N = 512G × L blocks (R437). -/
def Region.blocks (r : Region) : Nat := 512 * r.g * r.len

def up64 (n : Nat) : Nat := (n + 63) / 64 * 64

/-- The region's own extent in bytes: tiles for PARAM, 64-byte units for every other kind (R200, R437). -/
def Region.bytes (r : Region) : Nat := if r.kind = 1 then r.len * r.stride else 64 * r.len

/-- Bytes of one block's slot k (R201): 64 for BF16, 128 for FP32. -/
def slotBytes (rule : Rule) (k : Nat) : Nat := if rule.sbf16.testBit k then 64 else 128

/-- The companion areas of a PARAM region in use, (base unit, bytes) (R437, Table 7.14). -/
def Region.companions (r : Region) (rule : Rule) : List (Nat × Nat) :=
  if r.kind ≠ 1 then []
  else
    (if r.frozen then [] else [(r.grad, 65536 * r.g * r.len), (r.map, up64 ((r.blocks + 3) / 4))]) ++
    (List.range (min rule.nslot 4)).map (fun k => (r.slot.toList.getD k 0, slotBytes rule k * r.blocks)) ++
    (if r.master then [(r.masterBase, 128 * r.blocks)] else []) ++
    (if r.fmen then [(r.fmask, up64 ((r.blocks + 7) / 8))] else [])

/-- Every area of a region (R437). -/
def Region.areas (r : Region) (rule : Rule) : List (Nat × Nat) := (r.base, r.bytes) :: r.companions rule

/-- Whether a 64-byte unit of the stack lies in a region that `ok` admits. -/
def Field.unitIn (f : Field) (ok : Region → Bool) (u : Nat) : Bool :=
  f.regions.any (fun p => p.2.en && ok p.2 && p.2.base ≤ u && u < p.2.base + (p.2.bytes + 63) / 64)

/-- The first of `n` units from `u` that lies in no admitted region (R207). -/
def Field.firstOutside (f : Field) (ok : Region → Bool) (u n : Nat) : Option Nat :=
  ((List.range n).map (· + u)).find? (fun x => !f.unitIn ok x)

/-- The block of logical column j, row group b of tile t (R201). -/
def Region.blockIx (r : Region) (t j b : Nat) : Nat := t * (512 * r.g) + 4 * j + b

def Field.touched (f : Field) (r : Region) (i : Nat) : Bool := f.bit (64 * r.map) (2 * i)
def Field.pendingBit (f : Field) (r : Region) (i : Nat) : Bool := f.bit (64 * r.map) (2 * i + 1)
def Field.masked (f : Field) (r : Region) (i : Nat) : Bool := r.fmen && f.bit (64 * r.fmask) i

/-- One value of a gradient unit (R218): discarded by FMASK, stored, or added where the block is touched. -/
def Field.gradValue (r : Region) (add : Bool) (unit : Nat) (f : Field) (p : Nat × W32) : Field :=
  let e := unit * 16 + p.1
  let t := e / (16384 * r.g)
  let k := e % (16384 * r.g) / (128 * r.g)
  let j := e % (128 * r.g)
  let i := r.blockIx t j (k / 32)
  let addr := 64 * r.grad + 4 * e
  if f.masked r i then f
  else
    let old := if f.touched r i then f.f32 addr else 0#32
    f.setF32 addr (if add then fadd32 old p.2 else p.2)

/-- The blocks of a gradient unit: one per logical column j to j + 15 (R218). -/
def Region.unitBlocks (r : Region) (unit : Nat) : List Nat :=
  (List.range 16).map (fun x =>
    let e := unit * 16 + x
    r.blockIx (e / (16384 * r.g)) (e % (128 * r.g)) (e % (16384 * r.g) / (128 * r.g) / 32))

/-- A 64-byte gradient write that is accepted (R218): values, then TOUCHED and PENDING of each block that is not masked. -/
def Field.gradWrite (f : Field) (r : Region) (unit : Nat) (add : Bool) (vals : List W32) : Field :=
  let bs := r.unitBlocks unit
  let f1 := (vals.mapIdx (fun i v => (i, v))).foldl (Field.gradValue r add unit) f
  let f2 := (bs.filter (fun i => !f.masked r i)).foldl (fun (x : Field) i => (x.setBit (64 * r.map) (2 * i) true).setBit (64 * r.map) (2 * i + 1) true) f1
  if bs.any (fun i => f.masked r i) then { f2 with upe := { f2.upe with discard := satAdd f2.upe.discard 1 } } else f2

/-- A value lands in a block from its owner: PENDING clears (R218). -/
def Field.clearPending (f : Field) (r : Region) (i : Nat) : Field := f.setBit (64 * r.map) (2 * i + 1) false

/-- A contribution for `n` gradient units from stack unit `u` leaves for the module that owns their blocks (R218): PENDING of
those blocks of partition p sets in this module's map. -/
def Field.sendBlocks (f : Field) (p u n : Nat) : Field :=
  f.regions.foldl (fun (x : Field) r =>
    if r.2.en && r.2.part = p && r.2.kind = 1 && !r.2.frozen then
      let us := ((List.range n).map (· + u)).filter (fun v => decide (r.2.grad ≤ v) && decide (v < r.2.grad + 1024 * r.2.g * r.2.len))
      (us.flatMap (fun v => r.2.unitBlocks (v - r.2.grad))).foldl (fun (y : Field) i => y.setBit (64 * r.2.map) (2 * i + 1) true) x
    else x) f

/-! ## Stored tiles as images -/

/-- Byte offsets of values, codes or bitmaps, and scales within a tile image (R41, R143, R149). -/
structure TileLay where
  vals : Nat
  codes : Nat
  scales : Nat
  deriving DecidableEq, Repr

def tileLay (sfmt efmt raw : Nat) : TileLay :=
  let eb := tileElemBytes efmt
  if sfmt = 0 then { vals := 0, codes := 0, scales := eb }
  else if sfmt ≠ 4 then { vals := 8, codes := 8 + eb, scales := 8 + eb + 2048 * sfmtCode sfmt }
  else if (tileHdr (raw % 2 ^ 64)).dense then { vals := 8, codes := 8, scales := 8 + eb }
  else { vals := 2568, codes := 8, scales := 2056 }

/-- The stored elements of block b of logical column j of a tile image: (row k, value index), ascending (R143, R149). -/
def tileCells (sfmt efmt raw j b : Nat) : List (Nat × Nat) :=
  let lay := tileLay sfmt efmt raw
  if sfmt = 0 || (sfmt = 4 && (tileHdr (raw % 2 ^ 64)).dense) then
    (List.range 32).map (fun i => (32 * b + i, 128 * (32 * b + i) + j))
  else if sfmt = 4 then
    let bm := sliceBytes raw lay.codes 2048
    let before := popCount (128 * j + 32 * b) bm
    (((List.range 32).filter (fun i => bm.testBit (128 * j + 32 * b + i))).mapIdx (fun x i => (32 * b + i, before + x)))
  else
    let t : Tile := headedTile raw 0
    let n := t.perGroup
    let s := j / 128
    (List.range (32 / t.gw)).flatMap (fun i =>
      let q := 32 * b / t.gw + i
      (List.range n).map (fun x =>
        let v := 128 * (t.gw * q + n * s + x) + j % 128
        (t.gw * q + t.code v, v)))

/-- Tile, logical column and row block of a region's block i (R201). -/
def Region.place (r : Region) (i : Nat) : Nat × Nat × Nat := (i / (512 * r.g), i % (512 * r.g) / 4, i % 4)

/-- The stack address of tile t of a region. -/
def Region.tileAddr (r : Region) (t : Nat) : Nat := 64 * r.base + t * r.stride

/-- The stored elements of block i: (row 0 to 31 of the block, value index) (R143, R149, R201). -/
def Field.cells (f : Field) (r : Region) (i : Nat) : List (Nat × Nat) :=
  let p := r.place i
  let raw := if r.sfmt = 0 then 0 else natLE (Tab.getRange 0 f.hbm (r.tileAddr p.1) r.stride)
  (tileCells r.sfmt r.efmt raw p.2.1 p.2.2).map (fun c => (c.1 % 32, c.2))

/-- Byte offset of a tile's values; a compressed BM16 tile has them after its bitmaps and scales. -/
def Field.lay (f : Field) (r : Region) (t : Nat) : TileLay :=
  tileLay r.sfmt r.efmt (if r.sfmt = 0 then 0 else natLE (Tab.getRange 0 f.hbm (r.tileAddr t) 8))

/-- Element code v of a tile image. -/
def imgElem (sfmt efmt raw v : Nat) : Nat := raw / 2 ^ (8 * (tileLay sfmt efmt raw).vals + elemBits efmt * v) % 2 ^ elemBits efmt

/-- Scale code of block (j, b) of a tile image. -/
def imgScale (sfmt efmt raw j b : Nat) : Nat := raw / 2 ^ (8 * ((tileLay sfmt efmt raw).scales + 4 * j + b)) % 256

/-- The scale exponent of a stored block, with the INT8 factor; 0 for BF16 (R46, R47). -/
def imgExp (sfmt efmt raw j b : Nat) : Option Int :=
  if efmt = 6 then some 0 else (scaleExp (imgScale sfmt efmt raw j b)).map (· + intExp efmt)

/-- Byte address of the gradient of row x of block i (R201). -/
def Region.gradAddr (r : Region) (i x : Nat) : Nat :=
  let p := r.place i
  64 * r.grad + p.1 * (65536 * r.g) + 4 * (128 * r.g * (32 * p.2.2 + x) + p.2.1)

/-- Bits of the stack. -/
def Field.getBits (f : Field) (addr ofs w : Nat) : Nat :=
  natLE (Tab.getRange 0 f.hbm (addr + ofs / 8) ((ofs % 8 + w + 7) / 8)) / 2 ^ (ofs % 8) % 2 ^ w
def Field.putBits (f : Field) (addr ofs w v : Nat) : Field :=
  let n := (ofs % 8 + w + 7) / 8
  let old := natLE (Tab.getRange 0 f.hbm (addr + ofs / 8) n)
  let cur := old / 2 ^ (ofs % 8) % 2 ^ w
  f.hbmWrite (addr + ofs / 8) (bytesLE (old + v % 2 ^ w * 2 ^ (ofs % 8) - cur * 2 ^ (ofs % 8)) n)

/-! ## Transposes -/

/-- The exact value of an element under its scale (R209). -/
def exactElem (fmt code : Nat) (x : Option Int) : Fp := fpScaled (decodeElem fmt code) x

/-- Build a dense tile image from exact values (k, j): blocks of R48 by R66 with RNE, BF16 exactly (R209). `code` gives
the source code for a BF16 rearrangement. -/
def denseFrom (fmt : Nat) (val : Nat → Nat → Fp) (code : Nat → Nat → Nat) : Nat :=
  if fmt = 6 then
    pack 16 ((List.range 16384).map (fun v => code (v / 128) (v % 128)))
  else
    let w := elemBits fmt
    let blocks := (List.range 512).map (fun x =>
      let j := x / 4
      let b := x % 4
      toMX fmt (List.replicate 32 .rne) ((List.range 32).map (fun i => val (32 * b + i) j)))
    let elem := fun k j => ((blocks.getD (4 * j + k / 32) (0, [])).2).getD (k % 32) 0
    pack w ((List.range 16384).map (fun v => elem (v / 128) (v % 128))) +
      pack 8 (blocks.map Prod.fst) * 2 ^ (8 * tileElemBytes fmt)

/-- XP 1 of a dense tile: array row j, column k holds source element (k, j) (Table 7.6). -/
def xpDense (fmt raw : Nat) : Nat :=
  denseFrom fmt (fun k j => exactElem fmt (imgElem 0 fmt raw (128 * j + k)) (imgExp 0 fmt raw k (j / 32)))
    (fun k j => imgElem 0 fmt raw (128 * j + k))

/-- XP 1 of a BM16 tile of either kind: the dense transposed tile (R211). -/
def xpBm16 (fmt raw : Nat) : Nat :=
  let val := fun k j =>
    match (tileCells 4 fmt raw j (k / 32)).find? (fun p => p.1 = k) with
    | some p => exactElem fmt (imgElem 4 fmt raw p.2) (imgExp 4 fmt raw j (k / 32))
    | none => match imgExp 4 fmt raw j (k / 32) with
      | some _ => .fin false 0 0
      | none => .nan
  denseFrom fmt (fun k j => val j k) (fun _ _ => 0)

/-- The header word of a structured tile image (Table 5.1). -/
def structHdr (sfmt efmt : Nat) (trans : Bool) : Nat :=
  structBytes sfmt efmt / 8 * 2 ^ 32 + 0xE5 * 2 ^ 24 + (if trans then 2 ^ 17 else 0) + efmt * 256 + sfmt

/-- Result tile s of XP 1 over G structured tiles (R211): source element (K, J) of the 128G square becomes reduction row
J − 128s and logical column K. -/
def xpStruct (sfmt fmt : Nat) (raws : List Nat) (s : Nat) : Nat :=
  let g := sfmtG sfmt
  let n := if sfmt = 1 then 2 else 4
  let gw := if sfmt = 3 then 16 else 4
  let w := elemBits fmt
  -- column K of the result, block b: source columns 128s + 32b .. + 31 that retain row K
  let cells := fun (kk b : Nat) =>
    let raw := raws.getD (kk / 128) 0
    (List.range 32).filterMap (fun i =>
      let j := 128 * s + 32 * b + i
      ((tileCells sfmt fmt raw j (kk % 128 / 32)).find? (fun p => p.1 = kk % 128)).map (fun p =>
        (32 * b + i, exactElem fmt (imgElem sfmt fmt raw p.2) (imgExp sfmt fmt raw j (kk % 128 / 32)))))
  let cols := (List.range (512 * g)).map (fun x =>
    let cs := cells (x / 4) (x % 4)
    let mx := toMX fmt (cs.map (fun _ => .rne)) (cs.map Prod.snd)
    (mx.1, cs.map Prod.fst, mx.2))
  let place := fun (v : Nat) =>
    let r := v / 128
    let q := r / gw
    let sel := r % gw / n
    let kk := 128 * sel + v % 128
    let col := cols.getD (4 * kk + gw * q / 32) (0, [], [])
    let ix := (col.2.1.zip col.2.2).filter (fun p => p.1 / gw = q)
    (ix.getD (r % n) (gw * q, 0))
  let vals := pack w ((List.range 16384).map (fun v => (place v).2))
  let codes := pack (sfmtCode sfmt) ((List.range 16384).map (fun v => (place v).1 % gw))
  let eb := tileElemBytes fmt
  let cb := 2048 * sfmtCode sfmt
  structHdr sfmt fmt true + vals * 2 ^ 64 + codes * 2 ^ (8 * (8 + eb)) + pack 8 (cols.map Prod.fst) * 2 ^ (8 * (8 + eb + cb))

/-- Exact value of element k of record r in 128 row records. -/
def recVal (fmt raw r k : Nat) : Fp :=
  let img := sliceBytes raw (r * recBytes fmt) (recBytes fmt)
  exactElem fmt (packedAt img (elemBits fmt) k) (if fmt = 6 then some 0 else (scaleExp (recScale fmt img (k / 32))).map (· + intExp fmt))

def recCode (fmt raw r k : Nat) : Nat := packedAt (sliceBytes raw (r * recBytes fmt) (recBytes fmt)) (elemBits fmt) k

/-- XP 2: 128 row records, each holding one element position of all 128 sources, tag word 0 (Table 7.6). -/
def xpRecords (fmt raw : Nat) : Nat :=
  (List.range 128).foldr (fun k acc =>
    let img :=
      if fmt = 6 then pack 16 ((List.range 128).map (fun r => recCode fmt raw r k))
      else
        let bl := (List.range 4).map (fun b => toMX fmt (List.replicate 32 .rne) ((List.range 32).map (fun i => recVal fmt raw (32 * b + i) k)))
        pack (elemBits fmt) (bl.flatMap Prod.snd) + pack 8 (bl.map Prod.fst) * 2 ^ (8 * rowElemBytes fmt)
    img + 2 ^ (8 * recBytes fmt) * acc) 0

/-- XP 3: one dense tile with the same element order, array row = record (Table 7.6). -/
def xpTile (fmt raw : Nat) : Nat :=
  denseFrom fmt (fun k j => recVal fmt raw k j) (fun k j => recCode fmt raw k j)

/-- Source bytes of one unit of an HRD (R207, R208). -/
def hrdSource (xp fmt : Nat) : Nat := if xp = 1 then denseBytes fmt else 128 * recBytes fmt
/-- Result bytes of one unit of an HRD. -/
def hrdResult (xp fmt : Nat) : Nat := if xp = 2 then 128 * recBytes fmt else denseBytes fmt
/-- The transform of one unit. -/
def hrdApply (xp fmt raw : Nat) : Nat := if xp = 1 then xpDense fmt raw else if xp = 2 then xpRecords fmt raw else xpTile fmt raw

/-- What an entry reads for its tile t: source addresses and lengths, the result's length and bytes from the sources, how
many source tiles it takes, or XP_FORMAT. -/
structure StreamUnit where
  addrs : List Nat := []
  len : Nat := 0
  olen : Nat := 0
  out : List Nat → List Byte := fun _ => []
  count : Nat := 1
  bad : Bool := false

/-- The unit of an entry at its tile t (R203, R208, R211). -/
def StreamEntry.unitAt (e : StreamEntry) (f : Field) (t : Nat) : StreamUnit :=
  let at_ := fun (i : Nat) => 64 * (e.addr + e.stride * i)
  let one := [at_ t]
  if !e.hdr then
    let src := if e.xp = 0 then denseBytes e.efmt else hrdSource e.xp e.efmt
    { addrs := one, len := src, olen := if e.xp = 0 then src else hrdResult e.xp e.efmt,
      out := fun raws => if e.xp = 0 then bytesLE (raws.headD 0) src else bytesLE (hrdApply e.xp e.efmt (raws.headD 0)) (hrdResult e.xp e.efmt) }
  else
    let h := tileHdr (natLE (Tab.getRange 0 f.hbm (at_ t) 8))
    let size := 8 * h.size
    if e.xp = 0 then { addrs := one, len := size, olen := size, out := fun raws => bytesLE (raws.headD 0) size }
    else if e.xp = 1 && h.sfmt = 4 then { addrs := one, len := size, olen := denseBytes h.efmt, out := fun raws => bytesLE (xpBm16 h.efmt (raws.headD 0)) (denseBytes h.efmt) }
    else if e.xp = 1 && (h.sfmt = 1 || (h.sfmt = 3 && h.trans)) && e.ntile % sfmtG h.sfmt = 0 then
      let g := sfmtG h.sfmt
      { addrs := (List.range g).map (fun i => at_ (t + i)), len := size, olen := g * structBytes h.sfmt h.efmt, count := g
        out := fun raws => (List.range g).flatMap (fun i => bytesLE (xpStruct h.sfmt h.efmt raws i) (structBytes h.sfmt h.efmt)) }
    else { bad := true }

/-- Read the sources of a unit; the first uncorrectable 64-byte unit ends the read (R206). -/
def Field.readAll (f : Field) (len : Nat) : List Nat → Except Nat (List Nat)
  | [] => .ok []
  | a :: r =>
    match f.hbmRead a len with
    | .error u => .error u
    | .ok bs =>
      match f.readAll len r with
      | .error u => .error u
      | .ok l => .ok (natLE bs :: l)

end Sys2Proof.Machine
end

