-- ==== Sys2Proof/Machine/Flits.lean ====
section
/-! DEFINITION. Both ends of a fabric link (R173, R237 to R242): packets become flits, flits wait for credits in their channel's
order, go out with their SEQ and stay in the replay buffer until they are acknowledged; received flits stand in the receive
buffers until their packet moves on, and its buffer is returned as credit. -/

namespace Sys2Proof.Machine

open Sys2Proof

/-- The link-layer version (R237): LL_VERSION of FAB_ID. -/
def linkVersion : Nat := 1

/-- The address word of a packet's SOP flit (Table 8.2, bytes 16 to 23). -/
def FabPkt.target (k : FabPkt) : Nat := k.tkind * 2 ^ 56 + k.field * 2 ^ 50 + k.core * 2 ^ 44 + k.addr % 2 ^ 44

/-- The payload of a packet, 56 values to a flit; a packet without payload is one flit. -/
def flitWords : Nat → List W32 → List (List W32)
  | 0, l => [l]
  | n + 1, l => if l.length ≤ 56 then [l] else l.take 56 :: flitWords n (l.drop 56)

/-- Bytes 0 to 251 of flit i of n, SEQ, ACK and the credit field still zero (Table 8.2). -/
def FabPkt.flitBytes (k : FabPkt) (i n : Nat) (ws : List W32) : List Byte :=
  let sop := i = 0
  let pay := ws.flatMap (fun w => bytesLE w.toNat 4)
  bytesLE k.vc 1 ++ bytesLE ((if sop then 128 else 0) + (if i + 1 = n then 64 else 0) + ws.length) 1 ++ bytesLE 0 6 ++
    bytesLE k.dst 2 ++ bytesLE (k.part % 16 * 4096 + k.src) 2 ++ bytesLE k.epoch.toNat 2 ++ bytesLE k.coll.toNat 2 ++
    bytesLE (if sop then k.target else 0) 8 ++ bytesLE 0 4 ++ pay ++ List.replicate (224 - pay.length) 0#8

/-- The flits of a packet (R238). -/
def FabPkt.flits (k : FabPkt) : List FabFlit :=
  let l := flitWords k.payload.length k.payload
  l.mapIdx (fun i ws => { bytes := k.flitBytes i l.length ws })

/-- A flit with the CRC-32 of its bytes. -/
def FabFlit.seal (bs : List Byte) : FabFlit := { bytes := bs, crc := crc32 bs }

/-! ## Sending -/

/-- Whether a channel has a flit ready, with credit and room in the replay buffer (R240, R241). -/
def FabPort.canSend (q : FabPort) (v : Nat) : Bool :=
  q.txq.any (fun f => f.vc = v) && decide (0 < q.credit.toList.getD v 0) && decide (q.buffer.length < 2048)

/-- The channel of the next flit slot (R173): VC0, then a due channel, then the channel of highest rank (Table 6.3). -/
def FabPort.pick (q : FabPort) : Option Nat :=
  if q.canSend 0 then some 0
  else
    let ready := [1, 3, 2, 4, 5].filter q.canSend
    match ready.find? (fun v => decide (11 ≤ q.slots.toList.getD v 0)) with
    | some v => some v
    | none => ready.head?

/-- The last good SEQ, as ACK carries it. -/
def FabPort.lastGood (q : FabPort) : BitVec 12 := q.rxExp - 1

/-- The channel whose credit the next data flit returns: the lowest with flits of buffer to return. -/
def FabPort.owed (q : FabPort) : Option Nat := (List.range 6).find? (fun v => decide (0 < q.ret.toList.getD v 0))

/-- The CVC and CREDIT word (Table 8.2). -/
def FabPort.creditWord (q : FabPort) : Nat :=
  match q.owed with
  | none => 0
  | some v => v * 2 ^ 13 + min 8191 (q.ret.toList.getD v 0)

/-- A flit with its SEQ, the present ACK, the credit that it returns and its CRC-32 (R238, R240, R241). -/
def FabPort.stamp (q : FabPort) (f : FabFlit) : FabFlit :=
  FabFlit.seal (f.bytes.take 2 ++ bytesLE q.txSeq.toNat 2 ++ bytesLE q.lastGood.toNat 2 ++ bytesLE q.creditWord 2 ++ f.bytes.drop 8)

/-- The buffer still to return once a data flit has carried its credit word. -/
def FabPort.returned (q : FabPort) : Vector Nat 6 :=
  match q.owed with
  | none => q.ret
  | some v => Vector.ofFn (fun i => if i.val = v then q.ret[i] - min 8191 q.ret[i] else q.ret[i])

/-- One flit slot: the first waiting flit of the granted channel goes out and enters the replay buffer. -/
def FabPort.sendOne (q : FabPort) (v : Nat) : FabPort × List FabFlit :=
  match q.txq.find? (fun f => f.vc = v) with
  | none => (q, [])
  | some f =>
    let g := q.stamp f
    ({ q with
        txq := q.txq.erase f, buffer := q.buffer ++ [g], txSeq := q.txSeq + 1, ret := q.returned, ackDue := false
        credit := Vector.ofFn (fun i => if i.val = v then q.credit[i] - 1 else q.credit[i])
        slots := if v = 0 then q.slots else Vector.ofFn (fun i => if i.val = v then 0 else q.slots[i] + 1) }, [g])

/-- Send as far as credits and the replay buffer go. -/
def FabPort.pump : Nat → FabPort → FabPort × List FabFlit
  | 0, q => (q, [])
  | n + 1, q =>
    match q.pick with
    | none => (q, [])
    | some v =>
      let a := q.sendOne v
      let b := FabPort.pump n a.1
      (b.1, a.2 ++ b.2)

/-- A control flit (Table 8.2): CTYPE, NAK and ACK, the six credit counts, and bytes 20 to 31 of an INIT flit. -/
def FabPort.control (q : FabPort) (ctype : Nat) (nak : Bool) (counts : List Nat) (tail : List Byte) : FabFlit :=
  FabFlit.seal (bytesLE 16 1 ++ bytesLE (16 * ctype) 1 ++ bytesLE 0 2 ++ bytesLE (q.lastGood.toNat + (if nak then 2 ^ 15 else 0)) 2 ++ bytesLE 0 2 ++
    counts.flatMap (fun n => bytesLE n 2) ++ (tail ++ List.replicate (12 - tail.length) 0#8) ++ List.replicate 220 0#8)

/-- A control flit of CTYPE 0 that returns everything owed. -/
def FabPort.answer (q : FabPort) (nak : Bool) : FabPort × FabFlit :=
  ({ q with ret := Vector.replicate 6 0, ackDue := false }, q.control 0 nak q.ret.toList [])

/-- What a port sends (R239, R240): its waiting data flits as far as they go; then, where no data flit could carry them, an
acknowledgement and the credits owed in a control flit. -/
def State.pumpPort (s : State) (p : Nat) : State :=
  let q := s.port p
  let r := FabPort.pump q.txq.length q
  let a := if r.1.ackDue || r.1.owed.isSome then (r.1.answer false).map id (fun f => [f]) else (r.1, [])
  { s with fab := { s.fab with ports := if h : p < 28 then s.fab.ports.set p a.1 else s.fab.ports } }.emit ((r.2 ++ a.2).map (fun f => Output.flit p (.data f)))

/-- A packet joins the port that the forwarding table names for its destination (R242); without a route it is lost. -/
def State.routePacket (s : State) (k : FabPkt) : State :=
  let p := Tab.get 28 s.fab.fwd k.dst
  let q := s.port p
  if h : p < 28 then
    if q.st ≠ .up || q.eth then s
    else { s with fab := { s.fab with ports := s.fab.ports.set p { q with txq := q.txq ++ k.flits } } }.pumpPort p
  else s

/-! ## Receiving -/

/-- The packet whose last flit came first among those that stand whole in the receive buffers, the number of its flits, and the
buffers without it. A channel delivers in order (R241), so its flits are those of the channel up to that one. -/
def FabPort.firstPacket (q : FabPort) : Option (FabPkt × Nat × List FabFlit) :=
  (q.rxb.findIdx? FabFlit.eop).map (fun i =>
    let v := ((q.rxb[i]?).getD {}).vc
    let mine := (q.rxb.take (i + 1)).filter (fun f => f.vc = v)
    (FabPkt.ofFlits mine, mine.length, (q.rxb.take (i + 1)).filter (fun f => f.vc ≠ v) ++ q.rxb.drop (i + 1)))

/-- The packet leaves the buffers of a port, which owes their credit (R240). -/
def FabPort.takePacket (q : FabPort) (k : FabPkt) (n : Nat) (rest : List FabFlit) : FabPort :=
  { q with rxb := rest, ret := Vector.ofFn (fun i => if i.val = k.vc then q.ret[i] + n else q.ret[i]) }

end Sys2Proof.Machine
end

