-- ==== Sys2Proof/Machine/BankCtl.lean ====
section
/-! DEFINITION. Bank ownership and handovers (R123 to R126), wipes and zeroing (R127, R135, R136) and the march engine
(R132 to R134). -/

namespace Sys2Proof.Machine

open Sys2Proof

/-- Whether a register write outside RCK_ and VID_ acts: firmware's own path, or the owner once the module is READY (R23,
R365, R379). -/
def State.allows (s : State) (who : Option (Fin 3)) : Bool :=
  match who with
  | none => true
  | some a => s.host.owner = a.val && s.rck.ready

def bitOf (b : Nat) : W32 := BitVec.ofNat 32 (2 ^ b)

/-- Replace the owner code of one bank in an ownership image. -/
def setOwn (o : W64) (b code : Nat) : W64 :=
  (o &&& ~~~(3#64 <<< (2 * b))) ||| (BitVec.ofNat 64 (code % 4) <<< (2 * b))

/-! ## Handovers -/

/-- A handover that begins (R125): PEND sets; on a bank that is BUSY it takes effect when BUSY clears. -/
def Bank.handover (b : Bank) (k code : Nat) : Bank :=
  if b.busy.getLsbD k then { b with target := setOwn b.target k code, late := b.late ||| bitOf k }
  else { b with target := setOwn b.target k code, pend := b.pend ||| bitOf k }

/-- One field of an ownership write (R125, R126): HOST for a secure bank is refused and counted. A field changes when it
differs from the bank's owner, or from the target of a handover in progress. -/
def Bank.writeOwn (b : Bank) (k code : Nat) : Bank :=
  if code = 2 && (b.secure.getLsbD k || b.secSet.getLsbD k) then { b with rejects := satAdd b.rejects 1 }
  else
    let open_ := b.pend.getLsbD k || b.late.getLsbD k
    if (if open_ then ownOf b.target k else ownOf b.own k) = code then b else b.handover k code

/-- A write of BNK_OWN_LO (banks 0 to 15) or BNK_OWN_HI. -/
def Bank.writeOwnReg (b : Bank) (hi : Bool) (v : W32) : Bank :=
  (List.range 16).foldl (fun b i => b.writeOwn (if hi then 16 + i else i) (v.toNat / 4 ^ i % 4)) b

/-- The handover of a bank ends (R125); a SECURE bit that waits for it sets (R126). -/
def Bank.handoverDone (b : Bank) (k : Nat) : Bank :=
  if b.pend.getLsbD k then
    { b with
      own := setOwn b.own k (ownOf b.target k)
      pend := b.pend &&& ~~~bitOf k
      secure := if b.secSet.getLsbD k then b.secure ||| bitOf k else b.secure
      secSet := b.secSet &&& ~~~bitOf k }
  else b

/-- BUSY of a bank clears; a handover that waited for it begins (R125). -/
def Bank.unbusy (b : Bank) (k : Nat) : Bank :=
  { b with
    busy := b.busy &&& ~~~bitOf k
    late := b.late &&& ~~~bitOf k
    pend := if b.late.getLsbD k then b.pend ||| bitOf k else b.pend }

/-! ## Contents -/

def bankWordsHas (k : Nat) (w : Nat) : Bool := bankOf w = k

/-- Every word of a bank becomes the all-zero codeword (R117, R135). -/
def Bank.zeroBank (b : Bank) (k : Nat) : Bank :=
  { b with
    data := b.data.filter (fun p => !bankWordsHas k (p.1 / 64))
    err := b.err.filter (fun p => !bankWordsHas k (p.1 / 68))
    writeBack := b.writeBack.filter (fun w => !bankWordsHas k w) }

/-- The corrected codeword of a word is stored, when one exists (R132). -/
def Bank.correct (b : Bank) (w : Nat) : Bank :=
  match b.decoded w with
  | some (bs, _) => b.store w bs
  | none => b

/-- The words of bank k that carry an error, in ascending order. -/
def Bank.badIn (b : Bank) (k : Nat) : List Nat :=
  ((b.err.map (fun p => p.1 / 68)).filter (bankWordsHas k)).dedup

/-- Correct the words of bank k below word number `lim`. -/
def Bank.correctBelow (b : Bank) (k lim : Nat) : Bank :=
  ((b.badIn k).filter (fun w => wordInBank w < lim)).foldl Bank.correct b

/-- The word of raw ones: data and check bits all 1. -/
def Bank.ones (b : Bank) (w : Nat) : Bank :=
  let d := List.replicate 64 0xFF#8
  let c := b.store w d
  { c with err := ((rsCheck d).mapIdx (fun i x => (68 * w + 64 + i, x ^^^ 0xFF#8))).foldl (fun t p => Tab.set 0 t p.1 p.2) c.err }

/-- Words of bank k whose number satisfies `p` hold raw ones, the others zero. -/
def Bank.fillOnes (b : Bank) (k : Nat) (p : Nat → Bool) : Bank :=
  ((List.range 4096).filter p).foldl (fun b i => b.ones (wordOf k i)) (b.zeroBank k)

/-- The contents that a destructive march leaves when its read at word w of an element fails (Table 4.5): elements 1 and 3
write ones behind them, 2 and 4 zeros, ascending in 1 and 2, descending in 3 and 4. -/
def Bank.stoppedAt (b : Bank) (k element w : Nat) : Bank :=
  match element with
  | 1 => b.fillOnes k (fun i => i < w)
  | 2 => b.fillOnes k (fun i => w ≤ i)
  | 3 => b.fillOnes k (fun i => w < i)
  | 4 => b.fillOnes k (fun i => i ≤ w)
  | _ => b.zeroBank k

/-! ## Wipes -/

/-- A march whose bank a wipe names ends without zeroing (R133). -/
def Bank.wipeMarch (b : Bank) (set : W32) : Bank :=
  if b.march.running && set.getLsbD b.march.bank && !b.wiping.getLsbD b.march.bank && !b.waking then
    { b with march := { b.march with
        running := false, aborting := false, abortFail := none, aborted := true, done := true, todo := []
        fail := b.march.fail || b.march.abortFail.isSome
        failWord := (b.march.abortFail.map Prod.fst).getD b.march.failWord
        failBank := if b.march.abortFail.isSome then b.march.bank else b.march.failBank
        failBit := (b.march.abortFail.map Prod.snd).getD b.march.failBit } }
  else b

/-- A wipe of a set of banks starts (R136); on a dark terrace it is complete at once. -/
def Bank.startWipe (b : Bank) (set : W32) (dark : Bool) : Bank :=
  if dark then { b with secure := b.secure &&& ~~~(b.secClr &&& set), secClr := b.secClr &&& ~~~set }
  else
    let c := b.wipeMarch set
    { c with wiping := c.wiping ||| set, busy := c.busy ||| set }

/-- A firmware write of BNK_SECURE (R126): a rising bit of a bank that HOST owns, or that is being handed to HOST, first hands
it over to CORE and sets when that handover ends; a falling bit first wipes the bank. -/
def Bank.writeSecure (b : Bank) (v : W32) (dark : Bool) : Bank :=
  let b := { b with secClr := b.secClr &&& ~~~v }
  let rise := v &&& ~~~b.secure
  let fall := b.secure &&& ~~~v
  let c := (List.range 32).foldl (fun (b : Bank) k =>
    if !rise.getLsbD k then b
    else if ownOf b.own k = 2 || ((b.pend.getLsbD k || b.late.getLsbD k) && ownOf b.target k = 2) then
      { b.handover k 0 with secSet := b.secSet ||| bitOf k }
    else { b with secure := b.secure ||| bitOf k }) b
  if fall = 0 then c else { c with secClr := c.secClr ||| fall }.startWipe fall dark

/-- A read-back that differed (R135): ZBANK keeps the first. -/
def Bank.noteZ (b : Bank) (k : Nat) : Bank := if b.zfail then b else { b with zfail := true, zbank := k }

/-- The wipe of a bank ends (R126, R136): banks end in ascending order. A read-back that differs sets ZFAIL and ZBANK; R135
retires the core after the zeroing on wake only, and a wipe retires none (DESIGN CHOICE, log 68). -/
def Bank.wipeDone (b : Bank) (k : Nat) (differs : Bool) : Bank :=
  if b.wiping.getLsbD k && !b.waking && !(List.range k).any b.wiping.getLsbD then
    let z := b.zeroBank k
    let z := { z with
      wiping := z.wiping &&& ~~~bitOf k
      secure := if z.secClr.getLsbD k then z.secure &&& ~~~bitOf k else z.secure
      secClr := z.secClr &&& ~~~bitOf k }
    let z := if differs then z.noteZ k else z
    if z.march.running && z.march.bank = k then z else z.unbusy k
  else b

/-- Zeroing on wake starts (R135): every bank is BUSY and owned by CORE. -/
def Bank.startWake (b : Bank) : Bank :=
  { b with own := 0, target := 0, pend := 0, late := 0, secSet := 0, secure := b.secure ||| b.secSet, busy := 0xFFFFFFFF#32, waking := true }

/-- Zeroing on wake ends; a wipe that was requested meanwhile is complete (R136). -/
def Bank.wakeDone (b : Bank) (differs : Option Nat) : Bank :=
  let z := { b with
    data := [], err := [], writeBack := [], waking := false
    secure := b.secure &&& ~~~(b.secClr &&& b.wiping)
    secClr := b.secClr &&& ~~~b.wiping
    wiping := 0 }
  let z := (List.range 32).foldl (fun (z : Bank) k => if z.march.running && z.march.bank = k then z else z.unbusy k) z
  match differs with
  | some k => z.noteZ k
  | none => z

/-! ## Marches -/

/-- START (R133): ignored with a zero mask, while RUNNING, and on a dark terrace. -/
def Bank.marchStart (b : Bank) (dark : Bool) : Bank :=
  match (List.range 32).filter b.march.maskReg.getLsbD with
  | [] => b
  | k :: r =>
    if b.march.running || dark then b
    else { b with
      busy := b.busy ||| bitOf k
      march := { b.march with running := true, fail := false, aborted := false, aborting := false, abortFail := none, element := 0, bank := k, todo := r, runMode := b.march.mode } }

/-- ABORT (R133): `element` and `word` are those in progress, `fail` a failing compare of the word. In preserving mode the
words tested so far hold their corrected codewords. -/
def Bank.marchAbort (b : Bank) (element word : Nat) (fail : Option Nat) : Bank :=
  if !b.march.running || b.march.aborting then b
  else
    let k := b.march.bank
    let unc := b.march.runMode && element = 0 && (b.decoded (wordOf k word)).isNone
    let rec_ := if unc then some (word, 0x3FF) else fail.map (fun x => (word, x))
    let c := if b.march.runMode then b.correctBelow k (if element = 0 then word + 1 else 4096) else b
    { c with march := { c.march with aborting := true, element := element, abortFail := rec_ } }

/-- The end of an abort (R133): a destructive march leaves the bank zeroed. A bank that a wipe or the wake zeroing still
holds keeps its BUSY bit until that ends. -/
def Bank.marchAbortDone (b : Bank) : Bank :=
  if !b.march.running || !b.march.aborting then b
  else
    let k := b.march.bank
    let z := if b.march.runMode then b else b.zeroBank k
    let z := if z.wiping.getLsbD k || z.waking then z else z.unbusy k
    { z with march := { z.march with
        running := false, aborting := false, aborted := true, done := true, todo := [], abortFail := none
        fail := z.march.abortFail.isSome
        failWord := (z.march.abortFail.map Prod.fst).getD z.march.failWord
        failBank := if z.march.abortFail.isSome then k else z.march.failBank
        failBit := (z.march.abortFail.map Prod.snd).getD z.march.failBit } }

/-- The first uncorrectable word of a bank, which fails its first read in preserving mode (R134). -/
def Bank.uncorrIn (b : Bank) (k : Nat) : Option Nat :=
  ((b.badIn k).filter (fun w => (b.decoded w).isNone)).head?.map wordInBank

/-- What the march of the present bank finds: the failing compare, or an uncorrectable first read that comes before it:
element, word and bit. -/
def Bank.marchFinding (b : Bank) (fail : Option (Nat × Nat × Nat)) : Option (Nat × Nat × Nat) :=
  match b.march.runMode, b.uncorrIn b.march.bank, fail with
  | true, some w, some (e, x, y) => if e = 0 && x < w then some (e, x, y) else some (0, w, 0x3FF)
  | true, some w, none => some (0, w, 0x3FF)
  | _, _, f => f

/-- A bank of the march ends (R133, R134): the next bank enters, or the march ends. -/
def Bank.marchBankDone (b : Bank) (fail : Option (Nat × Nat × Nat)) : Bank :=
  let k := b.march.bank
  if !b.march.running || b.march.aborting || b.wiping.getLsbD k || b.waking then b
  else
    match b.marchFinding fail with
    | some (e, w, bit) =>
      let z := if b.march.runMode then b.correctBelow k (if e = 0 then w + 1 else 4096) else b.stoppedAt k e w
      let z := z.unbusy k
      { z with march := { z.march with running := false, done := true, fail := true, todo := [], element := e, failWord := w, failBank := k, failBit := bit } }
    | none =>
      let z := if b.march.runMode then b.correctBelow k 4096 else b.zeroBank k
      let z := z.unbusy k
      match z.march.todo with
      | [] => { z with march := { z.march with running := false, done := true, element := if z.march.runMode then 1 else 5 } }
      | n :: r => { z with busy := z.busy ||| bitOf n, march := { z.march with element := 0, bank := n, todo := r } }

/-! ## The commands -/

def State.dark (s : State) (k : Nat) : Bool :=
  let t := (s.ter (k / 32)).st
  !(t = .lit || t = .zeroing)

/-- Change the banks of a core. -/
def State.onBank (s : State) (k : Nat) (f : Bank → Bank) : State :=
  { s with cores := Tab.upd {} s.cores k (fun c => { c with bank := f c.bank }) }

/-- Firmware retires a core: an Enabled or Spare site becomes Retired (Table 0.4). -/
def State.retire (s : State) (k : Nat) : State :=
  { s with sites := if s.site k = .enabled || s.site k = .spare then Tab.set .enabled s.sites k .retired else s.sites }

def execBnkOwnWrite (who : Option (Fin 3)) (k : Site) (hi : Bool) (v : W32) (s : State) : Host.Outcome State Fault Refusal :=
  .next (if s.allows who then s.onBank k (fun b => b.writeOwnReg hi v) else s)

def execBankHandoverDone (k : Site) (b : BankIx) (s : State) : Host.Outcome State Fault Refusal :=
  .next (s.putCore k { s.core k with bank := (s.core k).bank.handoverDone b })

def execMarchStart (who : Option (Fin 3)) (k : Site) (s : State) : Host.Outcome State Fault Refusal :=
  .next (if s.allows who then s.onBank k (fun b => b.marchStart (s.dark k)) else s)

def execMarchAbort (who : Option (Fin 3)) (k : Site) (element : Fin 6) (word : Fin 4096) (fail : Option (Fin 544)) (s : State) :
    Host.Outcome State Fault Refusal :=
  .next (if s.allows who then s.onBank k (fun b => b.marchAbort element word (fail.map Fin.val)) else s)

end Sys2Proof.Machine
end

