-- ==== Sys2Proof/Machine/RedTree.lean ====
section
/-! DEFINITION. Places on the router grid (R8, R166), the route order (R168), and reduction trees whose entries name a retired
site (R295). -/

namespace Sys2Proof.Machine

open Sys2Proof

/-! ## Places on the grid (R8, R166) -/

def routerX (f q : Nat) : Nat := 4 * (f % 8) + q % 4
def routerY (f q : Nat) : Nat := 4 * (f / 8) + q / 4

/-- The field and the quad of the router at (x, y). -/
def fieldAt (x y : Nat) : Nat := 8 * (y / 4) + x / 4
def quadAt (x y : Nat) : Nat := 4 * (y % 4) + x % 4

/-- The neighbour through port p (4 W, 5 E, 6 S, 7 N) and its port of the same link. -/
def neighbour (x y p : Nat) : Option (Nat × Nat × Nat) :=
  if p = 4 && 0 < x then some (x - 1, y, 5)
  else if p = 5 && x < 31 then some (x + 1, y, 4)
  else if p = 6 && 0 < y then some (x, y - 1, 7)
  else if p = 7 && y < 23 then some (x, y + 1, 6)
  else none

/-- The router of a core site: field × 16 + quad (R6). -/
def routerOf (k : Nat) : Nat := k / 64 * 16 + k % 64 / 16 * 4 + k % 8 / 2

/-- The port L0 to L3 of a core site at its router (R6, Table 6.1). -/
def portOf (k : Nat) : Nat := k % 16 / 8 * 2 + k % 2

/-- The core site at port L0 to L3 of a router (R6, Table 6.1). -/
def siteAtPort (f q p : Nat) : Nat := 64 * f + 8 * (2 * (q / 4) + p / 2) + 2 * (q % 4) + p % 2

/-- The output port towards router (tx, ty) at router (x, y) under the tables of R168, or the destination's own port 0. -/
def routePort (x y tx ty : Nat) : Nat :=
  if x < tx then 5 else if tx < x then 4 else if y < ty then 7 else if ty < y then 6 else 0

/-- The port of router a (field × 16 + quad) towards router b. -/
def portTo (a b : Nat) : Nat := routePort (routerX (a / 16) (a % 16)) (routerY (a / 16) (a % 16)) (routerX (b / 16) (b % 16)) (routerY (b / 16) (b % 16))

/-- The router behind port p of router r and its port of the same link. -/
def behind (r p : Nat) : Option (Nat × Nat) :=
  (neighbour (routerX (r / 16) (r % 16)) (routerY (r / 16) (r % 16)) p).map (fun n => (16 * fieldAt n.1 n.2.1 + quadAt n.1 n.2.1, n.2.2))

/-! ## Reduction trees with a spare (R295)

A tree is the entries of one reduction ID by router. R295 has firmware rewrite the entries that name a retired site and states
no tree for a spare in another quad: the model's is that of log 83 (DESIGN CHOICE). -/

/-- A port leaves IN. -/
def RedEntry.without (e : RedEntry) (p : Nat) : RedEntry := { e with inMask := if e.inMask.testBit p then e.inMask - 2 ^ p else e.inMask }

/-- A port joins IN. -/
def RedEntry.with_ (e : RedEntry) (p : Nat) : RedEntry := { e with inMask := e.inMask ||| 2 ^ p }

/-- Input p of router r goes; an entry left without inputs goes too, with the input that it fed. -/
def cutInput : Nat → Nat → Nat → Tab RedEntry → Tab RedEntry
  | 0, _, _, t => t
  | n + 1, r, p, t =>
    match t.lookup r with
    | none => t
    | some e =>
      if (e.without p).inMask ≠ 0 then Tab.set {} t r (e.without p)
      else
        let rest := t.filter (fun x => x.1 ≠ r)
        match behind r e.out with
        | none => rest
        | some (b, i) => cutInput n b i rest

/-- A source at port p of router r joins the tree: the routers on the way to router `root` forward it until one has an entry. -/
def joinTree (e : RedEntry) (root : Nat) : Nat → Nat → Nat → Tab RedEntry → Tab RedEntry
  | 0, _, _, t => t
  | n + 1, r, p, t =>
    match t.lookup r with
    | some x => Tab.set {} t r (x.with_ p)
    | none =>
      match behind r (portTo r root) with
      | none => t
      | some (b, i) => joinTree e root n b i (Tab.set {} t r { e with inMask := 2 ^ p, out := portTo r root })

/-- Router r sends its sums through port o: every router on its way to the former root turns round. -/
def turnTree : Nat → Nat → Nat → Tab RedEntry → Tab RedEntry
  | 0, _, _, t => t
  | n + 1, r, o, t =>
    match t.lookup r with
    | none => t
    | some e =>
      match behind r e.out with
      | none => Tab.set {} t r { e with out := o }
      | some (b, i) => turnTree n b i (Tab.upd {} (Tab.set {} t r { e.with_ e.out with out := o }) b (fun x => x.without i))

/-- The sums of the tree leave at port o of router r: the nearest router of the tree on the way to router `root` leads them
there. -/
def leadTree (e : RedEntry) (root : Nat) : Nat → Nat → Nat → Tab RedEntry → Tab RedEntry
  | 0, _, _, t => t
  | n + 1, r, o, t =>
    match t.lookup r with
    | some _ => turnTree 768 r o t
    | none =>
      match behind r (portTo r root) with
      | none => t
      | some (b, i) => leadTree e root n b i (Tab.set {} t r { e with inMask := 2 ^ portTo r root, out := o })

/-- Site m takes the place of site k in a tree, as a source and as the destination. -/
def movePort (k m : Nat) (t : Tab RedEntry) : Tab RedEntry :=
  let r := routerOf k
  match t.lookup r with
  | none => t
  | some e =>
    let u := if e.inMask.testBit (portOf k) then joinTree e r 8 (routerOf m) (portOf m) t else t
    let u := if e.out = portOf k then leadTree e r 8 (routerOf m) (portOf m) u else u
    cutInput 768 r (portOf k) u

/-- The entries of a placement once site m stands for site k. -/
def movePorts (rs : List PlanRed) (km : Nat × Nat) : List PlanRed :=
  let p := portOf km.1
  let ids := ((rs.filter (fun x => 16 * x.field + x.quad = routerOf km.1 && (x.e.inMask.testBit p || x.e.out = p))).map PlanRed.id).dedup
  ids.foldl (fun (l : List PlanRed) id =>
    let tree : Tab RedEntry := (l.filter (fun x => x.id = id)).foldl (fun t x => Tab.set {} t (16 * x.field + x.quad) x.e) []
    l.filter (fun x => x.id ≠ id) ++ (movePort km.1 km.2 tree).map (fun e => { field := e.1 / 16, quad := e.1 % 16, id := id, e := e.2 })) rs

/-- The reduction entries of a placement with its spares, given as (logical core, site) (R295). -/
def Placement.spared (pl : Placement) (remap : List (Nat × Nat)) : List PlanRed :=
  (pl.cores.filterMap (fun c => (remap.lookup c.logical).bind (fun m => if m = c.site then none else some (c.site, m)))).foldl movePorts pl.reds

end Sys2Proof.Machine
end

