-- ==== Sys2Proof/Machine/Parts.lean ====
section
/-! DEFINITION. Partitions as units of work: placements loaded into cores, fields, routers and cols (R106, R123, R126,
R138, R178, R182, R190, R203), the stop of a partition (R56, R112, R138, R190, R277), its edges (R108, R187), the module's
output signals, alarms and route tables (R168, R177). -/

namespace Sys2Proof.Machine

open Sys2Proof

/-- Apply a change that leaves an untouched core untouched to the cores of some sites. -/
def State.mapCores (s : State) (p : Nat → Bool) (f : Core → Core) : State :=
  { s with cores := Tab.mapV {} s.cores (fun k c => if p k then f c else c) }

/-- Apply a change to a list of cores. -/
def State.updCores (s : State) (ks : List Nat) (f : Nat → Core → Core) : State :=
  { s with cores := Tab.updAll {} s.cores ks f }

def State.updField (s : State) (f : Nat) (g : Field → Field) : State := { s with fields := Tab.upd {} s.fields f g }
def State.updFields (s : State) (fs : List Nat) (g : Nat → Field → Field) : State :=
  { s with fields := Tab.updAll {} s.fields fs g }
def State.updPart (s : State) (p : Nat) (g : Part → Part) : State :=
  { s with parts := if h : p < 16 then s.parts.set p (g (s.part p)) else s.parts }

/-- Replace entry i of a vector. -/
def vset {α : Type} {n : Nat} (v : Vector α n) (i : Nat) (x : α) : Vector α n := if h : i < n then v.set i x else v

def Field.setTer (f : Field) (i : Nat) (t : Ter) : Field := { f with ter := vset f.ter i t }
def State.setTer (s : State) (t : Nat) (x : Ter) : State := s.updField (t / 2) (fun f => f.setTer (t % 2) x)
def State.updTer (s : State) (t : Nat) (g : Ter → Ter) : State := s.setTer t (g (s.ter t))

def State.report (s : State) (rs : List FaultReport) : State :=
  { s with fw := { s.fw with reports := s.fw.reports ++ rs } }

/-- The present time in milliseconds of wafer cycles. -/
def State.ms (s : State) : Nat := s.tg.cyc.toNat / 1200000

/-! ## Alarms and signals -/

/-- Bits of PWT_ALARM. -/
def alSense : Nat := 1
def alPhase : Nat := 2
def alWarn : Nat := 3
def alHot : Nat := 4
def alDroop : Nat := 5
def alSagShort : Nat := 6
def alImbalance : Nat := 7
def alHoldup : Nat := 8

/-- An alarm is raised (PWT_ALARM), and the management interface sends its event message (R403; its code is DSP0248's
PlatformEventMessage: PRESUMED, log 60). -/
def State.alarm (s : State) (bit : Nat) : State :=
  { s with
    pwr := { s.pwr with alarm := s.pwr.alarm ||| BitVec.ofNat 9 (2 ^ bit) }
    out := .pldm 2 0x0A [bit] :: s.out }

/-- The alert vector on both ports (R382, R384, R386). -/
def alertBoth : List Output := [.msix 0 1, .msix 1 1]

/-- ALERT_N: unmasked power alarms (R336, PWT_ALARM_MASK), a lost reference (R355), an expired owner (R382), a security
alarm (R418) and a trim fault (R369). -/
def State.alertN (s : State) : Bool :=
  (s.pwr.alarm &&& ~~~s.pwr.mask) ≠ 0 || s.rck.refLost || s.host.hbExpired || s.sec.src ≠ 0 || s.rck.trimFault

/-- PWR_GOOD (R337): once READY, it follows the input, HOLDUP_OK and the imbalance halt. -/
def State.updPwrGood (s : State) : State :=
  { s with pwr := { s.pwr with
      pwrGood := s.rck.ready && decide (1140 ≤ s.pwr.vbus) && s.pwr.holdupOk && !s.pwr.alarm.getLsbD alImbalance } }

/-- A reply of a command (R390): its time is that of the completion cycle. -/
def State.replyTo (s : State) (f : Fetched) (status : W16) (result : W64) (dataLen : Nat) : Reply :=
  { agent := f.pkt.agent, seq := f.pkt.seq, opcode := f.pkt.opcode, status := status, part := f.pkt.part, owner := f.owner,
    dataLen := dataLen, result := result, at_ := if s.tg.running then s.now else {} }

/-- The slots of a ring (HPO_RING_CTL.SIZE): values other than 4 to 12 act as 4. -/
def Ring.slots (r : Ring) : Nat := if 4 ≤ r.size && r.size ≤ 12 then 2 ^ r.size else 16

/-- Statuses whose command counts as executed, so that its reply is kept for replay (R391). -/
def executed (st : W16) : Bool := st ≠ 0x0103#16 && st ≠ 0x0104#16

/-- Write a reply (R388): 32 bytes at the next entry of the agent's completion ring (R385), with PHASE; dropped while EN is 0. The reply is
journaled for replay in either case (R391). NOTIFY signals the completion vector. -/
def State.putReply (s : State) (r : Reply) (notify : Bool) : State :=
  let a := r.agent.val
  let ring := s.ring a
  let live := a = 2 || ring.en
  let rp := { r with phase := if a = 2 then false else ring.phase }
  let next := ring.entry + 1
  let wraps := decide (ring.slots ≤ next)
  { s with
    fw := if executed r.status then { s.fw with stored := vset s.fw.stored a ((r :: s.fw.stored.toList.getD a []).take 64) } else s.fw
    host := if a < 2 && ring.en then
        { s.host with ring := vset s.host.ring a { ring with entry := if wraps then 0 else next, phase := if wraps then !ring.phase else ring.phase } }
      else s.host
    out := if live then (if notify && a < 2 then [Output.msix a 0] else []) ++ Output.reply rp ::
      ((if a < 2 then [Output.hostWrite a (ring.cq + BitVec.ofNat 64 (32 * ring.entry)) rp.bytes] else []) ++ s.out) else s.out }

/-- Complete a command with a status. -/
def State.finish (s : State) (f : Fetched) (status : W16) (result : W64) (dataLen : Nat) : State :=
  s.putReply (s.replyTo f status result dataLen) (f.pkt.flags.getLsbD 0)

/-- The long command in flight that satisfies a predicate. -/
def State.long? (s : State) (p : LongKind → Bool) : Option Long := s.fw.flight.find? (fun l => p l.kind)

/-- Complete the first long command that satisfies a predicate, if one is in flight. -/
def State.endLong (s : State) (p : LongKind → Bool) (status : W16) (result : W64) (dataLen : Nat) : State :=
  match s.long? p with
  | none => s
  | some l => { s with fw := { s.fw with flight := s.fw.flight.erase l } }.finish l.f status result dataLen

/-- The life-cycle state: the last valid OTP entry (R406); 0 BLANK when none. -/
def State.lifeCycle (s : State) : Nat := ((s.sec.otp.filter Prod.snd).getLast?.map Prod.fst).getD 0

/-! ## Placements -/

/-- The site of a logical core (R10, R295): a spare's, or the placement's. -/
def Part.siteOf (p : Part) (pl : Placement) (logical : Nat) : Option Nat :=
  match p.remap.lookup logical with
  | some k => some k
  | none => (pl.cores.find? (fun c => c.logical = logical)).map PlanCore.site

/-- The sites of a placement, by logical core. -/
def Part.coreSites (p : Part) (pl : Placement) : List (Nat × Nat) :=
  pl.cores.map (fun c => (c.logical, (p.siteOf pl c.logical).getD c.site))

/-- A destination entry with its logical target resolved to a site (R182). -/
def Part.resolveDest (p : Part) (pl : Placement) (d : Dest) : Dest :=
  if d.kind ≤ 1 then { d with site := (p.siteOf pl d.site).getD d.site } else d

/-- Firmware writes a logical core's part of a placement into its core: store, schedule, destination table, stream list,
windows, then bank ownership, then the secure set (R106, R126, R138, R182, R203). -/
def Core.loadPlan (p : Part) (pl : Placement) (pc : PlanCore) (dark : Bool) (c : Core) : Core :=
  let b := (List.range 32).foldl (fun (b : Bank) k => b.writeOwn k (ownOf pc.own k)) c.bank
  { c with
    istore := pc.words
    ierr := []
    sched := pc.sched
    dest := pc.dest.map (fun d => (d.1, p.resolveDest pl d.2))
    streams := pc.streams
    win := Vector.ofFn (fun i => { base := (Tab.get {} pc.wins i.val).base, size := (Tab.get {} pc.wins i.val).size })
    logical := some pc.logical
    bank := b.writeSecure pc.secure dark }

/-- Unload a core's part of a plan: its windows and secure set return to 0 (R126, R138). -/
def Core.unloadPlan (dark : Bool) (c : Core) : Core :=
  { c with istore := [], ierr := [], sched := [], dest := [], streams := [], win := Vector.replicate 16 {}, logical := none,
           bank := c.bank.writeSecure 0 dark }

/-- Write the cores of a placement. -/
def State.loadCores (s : State) (p : Nat) (pl : Placement) : State :=
  let pt := s.part p
  let f := fun (cs : Tab Core) (pc : PlanCore) =>
    let k := (pt.siteOf pl pc.logical).getD pc.site
    Tab.upd {} cs k (Core.loadPlan pt pl pc (s.dark k))
  { s with cores := pl.cores.foldl f s.cores }

/-- Write the regions of a placement for partition p, in place of its former ones (R200, R294). -/
def State.loadRegions (s : State) (p : Nat) (pl : Placement) : State :=
  let cleared := Tab.mapV {} s.fields (fun _ f => { f with regions := f.regions.filter (fun r => r.2.part ≠ p || !r.2.en) })
  { s with fields := pl.regions.foldl (fun fs r => Tab.upd {} fs r.field (fun f => { f with regions := Tab.set {} f.regions r.n { r.r with en := true, part := p } })) cleared }

/-- Write the reduction entries of a placement for partition p (R178), with its spares in place of the sites they replace
(R295). -/
def State.loadReds (s : State) (p : Nat) (pl : Placement) : State :=
  let wipe := fun (r : Router) => { r with red := r.red.filter (fun e => e.2.part ≠ p || !e.2.en) }
  let cleared := Tab.mapV {} s.fields (fun _ f => { f with routers := f.routers.map wipe })
  { s with fields := (pl.spared (s.part p).remap).foldl (fun fs r => Tab.upd {} fs r.field (fun f =>
      let q := f.routers.toList.getD r.quad {}
      { f with routers := vset f.routers r.quad { q with red := Tab.set {} q.red r.id { r.e with en := true, part := p } } })) cleared }

/-- Write the cols of a placement for partition p (R190). -/
def State.loadCols (s : State) (p : Nat) (pl : Placement) : State :=
  let cleared := s.cols.filter (fun c => c.2.part ≠ p || !c.2.en)
  { s with cols := pl.cols.foldl (fun t c => Tab.set {} t c.col { en := true, part := p, target := c.target }) cleared }

/-- Load a placement: a detour, a level or the base. -/
def State.loadPlacement (s : State) (p : Nat) (pl : Placement) : State :=
  (((s.loadCores p pl).loadRegions p pl).loadReds p pl).loadCols p pl

/-- The fields whose M ports run engines or streams of partition p: those with a region of it. -/
def State.regionFields (s : State) (p : Nat) : List Nat :=
  (s.fields.filter (fun f => f.2.regions.any (fun r => r.2.en && r.2.part = p))).map Prod.fst

/-! ## The stop of a partition -/

/-- A core discards its state (R56, R82, R112, R138). The registers that the program writes read zero, the adapter
registers among them; stores, schedules, banks, windows' BASE and SIZE and the records stay. -/
def Core.discard (c : Core) : Core :=
  { c with
    seq := {}
    sr := Vector.replicate 32 0
    vr := Vector.replicate 32 (Vector.replicate 64 0)
    mr := Vector.replicate 8 0
    sem := Vector.replicate 64 0
    adpBase := 0
    adpLen := 0
    arr := {}
    vq := []
    win := c.win.map (fun w => { w with head := 0, tail := 0 })
    rx := []
    col := []
    dma := []
    net := []
    stream := {}
    msgs := []
    held := false }

/-- A col becomes IDLE: its state fields take their reset values (R190, R198). -/
def Col.toIdle (c : Col) : Col := { en := c.en, part := c.part, target := c.target }

/-- BNK_MARCH_STAT and BNK_MARCH_FAIL (R137). -/
def March.stat (m : March) : Nat :=
  (if m.done then 2 ^ 31 else 0) + (if m.fail then 2 ^ 30 else 0) + (if m.aborted then 2 ^ 29 else 0) + (if m.running then 2 ^ 28 else 0) + 256 * m.element + m.bank
def March.failReg (m : March) : Nat := 2 ^ 20 * m.failWord + 2 ^ 15 * m.failBank + m.failBit

/-- The sites of a terrace that are not Fused. -/
def State.testSites (s : State) (t : Nat) : List Nat := ((List.range 32).map (fun i => 32 * t + i)).filter (fun k => s.site k ≠ .fused)

/-- A terrace re-test ends (R315): of the sites that passed march and probe, Retired ones become Spare and check lanes that passed
return to service. Sites that failed stay as they are; a failing march retires an Enabled or Spare core of itself (R134). -/
def State.endRetest (s : State) (t : Nat) (bad laneOk : List Nat) : State :=
  let good := (s.testSites t).filter (fun k => !(s.core k).bank.march.fail && !bad.contains k)
  let u := s.updCores (good.filter laneOk.contains) (fun _ c => { c with chk := { c.chk with off := false } })
  { u with sites := good.foldl (fun (x : Tab SiteSt) k => if s.site k = .retired then Tab.set .enabled x k .spare else x) u.sites }

/-- MARCH_RUN completes once the march of its core has ended (R399): OK, or MARCH_FAIL; a terrace re-test once the
marches of its sites have (R315). -/
def State.endMarches (s : State) : State :=
  s.fw.flight.foldl (fun (t : State) l =>
    match l.kind with
    | .march k =>
      let m := (t.core k).bank.march
      if m.running then t
      else t.endLong (fun x => x = .march k) (if m.fail then 0x0702#16 else 0) (BitVec.ofNat 64 (m.stat + 2 ^ 32 * m.failReg)) 0
    | .retest u bad laneOk =>
      if (t.testSites u).any (fun k => (t.core k).bank.march.running) then t else (t.endRetest u bad laneOk).endLong (fun x => x = l.kind) 0 0 0
    | _ => t) s

/-- A preserving march of all 32 banks of a core (Table 4.5, Table 9.2). -/
def Bank.startPreserve (b : Bank) (dark : Bool) : Bank :=
  { b with march := { b.march with mode := true, maskReg := 0xFFFFFFFF#32 } }.marchStart dark

/-- Marches of a recovery begin once its partition has stopped. -/
def State.startMarches (s : State) (p : Nat) : State :=
  if (s.part p).started then s
  else s.updCores (s.part p).rcv.march (fun k c => if c.bank.march.running then c else { c with bank := c.bank.startPreserve (s.dark k) })

/-- What the stop of a partition ends: a PLAN_STOP completes with the last committed step (R398), a snapshot in progress
leaves its slot invalid (R287), a re-base fails, and a TELEMETRY window of the partition is partial (R400); the marches that
a recovery waits for begin. -/
def State.endStop (s : State) (p : Nat) : State :=
  let x := s.part p
  let cut := x.snap.phase = .copying || x.snap.phase = .held || x.snap.phase = .confirming
  let t := s.updPart p (fun y => { y with snap := { y.snap with
    phase := if cut then .idle else y.snap.phase, taking := none, announced := none, wanted := false, rebase := false, nowIn := false, rebaseIn := false } })
  let t : State := { t with fw := { t.fw with flight := t.fw.flight.map (fun l =>
    match l.kind with
    | .telemetry w => if w.opened && !w.closed && w.part = p then { l with kind := .telemetry { w with partial_ := true } } else l
    | _ => l) } }
  let t := t.endLong (fun k => k = .snapNow p) 0x0503#16 0 0
  let t := if x.snap.rebase then t.endLong (fun k => k = .rebase p) 0x0503#16 0 0 else t
  let t := if (t.long? (fun k => k = .planStop p)).isSome then t.updPart p (fun y => { y with rcv := {} }) else t
  (t.endLong (fun k => k = .planStop p) 0 (x.committed.getD (x.step - 1)) 0).startMarches p

/-- A packet of a reduction whose entry, at the router that holds it or to which it goes, is the partition's. -/
def State.ownsRed (s : State) (p : Nat) (m : MeshPkt) : Bool :=
  let r := if m.at_ < 768 then m.at_ else m.to_
  let e : RedEntry := Tab.get {} ((s.field (r / 16)).routers.toList.getD (r % 16) {}).red m.id
  m.kind = 5 && e.en && e.part = p

/-- R277 at the stop's edge: every core discards its state, every col becomes IDLE, stream lists stop, every engine phase
returns to COLLECT, and packets under way for the partition are discarded. -/
def State.stopPart (s : State) (p : Nat) : State :=
  let inP := fun k => (s.part p).terraces.getLsbD (k / 32)
  let t := s.mapCores inP Core.discard
  let t : State := { t with
    fields := Tab.mapV {} t.fields (fun _ f => { f with upe := { f.upe with phase := vset f.upe.phase p .collect, halted := f.upe.halted &&& ~~~(BitVec.ofNat 16 (2 ^ p)) } })
    cols := t.cols.map (fun c => if c.2.part = p && c.2.en then (c.1, c.2.toIdle) else c)
    arrivals := t.arrivals.filter (fun a => (s.col a.col).part ≠ p)
    res := t.res.filter (fun r => (s.col r.col).part ≠ p)
    mesh := t.mesh.filter (fun m => !(inP m.src || (decide (m.kind ≤ 1) && inP m.dst) || s.ownsRed p m || (decide (5 < m.kind) && m.fab.any (fun k => k.part = p))))
    parts := vset t.parts p { t.part p with
      started := false, startAt := none, stopAt := none, stopAtCommit := false, hold := [], lift := [], stepOpen := false, begun := [],
      enginesDone := [], digestBad := false, digests := [], contribs := [], rollBack := false } }
  t.endStop p

/-- Wafer cycles from now to the next wafer tick edge. -/
def State.toEdge (s : State) : Nat := 1200 * s.tg.period - s.tg.ofs

/-- The tick number of the first partition tick edge of p that lies at least `lead` wafer cycles ahead (R108, R187). -/
def State.edgeAfter (s : State) (p lead : Nat) : BitVec 48 :=
  let pt := s.part p
  let k := ((pt.plan.map Plan.mult).getD 1)
  let first := max 1 pt.edgeIn
  let cycles := s.toEdge + (first - 1) * (1200 * (s.tg.nextPeriod.getD s.tg.period))
  s.tg.tick + BitVec.ofNat 48 (if lead ≤ cycles then first else first + k)

/-- The first wafer tick edge at least `lead` cycles ahead. -/
def State.waferEdgeAfter (s : State) (lead : Nat) : BitVec 48 :=
  s.tg.tick + (if lead ≤ s.toEdge then 1 else 2)

/-- The lead of a tick message (R187). -/
def msgLead : Nat := 4096

/-- Firmware sends the stop tick message of a partition (R277); one already sent stands. -/
def State.sendStop (s : State) (p : Nat) : State :=
  if !(s.part p).started || (s.part p).stopAt.isSome then s
  else s.updPart p (fun x => { x with stopAt := some (s.edgeAfter p msgLead) })

/-- The partitions that use a site list's terrace: started, with a core of the placement in force on it (R330). -/
def Part.usesTer (p : Part) (t : Nat) : Bool :=
  p.started && ((p.coreSites p.placement).any (fun c => c.2 / 32 = t))

def State.usersOfTer (s : State) (t : Nat) : List Nat := (List.range 16).filter (fun p => (s.part p).usesTer t)

/-- The started partitions whose placement in force uses a field: with a core in it or a region in its stack (R296). -/
def State.usersOfField (s : State) (f : Nat) : List Nat :=
  (List.range 16).filter (fun p => (s.part p).started && ((((s.part p).coreSites (s.part p).placement).any (fun c => c.2 / 64 = f)) || (s.regionFields p).contains f))

end Sys2Proof.Machine
end

