-- ==== Sys2Proof/Machine/Router.lean ====
section
/-! DEFINITION. The routers: route tables and broadcast masks (R168, R169, R177), flit slots with their
arbitration, buffers and credits (R167, R171 to R175), and reduction entries (R178 to R180). -/

namespace Sys2Proof.Machine

open Sys2Proof

/-! ## Ports and links -/

def State.router (s : State) (f q : Nat) : Router := (s.field f).routers.toList.getD q {}
def State.updRouter (s : State) (f q : Nat) (g : Router → Router) : State :=
  s.updField f (fun x => { x with routers := vset x.routers q (g (x.routers.toList.getD q {})) })

/-- The four routers of a field edge that port p of quad q faces. -/
def edgeQuads (q p : Nat) : List Nat :=
  if p = 4 || p = 5 then (List.range 4).map (fun i => 4 * i + q % 4) else (List.range 4).map (fun i => 4 * (q / 4) + i)

/-- Whether the spare link of a field edge is free (R170): it may stand in for one of the edge's four links. -/
def State.spareLink (s : State) (f q p : Nat) : Bool :=
  (edgeQuads q p).all (fun i => (s.router f i).port.toList.getD p 0 ≠ 2 && (s.router f i).spareFree.toList.getD p true)

/-- Set the state of port p of a router, and of the other end of its link. -/
def State.setLink (s : State) (f q p st : Nat) : State :=
  let t := s.updRouter f q (fun r => { r with port := vset r.port p st })
  match neighbour (routerX f q) (routerY f q) p with
  | none => t
  | some (x, y, o) => t.updRouter (fieldAt x y) (quadAt x y) (fun r => { r with port := vset r.port o st })

/-- A boundary link takes the spare link of its field edge when that is free, at both ends; false tells that it cannot (R170,
R171). -/
def State.canSpare (s : State) (f q p : Nat) : Bool :=
  match neighbour (routerX f q) (routerY f q) p with
  | none => false
  | some (x, y, o) => decide (fieldAt x y ≠ f) && (s.router f q).port.toList.getD p 0 ≠ 2 && s.spareLink f q p && s.spareLink (fieldAt x y) (quadAt x y) o

/-- The spare link of a field edge has failed: it is free for no link again. -/
def State.loseSpare (s : State) (f q p : Nat) : State :=
  let t := s.updRouter f q (fun r => { r with spareFree := vset r.spareFree p false })
  match neighbour (routerX f q) (routerY f q) p with
  | none => t
  | some (x, y, o) => t.updRouter (fieldAt x y) (quadAt x y) (fun r => { r with spareFree := vset r.spareFree o false })

/-- The fused repair map at bring-up (R170): a link with a wire group of more than one faulty wire moves onto its spare link, or
is down. A single faulty wire of a group is repaired by the group's spare wire. -/
def State.applyRepair (s : State) (w : Nat × Nat × Nat) : State :=
  let f := w.1 / 16
  let q := w.1 % 16
  if w.2.2 < 2 || (s.router f q).port.toList.getD w.2.1 0 ≠ 1 then s
  else if s.canSpare f q w.2.1 then s.setLink f q w.2.1 2 else s.setLink f q w.2.1 3

/-- The pass router of a fabric port (Table 8.1). -/
def passRouter (p : Nat) : Nat × Nat :=
  if p < 8 then (4 * p + 1, 0) else if p < 16 then (4 * (p - 8) + 2, 23) else if p < 22 then (0, 4 * (p - 16) + 2) else (31, 4 * (p - 22) + 2)

/-! ## Routes -/

/-- Whether every mesh link and transit domain is up. -/
def State.meshWhole (s : State) : Bool :=
  (List.range 48).all (fun f => (s.field f).pwr.trn = .on && (s.field f).routers.toList.all (fun r => ((r.port.toList.drop 4).take 4).all (· ≠ 3)))

/-- The broadcast tree (R168): east along y = 0 from router (0, 0), then north along every column. -/
def treeMask (x y : Nat) : BitVec 10 := BitVec.ofNat 10 ((if y = 0 && x < 31 then 2 ^ 5 else 0) + (if y < 23 then 2 ^ 7 else 0))

/-- Draws of a set of tables: the longest route, then for each router its mask and its 768 entries. -/
def routeDraws : Nat := 1 + 768 * 769

/-- Give every router its table and its broadcast mask. -/
def State.writeTables (s : State) (from_ : Option Nat) : State :=
  { s with fields := (List.range 48).foldl (fun t f => Tab.upd {} t f (fun x => { x with routers := Vector.ofFn (fun q =>
      { x.routers[q] with
        table := some from_
        bmask := match from_ with
          | none => treeMask (routerX f q.val) (routerY f q.val)
          | some n => (Config.freeValue (n + 1 + 769 * (16 * f + q.val))).setWidth 10 }) })) s.fields }

/-- Firmware loads route tables (R168, R177): X first, then Y, with a longest VC0 route of 56 hops and 13 crossings while
the mesh is whole. The tables around a lost link or transit domain are firmware's own, so they and their longest route are
open. TCL_VC0_BOUND takes 5h + 4b (R197). -/
def State.loadRoutes (s : State) : State :=
  if s.meshWhole then
    let t := s.writeTables none
    { t with tg := { t.tg with routed := true, detourDraw := none, hops := 56, cross := 13, bound := 5 * 56 + 4 * 13, routesFor := [] } }
  else
    let v := s.draw
    let h := v.toNat % 256
    let b := v.toNat / 256 % 256
    let t := s.writeTables (some s.freeCtr)
    { t with
      freeCtr := s.freeCtr + routeDraws
      tg := { t.tg with routed := true, detourDraw := some s.freeCtr, hops := h, cross := b, bound := 5 * h + 4 * b, routesFor := [] } }

/-- The entry of a router's table towards another router (R168). -/
def Router.entry (r : Router) (at_ to_ : Nat) : Nat :=
  match r.table with
  | none => 0
  | some none => routePort (routerX (at_ / 16) (at_ % 16)) (routerY (at_ / 16) (at_ % 16)) (routerX (to_ / 16) (to_ % 16)) (routerY (to_ / 16) (to_ % 16))
  | some (some n) => (Config.freeValue (n + 1 + 769 * at_ + 1 + to_)).toNat % 10

/-- The routers between which a partition's traffic goes: those of its terraces, those of the fields whose stacks it uses,
its pass routers and the router of the Vale link (R168, R169). -/
def State.ends (s : State) (p : Nat) : List (Nat × Nat) :=
  let fs := s.regionFields p
  let own := (List.range 768).filter (fun r => (s.part p).terraces.getLsbD (2 * (r / 16) + r % 16 / 8) || fs.contains (r / 16))
  (0, 0) :: own.map (fun r => (routerX (r / 16) (r % 16), routerY (r / 16) (r % 16)))

def State.endpoints (s : State) (p : Nat) : List (Nat × Nat) :=
  s.ends p ++ ((List.range 28).filter (fun i => (s.part p).ports.getLsbD i)).map passRouter

/-- The started partitions that have a route of some kind under the X-first tables; routes that detour are firmware's own, so then
every started partition counts. -/
def State.usersOfRoute (s : State) (uses : Nat × Nat → Nat × Nat → Bool) : List Nat :=
  let on := (List.range 16).filter (fun i => (s.part i).started)
  if s.tg.detourDraw.isSome then on
  else on.filter (fun i =>
    let es := s.endpoints i
    es.any (fun a => es.any (fun b => uses a b)))

/-- Whether the route from a to b, X first, passes a router of field f. -/
def routeCrosses (f : Nat) (a b : Nat × Nat) : Bool :=
  let x0 := 4 * (f % 8)
  let y0 := 4 * (f / 8)
  (decide (y0 ≤ a.2) && decide (a.2 ≤ y0 + 3) && decide (min a.1 b.1 ≤ x0 + 3) && decide (x0 ≤ max a.1 b.1)) ||
    (decide (x0 ≤ b.1) && decide (b.1 ≤ x0 + 3) && decide (min a.2 b.2 ≤ y0 + 3) && decide (y0 ≤ max a.2 b.2))

/-- Routes change (R168): firmware first stops the partitions whose routes these are, and then writes the new tables. -/
def State.reroute (s : State) (us : List Nat) : State :=
  if us.isEmpty then s.loadRoutes else { s with tg := { s.tg with routesFor := (s.tg.routesFor ++ us).dedup } }

/-- A partition has stopped: with the last one that waits for it the new tables are written. -/
def State.rerouted (s : State) (p : Nat) : State :=
  if !s.tg.routesFor.contains p then s
  else
    let left := s.tg.routesFor.filter (· ≠ p)
    if left.isEmpty then s.loadRoutes else { s with tg := { s.tg with routesFor := left } }

/-! ## Flit slots (R167, R171 to R175) -/

/-- Buffer of a channel at an input port, in flits (Table 6.3). -/
def meshBuffer (vc : Nat) : Nat := if vc = 0 then 4 else 16

/-- The grant of a flit slot (R173): VC0, then a due channel, then the channel of highest rank (Table 6.3), among those with a
flit ready and credit. -/
def grantOf (ready : Nat → Bool) (slots : Nat → Nat) : Option Nat :=
  if ready 0 then some 0
  else
    let rs := [1, 3, 2, 4, 5].filter ready
    match rs.find? (fun v => decide (11 ≤ slots v)) with
    | some v => some v
    | none => rs.head?

/-- The router beyond port o of router r, and the input port there; none where the port leads out of the mesh. -/
def hopOver (r o : Nat) : Option (Nat × Nat) :=
  (neighbour (routerX (r / 16) (r % 16)) (routerY (r / 16) (r % 16)) o).map (fun n => (16 * fieldAt n.1 n.2.1 + quadAt n.1 n.2.1, n.2.2))

/-- The number by which the mesh calls the place of a flit that has left it. -/
def offMesh : Nat := 768

def State.routerAt (s : State) (r : Nat) : Router := s.router (r / 16) (r % 16)

/-- The output port of a flit at its router: a sum's OUT, the port it is bound for, or the table's. -/
def State.outOf (s : State) (m : MeshPkt) : Nat :=
  match m.outp with
  | some o => o
  | none => if m.at_ = m.to_ then m.oport else (s.routerAt m.at_).entry m.at_ m.to_

/-- The output port of an ARRIVE flit: the way to the Vale link at router (0, 0). -/
def State.arriveOut (s : State) (r : Nat) : Nat := if r = 0 then 9 else (s.routerAt r).entry r 0

/-- A packet on its way into a reduction entry takes no output port: a VC1 packet of the mesh, or one from the fabric (kind 7)
at the router that it names. -/
def MeshPkt.toEntry (m : MeshPkt) : Bool := m.outp.isNone && (m.kind = 5 || (m.kind = 7 && m.at_ = m.to_))

/-- A flit stands at the head of its queue for a port and a channel. -/
def State.waitsFor (s : State) (r o v : Nat) (m : MeshPkt) : Bool := m.at_ = r && m.vc = v && !m.toEntry && s.outOf m = o

/-- The flits that a channel's buffer at an input port holds. -/
def State.buffered (s : State) (r p v : Nat) : Nat :=
  s.mesh.countP (fun m => m.at_ = r && m.from_ = p && m.vc = v && m.outp.isNone) + (if v = 0 then s.arrivals.countP (fun a => a.router = r && a.from_ = p) else 0)

/-- Credit for a flit on channel v through port o of router r (R172, R174): room in the buffer beyond. A unit at a port takes what
comes. -/
def State.meshCredit (s : State) (r o v : Nat) : Bool :=
  match hopOver r o with
  | none => true
  | some n => decide (s.buffered n.1 n.2 v < meshBuffer v)

/-- Channel v of port o of router r has a flit ready and credit (R173). -/
def State.meshReady (s : State) (r o v : Nat) : Bool :=
  ((s.mesh.any (s.waitsFor r o v)) || (v = 0 && s.arrivals.any (fun a => a.router = r && s.arriveOut r = o))) && s.meshCredit r o v

/-- Two arrivals merge (R175): the same router and so the same output, col and deadline, and a count of at most 65,535. -/
def Arrival.merges (a b : Arrival) : Bool :=
  a.router = b.router && a.col = b.col && a.dl = b.dl && a.count + b.count ≤ 65535

/-- Queue an arrival at its router: it merges into the earlier flit, in that flit's place (R175). -/
def queueArrival (l : List Arrival) (a : Arrival) : List Arrival :=
  match l with
  | [] => [a]
  | b :: r => if b.router ≠ offMesh && b.merges a then { b with count := b.count + a.count } :: r else b :: queueArrival r a

/-- Replace the first element that satisfies a predicate. -/
def mapFirst {α : Type} (p : α → Bool) (g : α → α) : List α → List α
  | [] => []
  | a :: r => if p a then g a :: r else a :: mapFirst p g r

/-- A flit passes through port o of router r: it is buffered beyond it, or has left the mesh. A flit that arrives good ends a
run of failures of its link (R171). -/
def State.passPort (s : State) (r o v : Nat) : State :=
  let to_ := (hopOver r o).getD (offMesh, 0)
  let t := if to_.1 = offMesh then s else s.updRouter (to_.1 / 16) (to_.1 % 16) (fun x => { x with streak := vset x.streak to_.2 0 })
  if s.mesh.any (s.waitsFor r o v) then
    { t with mesh := mapFirst (s.waitsFor r o v) (fun m => { m with at_ := to_.1, from_ := to_.2, outp := none }) t.mesh }
  else
    match s.arrivals.find? (fun a => a.router = r) with
    | none => t
    | some a => { t with arrivals := queueArrival (s.arrivals.erase a) { a with router := to_.1, from_ := to_.2 } }

/-- The slot counts of a port after a grant to channel v (R173): a slot that VC0 takes counts for none. -/
def Router.granted (x : Router) (o v : Nat) : Router :=
  if v = 0 then x else { x with due := [1, 2, 3, 4, 5].foldl (fun t c => Tab.upd 0 t (8 * o + c) (fun n => if c = v then 0 else n + 1)) x.due }

/-- The ports, (router, output), that flits wait for. -/
def State.wantedPorts (s : State) : List (Nat × Nat) :=
  (((s.mesh.filter (fun m => decide (m.at_ < 768) && !m.toEntry)).map (fun m => (m.at_, s.outOf m))) ++
    ((s.arrivals.filter (fun a => decide (a.router < 768))).map (fun a => (a.router, s.arriveOut a.router)))).dedup

/-- One flit slot at every output port of the mesh (R173): the grants are made on what waits at its start. -/
def State.meshSlot (s : State) : State :=
  let grants := s.wantedPorts.filterMap (fun w =>
    (grantOf (s.meshReady w.1 w.2) (fun v => Tab.get 0 (s.routerAt w.1).due (8 * w.2 + v))).map (fun v => (w, v)))
  grants.foldl (fun (t : State) g => (t.passPort g.1.1 g.1.2 g.2).updRouter (g.1.1 / 16) (g.1.1 % 16) (fun x => x.granted g.1.2 g.2)) s

/-- The flits of `bs`, 128 bytes each, in packets of up to 16 (R167, R181): `last` says that the operation ends with them. -/
def cutFlits (m : MeshPkt) (bs : List Byte) (last : Bool) : List MeshPkt :=
  let n := (bs.length + 127) / 128
  (List.range n).map (fun i =>
    { m with
      bytes := (bs.drop (128 * i)).take 128
      addr := if m.kind = 0 then m.addr + 128 * i else m.addr
      tail := i % 16 = 15 || i + 1 = n
      last := last && i + 1 = n
      rsemEn := m.rsemEn && last && i + 1 = n })

/-- A packet of n flits whose content rides with its last one (messages, VC1). -/
def wholePacket (m : MeshPkt) (n : Nat) : List MeshPkt :=
  (List.replicate (n - 1) { m with bytes := [], tail := false, last := false, rsemEn := false }) ++ [m]

/-! ## Reduction (R178 to R180) -/

/-- The ports of a mask, ascending. -/
def inPorts (m : Nat) : List Nat := (List.range 10).filter m.testBit

/-- The sum of one packet of each port, lane by lane from the lowest port (R179). -/
def sumPackets : List (List W32) → List W32
  | [] => []
  | a :: r => r.foldl (fun (acc b : List W32) => acc.zipWith fadd32 b) a

/-- Form every sum that is complete: the k-th packet of every port in IN. -/
def formSums : Nat → List Nat → Vector (List (List W32)) 10 → Vector (List (List W32)) 10 × List (List W32)
  | 0, _, w => (w, [])
  | n + 1, ports, w =>
    if ports.all (fun p => !(w.toList.getD p []).isEmpty) then
      let heads := ports.map (fun p => (w.toList.getD p []).headD [])
      let r := formSums n ports (ports.foldl (fun v p => vset v p ((v.toList.getD p []).drop 1)) w)
      (r.1, sumPackets heads :: r.2)
    else (w, [])

/-- Why a router discards a packet (R180), or none. -/
def RedEntry.reject (e : RedEntry) (port len : Nat) : Option Nat :=
  if !e.en then some 1 else if !e.inMask.testBit port then some 2 else if e.len ≠ len then some 3 else none

/-- The partition that owns a reduction ID (R180): the entry's, or, where the router has none, that of the plan which uses the
ID in another router (DESIGN CHOICE, log 74). -/
def State.redOwner (s : State) (e : RedEntry) (id : Nat) : Option Nat :=
  if e.en then some e.part
  else (s.fields.findSome? (fun f => f.2.routers.toList.findSome? (fun r => (r.red.lookup id).bind (fun x => if x.en then some x.part else none))))

/-- A router as the source of a packet. -/
def routerSrc (r : Nat) : Nat := 8192 + r

/-- A sum waits for OUT, as a packet of the same ID (R179). -/
def redOut (f q : Nat) (e : RedEntry) (id : Nat) (v : List W32) : List MeshPkt :=
  wholePacket { src := routerSrc (16 * f + q), kind := 5, dst := if e.out < 4 then siteAtPort f q e.out else f, vc := 1, bytes := v.flatMap (fun w => bytesLE w.toNat 4),
                id := id, len := e.len, at_ := 16 * f + q, from_ := 10, to_ := 16 * f + q, oport := e.out, outp := some e.out } e.len

/-- A packet reaches a reduction entry (R179, R180). -/
def State.redPacket (s : State) (f q port id len : Nat) (payload : List W32) : State :=
  let s := s.updRouter f q (fun r => { r with streak := vset r.streak port 0 })
  let e : RedEntry := Tab.get {} (s.router f q).red id
  match e.reject port len with
  | some reason =>
    let t := s.updRouter f q (fun r => { r with record := r.record.note RedRecBody.lower s.now { reason := reason, port := port, id := id } })
    match s.redOwner e id with
    | some p => t.report [{ part := p, what := .reduction id, addr := f * 16 + q }]
    | none => t
  | none =>
    let ports := inPorts e.inMask
    if ports.length = 1 then { s with mesh := s.mesh ++ redOut f q e id payload }
    else
      let w := vset e.waiting port (e.waiting.toList.getD port [] ++ [payload])
      let r := formSums (e.waiting.toList.map List.length).sum.succ ports w
      let t := s.updRouter f q (fun x => { x with red := Tab.set {} x.red id { e with waiting := r.1 } })
      { t with mesh := t.mesh ++ r.2.flatMap (redOut f q e id) }

/-- The flits of the first VC1 packet of an ID that an input port holds leave its buffer. -/
def dropPacket (r p id : Nat) : List MeshPkt → List MeshPkt
  | [] => []
  | m :: l => if m.at_ = r && m.from_ = p && m.id = id && m.toEntry then (if m.tail then l else dropPacket r p id l) else m :: dropPacket r p id l

/-- Values of a little-endian byte string, four bytes each. -/
def wordsLE : Nat → List Byte → List W32
  | 0, _ => []
  | n + 1, bs => if bs.isEmpty then [] else BitVec.ofNat 32 (natLE (bs.take 4)) :: wordsLE n (bs.drop 4)

/-- REDUCTION_PACKET (R179): a packet that waits in the port's buffer with this ID is the one taken. -/
def State.reductionPacket (s : State) (f q port id len : Nat) (payload : List W32) : State :=
  ({ s with mesh := dropPacket (16 * f + q) port id s.mesh }).redPacket f q port id len payload

/-- The routers take the VC1 packets that have arrived whole, in order (R179). -/
def State.takeReds (s : State) : State :=
  (s.mesh.filter (fun m => m.toEntry && m.tail && decide (m.at_ < 768))).foldl (fun (t : State) m =>
    t.reductionPacket (m.at_ / 16) (m.at_ % 16) m.from_ m.id m.len (wordsLE m.bytes.length m.bytes)) s

end Sys2Proof.Machine
end

