-- ==== Sys2Proof/Machine/Sync.lean ====
section
/-! DEFINITION. The sync instructions: local semaphores (R98), END (R109) and the col instructions (R99, R191, R194). -/

namespace Sys2Proof.Machine

open Sys2Proof

/-- SEMPOST (R98, R99). -/
def sempostBody (w : W64) (f : SyncF) (c : Core) : Core × Out Eff :=
  if f.rsv ≠ 0 || f.imm = 0 || f.cause ≠ 0 || f.col ≠ 0 || f.sa ≠ 0 then (c, .fault 0x01 (hiWord w))
  else match c.post f.sem.toNat f.imm.toNat with
    | (c1, .ok _) => (c1, .ok {})
    | (c1, .wait x) => (c1, .wait x)
    | (c1, .fault k d) => (c1, .fault k d)

/-- SEMWAIT (R98, R99): its idle cycles count under CAUSE. -/
def semwaitBody (w : W64) (f : SyncF) (c : Core) : Core × Out Eff :=
  if f.rsv ≠ 0 || f.imm = 0 || f.cause = 4 || f.cause = 7 || f.col ≠ 0 || f.sa ≠ 0 then (c, .fault 0x01 (hiWord w))
  else if f.imm.toNat ≤ (c.L f.sem.toNat).toNat then (c.setL f.sem.toNat (c.L f.sem.toNat - f.imm), .ok {})
  else (c, .wait (some f.cause.toNat))

/-- END (R99, R109): issued in program order; END_RETIRE retires it. -/
def endBody (w : W64) (f : SyncF) (c : Core) : Core × Out Eff :=
  if f.rsv ≠ 0 || f.cause ≠ 0 || f.sem ≠ 0 || f.col ≠ 0 || f.sa ≠ 0 || f.imm ≠ 0 then (c, .fault 0x01 (hiWord w))
  else ({ c with seq := { c.seq with endIssued := true } }, .ok {})

/-- The count field IMM16[15:5] and the status register field IMM16[4:0] (Table 6.5). -/
def colCount (f : SyncF) : Nat := f.imm.toNat / 32
def colReg (f : SyncF) : BitVec 5 := f.imm.setWidth 5

def Core.copyOf (c : Core) (k : Nat) : ColCopy := Tab.get {} c.col k

/-- The L port of a core at its router (R6, Table 6.1). -/
def lPort (k : Nat) : Nat := k % 64 / 8 % 2 * 2 + k % 2

/-- The arrival that a core sends: a register that reads 0 carries no deadline (R191). -/
def arrivalOf (k : Nat) (f : SyncF) (c : Core) : Arrival :=
  { col := f.col.toNat, count := colCount f, dl := if c.S f.sa = 0 then none else some (c.S f.sa), router := routerOf k, from_ := lPort k }

/-- The wait on the core's copy (R191, R194): complete with the status, wait under "col", or raise COL_EXPIRED. -/
def copyWait (f : SyncF) (c : Core) (e : Eff) : Core × Out Eff :=
  match (c.copyOf f.col.toNat).show_ with
  | .unresolved => (c, .wait (some 1))
  | .ok => (c.setS (colReg f) 0, .ok e)
  | .okLate => (c.setS (colReg f) 1, .ok e)
  | .expired => (c, .fault 0x40 f.col.toNat)

/-- ARRIVE (Table 6.5). -/
def arriveBody (k : Nat) (w : W64) (f : SyncF) (c : Core) : Core × Out Eff :=
  if f.rsv ≠ 0 || f.cause ≠ 0 || f.sem ≠ 0 || colCount f = 0 || colReg f ≠ 0 then (c, .fault 0x01 (hiWord w))
  else if c.depends [f.sa.toNat] then (c, .wait none)
  else if !(c.copyOf f.col.toNat).own then (c, .fault 0x41 f.col.toNat)
  else (c, .ok { arrivals := [arrivalOf k f c] })

/-- WAIT (Table 6.5). -/
def waitBody (w : W64) (f : SyncF) (c : Core) : Core × Out Eff :=
  if f.rsv ≠ 0 || f.cause ≠ 0 || f.sem ≠ 0 || colCount f ≠ 0 then (c, .fault 0x01 (hiWord w))
  else if c.depends [(colReg f).toNat] || c.overwrites [(colReg f).toNat] then (c, .wait none)
  else if !(c.copyOf f.col.toNat).own then (c, .fault 0x41 f.col.toNat)
  else copyWait f c {}

/-- Issue a col instruction: its arrival joins the flits queued at the core's router. -/
def State.issueCol (s : State) (k : Nat) (w : W64) (body : Core → Core × Out Eff) : State :=
  let t := s.issue k w body
  { t with arrivals := (t.arrivals.drop s.arrivals.length).foldl queueArrival s.arrivals }

/-- ARRIVE_WAIT (Table 6.5): the arrival goes once, when the instruction first issues; then it waits as WAIT does. The
first issue of an ARRIVE_WAIT that must wait is told apart by STATE, which is waiting only after it. -/
def arriveWaitLegal (f : SyncF) : Bool := f.rsv = 0 && f.cause = 0 && f.sem = 0 && colCount f ≠ 0

def arriveWaitBody (w : W64) (f : SyncF) (c : Core) : Core × Out Eff :=
  if !arriveWaitLegal f then (c, .fault 0x01 (hiWord w))
  else if c.depends [f.sa.toNat, (colReg f).toNat] || c.overwrites [(colReg f).toNat] then (c, .wait none)
  else if !(c.copyOf f.col.toNat).own then (c, .fault 0x41 f.col.toNat)
  else copyWait f c {}

/-- Whether an ARRIVE_WAIT sends its arrival now: it issues for the first time and meets no fault of its form. -/
def arriveSends (c : Core) (w : W64) (f : SyncF) : Bool :=
  c.seq.st = .running && c.canIssue w && arriveWaitLegal f &&
    !c.depends [f.sa.toNat, (colReg f).toNat] && !c.overwrites [(colReg f).toNat] && (c.copyOf f.col.toNat).own

def execSempost (k : Site) (f : SyncF) (s : State) : Host.Outcome State Fault Refusal :=
  .next (s.issue k (encSync 0x00 f) (sempostBody (encSync 0x00 f) f))
def execSemwait (k : Site) (f : SyncF) (s : State) : Host.Outcome State Fault Refusal :=
  .next (s.issue k (encSync 0x01 f) (semwaitBody (encSync 0x01 f) f))
def execEndRun (k : Site) (f : SyncF) (s : State) : Host.Outcome State Fault Refusal :=
  .next (s.issue k (encSync 0x02 f) (endBody (encSync 0x02 f) f))
def execArrive (k : Site) (f : SyncF) (s : State) : Host.Outcome State Fault Refusal :=
  .next (s.issueCol k (encSync 0x10 f) (arriveBody k (encSync 0x10 f) f))
def execWait (k : Site) (f : SyncF) (s : State) : Host.Outcome State Fault Refusal :=
  .next (s.issue k (encSync 0x11 f) (waitBody (encSync 0x11 f) f))
def execArriveWait (k : Site) (f : SyncF) (s : State) : Host.Outcome State Fault Refusal :=
  .next { s.issue k (encSync 0x12 f) (arriveWaitBody (encSync 0x12 f) f) with
    arrivals := if arriveSends (s.core k) (encSync 0x12 f) f then queueArrival s.arrivals (arrivalOf k f (s.core k)) else s.arrivals }

end Sys2Proof.Machine
end

