-- ==== Sys2Proof/Machine/Net.lean ====
section
/-! DEFINITION. The network port (R181, R182): issue, sends leaving the core, and landings. -/

namespace Sys2Proof.Machine

open Sys2Proof

def Core.destOf (c : Core) (k : Nat) : Dest := Tab.get {} c.dest k

/-- Whether a kind-0 or kind-1 entry of site k names an Enabled site of a lit terrace of the same partition (R182). -/
def State.validTarget (s : State) (k : Nat) (d : Dest) : Bool :=
  d.site < 3072 && s.site d.site = .enabled && s.lit (d.site / 32) &&
    (s.partOfSite k).isSome && s.partOfSite d.site = s.partOfSite k

/-- LEN of a reduction entry of the core's router (R178, R181). Without a loaded entry LEN is 0, so that any length but 0
raises NET_LEN (DESIGN CHOICE, log 73). -/
def State.redLen (s : State) (k rid : Nat) : Nat :=
  (Tab.get {} ((s.field (k / 64)).routers.toList.getD (routerOf k % 16) {}).red rid).len

/-- The faults of SEND at issue, in kind order (R181, R182). -/
def sendFault (s : State) (k : Nat) (f : NetF) (c : Core) : Option (Nat × Nat) :=
  let sa := (c.S f.sa).toNat
  let sc := (c.S f.sc).toNat
  let e := (c.S f.sb).toNat % 64
  let ofs := (c.S f.sb).toNat / 2 ^ 32
  let d := c.destOf e
  firstFault [
    (f.w = 0 && sa % 64 ≠ 0, 0x06, sa),
    (f.w = 0 && sc ≠ 0 && 0x7FFFFF < sa + sc - 1, 0x07, sa),
    (!(d.kind = 0 || d.kind = 1 || d.kind = 4) || (d.kind ≤ 1 && !s.validTarget k d), 0x45, e),
    (sc % 64 ≠ 0 || sc < 64 || 0x800000 < sc || (d.kind = 0 && (ofs % 64 ≠ 0 || 0x800000 < d.addr + ofs + sc)), 0x46, sc)]

/-- The faults of RED at issue. -/
def redFault (s : State) (k : Nat) (f : NetF) (c : Core) : Option (Nat × Nat) :=
  let sa := (c.S f.sa).toNat
  let sc := (c.S f.sc).toNat
  firstFault [
    (f.w = 0 && sa % 64 ≠ 0, 0x06, sa),
    (f.w = 0 && sc ≠ 0 && 0x7FFFFF < sa + sc - 1, 0x07, sa),
    (sc % (128 * s.redLen k f.rid.toNat) ≠ 0, 0x46, sc)]

/-- The faults of MSG at issue. -/
def msgFault (f : NetF) (c : Core) : Option (Nat × Nat) :=
  let sa := (c.S f.sa).toNat
  let sc := (c.S f.sc).toNat
  let e := (c.S f.sb).toNat % 64
  let d := c.destOf e
  firstFault [
    (f.w = 0 && sa % 16 ≠ 0, 0x06, sa),
    (f.w = 0 && sc ≠ 0 && 0x7FFFFF < sa + sc - 1, 0x07, sa),
    (!(d.kind = 2 || d.kind = 3), 0x45, e),
    (sc % 16 ≠ 0 || sc < 16 || 256 < sc, 0x46, sc)]

/-- Bindings complete in one cycle when the port takes them (R181). -/
def Core.pumpNet : Nat → Core → Core
  | 0, c => c
  | n + 1, c =>
    match c.net with
    | [] => c
    | h :: t =>
      if h.op = 3 then Core.pumpNet n { c with net := t, rx := Tab.set {} c.rx h.rid { on := true, win := h.win, sem := h.sem } }
      else if h.op = 4 then Core.pumpNet n { c with net := t, rx := Tab.set {} c.rx h.rid {} }
      else c

/-- What every class 0x8 instruction does first (R181): legality, its faults at issue, its waits; then it joins the
queue, 16 deep, with its operands read. -/
def netBody (op : Nat) (w : W64) (f : NetF) (legal : Bool) (bad : Core → Option (Nat × Nat)) (c : Core) : Core × Out Eff :=
  if f.rsv ≠ 0 || !legal then (c, .fault 0x01 (hiWord w))
  else if c.depends [f.sa.toNat, f.sb.toNat, f.sc.toNat] then (c, .wait none)
  else match bad c with
    | some (k, d) => (c, .fault k d)
    | none =>
      if 16 ≤ c.net.length then (c, .wait (some queueFull))
      else
        let e : NetOp := { pc := c.seq.pc, op := op, sa := c.S f.sa, sb := c.S f.sb, sc := c.S f.sc, sem := f.sem.toNat, win := f.win.toNat, w := f.w = 1, vc := f.vc.toNat, rid := f.rid.toNat }
        (Core.pumpNet 17 { c with net := c.net ++ [e] }, .ok {})

def execSend (k : Site) (f : NetF) (s : State) : Host.Outcome State Fault Refusal :=
  .next (s.issue k (encNet 0x00 f) (netBody 0 (encNet 0x00 f) f (f.vc = 3 || f.vc = 4) (sendFault s k f)))
def execRed (k : Site) (f : NetF) (s : State) : Host.Outcome State Fault Refusal :=
  .next (s.issue k (encNet 0x01 f) (netBody 1 (encNet 0x01 f) f (f.vc = 0) (redFault s k f)))
def execMsg (k : Site) (f : NetF) (s : State) : Host.Outcome State Fault Refusal :=
  .next (s.issue k (encNet 0x02 f) (netBody 2 (encNet 0x02 f) f (f.vc = 0) (msgFault f)))
def execRxbind (k : Site) (f : NetF) (s : State) : Host.Outcome State Fault Refusal :=
  .next (s.issue k (encNet 0x03 f) (netBody 3 (encNet 0x03 f) f (f.vc = 0 && f.w = 0) (fun _ => none)))
def execRxfree (k : Site) (f : NetF) (s : State) : Host.Outcome State Fault Refusal :=
  .next (s.issue k (encNet 0x04 f) (netBody 4 (encNet 0x04 f) f (f.vc = 0 && f.w = 0) (fun _ => none)))

/-- How much of an operation leaves at once: a packet of 16 flits of a SEND, a packet of LEN flits of a RED, a whole MSG (R181). -/
def State.chunkOf (s : State) (k : Nat) (h : NetOp) : Nat :=
  let rest := h.sc.toNat - h.moved
  if h.op = 0 then min rest 2048 else if h.op = 1 then min rest (max 128 (128 * s.redLen k h.rid)) else rest

/-- NET_SEND_COMPLETE's work on the core: the operation at the head of the port's queue reads its next chunk; when none is left
it posts its semaphore and leaves the queue. A source window gives the bytes its fill covers (R130); a packet of a RED or MSG
leaves whole. -/
def Core.sendHead (c : Core) (now : Stamp) (h : NetOp) (chunk : Nat) : Core × Out (List Byte × Bool) :=
  let rest := h.sc.toNat - h.moved
  let n := if h.w then (if (c.window h.win).fill < chunk then (if h.op = 0 then (c.window h.win).fill / 64 * 64 else 0) else chunk) else chunk
  let r := if n = 0 && rest ≠ 0 then (c, .wait none) else if h.w then c.consume .net now h.win n else c.readBytes .net now (h.sa.toNat + h.moved) n
  match r with
  | (c1, .wait x) => (c1, .wait x)
  | (c1, .fault k d) => (c1, .fault k d)
  | (c1, .ok bs) =>
    if n < rest then ({ c1 with net := { h with moved := h.moved + n, digest := crc64More h.digest bs } :: c1.net.drop 1 }, .ok (bs, false))
    else
      match (Core.pumpNet 17 { c1 with net := c1.net.drop 1 }).post h.sem 1 with
      | (c2, .fault k d) => (c2, .fault k d)
      | (c2, _) => (c2, .ok (bs, true))

/-- The fabric packet of the bytes that leave for a SEND to another module (R182, R260): its target word is the entry's, moved
on by the bytes that have gone before. -/
def State.fabricSend (s : State) (k : Nat) (d : Dest) (h : NetOp) (bs : List Byte) : FabPkt :=
  let kind := d.sop.toNat / 2 ^ 56
  { vc := h.vc, dst := d.dst, part := d.part, src := s.fab.addr, epoch := ((s.partOfSite k).map (fun p => (s.part p).epoch)).getD 0,
    coll := BitVec.ofNat 16 d.coll, tkind := kind, field := d.sop.toNat / 2 ^ 50 % 64, core := d.sop.toNat / 2 ^ 44 % 64,
    addr := d.sop.toNat % 2 ^ 44 + (if kind = 0 then h.moved else if kind = 1 then h.moved / 64 else 0),
    payload := wordsLE bs.length bs }

/-- What a packet for another module's stack does to this module's map (R218). -/
def State.sendContrib (s : State) (k : Nat) (q : FabPkt) : State :=
  match q.tkind, s.partOfSite k with
  | 1, some p => { s with fields := Tab.upd {} s.fields q.field (fun f => f.sendBlocks p q.addr ((4 * q.payload.length + 63) / 64)) }
  | _, _ => s

/-- The flits in which the bytes of an operation at site k leave, for the router and the port that they are bound for (R167,
R169, R181): a core's L port, a controller's M port at the router of the sender's quad, the Vale link, the pass router of the
port by which a module is reached. -/
def State.flitsOf (s : State) (k : Nat) (d : Dest) (h : NetOp) (bs : List Byte) (last : Bool) : List MeshPkt :=
  let m : MeshPkt := { src := k, kind := d.kind, dst := d.site, win := d.win, vc := h.vc, at_ := routerOf k, from_ := lPort k, last := last, bytes := bs, len := (bs.length + 127) / 128 }
  let n := (bs.length + 127) / 128
  if h.op = 1 then wholePacket { m with kind := 5, dst := k / 64, vc := 1, id := h.rid, len := s.redLen k h.rid, to_ := routerOf k } n
  else if h.op = 2 then
    let v := { m with dst := d.field, vc := 3 }
    wholePacket (if d.kind = 2 then { v with to_ := 16 * d.field + routerOf k % 16, oport := 8 } else { v with to_ := 0, oport := 9 }) n
  else if d.kind = 4 then
    let pr := passRouter (Tab.get 0 s.fab.fwd d.dst)
    wholePacket { m with dst := d.dst, to_ := 16 * fieldAt pr.1 pr.2 + quadAt pr.1 pr.2, oport := 9, fab := some (s.fabricSend k d h bs) } n
  else cutFlits { m with to_ := routerOf d.site, oport := lPort d.site, addr := if d.kind = 0 then d.addr + h.sb.toNat / 2 ^ 32 + h.moved else 0,
                         rsemEn := d.rsemEn, rsem := d.rsem } bs last

/-- The trailer of a contribution to another module: one flit with its digest, behind the last data packet (R252, R255). -/
def State.trailerOf (s : State) (k : Nat) (d : Dest) (h : NetOp) (bs : List Byte) : List MeshPkt :=
  if h.op = 0 && d.kind = 4 && d.coll ≠ 0 then
    let pr := passRouter (Tab.get 0 s.fab.fwd d.dst)
    [{ src := k, kind := 4, dst := d.dst, vc := h.vc, at_ := routerOf k, from_ := lPort k, to_ := 16 * fieldAt pr.1 pr.2 + quadAt pr.1 pr.2, oport := 9
       fab := some { s.fabricSend k d h [] with payload := wordsLE 8 (bytesLE (crc64More h.digest bs).toNat 8) } }]
  else []

/-- Credit of the core's L port: its channel's buffer takes a chunk's flits (R172, R181). -/
def State.portRoom (s : State) (k : Nat) (h : NetOp) : Bool :=
  let vc := if h.op = 1 then 1 else if h.op = 2 then 3 else h.vc
  decide (s.buffered (routerOf k) (lPort k) vc + (s.chunkOf k h + 127) / 128 ≤ meshBuffer vc)

/-- What happened to a chunk: it has left and others follow, the operation is over, or it waits. -/
inductive SendTurn where
  | more | over | credit
  deriving DecidableEq, Repr

/-- One chunk of the operation at the head of a core's network port (R78, R181). -/
def State.sendChunk (s : State) (k : Nat) (h : NetOp) : State × SendTurn :=
  let c := s.core k
  let d := c.destOf (h.sb.toNat % 64)
  if !s.portRoom k h then (s, .credit)
  else match c.sendHead s.coreNow h (s.chunkOf k h) with
    | (c1, .wait _) => (s.setCore k c1, .over)
    | (c1, .fault kd x) => (s.raiseFault k { c1 with net := [] } kd x h.pc, .over)
    | (c1, .ok (bs, last)) =>
      let t := s.putCore k c1
      let u : State := { t with mesh := t.mesh ++ (if bs = [] then [] else s.flitsOf k d h bs last) ++ (if last then s.trailerOf k d h bs else []) }
      (if h.op = 0 && d.kind = 4 then u.sendContrib k (s.fabricSend k d h bs) else u, if last then .over else .more)

/-- The operation at the head of the port goes out chunk by chunk. Where its channel has no credit the mesh moves on by a flit
slot; when it cannot move, the core waits for credit (R100). -/
def State.sendLoop : Nat → State → Nat → State
  | 0, s, k => s.setCore k { s.core k with net := match (s.core k).net with | [] => [] | h :: t => { h with noCredit := true } :: t }
  | n + 1, s, k =>
    match (s.core k).net with
    | [] => s
    | h :: _ =>
      match s.sendChunk k { h with noCredit := false } with
      | (t, .over) => t
      | (t, .more) => State.sendLoop n t k
      | (t, .credit) => State.sendLoop n t.takeReds.meshSlot k

/-- NET_SEND_COMPLETE (R78, R181): the operation at the head of the port's queue leaves the L port. -/
def State.netSendComplete (s : State) (k : Nat) : State :=
  match (s.core k).net with
  | [] => s
  | h :: _ => State.sendLoop (h.sc.toNat / 32 + 64) s k

def execNetSendComplete (k : Site) (s : State) : Host.Outcome State Fault Refusal := .next (s.netSendComplete k)

/-- A packet lands in its target core (R130, R181): the core, what is left of the packet, and a fault. -/
def Core.land (c : Core) (now : Stamp) (p : MeshPkt) : Core × Option MeshPkt × Option (Nat × Nat) :=
  let n := if p.kind = 1 then min p.bytes.length (c.window p.win).space else p.bytes.length
  let r := if p.kind = 1 then c.produce .net now p.win (p.bytes.take n) else c.writeBytes .net now p.addr p.bytes
  match r with
  | (c1, .wait _) => (c1, some p, none)
  | (c1, .fault k d) => (c1, none, some (k, d))
  | (c1, .ok _) =>
    if n < p.bytes.length then (c1, some { p with bytes := p.bytes.drop n }, none)
    else if p.rsemEn then
      match c1.post p.rsem 1 with
      | (c2, .fault k d) => (c2, none, some (k, d))
      | (c2, _) => (c2, none, none)
    else (c1, none, none)

/-- A flit of a SEND for a site. -/
def MeshPkt.boundFor (k : Nat) (m : MeshPkt) : Bool := decide (m.kind ≤ 1) && m.dst = k

/-- Replace the first flit bound for a site by what is left of it. -/
def replaceFirst (k : Nat) (left : Option MeshPkt) : List MeshPkt → List MeshPkt
  | [] => []
  | p :: r => if p.boundFor k then (match left with | some q => q :: r | none => r) else p :: replaceFirst k left r

/-- The flits of a SEND land one after another, up to its last or to one that its window has no space for (R130, R181, R196). At
a core of a stopped partition they are discarded (R277). -/
def State.landLoop : Nat → State → Nat → State
  | 0, s, _ => s
  | n + 1, s, k =>
    match s.mesh.find? (MeshPkt.boundFor k) with
    | none => s
    | some p =>
      if !((s.partOfSite k).any (fun q => (s.part q).started)) then
        let t : State := { s with mesh := replaceFirst k none s.mesh }
        if p.last then t else State.landLoop n t k
      else
        match (s.core k).land s.coreNow p with
        | (c1, left, none) =>
          let t := { s.putCore k c1 with mesh := replaceFirst k left s.mesh }
          if left.isSome || p.last then t else State.landLoop n t k
        | (c1, _, some (kd, d)) => { s.raiseFault k c1 kd d c1.seq.pc with mesh := replaceFirst k none s.mesh }

/-- SEND_LANDING (R181): the bytes of the first SEND on the mesh for site k land. -/
def State.sendLanding (s : State) (k : Nat) : State := State.landLoop s.mesh.length s k

def execSendLanding (k : Site) (s : State) : Host.Outcome State Fault Refusal := .next (s.sendLanding k)

/-- The flits of the first sum of an ID that is bound for a core leave the mesh. -/
def dropSum (k id : Nat) : List MeshPkt → List MeshPkt
  | [] => []
  | m :: l => if m.kind = 5 && !m.toEntry && m.dst = k && m.id = id then (if m.tail then l else dropSum k id l) else m :: dropSum k id l

/-- SUM_PACKET_EJECT (R181): a sum packet of a bound RID is produced into its window and posts; an unbound one raises
NET_UNBOUND and is discarded. A packet that the window has no room for stays on the mesh. -/
def State.sumPacketEject (s : State) (k rid : Nat) (payload : List W32) : State :=
  let c := s.core k
  let b := Tab.get {} c.rx rid
  let bs := payload.flatMap (fun x => bytesLE x.toNat 4)
  if b.on && decide ((c.window b.win).space < bs.length) then s
  else
    let s : State := { s with mesh := dropSum k rid s.mesh }
    if !((s.partOfSite k).any (fun q => (s.part q).started)) then s
    else if !b.on then s.failCore k 0x49 rid c.seq.pc
    else match c.produce .net s.coreNow b.win bs with
    | (c1, .wait _) => s.setCore k c1
    | (c1, .fault kd d) => s.raiseFault k c1 kd d c1.seq.pc
    | (c1, .ok _) =>
      match c1.post b.sem 1 with
      | (c2, .fault kd d) => s.raiseFault k c2 kd d c2.seq.pc
      | (c2, _) => s.putCore k c2

def execSumPacketEject (k : Site) (rid : BitVec 10) (payload : List W32) (s : State) : Host.Outcome State Fault Refusal :=
  .next (s.sumPacketEject k rid.toNat payload)

end Sys2Proof.Machine
end

