-- ==== Sys2Proof/Machine/Reset.lean ====
section
/-! DEFINITION. Resets (R360, R361, R364, R365, Table 11.3): what a cold and a warm reset leave of the module. -/

namespace Sys2Proof.Machine

open Sys2Proof

/-- A cold reset's reach (Table 11.3). Fuses, the identity key, local flash and site states stay; the stacks, banks, plans,
partitions, ticks and registers are lost; the input as measured, the hold-up bank's charge and the assemblies in the cages
are physical and stay. -/
def State.coldReach (s : State) : State :=
  { sites := s.sites
    pwr := { vbus := s.pwr.vbus, ibus := s.pwr.ibus, pairA := s.pwr.pairA, pairB := s.pwr.pairB, vbank := s.pwr.vbank, cap := s.pwr.cap }
    fab := {
      shelf := { s.fab.shelf with writing := none, waiting := [] }
      ports := s.fab.ports.map (fun q => { present := q.present, powerClass := q.powerClass }) }
    fw := { log := s.fw.log }
    rck := { s.rck with
      refLost := false, unchecked := false, active := 0, stable := false, valePll := false, ready := false, failed := false, lost := 0,
      fmcSel := 0, fmcPort := 0, fmcGate := 100000, fmcDone := false, fmcRunning := false, fmcNoclk := false, fmcCount := 0, wdog := 0, warmAt := false }
    sec := { ident := s.sec.ident, otp := s.sec.otp, idKey := s.sec.idKey, idErased := s.sec.idErased, ownerKey := s.sec.ownerKey, revoke := s.sec.revoke,
             minSvn := s.sec.minSvn, slotA := s.sec.slotA, slotB := s.sec.slotB, factory := s.sec.factory, activeB := s.sec.activeB,
             mediaKey := s.sec.mediaKey, erasePending := s.sec.erasePending }
    out := s.out
    freeCtr := s.freeCtr
    pending := s.pending }

/-- The banks of a core at a warm reset (R123, R126, R137): ownership returns to CORE, marches and handovers end, secure
banks are wiped, and the counters, records and non-secure contents stay. -/
def Bank.warm (b : Bank) (dark : Bool) : Bank :=
  let c := { b with
    own := 0, target := 0, pend := 0, late := 0, secure := b.secure ||| b.secSet, secSet := 0, zfail := false, zbank := 0
    busy := if b.waking then b.busy else b.wiping
    march := { failWord := b.march.failWord, failBank := b.march.failBank, failBit := b.march.failBit } }
  if c.secure = 0 then c else c.startWipe c.secure dark

/-- A core at a warm reset (R75, R112, R115, R138, R318): its state, stores and schedules are cleared; counters, records,
CHK_OFF, the capture buffer and the digest registers stay. -/
def Core.warm (dark : Bool) (c : Core) : Core :=
  { c.discard with
    istore := [], ierr := [], sched := [], dest := [], streams := [], win := Vector.replicate 16 {}, rnd := { ctr := c.rnd.ctr }, digest := 0
    bank := c.bank.warm dark
    chk := { c.chk with suspect := 0, inj := false } }

/-- The update engine at a warm reset (R233). -/
def Upe.warm (u : Upe) : Upe :=
  { blocks := u.blocks, skips := u.skips, discard := u.discard, rootLate := u.rootLate, fault := u.fault, powers := u.powers, srCtr := u.srCtr }

/-- The fabric at a warm reset (R275, Table 11.3): counters and the fault record stay, EN and ETH take their reset values; ports stop sending flits and send
idles, so their links start again. -/
def FabPort.warm (p : FabPort) : FabPort :=
  { st := .down, crc := p.crc, replay := p.replay, fecCorr := p.fecCorr, fecUncorr := p.fecUncorr, downs := p.downs,
    lowPower := p.lowPower, present := p.present, powerClass := p.powerClass, link := p.link, linkFail := p.linkFail }

/-- Registers of the host ports at a warm reset: the RW fields take their reset values, the RWS ring registers stay. -/
def HostIf.warm (h : HostIf) : HostIf :=
  { h with timeout := 1000, ap := Vector.replicate 64 0, ring := h.ring.map (fun r => { r with overrun := false, fetchErr := false }) }

/-- Whether a partition's job spans modules. -/
def Part.spans (p : Part) : Bool := 1 < p.members.length

/-- Status of a partition stopped by a warm reset whose job spans modules (R365): QUORUM_LOST. -/
def stQuorumLost : W16 := 0x0500#16

/-- A warm reset's reach at its first cycle (Tables 11.3, 11.4). -/
def State.warmReach (s : State) : State :=
  let wasOn := (List.range 16).filter (fun p => (s.part p).started)
  let t := wasOn.foldl State.stopPart s
  let dark := fun (k : Nat) => s.dark k
  let u : State := { t with
    cores := Tab.mapV {} t.cores (fun k c => Core.warm (dark k) c)
    fields := Tab.mapV {} t.fields (fun _ f => { f with upe := f.upe.warm, ws := f.ws.map (fun w => { w with badmsg := false }), routers := f.routers.map (fun r => { r with streak := Vector.replicate 10 0 }) })
    cols := t.cols.map (fun c => (c.1, c.2.toIdle))
    arrivals := []
    res := []
    mesh := []
    parts := t.parts.map (fun p => { p with startAt := none, stopAt := none, replay := none, hold := [], lift := [], rcv := {}, intake := { p.intake with stalled := false, crcBad := false, entry := 0 } })
    tg := { t.tg with refused := false, lost := false, lostField := 0 }
    fab := { ports := t.fab.ports.map FabPort.warm, fault := t.fab.fault, shelf := t.fab.shelf, slots := t.fab.slots,
             targets := t.fab.targets, feedId := t.fab.feedId }
    pwr := { t.pwr with alarm := 0, mask := 0, warn := 95, hot := 105, droop := 25, stkWarn := 85, stkHot := 95 }
    div := { t.div with bad := false }
    rck := { t.rck with refLost := false, ready := false, failed := false, stage := 0x10, fmcSel := 0, fmcPort := 0, fmcGate := 100000,
                        fmcDone := false, fmcRunning := false, fmcNoclk := false, fmcCount := 0, warmAt := false }
    host := { t.host.warm with claimOpen := false }
    fw := { t.fw with inbox := [], flight := [], nonce := none }
    sec := { t.sec with src := 0, halt := false, lcTarget := none, spdm := Vector.replicate 3 0 } }
  { u with parts := wasOn.foldl (fun ps p => vset ps p
      (let x := ps.toList.getD p {}
       if x.spans then { x with quorumLost := true, stopStatus := stQuorumLost } else x)) u.parts }

/-- Whether a reset sampled now has the cold reach (R361): a cold source, or any source before READY of a cold reset. -/
def State.coldNow (s : State) (cold : Bool) : Bool := cold || (!s.rck.ready && s.rck.stage ≠ 0x10)

/-- A reset source is sampled (R360, R361): its reach acts, the cause record takes its code and the stage in progress, and
the module holds the reset until its release. -/
def State.resetSource (s : State) (code : Nat) (cold : Bool) : State :=
  let isCold := s.coldNow cold
  let stage := s.rck.stage
  let t := if isCold then s.coldReach else s.warmReach
  { t with rck := { t.rck with
      cause := code
      causeStage := stage
      coldWanted := isCold
      held := some code
      wdogStage := if code = 9 && stage = 3 then t.rck.wdogStage + 1 else 0
      stage := if isCold then 0 else 0x10
      trimValid := if isCold then false else t.rck.trimValid
      trimFault := if isCold then false else t.rck.trimFault } }

/-- The release of a held reset: the trim load of a cold reset begins with copy A (R367, R368). -/
def State.release (s : State) : State :=
  if s.rck.coldWanted then
    { s with rck := { s.rck with held := none, stage := 1, trimValid := false, trimFault := false, aBad := false, bBad := false, copy := 0, loadingB := false } }
  else { s with rck := { s.rck with held := none } }

/-- A reset whose release is at once (Table 11.2). -/
def State.resetAtOnce (s : State) (code : Nat) (cold : Bool) : State := (s.resetSource code cold).release

end Sys2Proof.Machine
end

