-- ==== Sys2Proof/Machine/Fabric.lean ====
section
/-! DEFINITION. The fabric: ports and their links (R236, R237), flits and go-back retry (R238 to R241), the view and its
forwarding table (R242, R270), packets and their faults (R252 to R254, R266), and Ethernet frames (R243). -/

namespace Sys2Proof.Machine

open Sys2Proof

def State.updPort (s : State) (p : Nat) (g : FabPort → FabPort) : State :=
  { s with fab := { s.fab with ports := vset s.fab.ports p (g (s.port p)) } }

/-- Fabric fault kinds (Table 8.6). -/
def fkContrib : Nat := 1
def fkResult : Nat := 2
def fkStale : Nat := 3
def fkColl : Nat := 4
def fkClosed : Nat := 5
def fkLink : Nat := 6

/-- Record a fabric fault (R254, FAB_FLT_INFO) and report it; a partition with no plan started starts nothing (R277). -/
def State.fabFault (s : State) (part port kind src : Nat) (epoch coll : W16) (loss : Loss) : State :=
  { s with
    fab := { s.fab with fault := s.fab.fault.note FabFaultBody.lower s.now { part := part, port := port, kind := kind, src := src, epoch := epoch, coll := coll, at_ := s.now } }
    fw := { s.fw with reports := if (s.part part).started then s.fw.reports ++ [{ part := part, what := .fabric kind port, loss := loss, addr := port }] else s.fw.reports } }

/-- The started partitions whose collectives or relay routes use a port: its holder, and a job of several members that
reaches one of them through it (R241). -/
def State.usersOfPort (s : State) (p : Nat) : List Nat :=
  (List.range 16).filter (fun q =>
    (s.part q).started &&
      ((s.part q).ports.getLsbD p || ((s.part q).spans && (s.part q).members.any (fun m => Tab.get 28 s.fab.fwd m.addr = p))))

/-- A link goes down (R237, R241): firmware is told and the partitions that use it fault with LINK_DOWN. A re-shard in
progress fails (R266). A port that was not UP has no link to lose. -/
def State.linkDown (s : State) (p : Nat) : State :=
  let q := s.port p
  if q.st = .down || q.st = .failed then s
  else if q.st ≠ .up then s.updPort p (fun x => { x with st := .down })
  else
    let users := if q.eth then [] else s.usersOfPort p
    let t := s.updPort p (fun x => { x with
      st := .down, downs := satAdd x.downs 1, memberDown := true, txSeq := 0, txAck := 0, buffer := [], txq := [], rxExp := 0,
      rxb := [], ret := Vector.replicate 6 0, ackDue := false, nakSent := false, nakSeq := none, nakRun := 0, credit := Vector.replicate 6 0, roceq := [] })
    users.foldl (fun u x => (u.fabFault x p fkLink q.peer (u.part x).epoch 0 .none).updPart x (fun y => { y with resharding := false, rs := {} })) t

/-- The ports that carry fabric routes, with their peers. -/
def State.upPorts (s : State) : List (Nat × Nat) :=
  ((List.range 28).filter (fun p => (s.port p).st = .up && !(s.port p).eth && !(s.port p).memberDown)).map (fun p => (p, (s.port p).peer))

/-! ## The view -/

/-- One round of distances over the links of the view. -/
def relaxLinks (links : List (Nat × Nat × Nat × Nat)) (d : Tab Nat) : Tab Nat :=
  links.foldl (fun d l =>
    let a := l.1
    let b := l.2.2.1
    let da := Tab.get 9999 d a
    let db := Tab.get 9999 d b
    let d1 := if da + 1 < db then Tab.set 9999 d b (da + 1) else d
    if db + 1 < da then Tab.set 9999 d1 a (db + 1) else d1) d

def distFrom : Nat → List (Nat × Nat × Nat × Nat) → Tab Nat → Tab Nat
  | 0, _, d => d
  | n + 1, links, d => distFrom n links (relaxLinks links d)

/-- The links of a view that do not touch module `own`. -/
def farLinks (own : Nat) (links : List (Nat × Nat × Nat × Nat)) : List (Nat × Nat × Nat × Nat) :=
  links.filter (fun l => l.1 ≠ own && l.2.2.1 ≠ own)

/-- The forwarding table of a view (R242): the shortest route in links, ties to the lowest port index. -/
def forwarding (own : Nat) (ups : List (Nat × Nat)) (links : List (Nat × Nat × Nat × Nat)) : Tab Nat :=
  let far := farLinks own links
  let ds := ups.map (fun u => (u.1, distFrom links.length far (Tab.set 9999 [] u.2 0)))
  let nodes := ((links.map Prod.fst) ++ (links.map (fun l => l.2.2.1)) ++ ups.map Prod.snd).dedup.filter (· ≠ own)
  nodes.foldl (fun t n =>
    let best := ds.foldl (fun acc d =>
      let x := Tab.get 9999 d.2 n
      if x < acc.2 then (d.1, x) else acc) (28, 9999)
    Tab.set 28 t n best.1) []

/-- The members of a list that this module no longer reaches (R270). -/
def State.unreached (s : State) (ms : List Member) : List Nat :=
  (ms.filter (fun m => m.addr ≠ s.fab.addr && Tab.get 28 s.fab.fwd m.addr = 28)).map Member.addr

/-- Firmware floods its own links after a change of a link's membership state (R270). -/
def State.floodLinks (s : State) : State :=
  s.emit (s.upPorts.map (fun u => Output.flit u.1 (.linkState (s.upPorts.map (fun v => (s.fab.addr, v.1, v.2, (s.port v.1).peerPort))))))

/-- A member stopped with QUORUM_LOST that reaches the rest of its job again sends JOIN to the lowest-ranked member it reaches
there (R273). -/
def State.sendJoins (s : State) (old : Tab Nat) : State :=
  s.emit ((List.range 16).filterMap (fun p =>
    match (s.part p).rejoin.find? (fun m => Tab.get 28 s.fab.fwd m.addr ≠ 28) with
    | none => none
    | some m => if (s.part p).rejoin.any (fun x => Tab.get 28 old x.addr ≠ 28) then none else some (.module_ m.addr (.join m.part (((s.part p).members.find? (fun x => x.addr = s.fab.addr)).getD {})))))

/-- The view of the fabric's links becomes `links` (R242, R270, R271): the forwarding table follows it and the module's own
ports; a change starts the wait of 8H again, and a member that has no route any more is lost. -/
def State.review (s : State) (links : List (Nat × Nat × Nat × Nat)) (ups : List (Nat × Nat)) : State :=
  let same := links = s.fab.view && s.upPorts = ups
  let t := { s with fab := { s.fab with view := links, viewAt := if same then s.fab.viewAt else s.tg.cyc, fwd := forwarding s.fab.addr s.upPorts links } }
  let lost := (List.range 16).flatMap (fun p =>
    if (s.part p).started && (s.part p).spans then
      (((t.unreached (s.part p).members).filter (fun a => !(s.unreached (s.part p).members).contains a)).map (fun a =>
        ({ part := p, what := .lost, loss := .member a, addr := a } : FaultReport)))
    else [])
  (t.report lost).sendJoins s.fab.fwd

/-- A change of the module's own ports `g`: where it changes a link's membership state, the view follows and the change is
flooded (R270). -/
def State.onLinks (s : State) (g : State → State) : State :=
  let t := g s
  if t.upPorts = s.upPorts then t else (t.review s.fab.view s.upPorts).floodLinks

/-! ## Links -/

/-- The full credits of Table 8.3. -/
def fullCredit : List Nat := [16, 384, 384, 384, 384, 384]

/-- A port that stands DOWN, enabled and powered, goes into TRAINING (R237). -/
def State.trainPort (s : State) (p : Nat) : State :=
  if (s.port p).en && (s.port p).link = .on && !(s.port p).lowPower && (s.port p).st = .down then s.updPort p (fun x => { x with st := .training }) else s

/-- The INIT flit of a port (R237, Table 8.2): full credits, then address, port index, version and module ID. -/
def State.initFlitOf (s : State) (p : Nat) : FabFlit :=
  (s.port p).control 1 false fullCredit (bytesLE s.fab.addr 2 ++ bytesLE p 1 ++ bytesLE linkVersion 1 ++ bytesLE s.sec.ident.moduleId.toNat 8)

/-- PORT_TRAINED (R236, R237): a port in TRAINING, into which one that stands DOWN goes first, sends INIT; an Ethernet port is
up. -/
def State.portTrained (s : State) (p : Nat) : State :=
  let t := s.trainPort p
  if (t.port p).en && (t.port p).link = .on && !(t.port p).lowPower && (t.port p).st = .training then
    if (t.port p).eth then t.updPort p (fun x => { x with st := .up })
    else (t.updPort p (fun x => { x with st := .init })).emit [.flit p (.data (t.initFlitOf p))]
  else t

/-- A link is lost while the module runs: what linkDown does, and the change of the view. -/
def State.linkLost (s : State) (p : Nat) : State := s.onLinks (fun t => t.linkDown p)

/-- Codewords that the FEC corrected and those it could not (R241). -/
def State.countFec (s : State) (p : Nat) (f : FabFlit) : State :=
  if f.corr = 0 && f.uncorr = 0 then s
  else s.updPort p (fun x => { x with fecCorr := BitVec.ofNat 32 (min (2 ^ 32 - 1) (x.fecCorr.toNat + f.corr))
                                      fecUncorr := BitVec.ofNat 32 (min (2 ^ 32 - 1) (x.fecUncorr.toNat + f.uncorr)) })

/-- A NAK leaves: ACK is the last good SEQ (R241). -/
def State.sendNak (s : State) (p : Nat) : State :=
  let a := (s.port p).answer true
  (s.updPort p (fun _ => { a.1 with nakSent := true })).emit [.flit p (.data a.2)]

/-- A flit whose CRC is wrong (R241): counted and discarded. The receiver answers with one NAK until the SEQ that it expects
arrives; a CRC error of that SEQ is a new error and is answered again. -/
def State.badFlit (s : State) (p : Nat) (f : FabFlit) : State :=
  let t := s.updPort p (fun x => { x with crc := satAdd x.crc 1 })
  if (s.port p).nakSent && f.seq ≠ (s.port p).rxExp then t else t.sendNak p

/-- A flit that comes in on a fabric port: its codewords count, a wrong CRC discards it (R241), and otherwise it does what its
kind does. -/
def State.flitIn (s : State) (p : Nat) (f : FabFlit) (g : State → State) : State :=
  let t := s.countFec p f
  if crc32 f.bytes ≠ f.crc then (if (s.port p).st = .up then t.badFlit p f else t.updPort p (fun x => { x with crc := satAdd x.crc 1 })) else g t

/-- INIT_FLIT (R237): the ends agree on the version, take each other's address and the credits that the flit returns. -/
def State.initFlit (s : State) (p : Nat) (f : FabFlit) : State :=
  if (s.port p).st ≠ .init || f.kind ≠ 1 || f.ctype ≠ 1 then s
  else s.flitIn p f (fun t =>
    if f.initVersion ≠ linkVersion then t.updPort p (fun x => { x with st := .failed })
    else t.onLinks (fun u => u.updPort p (fun x => { x with
      st := .up, peer := f.initAddr, peerPort := f.initPort, credit := Vector.ofFn (fun i => f.counts.getD i.val 0), txSeq := 0, txAck := 0, buffer := [], txq := [], rxExp := 0
      rxb := [], ret := Vector.replicate 6 0, ackDue := false, nakSent := false, nakSeq := none, nakRun := 0, memberDown := false, lastHb := s.tg.cyc })))

/-- INIT_TIMEOUT (R237): 10 ms without an INIT exchange. -/
def State.initTimeout (s : State) (p : Nat) : State :=
  if (s.port p).st = .init then s.updPort p (fun x => { x with st := .failed }) else s

/-- PORT_RETRY (R237): a failed port retries from TRAINING after 1 s. -/
def State.portRetry (s : State) (p : Nat) : State :=
  if (s.port p).st = .failed && (s.port p).en then s.updPort p (fun x => { x with st := .training }) else s

/-- Flits up to an acknowledged SEQ leave the replay buffer (R241). -/
def FabPort.acked (q : FabPort) (ack : BitVec 12) : FabPort :=
  match q.buffer.findIdx? (fun f => f.seq = ack) with
  | some i => { q with buffer := q.buffer.drop (i + 1), txAck := ack }
  | none => q

/-- A NAK (R241): the sender resends every flit from ACK + 1; the same SEQ NAKed 32 times in a row takes the link down. -/
def State.gotNak (s : State) (p : Nat) (ack : BitVec 12) : State :=
  let q := (s.port p).acked ack
  let run := if q.nakSeq = some (ack + 1) then q.nakRun + 1 else 1
  let t := s.updPort p (fun _ => { q with replay := satAdd q.replay 1, nakSeq := some (ack + 1), nakRun := run })
  if run = 32 then t.linkLost p else (t.emit (q.buffer.map (fun f => Output.flit p (.data f)))).pumpPort p

def State.addCredit (s : State) (p : Nat) (cs : List Nat) : State :=
  s.updPort p (fun x => { x with credit := Vector.ofFn (fun i => x.credit[i] + cs.getD i.val 0) })

/-- The acknowledgement that a good flit carries: ACK, or with NAK set a request to resend. -/
def State.takeAck (s : State) (p : Nat) (f : FabFlit) : State :=
  if f.nak then s.gotNak p f.ack else (s.updPort p (fun x => x.acked f.ack)).pumpPort p

/-- FABRIC_DATA_FLIT (R238, R240, R241): a good flit of the expected SEQ enters the receive buffers, with the credits and the
acknowledgement it carries; any other is discarded and answered by one NAK until the expected SEQ arrives. -/
def State.fabricDataFlit (s : State) (p : Nat) (f : FabFlit) : State :=
  if (s.port p).st ≠ .up || (s.port p).eth || f.kind ≠ 0 then s
  else s.flitIn p f (fun t =>
    if f.seq ≠ (t.port p).rxExp then (if (t.port p).nakSent then t else t.sendNak p)
    else ((t.updPort p (fun x => { x with rxExp := x.rxExp + 1, rxb := x.rxb ++ [f], ackDue := true, nakSent := false })).addCredit p f.credits).takeAck p f)

/-- A control flit of CTYPE 0 (R240, R241): credits and the acknowledgement. -/
def State.controlFlit (s : State) (p : Nat) (f : FabFlit) : State :=
  if (s.port p).st ≠ .up || (s.port p).eth || f.kind ≠ 1 || f.ctype ≠ 0 then s
  else s.flitIn p f (fun t => (t.addCredit p f.counts).takeAck p f)

/-- ACK_TIMEOUT (R241): data flits unacknowledged for 50 µs. -/
def State.ackTimeout (s : State) (p : Nat) : State :=
  if (s.port p).st = .up && !(s.port p).buffer.isEmpty then s.linkLost p else s

/-- LINK_STATE_EVENT (R242, R270). -/
def State.linkState (s : State) (links : List (Nat × Nat × Nat × Nat)) : State := s.review links s.upPorts

/-- The heartbeat period in wafer cycles: units of 100 µs (R270, Table 8.5). -/
def State.hbCycles (s : State) : Nat := s.fab.hb * 120000

/-- FABRIC_HEARTBEAT_SEND (R270): on every UP fabric port, one that counts as down for membership included. -/
def State.heartbeatSend (s : State) : State :=
  s.emit (((List.range 28).filter (fun p => (s.port p).st = .up && !(s.port p).eth)).map (fun p => Output.flit p .heartbeat))

/-- HB_LOST (R189, R270): the deadline of 4H passed. -/
def State.hbLostAt (s : State) (p : Nat) : State :=
  let q := s.port p
  if q.st = .up && !q.eth && !q.memberDown && q.lastHb.toNat + 4 * s.hbCycles ≤ s.tg.cyc.toNat then
    s.onLinks (fun t => t.updPort p (fun x => { x with hbLost := true, memberDown := true }))
  else s

/-! ## Packets -/

/-- A packet for the stack whose first byte lies in a staging area of the partition's new membership size (R265, R266). -/
def Part.inStaging (x : Part) (k : FabPkt) : Bool :=
  k.tkind = 1 && ((x.sizeOf x.rs.newList.length).map JobSize.staging |>.getD []).any (fun a => a.field = k.field && decide (a.base ≤ k.addr) && decide (k.addr < a.base + a.units))

/-- Judge a packet of a partition (R254, R266): none when it passes. -/
def State.judgePacket (s : State) (k : FabPkt) : Option Nat :=
  let pt := s.part k.part
  if k.tkind = 3 then none
  else if !pt.started then some fkClosed
  else if (k.vc = 1 || k.vc = 4) && k.epoch ≠ pt.epoch && !(k.epoch = pt.epoch + 1 && k.vc = 4 && pt.inStaging k && pt.resharding && pt.rs.sentFence) then some fkStale
  else if k.coll ≠ 0 && !((pt.plan.map Plan.colls).getD []).any (fun c => c.coll = k.coll.toNat) then some fkColl
  else none

/-- A packet of epoch E − 1 during a re-shard makes it fail (R266). -/
def State.staleFails (s : State) (k : FabPkt) (kind : Nat) : State :=
  if kind = fkStale && (s.part k.part).resharding && k.epoch + 1 = (s.part k.part).epoch then
    s.updPart k.part (fun x => { x with resharding := false, rs := {} })
  else s

/-- The stack address of the byte of block i that arrives last: its scale, or for BF16 its last element (R41, R201). A
channel delivers in order (R241), so the block's value is whole when that byte lands. -/
def Field.lastByte (f : Field) (r : Region) (i : Nat) : Nat :=
  let p := r.place i
  let lay := f.lay r p.1
  if r.efmt = 6 then r.tileAddr p.1 + lay.vals + 2 * (((f.cells r i).map Prod.snd).foldl max 0) + 1
  else r.tileAddr p.1 + lay.scales + 4 * p.2.1 + p.2.2

/-- The blocks whose gathered value lands whole with a written range: PENDING clears (R31, R218). -/
def Field.landBlocks (f : Field) (addr n : Nat) : Field :=
  f.regions.foldl (fun (x : Field) r =>
    if r.2.en && r.2.kind = 1 && !r.2.frozen then
      let tiles := (List.range r.2.len).filter (fun t => decide (r.2.tileAddr t < addr + n) && decide (addr < r.2.tileAddr t + r.2.stride))
      let bs := tiles.flatMap (fun t => (List.range (512 * r.2.g)).map (fun i => 512 * r.2.g * t + i))
      (bs.filter (fun i => decide (addr ≤ f.lastByte r.2 i) && decide (f.lastByte r.2 i < addr + n))).foldl (fun (y : Field) i => y.clearPending r.2 i) x
    else x) f

/-- The number that stands for the fabric as the sender of a mesh packet: no core site. -/
def fabricSrc : Nat := 3072

/-- The flits in which a packet from fabric port p crosses the mesh (R242), on its own channel, from the port's pass router: to
the egress pass router of another module, to a core's L port, to the M port of a field's stack, or to a router's reduction
entry. A core index names its router there. -/
def State.flitsIn (s : State) (p : Nat) (k : FabPkt) : List MeshPkt :=
  let at_ := 16 * fieldAt (passRouter p).1 (passRouter p).2 + quadAt (passRouter p).1 (passRouter p).2
  let bs := k.payload.flatMap (fun w => bytesLE w.toNat 4)
  let n := max 1 ((bs.length + 127) / 128)
  let m : MeshPkt := { src := fabricSrc, kind := 4, dst := k.dst, vc := k.vc, at_ := at_, from_ := 9, bytes := bs, len := n, fab := some k }
  if k.dst ≠ s.fab.addr then
    let pr := passRouter (Tab.get 28 s.fab.fwd k.dst)
    if Tab.get 28 s.fab.fwd k.dst < 28 then wholePacket { m with to_ := 16 * fieldAt pr.1 pr.2 + quadAt pr.1 pr.2, oport := 9 } n else []
  else if k.tkind = 0 then
    cutFlits { m with kind := 0, dst := k.field * 64 + k.core, to_ := routerOf (k.field * 64 + k.core), oport := lPort (k.field * 64 + k.core), addr := k.addr } bs true
  else if k.tkind = 1 then wholePacket { m with kind := 6, dst := k.field, to_ := 16 * k.field + routerOf (k.field * 64 + k.core) % 16, oport := 8 } n
  else if k.tkind = 2 then wholePacket { m with kind := 7, dst := k.field, id := k.addr, to_ := routerOf (k.field * 64 + k.core) } n
  else []

/-- The contribution that a packet belongs to: its ingress port, its sender and its collective instance (R252). -/
def FabPkt.contrib (k : FabPkt) (p : Nat) : Nat × Nat × W16 := (p, k.src, k.coll)

/-- The digest of a contribution so far. -/
def Part.digestOf (x : Part) (key : Nat × Nat × W16) : W64 := (x.contribs.lookup key).getD 0

/-- The ingress pass router takes a packet's payload into its contribution's digest (R252). -/
def Part.takeContrib (x : Part) (p : Nat) (k : FabPkt) : Part :=
  if k.coll = 0 then x
  else
    let key := k.contrib p
    { x with contribs := (key, crc64More (x.digestOf key) (k.payload.flatMap (fun w => bytesLE w.toNat 4))) :: x.contribs.filter (fun c => c.1 ≠ key) }

/-- A heartbeat arrives (R270): a port that counted as down for membership counts as up again. -/
def State.heartbeat (s : State) (p : Nat) : State := s.onLinks (fun t => t.updPort p (fun x => { x with lastHb := t.tg.cyc, memberDown := false }))

/-- What a packet does once it has left the receive buffers of port p (R242, R252, R254, R266): it enters the mesh towards its
target, or is discarded with a fault. A VC0 packet to firmware is a heartbeat (R270). -/
def State.acceptPacket (s : State) (p : Nat) (k : FabPkt) : State :=
  if k.dst ≠ s.fab.addr then { s with mesh := s.mesh ++ s.flitsIn p k }
  else match s.judgePacket k with
    | some kind => (s.fabFault k.part p kind k.src k.epoch k.coll .none).staleFails k kind
    | none =>
      if k.tkind = 3 then (if k.vc = 0 then s.heartbeat p else s)
      else { s.updPart k.part (fun x => x.takeContrib p k) with mesh := s.mesh ++ s.flitsIn p k }

/-- The first whole packet of a port's receive buffers leaves them for `g`; its buffer is returned as credit (R240). -/
def State.popPacket (s : State) (p : Nat) (g : State → FabPkt → State) : State :=
  if (s.port p).st ≠ .up then s
  else match (s.port p).firstPacket with
    | none => s
    | some (k, n, rest) => (g (s.updPort p (fun x => x.takePacket k n rest)) k).pumpPort p

/-- FABRIC_PACKET. -/
def State.fabricPacket (s : State) (p : Nat) : State := s.popPacket p (fun t k => t.acceptPacket p k)

/-- A trailer for this module (R252): the digest that the ingress pass router has formed against the one sent. A trailer for
another module is relayed. -/
def State.acceptTrailer (s : State) (p : Nat) (k : FabPkt) : State :=
  if k.dst ≠ s.fab.addr then { s with mesh := s.mesh ++ s.flitsIn p k }
  else match s.judgePacket k with
    | some kind => (s.fabFault k.part p kind k.src k.epoch k.coll .none).staleFails k kind
    | none =>
      let t := s.updPart k.part (fun x => { x with contribs := x.contribs.filter (fun c => c.1 ≠ k.contrib p) })
      if BitVec.ofNat 64 (fieldLE (k.payload.flatMap (fun w => bytesLE w.toNat 4)) 0 8) = (s.part k.part).digestOf (k.contrib p) then t
      else t.fabFault k.part p fkContrib k.src k.epoch k.coll .none

/-- CONTRIB_TRAILER. -/
def State.contribTrailer (s : State) (p : Nat) : State := s.popPacket p (fun t k => t.acceptTrailer p k)

/-! ## Collectives (R249, R253) -/

/-- The elements of shard i of n over D members: the first, and how many (R249). -/
def shardRange (n d i : Nat) : Nat × Nat := (i * n / d, (i + 1) * n / d - i * n / d)

/-- The elements that member i holds of a collective's outcome (Table 8.6a): its shard of a reduce-scatter, all of the others.
What a permute addresses to a member is the plan's. -/
def Collective.outcome (c : Collective) (d i : Nat) : Nat × Nat := if c.kind = .reduceScatter then shardRange c.n d i else (0, c.n)

/-- The kinds whose whole results members compare (R253). -/
def Collective.compared (c : Collective) : Bool := c.kind = .allGather || c.kind = .allReduce || c.kind = .broadcast

/-- Bytes of an element: FP32 for reductions, bytes for the other kinds (R249). -/
def Collective.width (c : Collective) : Nat := match c.kind with | .reduceScatter | .allReduce => 4 | _ => 1

/-- The CRC-64 of this module's whole result (R253). -/
def State.resultDigest (s : State) (c : Collective) : W64 :=
  crc64 (Tab.getRange 0 (s.field c.field).hbm (64 * c.base + c.width * (c.outcome 1 0).1) (c.width * (c.outcome 1 0).2))

/-- The instances whose digests a step of the partition compares: none in a job of one member. -/
def Part.compares (x : Part) : List Collective := if x.spans then ((x.plan.map Plan.colls).getD []).filter Collective.compared else []

/-- RESULT_DIGEST_EXCHANGE (R253): this member's digest of the instance goes to the others; one of theirs that differs raises
RESULT_DIGEST, and the step does not commit. -/
def State.resultDigests (s : State) (p : Nat) (coll : W16) (ds : List (Nat × W64)) : State :=
  let x := s.part p
  if !x.started then s.fabFault p 0 fkClosed s.fab.addr x.epoch coll .none
  else match x.compares.find? (fun c => c.coll = coll.toNat) with
    | none => s.fabFault p 0 fkColl s.fab.addr x.epoch coll .none
    | some c =>
      let t := s.emit (((x.members.map Member.addr).filter (· ≠ s.fab.addr)).map (fun a => .module_ a (.resultDigest p coll (s.resultDigest c))))
      if ds.all (fun d => d.2 = s.resultDigest c) then t.updPart p (fun y => { y with digests := (coll.toNat, s.resultDigest c) :: y.digests.filter (fun e => e.1 ≠ coll.toNat) })
      else (t.fabFault p 0 fkResult s.fab.addr x.epoch coll .none).updPart p (fun y => { y with digestBad := true })

/-- Every result digest of the step has matched (R253). -/
def Part.digestsMatched (x : Part) : Bool := x.compares.all (fun c => x.digests.any (fun e => e.1 = c.coll))

/-! ## Ethernet -/

/-- The path MTU of RoCE v2 (Table 8.4). -/
def pathMtu : Nat := 4096

/-- An RDMA operation leaves its port, or waits there while PFC pauses the port's RoCE traffic (R243). -/
def State.sendRoce (s : State) (p : Nat) (o : RoceOp) : State :=
  let op := { o with packets := (o.len + pathMtu - 1) / pathMtu }
  if (s.port p).pfcPaused then s.updPort p (fun q => { q with roceq := q.roceq ++ [op] }) else s.emit [.roce p op]

/-- PFC pauses the RoCE traffic of a port, or lets what waits go (R243). -/
def State.pfc (s : State) (p : Nat) (pause : Bool) : State :=
  let t := s.updPort p (fun x => { x with pfcPaused := pause, roceq := if pause then x.roceq else [] })
  if pause then t else t.emit ((s.port p).roceq.map (fun o => .roce p o))

/-- ETHERNET_FRAME (R243, Table 8.4). The rate after an ECN mark is lower; by how much the manual does not say. -/
def State.ethernetFrame (s : State) (p : Nat) (k : EthKind) : State :=
  if !(s.port p).eth || (s.port p).st ≠ .up then s
  else match k with
    | .arp => s.emit [.eth p 1]
    | .neighbour => s.emit [.eth p 2]
    | .roceRequest => s.emit [.eth p 3]
    | .ecnMarked => { s.updPort p (fun x => { x with ethRate := s.draw.toNat % (max 1 x.ethRate) }) with freeCtr := s.freeCtr + 1 }
    | .pfc pr pause => if s.fab.pfcEn && pr = s.fab.pfcPri then s.pfc p pause else s
    | .other => s

def execPortTrained (p : PortIx) (s : State) : Host.Outcome State Fault Refusal := .next (s.portTrained p)
def execInitFlit (p : PortIx) (f : FabFlit) (s : State) : Host.Outcome State Fault Refusal := .next (s.initFlit p f)
def execInitTimeout (p : PortIx) (s : State) : Host.Outcome State Fault Refusal := .next (s.initTimeout p)
def execPortRetry (p : PortIx) (s : State) : Host.Outcome State Fault Refusal := .next (s.portRetry p)
def execFabricDataFlit (p : PortIx) (f : FabFlit) (s : State) : Host.Outcome State Fault Refusal := .next (s.fabricDataFlit p f)

/-- CREDIT_FLIT (R240, R241). -/
def execCreditFlit (p : PortIx) (f : FabFlit) (s : State) : Host.Outcome State Fault Refusal := .next (s.controlFlit p f)

/-- NAK_RECEIVED (R241): the control flit that carries the NAK. -/
def execNakReceived (p : PortIx) (f : FabFlit) (s : State) : Host.Outcome State Fault Refusal := .next (s.controlFlit p f)
def execAckTimeout (p : PortIx) (s : State) : Host.Outcome State Fault Refusal := .next (s.ackTimeout p)
def execFabricPacket (p : PortIx) (s : State) : Host.Outcome State Fault Refusal := .next (s.fabricPacket p)
def execContribTrailer (p : PortIx) (s : State) : Host.Outcome State Fault Refusal := .next (s.contribTrailer p)
def execResultDigestExchange (p : PartIx) (coll : W16) (ds : List (Nat × W64)) (s : State) : Host.Outcome State Fault Refusal := .next (s.resultDigests p coll ds)
def execLinkStateEvent (links : List (Nat × Nat × Nat × Nat)) (s : State) : Host.Outcome State Fault Refusal := .next (s.linkState links)
def execFabricHeartbeatSend (s : State) : Host.Outcome State Fault Refusal := .next s.heartbeatSend
def execHbLost (p : PortIx) (s : State) : Host.Outcome State Fault Refusal := .next (s.hbLostAt p)

/-- LANE_ALIGNMENT_LOST (R236, R237): the port is down. -/
def execLaneAlignmentLost (p : PortIx) (s : State) : Host.Outcome State Fault Refusal := .next (s.linkLost p)
def execEthernetFrame (p : PortIx) (k : EthKind) (s : State) : Host.Outcome State Fault Refusal := .next (s.ethernetFrame p k)

end Sys2Proof.Machine
end

