-- ==== Sys2Proof/Machine/SnapData.lean ====
section
/-! DEFINITION. The regions of a snapshot (R280, R282): which areas it holds, their size, their capture and their restore. -/

namespace Sys2Proof.Machine

open Sys2Proof

/-- The areas of a region that a snapshot holds, (base unit, bytes) (R280): tiles, slots and MASTER of a PARAM region, a
whole PRECOND region. -/
def Region.snapAreas (r : Region) (rule : Rule) : List (Nat × Nat) :=
  if r.kind = 1 then
    (r.base, r.bytes) :: (List.range (min rule.nslot 4)).map (fun k => (r.slot.toList.getD k 0, slotBytes rule k * r.blocks)) ++
      (if r.master then [(r.masterBase, 128 * r.blocks)] else [])
  else if r.kind = 4 then [(r.base, r.bytes)]
  else []

/-- The rule of a plan for a region of a field. -/
def Plan.ruleOf (pl : Plan) (field idx : Nat) : Rule := ((pl.rules.find? (fun r => r.field = field && r.idx = idx)).map PlanRule.rule).getD {}

/-- The size S of a snapshot in bytes (R282). -/
def Plan.snapSize (pl : Plan) : Nat :=
  ((pl.base.regions.flatMap (fun r => r.r.snapAreas (pl.ruleOf r.field r.r.rule))).map Prod.snd).sum + 131072

/-- The bytes of a range, keyed from its start. -/
def sliceTab (t : Tab Byte) (a n : Nat) : Tab Byte := (t.filter (fun p => a ≤ p.1 && p.1 < a + n)).map (fun p => (p.1 - a, p.2))

/-- Write a range from a table keyed from its start; the other bytes of the range become 0. -/
def pasteTab (t : Tab Byte) (a n : Nat) (src : Tab Byte) : Tab Byte :=
  t.filter (fun p => p.1 < a) ++ ((src.filter (fun p => p.1 < n)).map (fun p => (p.1 + a, p.2))) ++ t.filter (fun p => a + n ≤ p.1)

/-- The regions of partition p on a field that a snapshot holds. -/
def Field.snapRegions (f : Field) (p : Nat) : List Region :=
  (f.regions.filter (fun r => r.2.en && r.2.part = p && (r.2.kind = 1 || r.2.kind = 4))).map Prod.snd

/-- A region as the snapshot holds it (R280, R282). -/
def Field.captureRegion (f : Field) (r : Region) : GenRegion :=
  let rule := f.rule r.rule
  { handle := r.handle, kind := r.kind, len := r.len, efmt := r.efmt, sfmt := r.sfmt, master := r.master
    nslot := if r.kind = 1 then rule.nslot else 0, sbf16 := if r.kind = 1 then rule.sbf16 else 0
    areas := (r.snapAreas rule).map (fun a => sliceTab f.hbm (64 * a.1) a.2) }

def State.captureRegions (s : State) (p : Nat) : List GenRegion :=
  s.fields.flatMap (fun f => (f.2.snapRegions p).map f.2.captureRegion)

/-- Write a region's areas from a generation, and its MAP bits to 0 (R282). -/
def Field.restoreRegion (f : Field) (g : GenRegion) (r : Region) : Field :=
  let f1 := ((r.snapAreas (f.rule r.rule)).zip g.areas).foldl (fun (x : Field) a =>
    { x with hbm := pasteTab x.hbm (64 * a.1.1) a.1.2 a.2, hbmBad := x.hbmBad.filter (fun u => u < a.1.1 || a.1.1 + (a.1.2 + 63) / 64 ≤ u) }) f
  if r.kind = 1 && !r.frozen then
    { f1 with hbm := pasteTab f1.hbm (64 * r.map) (up64 ((r.blocks + 3) / 4)) [] } else f1

/-- A stack that holds a region of a snapshot and nothing else: the region's own areas follow one another from address 0. -/
def GenRegion.scratch (g : GenRegion) : Region × Rule × Field :=
  let rule : Rule := { nslot := g.nslot, sbf16 := g.sbf16 }
  let r0 : Region := { en := true, kind := g.kind, len := g.len, efmt := g.efmt, sfmt := g.sfmt, master := g.master, frozen := true, handle := g.handle }
  let tiles := (r0.bytes + 63) / 64
  let slotAt := fun (k : Nat) => tiles + (((List.range k).map (fun j => slotBytes rule j * r0.blocks)).sum + 63) / 64
  let r := { r0 with slot := Vector.ofFn (fun i => slotAt i.val), masterBase := slotAt (min g.nslot 4) }
  let f : Field := { rules := Tab.set {} [] 0 rule }
  (r, rule, f.restoreRegion g r)

/-- The contribution digest with which a region ends on its way to the holder (R252, R283): the CRC-64 over its areas. -/
def GenRegion.digest (g : GenRegion) : W64 :=
  let x := g.scratch
  crc64 ((x.1.snapAreas x.2.1).flatMap (fun a => Tab.getRange 0 x.2.2.hbm (64 * a.1) a.2))

end Sys2Proof.Machine
end

