-- ==== Sys2Proof/Machine/Layout.lean ====
section
/-! DEFINITION. The layout of sharded state over the members of a job (R261, R262, R265), the contents of its units, and the last
steps of a re-shard (Table 8.8, steps 5 to 7). -/

namespace Sys2Proof.Machine

open Sys2Proof

/-- Status of a change or a recovery that the plan does not cover (R262, R297). -/
def stBeyondCoverage : W16 := 0x0504#16

/-! ## Owners and slots (R261) -/

/-- The units of a partition's job. -/
def Part.unitCount (x : Part) : Nat := ((x.plan.bind Plan.job).map JobList.units).getD 0

/-- The index of unit u's owner in a list of members: ⌊u × D ÷ U⌋. -/
def unitIndex (total : Nat) (ms : List Member) (u : Nat) : Nat := u * ms.length / total

/-- The owner of unit u under a list of members. -/
def unitOwner (total : Nat) (ms : List Member) (u : Nat) : Option Nat := (ms[unitIndex total ms u]?).map Member.addr

/-- The slot of unit u at its owner, of index i: u − ⌈i × U ÷ D⌉. -/
def unitSlot (total : Nat) (ms : List Member) (u : Nat) : Nat :=
  u - (unitIndex total ms u * total + ms.length - 1) / ms.length

/-- The units that arrive at module `me` when the list changes (R264). -/
def Part.arriving (x : Part) (me : Nat) (old new : List Member) : List Nat :=
  (List.range x.unitCount).filter (fun u => unitOwner x.unitCount new u = some me && unitOwner x.unitCount old u ≠ some me)

/-- The units that leave module `me`, with their new owners: its own, and those of a member that has left whose near copy it
keeps (R264, R268). -/
def Part.leaving (x : Part) (me held : Nat) (old new : List Member) : List (Nat × Nat) :=
  (List.range x.unitCount).filterMap (fun u =>
    match unitOwner x.unitCount old u, unitOwner x.unitCount new u with
    | some o, some n => if n ≠ o && (o = me || (o = held && !new.any (fun m => m.addr = held))) then some (u, n) else none
    | _, _ => none)

/-- The units that stay at module `me` and change slot: those that move up, in descending slot order, then those that move
down, in ascending slot order (R264 step 6). -/
def Part.shifting (x : Part) (me : Nat) (old new : List Member) : List Nat :=
  let stay := (List.range x.unitCount).filter (fun u => unitOwner x.unitCount new u = some me && unitOwner x.unitCount old u = some me)
  let slot := unitSlot x.unitCount
  (stay.filter (fun u => decide (slot old u < slot new u))).reverse ++ stay.filter (fun u => decide (slot new u < slot old u))

/-! ## The contents of a unit (R261) -/

/-- The blocks of a slot and the region that they belong to. -/
structure UnitPlace where
  at_ : UnitRange
  r : Region

/-- The place of unit u at its owner under a list of members. -/
def Part.placeOf (x : Part) (ms : List Member) (u : Nat) : Option UnitPlace :=
  (x.sizeOf ms.length).bind (fun z => (z.slots[unitSlot x.unitCount ms u]?).bind (fun a =>
    (z.base.regions.find? (fun q => q.field = a.field && q.n = a.region)).map (fun q => { at_ := a, r := q.r })))

/-- Bytes of a block's master copy and state slots: (address, length). -/
def Region.stateAreas (r : Region) (rule : Rule) (i : Nat) : List (Nat × Nat) :=
  (if r.master then [(64 * r.masterBase + 128 * i, 128)] else []) ++
    (List.range (min rule.nslot 4)).map (fun k => (64 * r.slot.toList.getD k 0 + slotBytes rule k * i, slotBytes rule k))

/-- The bytes of a block: its element codes, its scale, the master copy and the slots, the MAP bits, and GRAD where TOUCHED is 1.
The codes or bitmaps that place the elements are the same at every member (DEDUCED, log 80). -/
def Field.blockImage (f : Field) (r : Region) (rule : Rule) (i : Nat) : List Byte :=
  let p := r.place i
  let lay := f.lay r p.1
  let base := r.tileAddr p.1
  let w := elemBits r.efmt
  let t := !r.frozen && f.touched r i
  (f.cells r i).flatMap (fun c => bytesLE (f.getBits (base + lay.vals) (w * c.2) w) 2) ++
    (if r.efmt = 6 then [] else [Tab.get 0 f.hbm (base + lay.scales + 4 * p.2.1 + p.2.2)]) ++
    (r.stateAreas rule i).flatMap (fun a => Tab.getRange 0 f.hbm a.1 a.2) ++
    [BitVec.ofNat 8 ((if t then 1 else 0) + (if !r.frozen && f.pendingBit r i then 2 else 0))] ++
    (if t then (List.range 32).flatMap (fun x => Tab.getRange 0 f.hbm (r.gradAddr i x) 4) else [])

/-- Write the bytes of a block; what follows them in `bs` is left. -/
def Field.pasteBlock (f : Field) (r : Region) (rule : Rule) (i : Nat) (bs : List Byte) : Field × List Byte :=
  let p := r.place i
  let lay := f.lay r p.1
  let base := r.tileAddr p.1
  let w := elemBits r.efmt
  let cs := f.cells r i
  let f1 := (cs.mapIdx (fun x c => (x, c.2))).foldl (fun (y : Field) q => y.putBits (base + lay.vals) (w * q.2) w (fieldLE bs (2 * q.1) 2)) f
  let b1 := bs.drop (2 * cs.length)
  let a := if r.efmt = 6 then (f1, b1) else (f1.hbmWrite (base + lay.scales + 4 * p.2.1 + p.2.2) (b1.take 1), b1.drop 1)
  let a := (r.stateAreas rule i).foldl (fun (y : Field × List Byte) s => (y.1.hbmWrite s.1 (y.2.take s.2), y.2.drop s.2)) a
  let m := fieldLE a.2 0 1
  let b := a.2.drop 1
  let f2 := if r.frozen then a.1 else (a.1.setBit (64 * r.map) (2 * i) (m.testBit 0)).setBit (64 * r.map) (2 * i + 1) (m.testBit 1)
  if m.testBit 0 then ((List.range 32).foldl (fun (y : Field) x => y.hbmWrite (r.gradAddr i x) ((b.drop (4 * x)).take 4)) f2, b.drop 128) else (f2, b)

/-- The most bytes that a block can take. -/
def Field.blockRoom (f : Field) (r : Region) (rule : Rule) (i : Nat) : Nat :=
  2 * (f.cells r i).length + 130 + ((r.stateAreas rule i).map Prod.snd).sum

def UnitPlace.blocks (u : UnitPlace) : List Nat := (List.range u.at_.count).map (· + u.at_.first)

/-- The bytes of the unit at a place of a stack. -/
def Field.unitImage (f : Field) (u : UnitPlace) : List Byte := u.blocks.flatMap (f.blockImage u.r (f.rule u.r.rule))

def State.unitImage (s : State) (u : UnitPlace) : List Byte := (s.field u.at_.field).unitImage u

/-- A unit's bytes into a place. -/
def State.pasteUnit (s : State) (u : UnitPlace) (bs : List Byte) : State :=
  s.updField u.at_.field (fun f => (u.blocks.foldl (fun (y : Field × List Byte) i => y.1.pasteBlock u.r (f.rule u.r.rule) i y.2) (f, bs)).1)

/-- The bytes of a unit of a member that has left, from the near copy held here (R264, R268): its region is the one whose handle
the member's layout gives. -/
def State.heldImage (s : State) (m : Member) (u : UnitPlace) : List Byte :=
  match (s.fab.slots.find? (fun h => h.part = m.part && h.valid)).bind (fun h => h.regions.find? (fun g => g.handle = u.r.handle)) with
  | none => []
  | some g =>
    let x := g.scratch
    u.blocks.flatMap (x.2.2.blockImage x.1 x.2.1)

/-! ## Staging (R265) -/

/-- The room that a unit takes in a staging area. -/
def State.unitRoom (s : State) (u : UnitPlace) : Nat :=
  (u.blocks.map ((s.field u.at_.field).blockRoom u.r ((s.field u.at_.field).rule u.r.rule))).sum

/-- The units that arrive in a stack, with their places. -/
def Part.arrivalsIn (x : Part) (us : List Nat) (new : List Member) (f : Nat) : List (Nat × UnitPlace) :=
  us.filterMap (fun u => (x.placeOf new u).bind (fun a => if a.at_.field = f then some (u, a) else none))

/-- The staging areas of the new size hold the arrivals, stack by stack. -/
def State.stagingFits (s : State) (x : Part) (new : List Member) : Bool :=
  let us := x.arriving s.fab.addr x.members new
  match x.sizeOf new.length with
  | none => false
  | some z => us.all (fun u => (x.placeOf new u).isSome) && (List.range 48).all (fun f =>
      decide ((((x.arrivalsIn us new f).map (fun a => s.unitRoom a.2)).sum) ≤ 64 * ((z.staging.filter (fun a => a.field = f)).map StagingArea.units).sum))

/-- The stack and the address at which an arriving unit is staged: behind the earlier arrivals of its stack. -/
def State.stageAt (s : State) (x : Part) (u : Nat) : Option (Nat × Nat) :=
  (x.placeOf x.rs.newList u).bind (fun a => (x.sizeOf x.rs.newList.length).bind (fun z => (z.staging.find? (fun g => g.field = a.at_.field)).map (fun g =>
    (a.at_.field, 64 * g.base + (((x.arrivalsIn x.rs.expected x.rs.newList a.at_.field).takeWhile (fun e => e.1 ≠ u)).map (fun e => s.unitRoom e.2)).sum))))

/-! ## Steps 5 to 7 of Table 8.8 -/

/-- The other members of a list. -/
def State.others (s : State) (ms : List Member) : List Nat := (ms.map Member.addr).filter (· ≠ s.fab.addr)

/-- Step 5: the units leave with the new epoch, each with its contribution digest. -/
def State.sendUnits (s : State) (p : Nat) : State :=
  let x := s.part p
  s.emit ((x.leaving s.fab.addr s.fab.held x.rs.oldList x.rs.newList).filterMap (fun e =>
    (x.placeOf x.rs.oldList e.1).map (fun a =>
      let bs := if unitOwner x.unitCount x.rs.oldList e.1 = some s.fab.addr then s.unitImage a
        else s.heldImage ((x.rs.oldList[unitIndex x.unitCount x.rs.oldList e.1]?).getD {}) a
      Output.module_ e.2 (.unit p e.1 x.epoch bs (crc64 bs)))))

/-- Step 7: with PERMUTE_DONE held from every other member, the new list is in force with its schedule and regions, and the hold
lifts. -/
def State.tryResume (s : State) (p : Nat) : State :=
  let x := s.part p
  if x.rs.stage = 6 && (s.others x.rs.newList).all x.rs.doneFrom.contains then
    let t := s.updPart p (fun y => { y with
      members := y.rs.newList, plan := y.plan.map (fun pl => pl.sized y.rs.newList.length), memberGen := y.memberGen + 1, resharding := false, rs := {}, lift := .reshard :: y.lift })
    t.loadPlacement p (t.part p).placement
  else s

/-- Step 6 on the stacks: units that stay move to their new slots, and the staged units are copied into theirs. -/
def State.settleUnits (s : State) (p : Nat) : State :=
  let x := s.part p
  let t := (x.shifting s.fab.addr x.rs.oldList x.rs.newList).foldl (fun (t : State) u =>
    match x.placeOf x.rs.oldList u, x.placeOf x.rs.newList u with
    | some a, some b => t.pasteUnit b (t.unitImage a)
    | _, _ => t) s
  x.rs.arrived.foldl (fun (t : State) e =>
    match x.placeOf x.rs.newList e.1, s.stageAt x e.1 with
    | some b, some g => t.pasteUnit b (Tab.getRange 0 (t.field g.1).hbm g.2 e.2)
    | _, _ => t) t

/-- Steps 6 and 7: with every arriving unit staged, units move into their slots and PERMUTE_DONE goes out. -/
def State.settle (s : State) (p : Nat) : State :=
  let x := s.part p
  if x.rs.stage = 5 && x.rs.expected.all (fun u => x.rs.arrived.any (fun e => e.1 = u)) then
    (((s.settleUnits p).updPart p (fun y => { y with rs := { y.rs with stage := 6 } })).emit ((s.others x.rs.newList).map (fun a => .module_ a .permuteDone))).tryResume p
  else s

/-- A re-shard fails (R264, R266). -/
def State.failReshard (s : State) (p : Nat) (status : W16) : State :=
  s.updPart p (fun y => { y with resharding := false, rs := {}, stopStatus := if status = 0 then y.stopStatus else status })

end Sys2Proof.Machine
end

