-- ==== Sys2Proof/Machine/Cols.lean ====
section
/-! DEFINITION. Cols (R190 to R195): arrivals, deadlines, resolution, expiry and the copies in the cores. -/

namespace Sys2Proof.Machine

open Sys2Proof

/-- The cycle that a deadline word names: the smallest tick number, not below the current one, whose low 38 bits match
(R191). -/
def dlStamp (tick : BitVec 48) (w : W64) : Stamp :=
  let lo := w.toNat / 2 ^ 26
  let d := (lo + 2 ^ 38 - tick.toNat % 2 ^ 38) % 2 ^ 38
  { tick := tick + BitVec.ofNat 48 d, ofs := w.toNat % 2 ^ 26 }

/-- An arrival's deadline at a col (R192). -/
def Col.takeDl (c : Col) (d : Option Stamp) : Col :=
  match d, c.dl with
  | none, _ => c
  | some x, none => { c with dl := some x }
  | some x, some y => if x = y then c else { c with mismatch := true }

/-- Whether a col's deadline has come by a cycle. -/
def Col.due (c : Col) (now : Stamp) : Bool := match c.dl with | none => false | some d => d.le now

/-- The evaluation of an ARMED col at the end of a cycle (Table 6.6). -/
def Col.eval (c : Col) (now : Stamp) : ColSt :=
  if c.target ≤ c.count then (if c.due now then .doneLate else .done)
  else if c.due now then .expired
  else .armed

def ColSt.shown : ColSt → ColShow
  | .done => .ok
  | .doneLate => .okLate
  | .expired => .expired
  | _ => .unresolved

/-- The epoch fence col of a partition (R263). -/
def fenceCol (p : Nat) : Nat := 8176 + p

/-- Status of a re-shard whose fence col expired (R264). -/
def stFenceExpired : W16 := 0x0501#16

/-- The fence col of a re-shard resolves (R264): RESHARD sets and the epoch advances at the next partition edge, or the
re-shard fails. -/
def State.fenceResolved (s : State) (p : Nat) (st : ColSt) : State :=
  if (s.part p).rs.stage ≠ 2 then s
  else if st = .expired then s.failReshard p stFenceExpired
  else s.updPart p (fun x => { x with resharding := true, rs := { x.rs with stage := 4, advanceAt := true } })

/-- The cores that a col's resolution reaches (R194). -/
def State.colCores (s : State) (p : Nat) : List Nat := (s.sitesOf p).filter (fun k => s.site k = .enabled && s.lit (k / 32))

/-- COL_RESOLVE (R193, R194): the flit names E; EXCESS and EXPIRED are col faults of the partition. -/
def State.resolve (s : State) (k : Nat) (c : Col) (st : ColSt) : State :=
  let e := s.edgeAfter c.part 512
  let c1 := { c with st := st, excess := c.excess || decide (c.target < c.count), rearm := if st = .expired then none else some e }
  let t := { s with cols := Tab.set {} s.cols k c1, res := s.res ++ [{ col := k, status := st.shown, edge := e, todo := s.colCores c.part }] }
  let t := if st = .expired || c.target < c.count then t.report [{ part := c.part, what := .colFault k, addr := k }] else t
  if k = fenceCol c.part then t.fenceResolved c.part st else t

/-- The evaluation that follows in the same cycle. -/
def State.evalCol (s : State) (k : Nat) (c : Col) : State :=
  match c.eval s.now with
  | .armed => { s with cols := Tab.set {} s.cols k c }
  | st => s.resolve k c st

/-- COL_ARRIVAL (R192, R193): the first arrival for the col is applied. -/
def State.colArrival (s : State) (k : Nat) : State :=
  match s.arrivals.find? (fun a => a.col = k) with
  | none => s
  | some a =>
    let t := { s with arrivals := s.arrivals.erase a }
    let c := s.col k
    match c.st with
    | .armed => t.evalCol k ({ c with count := c.count + a.count }.takeDl (a.dl.map (dlStamp s.tg.tick)))
    | .done | .doneLate => { t with cols := Tab.set {} t.cols k { c with excess := true } }.report [{ part := c.part, what := .colFault k, addr := k }]
    | _ => t

/-- COL_EXPIRY (R193). -/
def State.colExpiry (s : State) (k : Nat) : State :=
  let c := s.col k
  if c.st = .armed && c.eval s.now = .expired then s.resolve k c .expired else s

/-- The deadlines of ARMED cols that have passed without their last arrival expire (R189, R193). -/
def State.expireCols (s : State) : State :=
  (s.cols.filter (fun c => c.2.st = .armed && (match c.2.dl with | none => false | some d => d.le s.now && d ≠ s.now))).foldl
    (fun (u : State) c => if (u.col c.1).st = .armed then u.resolve c.1 (u.col c.1) .expired else u) s

/-- RESOLUTION_FLIT (R194): before E the core's copy takes the status; at or after E it raises COL_STALE. -/
def State.resolutionFlit (s : State) (site k : Nat) : State :=
  match s.res.find? (fun r => r.col = k && r.todo.contains site) with
  | none => s
  | some r =>
    let r1 := { r with todo := r.todo.erase site }
    let t := { s with res := if r1.todo.isEmpty then s.res.erase r else s.res.map (fun x => if x = r then r1 else x) }
    if s.tg.tick.toNat < r.edge.toNat then
      t.setCore site { t.core site with col := Tab.upd {} (t.core site).col k (fun e => { e with show_ := r.status }) }
    else t.failCore site 0x42 k (t.core site).seq.pc

def execColArrival (k : ColIx) (s : State) : Host.Outcome State Fault Refusal := .next (s.colArrival k)
def execColExpiry (k : ColIx) (s : State) : Host.Outcome State Fault Refusal := .next (s.colExpiry k)
def execResolutionFlit (site : Site) (k : ColIx) (s : State) : Host.Outcome State Fault Refusal := .next (s.resolutionFlit site k)

end Sys2Proof.Machine
end

