-- ==== Sys2Proof/Machine/Power.lean ====
section
/-! DEFINITION. Power (chapter 10): lighting and darkening terraces (R326 to R330), regulator phases (R331), heat (R332 to
R334), sag and hold-up (R335 to R337), the imbalance halt (R347), sense points (R321), and minimum-voltage records (R322). -/

namespace Sys2Proof.Machine

open Sys2Proof

/-- Status codes of chapter 10 (Table 10.8). -/
def stTerraceFailed : W16 := 0x0602#16
def stSeqTimeout : W16 := 0x0606#16

/-- Whether a kind of long command is a TERRACE_SET that still waits for terrace t. -/
def LongKind.waitsTer (t : Nat) : LongKind → Bool
  | .terraces m _ _ => m.getLsbD t
  | _ => false

/-- A terrace named by a TERRACE_SET in flight has settled (R346): the first abort gives the command's status, and the
command completes when no named terrace is left. -/
def State.settleTer (s : State) (t : Nat) (status : W16) : State :=
  match s.long? (LongKind.waitsTer t) with
  | none => s
  | some l =>
    match l.kind with
    | .terraces m light st =>
      let m1 := m &&& ~~~(1#96 <<< t)
      let st1 := if st = 0 then status else st
      let rest := { s with fw := { s.fw with flight := s.fw.flight.map (fun x => if x = l then { l with kind := .terraces m1 light st1 } else x) } }
      if m1 = 0 then { s with fw := { s.fw with flight := s.fw.flight.erase l } }.finish l.f st1 0 0 else rest
    | _ => s

/-- The Enabled sites of a terrace. -/
def State.enabledOn (s : State) (t : Nat) : List Nat :=
  ((List.range 32).map (fun i => 32 * t + i)).filter (fun k => s.site k = .enabled)

/-! ## Pacing -/

/-- Worst-case core power of a clock point in units of 10 mW (Table 10.6). -/
def pointW (p : Nat) : Nat := [770, 617, 498, 390, 302].getD p 302

/-- The lowest VDD of a clock point in mV (Table 10.6). -/
def pointMv (p : Nat) : Nat := [700, 670, 650, 630, 620].getD p 620

/-- The change of B by lighting or darkening terrace t at the clock point in force, in 1/88 W (R340, R345). -/
def State.terDraw (s : State) (t : Nat) : Nat := (s.enabledOn t).length * pointW s.pwr.env.point

/-- The paced changes of the last 1 ms, in 1/88 W (R345): a half-open window. -/
def State.pacedSum (s : State) : Nat :=
  ((s.pwr.paced.filter (fun p => (s.tg.cyc - p.1).toNat < 1200000)).map Prod.snd).sum

/-- Whether a further change of B keeps within 2 kW in 1 ms (R345). -/
def State.paceOk (s : State) (d : Nat) : Bool := decide (s.pacedSum + d ≤ 176000)

/-- Record a paced change. -/
def State.pace (s : State) (d : Nat) : State :=
  { s with pwr := { s.pwr with paced := (s.tg.cyc, d) :: s.pwr.paced.filter (fun p => (s.tg.cyc - p.1).toNat < 1200000) } }

/-! ## Lighting -/

/-- Every sensor of a terrace and of its converter reads below WARN (R334, R346). -/
def State.coolTer (s : State) (t : Nat) : Bool :=
  (s.ter t).temp.toList.all (fun v => decide (v < s.pwr.warn)) && decide ((s.ter t).convTemp < 100)

/-- Every sensor of a transit domain and of its field converter reads below WARN (R334). -/
def State.coolTrn (s : State) (f : Nat) : Bool :=
  (s.field f).pwr.trnTemp.all (fun v => decide (v.2 < s.pwr.warn)) && decide ((s.field f).pwr.convTemp < 100)

/-- Whether the owner has asked for terrace t, by TERRACE_SET or an envelope change (R334). -/
def State.asked (s : State) (t : Nat) : Bool := s.fw.flight.any (fun l => l.kind.waitsTer t || l.kind = .envelope)

/-- Whether the transit domain of a field is ON, or comes ON with terrace t, which the owner relights after heat (R324, R334). -/
def State.trnReady (s : State) (t : Nat) : Bool :=
  let pw := (s.field (t / 2)).pwr
  pw.trn = .on || (pw.trn = .off && pw.trnHeat && s.asked t && s.coolTrn (t / 2))

/-- Conditions of R326, R334 and R345 for starting to light terrace t at this wafer tick edge. -/
def State.mayLight (s : State) (t : Nat) : Bool :=
  let x := s.ter t
  let other := s.ter (t ^^^ 1)
  x.st = .off && s.tg.ofs = 0 && s.pwr.holdupOk && decide (1080 ≤ s.pwr.vbus) && !s.pwr.alarm.getLsbD alImbalance && !s.sec.halt && !s.sec.recovery && s.lifeCycle ≠ 4 &&
    s.trnReady t && (s.field (t / 2)).pwr.mif = .on && !(s.field (t / 2)).pwr.lost &&
    other.litAt ≠ some s.tg.tick && s.paceOk (s.terDraw t) &&
    (!x.heat || (s.asked t && s.coolTer t))

/-- The transit domain comes ON again (R334). R168 has no new tables then: they are written with the next change, or at once where no
partition runs (DESIGN CHOICE, log 85). -/
def State.relightTrn (s : State) (f : Nat) : State :=
  if (s.field f).pwr.trn = .on then s
  else
    let t := s.updField f (fun x => { x with pwr := { x.pwr with trn := .on, trnHeat := false } })
    if (List.range 16).any (fun p => (s.part p).started) then t else t.loadRoutes

/-- TERRACE_LIGHT_START (R326): sub-switch 0 closes at the edge. -/
def State.lightStart (s : State) (t : Nat) : State :=
  if s.mayLight t then
    ((s.relightTrn (t / 2)).pace (s.terDraw t)).updTer t (fun x => { x with st := .switching, switches := 1, heldCyc := 0, hold := false, heat := false, litAt := some s.tg.tick, darkAt := none })
  else s

/-- SUBSWITCH_CLOSE (R326, R327). -/
def State.subswitch (s : State) (t : Nat) : State :=
  let x := s.ter t
  if x.st = .switching && !x.hold && x.switches < 64 then s.updTer t (fun x => { x with switches := x.switches + 1 }) else s

/-- The cycles held so far in a lighting. -/
def State.heldFor (s : State) (t : Nat) : Nat :=
  (s.ter t).heldCyc + (if (s.ter t).hold then (s.tg.cyc - (s.ter t).holdSince).toNat else 0)

/-- 2 ms of wafer cycles (R327). -/
def heldLimit : Nat := 2400000

/-- DROOP_HOLD (R327). -/
def State.droopHold (s : State) (t : Nat) : State :=
  let x := s.ter t
  if x.st = .switching && !x.hold && x.switches < 64 then s.updTer t (fun x => { x with hold := true, holdSince := s.tg.cyc }) else s

/-- DROOP_RESUME (R189, R327): up to the cycle that completes 2 ms; the next sub-switch closes. -/
def State.droopResume (s : State) (t : Nat) : State :=
  let x := s.ter t
  if x.st = .switching && x.hold && s.heldFor t ≤ heldLimit then
    s.updTer t (fun x => { x with hold := false, heldCyc := s.heldFor t, switches := min 64 (x.switches + 1) })
  else s

/-- DROOP_TIMEOUT (R327): the lighting is aborted. -/
def State.droopTimeout (s : State) (t : Nat) : State :=
  let x := s.ter t
  if x.st = .switching && x.hold && heldLimit ≤ s.heldFor t then
    ((s.updTer t (fun x => { x with st := .off, switches := 0, hold := false, heldCyc := s.heldFor t })).alarm alDroop).settleTer t stSeqTimeout
  else s

/-- TERRACE_READY (R326): every sub-switch is closed and the rails have been good for 1 µs. -/
def State.terraceReady (s : State) (t : Nat) : State :=
  let x := s.ter t
  if x.st = .switching && x.switches = 64 && !x.hold then s.updTer t (fun x => { x with st := .ready }) else s

/-- TERRACE_RELEASE at a wafer tick edge (R135, R326): the Enabled cores of a READY terrace zero their banks. -/
def State.releaseTer (s : State) (t : Nat) : State :=
  if (s.ter t).st ≠ .ready then s
  else
    let ks := s.enabledOn t
    (s.updCores ks (fun _ c => { c with bank := c.bank.startWake })).updTer t (fun x => { x with st := if ks.isEmpty then .lit else .zeroing })

/-- TERRACE_LIT (R326): no core of the terrace zeroes any more. -/
def State.checkLit (s : State) (t : Nat) : State :=
  if (s.ter t).st = .zeroing && (s.enabledOn t).all (fun k => !(s.core k).bank.waking) then
    ((s.updTer t (fun x => { x with st := .lit })).emit [.event 0xFF 0x26 [t]]).settleTer t 0
  else s

/-! ## Darkening -/

/-- The banks of a core whose terrace goes dark (R328, R136): contents are lost and wipes complete; ownership is CORE when
it wakes. -/
def Bank.goDark (b : Bank) : Bank :=
  { b with
    data := [], err := [], writeBack := [], own := 0, target := 0, pend := 0, late := 0, busy := 0, waking := false
    secure := (b.secure ||| b.secSet) &&& ~~~(b.secClr &&& b.wiping), secSet := 0, secClr := b.secClr &&& ~~~b.wiping, wiping := 0
    march := if b.march.running then { b.march with running := false, aborting := false, abortFail := none, aborted := true, done := true, todo := [] } else b.march }

/-- The cores of a terrace lose their state, and packets for them are discarded (R328, R329). -/
def State.darkCores (s : State) (t : Nat) : State :=
  let u := s.mapCores (fun k => k / 32 = t) (fun c => { c.discard with bank := c.bank.goDark })
  { u with mesh := u.mesh.filter (fun m => !(decide (m.kind ≤ 1) && m.dst / 32 = t)) }.endMarches

/-- The routers discard every flit that a terrace's cores sent (R329). -/
def State.dropSent (s : State) (t : Nat) : State := { s with mesh := s.mesh.filter (fun m => m.src / 32 ≠ t) }

/-- A loss of a terrace for its users (R330). -/
def State.terLoss (s : State) (t : Nat) : List FaultReport :=
  (s.usersOfTer t).map (fun p => { part := p, what := .lost, loss := .terrace t, addr := t })

/-- Immediate darkening (R329): every partition with work on the terrace faults; the state becomes OFF, or FAILED after a
phase failure. -/
def State.darkenNow (s : State) (failed : Bool) (t : Nat) : State :=
  let x := s.ter t
  let u := ((s.report (s.terLoss t)).darkCores t).dropSent t
  let u := u.updTer t (fun y => { y with st := if failed || x.st = .failed then .failed else .off, switches := 0, hold := false, darkAt := none })
  if x.st = .switching || x.st = .ready || x.st = .zeroing then u.settleTer t (if failed then stTerraceFailed else 0)
  else u.settleTer t 0

def State.darkenAll (s : State) : State := (List.range 96).foldl (fun s t => if (s.ter t).st = .off || (s.ter t).st = .failed then s else s.darkenNow false t) s

/-- Decide on an orderly darkening (R328): it begins at a wafer tick edge with the lead of R187. -/
def State.orderDark (s : State) (t : Nat) (heat : Bool) : State :=
  if (s.ter t).st = .off || (s.ter t).st = .failed || (s.ter t).st = .stopping then s
  else s.updTer t (fun x => { x with heat := x.heat || heat, darkAt := some (x.darkAt.getD (s.waferEdgeAfter msgLead)) })

/-- Order terraces to darken on firmware's own account, paced by R345: the first group goes at the first possible edge,
each further group 1 ms later. -/
def State.paceDark : List Nat → Nat → Nat → State → State
  | [], _, _, s => s
  | t :: r, sum, ofs, s =>
    let d := s.terDraw t
    let full := decide (176000 < sum + d)
    let ofs1 := if full then ofs + (999 + s.tg.period) / max 1 s.tg.period else ofs
    let u := (s.orderDark t false).updTer t (fun x => { x with darkAt := x.darkAt.map (fun e => if (s.ter t).darkAt.isSome then e else e + BitVec.ofNat 48 ofs1) })
    State.paceDark r (if full then d else sum + d) ofs1 u

/-- ORDERLY_DARKEN at its edge (R328, R330): the partitions with work on the terrace stop, and it enters STOPPING. -/
def State.beginDark (s : State) (t : Nat) : State :=
  let us := s.usersOfTer t
  let u := us.foldl State.stopPart (s.report (s.terLoss t))
  (u.darkCores t).updTer t (fun x => { x with st := .stopping, darkAt := none })

/-- The loss of a field for its users. -/
def State.fieldLoss (s : State) (f : Nat) : List FaultReport :=
  (s.usersOfField f).map (fun p => { part := p, what := .lost, loss := .field f, addr := f })

/-- A transit domain goes dark (R168, R331, R333): the partitions that use its field lose it, and those whose routes crossed it restart;
the new routes are written once they have stopped. -/
def State.transitDark (s : State) (f : Nat) (st : DomSt) : State :=
  let here := s.usersOfField f
  let across := (s.usersOfRoute (routeCrosses f)).filter (fun p => !here.contains p)
  let t := s.report (s.fieldLoss f ++ across.map (fun p => { part := p, what := .meshLink f 0, addr := f * 256 }))
  (t.updField f (fun x => { x with pwr := { x.pwr with trn := st } })).reroute (here ++ across)

/-- A transit domain that heat takes down switches OFF once both terraces are dark (R333). -/
def State.trnHeatOff (s : State) (f : Nat) : State :=
  let pw := (s.field f).pwr
  if pw.trnOffAt.isSome && pw.trn = .on && !(s.lit (2 * f)) && !(s.lit (2 * f + 1)) && (s.ter (2 * f)).st ≠ .stopping && (s.ter (2 * f + 1)).st ≠ .stopping then
    (s.updField f (fun x => { x with pwr := { x.pwr with trnOffAt := none } })).transitDark f .off
  else s

/-- TERRACE_OFF (R328): the flits have drained, the clock is gated and the sub-switches open. -/
def State.terraceOff (s : State) (t : Nat) : State :=
  if (s.ter t).st = .stopping then
    ((s.updTer t (fun x => { x with st := .off, switches := 0 })).settleTer t 0).trnHeatOff (t / 2)
  else s

/-- The bytes of the partner reserve on the stacks that are present, without that of field f (R267, R287). -/
def State.reserveBytes (s : State) (f : Nat) : Nat :=
  ((List.range 48).filter (fun i => i ≠ f && !(s.field i).pwr.lost && (s.field i).pwr.mif ≠ .failed)).length * s.fab.reserve * 2 ^ 30

/-- A field's stack contents are lost (R287). A slot takes the same part of the reserve on every stack (R286's example), so every
generation held here has lost a part: all become invalid, and the protected module is told of them and of the reserve that
remains. -/
def State.loseStack (s : State) (f : Nat) : State :=
  { s.updField f (fun x => { x with hbm := [], hbmBad := [] }) with
    fab := { s.fab with slots := s.fab.slots.map (fun h => { h with valid := false, regions := [] }) }
    out := (s.fab.slots.filter HeldSlot.valid).map (fun h => .module_ s.fab.held (.generationLoss h.part [h.id] (s.reserveBytes f))) ++ s.out }

/-! ## Phases -/

/-- Set bits in a bit vector. -/
def bvCount {w : Nat} (b : BitVec w) : Nat := ((List.range w).filter b.getLsbD).length

/-- A memory-interface domain fails (R324, R331): the stack's contents are lost, and no terrace of its field stays lit. -/
def State.mifFailed (s : State) (f : Nat) : State :=
  let v := ((s.report (s.fieldLoss f)).darkenNow false (2 * f)).darkenNow false (2 * f + 1)
  (v.loseStack f).updField f (fun x => { x with pwr := { x.pwr with mif := .failed } })

/-- Whether a phase has already failed; its failure stays latched until cold reset (R331). -/
def State.phaseLatched (s : State) : PhaseIx → Bool
  | .terVdd t i => (s.ter t).vddFail.getLsbD i
  | .terVcs t i => (s.ter t).vcsFail.getLsbD i
  | .trn f i => (s.field f).pwr.trnFail.getLsbD i
  | .mifVdd f i => (s.field f).pwr.mifVddFail.getLsbD i
  | .mifVmif f i => (s.field f).pwr.mifFail.getLsbD i
  | .link q i => (s.port q).linkFail.getLsbD i
  | .pcie q i => (s.ring q).linkFail.getLsbD i

/-- PHASE_FAIL (R331, Table 10.4): the failure is latched with its alarm; the count beyond the limit darkens the domain. -/
def State.phaseFail (s : State) (p : PhaseIx) : State :=
  if s.phaseLatched p then s else
  let s := s.alarm alPhase
  match p with
  | .terVdd t i =>
    let u := s.updTer t (fun x => { x with vddFail := x.vddFail ||| (1#48 <<< i.val) })
    if 4 < bvCount (u.ter t).vddFail then u.darkenNow true t else u
  | .terVcs t i =>
    let u := s.updTer t (fun x => { x with vcsFail := x.vcsFail ||| (1#6 <<< i.val) })
    if 2 < bvCount (u.ter t).vcsFail then u.darkenNow true t else u
  | .trn f i =>
    let u := s.updField f (fun x => { x with pwr := { x.pwr with trnFail := x.pwr.trnFail ||| (1#12 <<< i.val) } })
    if 4 < bvCount (u.field f).pwr.trnFail && (u.field f).pwr.trn ≠ .failed then
      ((u.darkenNow false (2 * f.val)).darkenNow false (2 * f.val + 1)).transitDark f .failed
    else u
  | .mifVdd f i =>
    let u := s.updField f (fun x => { x with pwr := { x.pwr with mifVddFail := x.pwr.mifVddFail ||| (1#4 <<< i.val) } })
    if 2 < bvCount (u.field f).pwr.mifVddFail && (u.field f).pwr.mif ≠ .failed then u.mifFailed f else u
  | .mifVmif f i =>
    let u := s.updField f (fun x => { x with pwr := { x.pwr with mifFail := x.pwr.mifFail ||| (1#4 <<< i.val) } })
    if 2 < bvCount (u.field f).pwr.mifFail && (u.field f).pwr.mif ≠ .failed then u.mifFailed f else u
  | .link q i =>
    let u := s.updPort q (fun x => { x with linkFail := x.linkFail ||| (1#8 <<< i.val) })
    if 2 < bvCount ((u.port q).linkFail.extractLsb' 0 4) || 2 < bvCount ((u.port q).linkFail.extractLsb' 4 4) then (u.linkLost q).updPort q (fun x => { x with link := .failed }) else u
  | .pcie q i =>
    let r := s.ring q
    let r1 := { r with linkFail := r.linkFail ||| (1#8 <<< i.val) }
    let out := 2 < bvCount (r1.linkFail.extractLsb' 0 4) || 2 < bvCount (r1.linkFail.extractLsb' 4 4)
    { s with host := { s.host with ring := vset s.host.ring q (if out then { r1 with pcie := .failed, link := false } else r1) } }

/-- SENSE_OPEN (R321). -/
def State.senseOpen (s : State) (t : Nat) : State := (s.updTer t (fun x => { x with senseFb := true })).alarm alSense

/-! ## Heat -/

/-- WARN, HOT and TRIP of a sensor (Table 10.5). -/
def State.thresholds (s : State) : Sensor → Nat × Nat × Nat
  | .terrace _ _ => (s.pwr.warn, s.pwr.hot, 115)
  | .transit _ _ => (s.pwr.warn, s.pwr.hot, 115)
  | .stack _ => (s.pwr.stkWarn, s.pwr.stkHot, 105)
  | .terConv _ => (100, 115, 125)
  | .fieldConv _ => (100, 115, 125)
  | .linkConv _ => (100, 115, 125)
  | .vale _ => (90, 100, 110)

/-- Both terraces of a field darken for heat at one edge, and the transit domain follows (R333). -/
def State.fieldHot (s : State) (f : Nat) : State :=
  if (s.field f).pwr.trn ≠ .on || (s.field f).pwr.trnOffAt.isSome then s
  else
    let u := ((s.orderDark (2 * f) true).orderDark (2 * f + 1) true).updField f (fun x =>
      { x with pwr := { x.pwr with trnHeat := true, trnOffAt := some (s.waferEdgeAfter msgLead) } })
    u.trnHeatOff f

/-- The fabric and PCIe ports that link converter i feeds: domains 192 + 3i to 194 + 3i (R323; which three is the model's). -/
def State.linkHot (s : State) (i : Nat) : State :=
  [3 * i, 3 * i + 1, 3 * i + 2].foldl (fun (s : State) d =>
    if d < 28 then s.linkLost d
    else { s with host := { s.host with ring := vset s.host.ring (d - 28) { s.ring (d - 28) with link := false } } }) s

/-- One reading (R332, R333). -/
def State.sample (s : State) (p : Sensor × Nat) : State :=
  let v := p.2
  let th := s.thresholds p.1
  let hot := decide (th.2.1 ≤ v)
  let s := if th.1 ≤ v then s.alarm alWarn else s
  match p.1 with
  | .terrace t q =>
    let u := s.updTer t (fun x => { x with temp := vset x.temp q v, hotRun := vset x.hotRun q (if hot then x.hotRun.toList.getD q 0 + 1 else 0) })
    if 3 ≤ (u.ter t).hotRun.toList.getD q 0 then (u.orderDark t true).alarm alHot else u
  | .terConv t =>
    let u := s.updTer t (fun x => { x with convTemp := v, convRun := if hot then x.convRun + 1 else 0 })
    if 3 ≤ (u.ter t).convRun then (u.orderDark t true).alarm alHot else u
  | .transit f i =>
    let u := s.updField f (fun x => { x with pwr := { x.pwr with trnTemp := Tab.set 0 x.pwr.trnTemp i v, trnHot := Tab.set 0 x.pwr.trnHot i (if hot then Tab.get 0 x.pwr.trnHot i + 1 else 0) } })
    if 3 ≤ Tab.get 0 (u.field f).pwr.trnHot i then u.fieldHot f else u
  | .fieldConv f =>
    let u := s.updField f (fun x => { x with pwr := { x.pwr with convTemp := v, convRun := if hot then x.pwr.convRun + 1 else 0 } })
    if 3 ≤ (u.field f).pwr.convRun then u.fieldHot f else u
  | .stack f => s.updField f (fun x => { x with pwr := { x.pwr with stackT := v, stackHalf := if hot then true else if v < th.1 then false else x.pwr.stackHalf } })
  | .linkConv i =>
    let u := { s with pwr := { s.pwr with linkTemp := vset s.pwr.linkTemp i v } }
    if hot then u.linkHot i else u
  | .vale i =>
    let u := { s with pwr := { s.pwr with valeTemp := if i.val = 0 then [v, s.pwr.valeTemp.getD 1 0] else [s.pwr.valeTemp.getD 0 0, v] } }
    if hot then u.alarm alHot else u

/-- THERMAL_SAMPLE: every reading of the sample; any sensor at TRIP darkens every terrace and applies the cold thermal-trip
reset (R333, R360). -/
def State.thermalSample (s : State) (rs : List (Sensor × Nat)) : State :=
  let u := rs.foldl State.sample s
  if rs.any (fun p => decide ((s.thresholds p.1).2.2 ≤ p.2)) then u.darkenAll.resetSource 3 true else u

/-! ## Sag, hold-up and imbalance -/

/-- Energy test of R335: ½·C·(V² − 8.5²) ≥ 18.9 J, C in mF and V in units of 20 mV. -/
def holdupEnough (cap vbank : Nat) : Bool := decide (cap * (vbank * vbank * 400 - 72250000) ≥ 2 * 18900 * 1000000)

/-- SAG_DECLARED (R336): every terrace darkens, every domain but the always-on one switches OFF, stacks are lost; the save
runs. Before firmware runs, the SAG reset acts at once (R360). -/
def State.sagDeclared (s : State) : State :=
  if s.rck.held.isSome then s
  else if s.rck.stage < 4 && s.rck.stage ≠ 0 then s.resetSource 2 true
  else
    let u := s.darkenAll
    let fs := u.fields.map Prod.fst
    let u := fs.foldl (fun (x : State) f => x.loseStack f) u
    let u := u.updFields fs (fun _ f => { f with pwr := { f.pwr with trn := if f.pwr.trn = .failed then .failed else .off, mif := if f.pwr.mif = .failed then .failed else .off } })
    let u := (List.range 28).foldl (fun (x : State) p => (x.linkDown p).updPort p (fun q => { q with link := if q.link = .failed then .failed else .off })) u
    { u with
      host := { u.host with ring := u.host.ring.map (fun r => { r with link := false, pcie := if r.pcie = .failed then .failed else .off }) }
      pwr := { u.pwr with sagging := true, pwrGood := false } }

/-- SAG_SHORT (R336). -/
def State.sagShort (s : State) : State :=
  let u := s.alarm alSagShort
  { u with pwr := { u.pwr with sagShort := satAdd u.pwr.sagShort 1 } }

/-- SAG_SAVE_DONE: the journal is saved and the cold SAG reset follows (R336, R360). -/
def State.sagSaveDone (s : State) : State := if s.pwr.sagging then s.resetSource 2 true else s

/-- HOLDUP_LOW (R335, R337). -/
def State.holdupLow (s : State) : State :=
  if s.pwr.holdupOk then ({ s with pwr := { s.pwr with holdupOk := false } }.alarm alHoldup).updPwrGood else s

def State.holdupRestored (s : State) : State := { s with pwr := { s.pwr with holdupOk := true } }.updPwrGood

/-- IMBALANCE_HALT (R347, R337): the currents differ by more than 25 % of a total above 200 A. -/
def State.imbalanceHalt (s : State) (ia ib : Nat) : State :=
  let u := { s with pwr := { s.pwr with pairA := ia, pairB := ib, ibus := ia + ib } }
  if 200 < ia + ib && ia + ib < 4 * (max ia ib - min ia ib) then ((u.darkenAll).alarm alImbalance).updPwrGood else u

/-- IMBALANCE_CLEAR: the owner clears IMBALANCE; it stays while the condition persists (R20, R347). -/
def State.imbalanceClear (s : State) (who : Option (Fin 3)) (balanced : Bool) : State :=
  if s.allows who && balanced then { s with pwr := { s.pwr with alarm := s.pwr.alarm &&& ~~~BitVec.ofNat 9 (2 ^ alImbalance) } }.updPwrGood else s

/-- INPUT_VOLTAGE_CHANGE (R337). -/
def State.inputVoltage (s : State) (mv : Nat) : State := { s with pwr := { s.pwr with vbus := mv / 10 } }.updPwrGood

/-- A sample of a minimum-voltage record (R322). -/
def Vmin.sample (v : Vmin) (mv : Nat) (now : Stamp) : Vmin :=
  if !v.valid || mv < v.mv then { valid := true, mv := mv, at_ := now } else v

/-- Apply a change to a minimum-voltage record (Table 10.9). -/
def State.onVmin (s : State) (r : VminIx) (g : Vmin → Vmin) : State :=
  match r with
  | .input => { s with pwr := { s.pwr with inV := g s.pwr.inV } }
  | .terVdd t => s.updTer t (fun x => { x with vdd := g x.vdd })
  | .terVcs t => s.updTer t (fun x => { x with vcs := g x.vcs })
  | .transit f => s.updField f (fun x => { x with pwr := { x.pwr with trnV := g x.pwr.trnV } })

def execTerraceLightStart (t : TerIx) (s : State) : Host.Outcome State Fault Refusal := .next (s.lightStart t)
def execSubswitchClose (t : TerIx) (s : State) : Host.Outcome State Fault Refusal := .next (s.subswitch t)
def execDroopHold (t : TerIx) (s : State) : Host.Outcome State Fault Refusal := .next (s.droopHold t)
def execDroopResume (t : TerIx) (s : State) : Host.Outcome State Fault Refusal := .next (s.droopResume t)
def execDroopTimeout (t : TerIx) (s : State) : Host.Outcome State Fault Refusal := .next (s.droopTimeout t)
def execTerraceReady (t : TerIx) (s : State) : Host.Outcome State Fault Refusal := .next (s.terraceReady t)
def execTerraceOff (t : TerIx) (s : State) : Host.Outcome State Fault Refusal := .next (s.terraceOff t)
def execPhaseFail (p : PhaseIx) (s : State) : Host.Outcome State Fault Refusal := .next (s.phaseFail p)
def execSenseOpen (t : TerIx) (s : State) : Host.Outcome State Fault Refusal := .next (s.senseOpen t)
def execThermalSample (rs : List (Sensor × Nat)) (s : State) : Host.Outcome State Fault Refusal := .next (s.thermalSample rs)
def execSagDeclared (s : State) : Host.Outcome State Fault Refusal := .next s.sagDeclared
def execSagShort (s : State) : Host.Outcome State Fault Refusal := .next s.sagShort
def execSagSaveDone (s : State) : Host.Outcome State Fault Refusal := .next s.sagSaveDone
def execHoldupLow (s : State) : Host.Outcome State Fault Refusal := .next s.holdupLow
def execHoldupRestored (s : State) : Host.Outcome State Fault Refusal := .next s.holdupRestored
def execImbalanceHalt (ia ib : W16) (s : State) : Host.Outcome State Fault Refusal := .next (s.imbalanceHalt ia.toNat ib.toNat)
def execImbalanceClear (who : Fin 3) (b : Bool) (s : State) : Host.Outcome State Fault Refusal := .next (s.imbalanceClear (some who) b)
def execInputVoltageChange (mv : Nat) (s : State) : Host.Outcome State Fault Refusal := .next (s.inputVoltage mv)

/-- RAIL_SAMPLE (R322). -/
def execRailSample (r : VminIx) (v : W16) (s : State) : Host.Outcome State Fault Refusal :=
  .next (s.onVmin r (fun m => m.sample v.toNat s.now))

/-- VMIN_RESTART (R350): writing 1 to VALID restarts the record. -/
def execVminRestart (who : Option (Fin 3)) (r : VminIx) (s : State) : Host.Outcome State Fault Refusal :=
  .next (if s.allows who then s.onVmin r (fun _ => {}) else s)

end Sys2Proof.Machine
end

