-- ==== Sys2Proof/Machine/Clock.lean ====
section
/-! DEFINITION. Module time (R183 to R188): wafer cycles and idle counting (R100, R259), tick edges with everything that
falls on them (R107 to R112, R185, R195, R264, R277, R304, R305, R326, R328), and tick messages (R187). -/

namespace Sys2Proof.Machine

open Sys2Proof

/-! ## Cycles -/

/-- The array executes: a row is in its pipeline or a drain is under way. -/
def Core.arrayWorks (c : Core) : Bool := !c.arr.pend.isEmpty || c.arr.groups.toList.any (fun g => !g.drains.isEmpty)

/-- The cause under which a unit's oldest waiting instruction waits, the rows of Table 3.8 in their order: a TLOAD or PASS
(weights, input), a bank conflict of the feed, a load or a store, a send without credit. -/
def Core.unitCause (c : Core) : Option Nat :=
  let a := c.arr.q.head?.bind QArr.why
  let v := c.vq.head?.bind QVec.why
  if a = some 2 then some 2
  else if a = some 0 then some 0
  else if a = some 5 || v = some 5 then some 5
  else if (c.net.head?.map NetOp.noCredit).getD false then some 6
  else none

/-- The sequencer issues nothing: it waits in an instruction, behind a full queue, or for END to retire. -/
def Core.issuesNothing (c : Core) : Bool := c.seq.st = .waiting || c.seq.full || c.seq.endIssued

/-- The cause of an idle cycle of a core (R100, Table 3.8), or none when it is busy, stopped or faulted. An instruction
that waits in a unit is older than the one at which the sequencer waits. -/
def Core.idleCause (c : Core) : Option (Fin 8) :=
  match c.seq.st with
  | .held => some (if c.seq.wcause = 7 then 7 else 0)
  | .ended => some 4
  | .stopped | .faulted => none
  | _ =>
    if !c.issuesNothing || c.arrayWorks then none
    else match c.unitCause with
      | some k => some (Fin.ofNat 8 k)
      | none => if c.seq.st = .waiting then some (Fin.ofNat 8 c.seq.wcause) else none

/-- STATE of COR_SEQ_STAT (R115): a core that runs shows 2 in an idle cycle. -/
def Core.stateCode (c : Core) : Nat :=
  match c.seq.st with
  | .stopped => 0
  | .ended => 3
  | .held => 4
  | .faulted => 5
  | _ => if c.idleCause.isSome then 2 else 1

/-- WCAUSE of COR_SEQ_STAT (R115): the cause of the idle cycle. Where STATE is 0, 1 or 5, and it is not valid, it shows the
last cause of a wait (DESIGN CHOICE, log 67). -/
def Core.wcauseCode (c : Core) : Nat :=
  match c.idleCause with
  | some k => k
  | none => c.seq.wcause

/-- COR_RUN counts while STATE is 1 to 4 (R259). -/
def Core.counts (c : Core) : Bool :=
  match c.seq.st with
  | .running | .waiting | .ended | .held => true
  | _ => false

/-- Count n cycles of a core. -/
def Core.tickIdle (n : Nat) (c : Core) : Core :=
  let i := match c.idleCause with
    | some k => c.idle.idle.set k (c.idle.idle[k] + BitVec.ofNat 64 n)
    | none => c.idle.idle
  if c.counts then { c with idle := { c.idle with idle := i, run := c.idle.run + BitVec.ofNat 64 n } } else c

/-- Pass n wafer cycles within a tick: the cores count the core cycles that begin in them (R186); a partition's running
time counts while it is started and not held for a snapshot (R292). -/
def State.passCycles (s : State) (n : Nat) : State :=
  { s with
    cores := Tab.mapV {} s.cores (fun _ c => c.tickIdle (s.div.cycles n))
    div := s.div.pass n
    parts := s.parts.map (fun x => if x.started && !(x.hold.contains .snapshot && x.begun.isEmpty) then
      { x with snap := { x.snap with runCyc := x.snap.runCyc + BitVec.ofNat 64 n } } else x)
    tg := { s.tg with ofs := s.tg.ofs + n, cyc := s.tg.cyc + BitVec.ofNat 64 n } }

/-! ## Runs -/

/-- Start a run at a partition tick edge (R108). -/
def Core.startRun (c : Core) (entry rep : Nat) : Core :=
  let e := c.sched.getD entry {}
  { c with seq := { c.seq with st := .running, wcause := 0, entry := entry, rep := rep, pc := e.addr, spanLeft := e.span, endIssued := false } }

/-- Hold at a step's first tick edge (R111): the idle cause is snapshot stop, or input. -/
def Core.holdAt (c : Core) (entry : Nat) (snap : Bool) : Core :=
  { c with seq := { c.seq with st := .held, wcause := if snap then 7 else 0, entry := entry, rep := 0, endIssued := false } }

/-- What a core does at a partition tick edge (R107 to R111): carry on, fault with TICK_OVERRUN, or take the run (entry,
repeat) that is due. -/
inductive EdgeAct where
  | none
  | overrun
  | due (entry rep : Nat)
  deriving DecidableEq, Repr

/-- The run that follows the present one (R107). -/
def Core.nextRun (c : Core) : Nat × Nat :=
  let e := c.sched.getD c.seq.entry {}
  if c.seq.rep + 1 < e.rep then (c.seq.entry, c.seq.rep + 1)
  else if e.last then (0, 0) else (c.seq.entry + 1, 0)

def Core.edgeAct (c : Core) : EdgeAct :=
  match c.seq.st with
  | .held => .due c.seq.entry 0
  | .running | .waiting => if c.seq.spanLeft ≤ 1 then .overrun else .none
  | .ended => if c.seq.spanLeft ≤ 1 then .due c.nextRun.1 c.nextRun.2 else .none
  | _ => .none

/-- The run that is due begins a step (R107). -/
def Core.stepDue (c : Core) : Bool :=
  match c.edgeAct with
  | .due e r => r = 0 && (c.sched.getD e {}).stepFirst
  | _ => false

/-- DETAIL of TICK_OVERRUN (Table 3.11): STATE and WCAUSE at the edge; WCAUSE beside STATE 1, where it is not valid, as in
`Core.wcauseCode`. -/
def Core.overrunDetail (c : Core) : Nat := c.stateCode + 16 * c.wcauseCode

/-- A core's edge (R107 to R111): `hold` keeps a step from beginning. -/
def Core.atEdge (c : Core) (hold snap : Bool) (now : Stamp) : Core :=
  match c.edgeAct with
  | .none => { c with seq := { c.seq with spanLeft := c.seq.spanLeft - 1 } }
  | .overrun => c.fail 0xF0 c.overrunDetail c.seq.pc now
  | .due e r =>
    if r = 0 && (c.sched.getD e {}).stepFirst then
      (if hold || c.held then c.holdAt e snap else { c.startRun e r with rnd := { c.rnd with ctr := 0 } })
    else c.startRun e r

/-- The digest at a partition tick edge (R304). -/
def Core.latchDigest (c : Core) : Core := { c with tdig := c.digest, digest := 0 }

/-! ## Partitions -/

/-- The cores of the placement in force, by logical core. -/
def State.placed (s : State) (p : Nat) : List (Nat × Nat) := (s.part p).coreSites (s.part p).placement

/-- Every data shard of step n is in HBM (R30, R245): a plan without an intake list never holds. -/
def Part.shardsIn (x : Part) (n : W64) : Bool :=
  match x.plan.bind Plan.intake with
  | none => true
  | some it => (List.range it.shards).all (fun i => x.intake.landed.contains (n, i))

/-- Firmware writes the step seed and the stream to every core of the partition (R64, R65). A core to which the plan assigns
no logical index gets stream 0, of which the spec says nothing (DESIGN CHOICE, log 76). -/
def State.writeSeeds (s : State) (p : Nat) (n : W64) : State :=
  let seed := stepSeed (s.part p).seed n
  let at_ := s.placed p
  s.updCores (s.sitesOf p) (fun k c => { c with rnd := { c.rnd with seed := seed, stream := BitVec.ofNat 32 (((at_.find? (fun x => x.2 = k)).map Prod.fst).getD 0) } })

/-- The audit counters of a partition's watershed slots start at 0 at a step's first tick edge (R159), and its micro-batches
are numbered afresh. -/
def State.startWs (s : State) (p : Nat) : State :=
  { s with fields := Tab.mapV {} s.fields (fun _ f => { f with ws := f.ws.map (fun w => if w.en && w.part = p then { w with ctr := 0, batches := [], formed := [] } else w) }) }

/-- The bytes of a partition's ACT regions on a field take open values, from draw `n` on. -/
def Field.openActs (p n : Nat) (f : Field) : Field :=
  (f.regions.filter (fun r => r.2.en && r.2.part = p && r.2.kind = 2)).foldl (fun (g : Field) r =>
    { g with hbm := Tab.setRange 0 g.hbm (64 * r.2.base) ((List.range r.2.bytes).map (fun i => (Config.freeValue (n + i)).setWidth 8)) }) f

/-- The contents of ACT regions are undefined at the start of a step (R213): free values, of one draw for every byte of the
largest region. -/
def State.openActs (s : State) (p : Nat) : State :=
  let most := (s.fields.flatMap (fun f => (f.2.regions.filter (fun r => r.2.en && r.2.part = p && r.2.kind = 2)).map (fun r => r.2.bytes))).foldl max 0
  if most = 0 then s else { s with freeCtr := s.freeCtr + most, fields := Tab.mapV {} s.fields (fun _ f => f.openActs p s.freeCtr) }

/-- A retrace has replayed its last step (R310): no further step begins. -/
def Part.replayOver (x : Part) : Bool := x.replay.any (fun r => decide (r.last.toNat < x.nextStep.toNat))

/-- A step begins (R28, R30, R65, R213). -/
def State.beginStep (s : State) (p : Nat) : State :=
  let x := s.part p
  (((s.openActs p).writeSeeds p x.nextStep).startWs p).updPart p (fun x => { x with
    nextStep := x.nextStep + 1, stepOpen := true, begun := x.begun ++ [{ step := x.nextStep, tick := s.tg.tick, cyc := s.tg.cyc }],
    hold := x.hold.filter (· ≠ .input), replay := x.replay.map (fun r => { r with begun := (x.nextStep, s.tg.tick) :: r.begun }) })

/-- Mark the cols of a partition in its cores' copies and arm them (R190, R194). -/
def State.armCols (s : State) (p : Nat) : State :=
  let mine := (s.cols.filter (fun c => c.2.en && c.2.part = p)).map Prod.fst
  let ks := (s.sitesOf p).filter (fun k => s.site k = .enabled && s.lit (k / 32))
  let copy : Tab ColCopy := mine.map (fun c => (c, { own := true }))
  { s.updCores ks (fun _ c => { c with col := copy }) with
    cols := s.cols.map (fun c => if c.2.en && c.2.part = p then (c.1, { c.2.toIdle with st := .armed }) else c) }

/-- What starting a plan afresh sets (R164, R225, R246, R260, R292): epoch, intake position, powers and watershed states, the
observed MTBF. -/
def State.freshStart (s : State) (p : Nat) : State :=
  let t := s.updPart p (fun x => { x with epoch := 0, intake := {}, fresh := false, snap := { x.snap with
    mtbfMs := 1000 * x.snap.policy.m0, runCyc := 0, lastRecCyc := 0, stepCyc := [], since := 0 } })
  t.updFields (s.regionFields p) (fun _ f => { f with
    ws := f.ws.map (fun w => if w.en && w.part = p then { w with run := 0, fallback := false, remain := 0, ctr := 0, batches := [], formed := [] } else w)
    upe := { f.upe with powers := f.upe.powers.filter (fun r => !(f.regions.any (fun g => g.2.en && g.2.part = p && g.2.rule = r.1))) } })

/-- M ← M + (x − M) × 2^−k with x the running time since the last such recovery (R292). -/
def SnapState.updateMtbf (y : SnapState) : SnapState :=
  let x : Int := ((y.runCyc - y.lastRecCyc).toNat / 1200000 : Nat)
  let m : Int := y.mtbfMs
  { y with mtbfMs := (m + (x - m) / (2 ^ y.policy.k : Nat)).toNat, lastRecCyc := y.runCyc }

/-- A recovery ends at the first tick edge of the restarted step (R298, R317), and with it RECOVER; the job has restarted from
a snapshot, which moves M (R292). Path 8 marks a re-base, which is no recovery. -/
def State.endRecovery (s : State) (p : Nat) : State :=
  let x := s.part p
  let ms := (s.tg.cyc - x.rcv.startCyc).toNat / 1200000
  let t := if x.rcv.active then
      s.updPart p (fun y => { y with
        rcv := {}, restartWanted := false, ready := []
        snap := if y.rcv.path = 8 then { y.snap with phase := .idle } else
          { y.snap.updateMtbf with phase := .idle, rcvValid := true, rcvPath := y.rcv.path, rcvSource := y.rcv.source, rcvMs := min ms 131071, rcvCount := satAdd y.snap.rcvCount 1 } })
    else s.updPart p (fun y => { y with rcv := {}, restartWanted := false, ready := [] })
  (t.endLong (fun k => k = .recover p) 0 0 0).endLong (fun k => k = .rebase p) 0 0 0

/-- PARTITION_START at the named edge (R98, R108, R128, R190): cores of the placement stand before entry 0. -/
def State.startPart (s : State) (p : Nat) : State :=
  let x := s.part p
  let k := (x.plan.map Plan.mult).getD 1
  let t := if x.fresh then s.freshStart p else s
  let t := t.updPart p (fun x => { x with started := true, startAt := none, edgeIn := k, stopStatus := 0, nextStep := x.step, quorumLost := false, rejoin := [], hold := if x.rs.stage = 1 then [.reshard] else [] })
  let t := t.updCores ((t.placed p).map Prod.snd) (fun _ c => { c.discard with seq := { st := .held, mult := k } })
  ((t.armCols p).endRecovery p).endLong (fun k => k = .planStart p) 0 ((s.tg.tick).setWidth 64) 0

/-- The newest ticks whose entries fit. -/
def trimLog : Nat → List LogTick → List LogTick
  | _, [] => []
  | room, t :: r => if t.digests.length ≤ room then t :: trimLog (room - t.digests.length) r else []

/-- Append one tick to a partition's digest log, one entry for each logical core in their order, oldest ticks dropped beyond 256 GiB
(R305). -/
def State.logDigests (s : State) (p : Nat) : State :=
  let ds : Tab W64 := (s.placed p).foldl (fun t x => t.ins x.1 (s.core x.2).tdig) []
  { s with fw := { s.fw with log := trimLog (2 ^ 35) ({ part := p, tick := s.tg.tick, digests := ds } :: s.fw.log) } }

/-- E ← E + 1 at the edge that the re-shard names, and the units leave (R264). -/
def State.epochEdge (s : State) (p : Nat) : State :=
  if (s.part p).rs.advanceAt then
    ((s.updPart p (fun x => { x with epoch := x.epoch + 1, rs := { x.rs with advanceAt := false, stage := 5 } })).sendUnits p).settle p
  else s

/-- The overruns of a partition's cores at its edge, as reports (R110). -/
def State.overruns (s : State) (p : Nat) : List FaultReport :=
  ((s.placed p).filter (fun x => (s.core x.2).edgeAct = .overrun)).map (fun x => { part := p, what := .core 0xF0#8 x.2, addr := x.2 })

/-- A partition tick edge (R107 to R111, R264, R304, R305): lifts take effect, a step that is due begins when its shards
are in and nothing holds it, and every core takes its edge. -/
def State.partEdge (s : State) (p : Nat) : State :=
  let s := s.updPart p (fun x => { x with edgeIn := (x.plan.map Plan.mult).getD 1, hold := x.hold.filter (fun h => !x.lift.contains h), lift := [] })
  let s := s.epochEdge p
  let ks := (s.placed p).map Prod.snd
  let x := s.part p
  let due := ks.any (fun k => (s.core k).stepDue)
  let free := (x.hold.filter (· ≠ .input)).isEmpty && !x.replayOver && x.shardsIn x.nextStep && !ks.any (fun k => (s.core k).held)
  let rs := s.overruns p
  let t := if due && free then s.beginStep p
    else if due && !x.hold.contains .input && !x.shardsIn x.nextStep then s.updPart p (fun x => { x with hold := .input :: x.hold }) else s
  let t := t.updCores ks (fun _ c => c.atEdge (!free) (x.hold.contains .snapshot) s.coreEdge)
  let t := t.mapCores (fun k => x.terraces.getLsbD (k / 32)) Core.latchDigest
  (t.logDigests p).report rs

/-- The edge of partition p (R108, R110, R277): a stop discards the run whose window closes, a start begins, or an edge of
its multiple falls. -/
def State.edgeOf (s : State) (p : Nat) : State :=
  let x := s.part p
  if x.stopAt = some s.tg.tick then
    let t := if x.started then ((s.mapCores (fun k => x.terraces.getLsbD (k / 32)) Core.latchDigest).logDigests p) else s
    (t.stopPart p).rerouted p
  else if x.startAt = some s.tg.tick && !x.started then ((s.startPart p).partEdge p).updPart p (fun y => { y with edgeIn := (y.plan.map Plan.mult).getD 1 })
  else if !x.started then s
  else if x.edgeIn ≤ 1 then s.partEdge p
  else s.updPart p (fun y => { y with edgeIn := y.edgeIn - 1 })

/-! ## Cols -/

/-- COL_REARM at edge E (R195): the col, and the copy entry that E names in every core. -/
def State.rearmCols (s : State) : State :=
  let due := (s.cols.filter (fun c => c.2.rearm = some s.tg.tick)).map Prod.fst
  if due.isEmpty then s
  else
    { s with
      cols := s.cols.map (fun c => if c.2.rearm = some s.tg.tick then (c.1, { c.2.toIdle with st := .armed }) else c)
      cores := Tab.mapV {} s.cores (fun _ c => { c with col := c.col.map (fun e => if due.contains e.1 then (e.1, { e.2 with show_ := .unresolved }) else e) }) }

/-! ## Tick agreement -/

/-- The field's own tick number, of which the spec says only that its low 8 bits differ from the module's. -/
def State.fieldTick (s : State) : Nat :=
  let d := s.draw.toNat % 2 ^ 32
  if d % 256 = s.tg.tick.toNat % 256 then d / 256 * 256 + (d % 256 + 1) % 256 else d

/-- A field whose own count differs (R185): TICK_LOST in every core of the field, in the cycle after the edge's. -/
def State.fieldTickLost (s : State) (f : Nat) : State :=
  let d := s.fieldTick
  let ks := ((List.range 64).map (fun i => 64 * f + i)).filter (fun k => s.site k = .enabled && s.lit (k / 32))
  let t := s.updCores ks (fun _ c => c.fail 0x44 d c.seq.pc s.coreAfterEdge)
  let us := (List.range 16).filter (fun p => (s.part p).started && (s.fieldsOf p).contains f)
  { t.report (us.map (fun p => { part := p, what := .tickLost f, addr := f })) with
    freeCtr := s.freeCtr + 1
    tg := { t.tg with lost := true, lostField := if t.tg.lost then t.tg.lostField else f } }

/-! ## Tick messages -/

/-- What a core's own tick messages do at their edge (R187). -/
def Core.runMsgs (tick : BitVec 48) (c : Core) : Core :=
  let due := (c.msgs.filter (fun m => m.2 = tick)).map Prod.fst
  let c1 := { c with msgs := c.msgs.filter (fun m => m.2 ≠ tick) }
  if due.contains .stop then c1.discard
  else { c1 with held := (c1.held || due.contains .hold) && !due.contains .lift }

/-- The tick multiple K of the plan of a site's partition (R108). -/
def State.multOf (s : State) (k : Nat) : Nat := ((s.partOfSite k).bind (fun p => (s.part p).plan.map Plan.mult)).getD 0

/-- A start message takes effect at its edge at a core that stands stopped with a schedule. -/
def Core.startMsg (tick : BitVec 48) (mult : Nat) (c : Core) : Core :=
  if c.msgs.contains (.start, tick) && c.seq.st = .stopped && !c.sched.isEmpty then
    { ({ c with seq := { c.seq with mult := mult } } : Core).startRun 0 0 with win := c.win.map (fun w => { w with head := 0, tail := 0 }), sem := Vector.replicate 64 0 }
  else c

/-- TICK_MESSAGE (R187): received at or after its edge it raises TICK_MSG_LATE; else it waits for its edge. -/
def State.tickMessage (s : State) (k : Nat) (m : TickMsg) (edge : BitVec 48) : State :=
  if edge.toNat ≤ s.tg.tick.toNat then s.failCore k 0x43 (edge.toNat % 2 ^ 32) (s.core k).seq.pc
  else s.setCore k { s.core k with msgs := (s.core k).msgs ++ [(m, edge)] }

/-! ## Telemetry -/

/-- The cores that a TELEMETRY window sums (R400): the partition's, or every core. -/
def State.teleCores (s : State) (part : Nat) : List Nat := if part = 0xFF then s.cores.map Prod.fst else s.sitesOf part

def Core.latchTele (c : Core) : TeleLatch :=
  { idle := c.idle.idle.toList, run := c.idle.run, events := c.chk.events, skips := c.chk.skips, blocks := c.chk.blocks }

/-- The edges of a window: each counter is latched as it stands before the edge cycle's own events (R400). -/
def State.openTele (s : State) : State :=
  let cores := fun (w : TeleWin) => (s.teleCores w.part).map (fun k => (k, (s.core k).latchTele))
  let fab := s.fab.ports.toList.map (fun q => (q.crc, q.replay))
  { s with fw := { s.fw with flight := s.fw.flight.map (fun l =>
    match l.kind with
    | .telemetry w =>
      if !w.opened && w.start = s.tg.tick then
        { l with kind := .telemetry { w with opened := true, cores := cores w, fab := fab } }
      else if w.opened && !w.closed && w.start + BitVec.ofNat 48 w.len = s.tg.tick then
        { l with kind := .telemetry { w with closed := true, endCores := cores w, endFab := fab } }
      else l
    | _ => l) } }

/-! ## The tick edge -/

/-- The edge's own cycle: the tick number increases and a new period takes effect (R184). -/
def State.newTick (s : State) : State :=
  { s with tg := { s.tg with tick := s.tg.tick + 1, ofs := 0, period := s.tg.nextPeriod.getD s.tg.period, nextPeriod := none } }

/-- TERRACE_RELEASE and ORDERLY_DARKEN at an edge (R326, R328). -/
def State.terEdge (s : State) : State :=
  let hot := (List.range 96).filter (fun t => (s.ter t).st = .ready || (s.ter t).darkAt = some s.tg.tick)
  hot.foldl (fun (u : State) t => if (u.ter t).darkAt = some s.tg.tick then u.beginDark t else u.releaseTer t) s

/-- Everything that falls on a tick edge. -/
def State.edge (s : State) (disagree : List Nat) : State :=
  let t := s.newTick.expireCols.openTele
  let t := t.rearmCols
  let t := { t with cores := Tab.mapV {} t.cores (fun k c => (c.startMsg t.tg.tick (t.multOf k)).runMsgs t.tg.tick) }
  let t := (List.range 16).foldl State.edgeOf t
  let t := t.terEdge
  disagree.foldl State.fieldTickLost t

/-- TICK_EDGE: the cycles left in the tick pass, and the edge falls (R184). Nothing happens while the generator stands. -/
def State.tickEdge (s : State) (disagree : List Nat) : State :=
  if s.tg.running && s.tg.period ≠ 0 then (s.passCycles s.toEdge).edge disagree else s

/-- The step of an empty queue: one wafer cycle (DESIGN CHOICE; log entry 4). -/
def State.idleCycle (s : State) : State :=
  if !s.tg.running || s.tg.period = 0 then s
  else if s.toEdge ≤ 1 then (s.passCycles 1).edge []
  else (s.passCycles 1).expireCols

def execTickEdge (disagree : List FieldIx) (s : State) : Host.Outcome State Fault Refusal := .next (s.tickEdge (disagree.map Fin.val))
def execTickMessage (k : Site) (m : TickMsg) (edge : BitVec 48) (s : State) : Host.Outcome State Fault Refusal := .next (s.tickMessage k m edge)

end Sys2Proof.Machine
end

