-- ==== Sys2Proof/Machine/Crypto.lean ====
section
/-! DEFINITION. SHA-384 and the verification of an ECDSA P-384 signature (Table 0.7, R407, R410): the published
standards that the manual names. -/

namespace Sys2Proof.Machine

open Sys2Proof

/-- The round constants of SHA-384, in parts. -/
def shaK0 : List W64 :=
  [0x428A2F98D728AE22#64, 0x7137449123EF65CD#64, 0xB5C0FBCFEC4D3B2F#64, 0xE9B5DBA58189DBBC#64,
   0x3956C25BF348B538#64, 0x59F111F1B605D019#64, 0x923F82A4AF194F9B#64, 0xAB1C5ED5DA6D8118#64,
   0xD807AA98A3030242#64, 0x12835B0145706FBE#64, 0x243185BE4EE4B28C#64, 0x550C7DC3D5FFB4E2#64,
   0x72BE5D74F27B896F#64, 0x80DEB1FE3B1696B1#64, 0x9BDC06A725C71235#64, 0xC19BF174CF692694#64,
   0xE49B69C19EF14AD2#64, 0xEFBE4786384F25E3#64, 0x0FC19DC68B8CD5B5#64, 0x240CA1CC77AC9C65#64]
def shaK1 : List W64 :=
  [0x2DE92C6F592B0275#64, 0x4A7484AA6EA6E483#64, 0x5CB0A9DCBD41FBD4#64, 0x76F988DA831153B5#64,
   0x983E5152EE66DFAB#64, 0xA831C66D2DB43210#64, 0xB00327C898FB213F#64, 0xBF597FC7BEEF0EE4#64,
   0xC6E00BF33DA88FC2#64, 0xD5A79147930AA725#64, 0x06CA6351E003826F#64, 0x142929670A0E6E70#64,
   0x27B70A8546D22FFC#64, 0x2E1B21385C26C926#64, 0x4D2C6DFC5AC42AED#64, 0x53380D139D95B3DF#64,
   0x650A73548BAF63DE#64, 0x766A0ABB3C77B2A8#64, 0x81C2C92E47EDAEE6#64, 0x92722C851482353B#64]
def shaK2 : List W64 :=
  [0xA2BFE8A14CF10364#64, 0xA81A664BBC423001#64, 0xC24B8B70D0F89791#64, 0xC76C51A30654BE30#64,
   0xD192E819D6EF5218#64, 0xD69906245565A910#64, 0xF40E35855771202A#64, 0x106AA07032BBD1B8#64,
   0x19A4C116B8D2D0C8#64, 0x1E376C085141AB53#64, 0x2748774CDF8EEB99#64, 0x34B0BCB5E19B48A8#64,
   0x391C0CB3C5C95A63#64, 0x4ED8AA4AE3418ACB#64, 0x5B9CCA4F7763E373#64, 0x682E6FF3D6B2B8A3#64,
   0x748F82EE5DEFB2FC#64, 0x78A5636F43172F60#64, 0x84C87814A1F0AB72#64, 0x8CC702081A6439EC#64]
def shaK3 : List W64 :=
  [0x90BEFFFA23631E28#64, 0xA4506CEBDE82BDE9#64, 0xBEF9A3F7B2C67915#64, 0xC67178F2E372532B#64,
   0xCA273ECEEA26619C#64, 0xD186B8C721C0C207#64, 0xEADA7DD6CDE0EB1E#64, 0xF57D4F7FEE6ED178#64,
   0x06F067AA72176FBA#64, 0x0A637DC5A2C898A6#64, 0x113F9804BEF90DAE#64, 0x1B710B35131C471B#64,
   0x28DB77F523047D84#64, 0x32CAAB7B40C72493#64, 0x3C9EBE0A15C9BEBC#64, 0x431D67C49C100D4C#64,
   0x4CC5D4BECB3E42B6#64, 0x597F299CFC657E2A#64, 0x5FCB6FAB3AD6FAEC#64, 0x6C44198C4A475817#64]
def shaK : List W64 := shaK0 ++ shaK1 ++ shaK2 ++ shaK3

/-- The initial hash value of SHA-384. -/
def shaH : List W64 :=
  [0xCBBB9D5DC1059ED8#64, 0x629A292A367CD507#64, 0x9159015A3070DD17#64, 0x152FECD8F70E5939#64,
   0x67332667FFC00B31#64, 0x8EB44A8768581511#64, 0xDB0C2E0D64F98FA7#64, 0x47B5481DBEFA4FA4#64]

def rotr64 (x : W64) (n : Nat) : W64 := (x >>> n) ||| (x <<< (64 - n))

/-- The next word of the message schedule from the last 16, oldest first. -/
def shaNext (w : List W64) : W64 :=
  let a := w.getD 14 0
  let b := w.getD 1 0
  (rotr64 a 19 ^^^ rotr64 a 61 ^^^ (a >>> 6)) + w.getD 9 0 + (rotr64 b 1 ^^^ rotr64 b 8 ^^^ (b >>> 7)) + w.headD 0

/-- One round on the working variables a to h. -/
def shaRound (v : List W64) (k w : W64) : List W64 :=
  match v with
  | [a, b, c, d, e, f, g, h] =>
    let t1 := h + (rotr64 e 14 ^^^ rotr64 e 18 ^^^ rotr64 e 41) + ((e &&& f) ^^^ (~~~e &&& g)) + k + w
    let t2 := (rotr64 a 28 ^^^ rotr64 a 34 ^^^ rotr64 a 39) + ((a &&& b) ^^^ (a &&& c) ^^^ (b &&& c))
    [t1 + t2, a, b, c, d + t1, e, f, g]
  | x => x

/-- The rounds of a block: `w` holds the next 16 words of the schedule. -/
def shaRounds : List W64 → List W64 → List W64 → List W64
  | [], _, v => v
  | k :: ks, w, v => shaRounds ks (w.drop 1 ++ [shaNext w]) (shaRound v k (w.headD 0))

/-- A number from bytes, big-endian. -/
def natBE (bs : List Byte) : Nat := bs.foldl (fun n b => 256 * n + b.toNat) 0
def bytesBE (v n : Nat) : List Byte := (bytesLE v n).reverse

/-- The 16 words of a 128-byte block. -/
def shaWords : Nat → List Byte → List W64
  | 0, _ => []
  | n + 1, bs => BitVec.ofNat 64 (natBE (bs.take 8)) :: shaWords n (bs.drop 8)

def shaBlock (h : List W64) (blk : List Byte) : List W64 := (h.zip (shaRounds shaK (shaWords 16 blk) h)).map (fun p => p.1 + p.2)

def shaBlocks : Nat → List W64 → List Byte → List W64
  | 0, h, _ => h
  | n + 1, h, bs => shaBlocks n (shaBlock h (bs.take 128)) (bs.drop 128)

/-- SHA-384 of bytes, as a number whose most significant byte comes first. -/
def sha384 (bs : List Byte) : Nat :=
  let n := bs.length
  let zeros := (239 - n % 128) % 128
  let m := bs ++ [0x80#8] ++ List.replicate zeros 0#8 ++ bytesBE (8 * n) 16
  ((shaBlocks (m.length / 128) shaH m).take 6).foldl (fun a w => a * 2 ^ 64 + w.toNat) 0

/-! ## P-384 -/

def p384 : Nat := 2 ^ 384 - 2 ^ 128 - 2 ^ 96 + 2 ^ 32 - 1
def n384 : Nat := 0xFFFFFFFFFFFFFFFFFFFFFFFFFFFFFFFFFFFFFFFFFFFFFFFFC7634D81F4372DDF581A0DB248B0A77AECEC196ACCC52973
def b384 : Nat := 0xB3312FA7E23EE7E4988E056BE3F82D19181D9C6EFE8141120314088F5013875AC656398D8A2ED19D2A85C8EDD3EC2AEF
def gx384 : Nat := 0xAA87CA22BE8B05378EB1C71EF320AD746E1D3B628BA79B9859F741E082542A385502F25DBF55296C3A545E3872760AB7
def gy384 : Nat := 0x3617DE4A96262C6F5D9E98BF9292DC29F8F41DBD289A147CE9DA3113B5F0B8C00A60B1CE1D7E819D7A431D7C90EA0E5F

/-- x^e mod m, from the low bit of the exponent up; `fuel` bounds the bits. -/
def powMod : Nat → Nat → Nat → Nat → Nat
  | 0, _, _, _ => 1
  | f + 1, x, e, m => if e = 0 then 1 % m else (if e % 2 = 1 then x else 1) * powMod f (x * x % m) (e / 2) m % m

/-- The inverse modulo a prime. -/
def invMod (x m : Nat) : Nat := powMod 385 (x % m) (m - 2) m

/-- A point is on P-384 (R407): y² = x³ − 3x + b. -/
def onCurve (x y : Nat) : Bool :=
  decide (x < p384) && decide (y < p384) && decide (y * y % p384 = (x * x * x + (p384 - 3) * x + b384) % p384)

/-- Arithmetic modulo the field prime. -/
def mulP (a b : Nat) : Nat := a * b % p384
def subP (a b : Nat) : Nat := (a + p384 - b) % p384

/-- A point (X, Y, Z) stands for (X / Z², Y / Z³); Z = 0 is the point at infinity. -/
abbrev Pt := Nat × Nat × Nat

def ptZero : Pt := (1, 1, 0)

def ptDouble (a : Pt) : Pt :=
  match a with
  | (x, y, z) =>
    let yy := mulP y y
    let q := mulP (4 * x) yy
    let zz := mulP z z
    let m := mulP 3 (subP (mulP x x) (mulP zz zz))
    let x3 := subP (mulP m m) (2 * q % p384)
    (x3, subP (mulP m (subP q x3)) (mulP 8 (mulP yy yy)), mulP (2 * y) z)

/-- Point addition. -/
def ptAdd (a b : Pt) : Pt :=
  match a, b with
  | (x1, y1, z1), (x2, y2, z2) =>
    if z1 = 0 then (x2, y2, z2)
    else if z2 = 0 then (x1, y1, z1)
    else
      let u := mulP x1 (mulP z2 z2)
      let v := mulP y1 (mulP z2 (mulP z2 z2))
      let h := subP (mulP x2 (mulP z1 z1)) u
      let r := subP (mulP y2 (mulP z1 (mulP z1 z1))) v
      if h = 0 then (if r = 0 then ptDouble (x1, y1, z1) else ptZero)
      else
        let hh := mulP h h
        let c := mulP h hh
        let w := mulP u hh
        let x3 := subP (subP (mulP r r) c) (2 * w % p384)
        (x3, subP (mulP r (subP w x3)) (mulP v c), mulP h (mulP z1 z2))

/-- k × P, from the low bit up. -/
def ptMul : Nat → Nat → Pt → Pt
  | 0, _, _ => ptZero
  | f + 1, k, p => if k = 0 then ptZero else ptAdd (if k % 2 = 1 then p else ptZero) (ptMul f (k / 2) (ptDouble p))

/-- The x of a point that is not at infinity. -/
def ptX (a : Pt) : Option Nat :=
  match a with
  | (x, _, z) => if z = 0 then none else some (mulP x (mulP (invMod z p384) (invMod z p384)))

/-- ECDSA P-384 verification of the SHA-384 value e under the key (x, y). -/
def ecdsaOk (e x y r s : Nat) : Bool :=
  if !onCurve x y || r = 0 || n384 ≤ r || s = 0 || n384 ≤ s then false
  else
    let w := invMod s n384
    match ptX (ptAdd (ptMul 384 (e * w % n384) (gx384, gy384, 1)) (ptMul 384 (r * w % n384) (x, y, 1))) with
    | none => false
    | some v => decide (v % n384 = r)

/-- SHA-384 of a public key, x then y (Table 13.3). -/
def keyHash (x y : Nat) : Nat := sha384 (bytesBE x 48 ++ bytesBE y 48)

end Sys2Proof.Machine
end

