-- ==== Sys2Proof/Machine/ClockReset.lean ====
section
/-! DEFINITION. The reference and the PLLs (R352 to R356), the frequency counter (R359), the tick period (R184), reset
sources and their release (R360 to R363, R365), the trim load (R366 to R369) and cold bring-up (R370, R371, R410 to
R412). -/

namespace Sys2Proof.Machine

open Sys2Proof

/-! ## The reference -/

/-- REFCLK_PRESENT (R352): source 1 oscillator, 2 A3, 3 H4. -/
def State.refclkPresent (s : State) (src : Nat) (on : Bool) : State :=
  { s with rck := match src with
      | 1 => { s.rck with oscRun := on }
      | 2 => { s.rck with a3 := on }
      | 3 => { s.rck with h4 := on }
      | _ => s.rck }

def Rck.present (r : Rck) (src : Nat) : Bool :=
  match src with
  | 1 => r.oscRun
  | 2 => r.a3
  | 3 => r.h4
  | _ => false

/-- Whether a second source judges the candidate (R354). -/
def Rck.second (r : Rck) (cand : Nat) : Bool := if cand = 1 then r.a3 || r.h4 else r.oscRun

/-- A window of R354: ±10 of 100,000 against a second source, ±2 % against the RC oscillator. -/
def Rck.judged (r : Rck) (cand count : Nat) : Bool :=
  if r.second cand then decide (99990 ≤ count) && decide (count ≤ 100010) else decide (98000 ≤ count) && decide (count ≤ 102000)

/-- The reference is lost (R355): everything but the always-on domain goes dark, every started partition faults and
stops, the tick generator stands, and firmware chooses a reference again. -/
def State.refLoss (s : State) : State :=
  let on := (List.range 16).filter (fun p => (s.part p).started)
  let u := s.darkenAll
  let u := u.report (on.map (fun p => { part := p, what := .lost }))
  let u := on.foldl State.stopPart u
  let fs := u.fields.map Prod.fst
  let u := fs.foldl (fun (x : State) f => x.loseStack f) u
  let off := fun (d : DomSt) => if d = .failed then DomSt.failed else .off
  let u := u.updFields fs (fun _ f => { f with pwr := { f.pwr with trn := off f.pwr.trn, mif := off f.pwr.mif, pll := false } })
  let u := (List.range 28).foldl (fun (x : State) p => (x.linkDown p).updPort p (fun q => { q with link := off q.link })) u
  let v : State := { u with
    host := { u.host with ring := u.host.ring.map (fun r => { r with link := false, pcie := off r.pcie }) }
    tg := { u.tg with running := false, period := 0, nextPeriod := none }
    rck := { u.rck with refLost := true, active := 0, stable := false, unchecked := false, judgedBad := [], valePll := false, ready := false, stage := 2 } }
  v.updPwrGood

/-- REF_JUDGE: a window of the reference stage decides on a candidate (R353, R354); in service, a window of the active
reference outside ±500 ppm loses it (R355). -/
def State.refJudge (s : State) (cand count : Nat) : State :=
  let r := s.rck
  if r.stage = 2 && r.held.isNone && !r.failed && !r.stable && r.present cand then
    let turn := if r.refSel = 0 then (List.range 3).all (fun i => cand ≤ i + 1 || !r.present (i + 1) || r.judgedBad.contains (i + 1)) else r.refSel = cand
    if !turn then s
    else if r.judged cand count then { s with rck := { r with active := cand, stable := true, unchecked := !r.second cand } }
    else
      let bad := cand :: r.judgedBad
      let failed := r.refSel ≠ 0 || (List.range 3).all (fun i => !r.present (i + 1) || bad.contains (i + 1))
      { s with rck := { r with judgedBad := bad, failed := failed } }
  else if r.stable && r.active = cand && (count < 99950 || 100050 < count) then s.refLoss
  else s

/-- REF_LOST: no edge of the active reference for 100 ns (R355). -/
def State.refGone (s : State) : State := if s.rck.stable then s.refLoss else s

/-! ## PLLs -/

/-- PLL_LOCK (R356), from the clock stage on. -/
def State.pllLock (s : State) (f : Option Nat) : State :=
  if !s.rck.stable || s.rck.held.isSome || s.rck.stage < 4 then s
  else match f with
    | none => { s with rck := { s.rck with valePll := true } }
    | some i => if (s.field i).pwr.lost then s else s.updField i (fun x => { x with pwr := { x.pwr with pll := true } })

/-- A field is lost at bring-up (Table 11.6): its domains stay OFF and LOST counts it. -/
def State.loseField (s : State) (f : Nat) : State :=
  if (s.field f).pwr.lost then s
  else
    let off := fun (d : DomSt) => if d = .failed then DomSt.failed else .off
    { s.updField f (fun x => { x with pwr := { x.pwr with lost := true, pll := false, trn := off x.pwr.trn, mif := off x.pwr.mif } }) with
      rck := { s.rck with lost := min 48 (s.rck.lost + 1) } }

/-- PLL_LOCK_TIMEOUT (R356, Table 11.6). -/
def State.pllTimeout (s : State) (f : Nat) : State :=
  if s.rck.stage = 4 && s.rck.held.isNone && !(s.field f).pwr.pll then s.loseField f else s

/-- PLL_LOCK_LOST in service (R356): both terraces darken, transit and memory-interface domains switch OFF, the stack is
lost. -/
def State.pllLost (s : State) (f : Nat) : State :=
  if !(s.field f).pwr.pll then s
  else
    let off := fun (d : DomSt) => if d = .failed then DomSt.failed else .off
    let u := (s.darkenNow false (2 * f)).darkenNow false (2 * f + 1)
    ((u.loseStack f).updField f (fun x => { x with pwr := { x.pwr with pll := false, lost := true, mif := off x.pwr.mif } })).transitDark f (off (s.field f).pwr.trn)

/-! ## The frequency counter -/

/-- Whether the selected clock shows edges (Table 11.1). -/
def State.fmcClock (s : State) : Bool :=
  let k := s.rck.fmcSel
  if k < 48 then (s.field k).pwr.pll
  else if k = 48 then s.rck.valePll
  else if k = 49 then s.rck.oscRun
  else if k = 50 then s.rck.a3
  else if k = 51 then s.rck.h4
  else if k = 52 then true
  else if k = 53 then (s.port s.rck.fmcPort).link = .on
  else if k = 54 || k = 55 then (s.ring (k - 54)).pcie = .on
  else false

/-- FMC_START (R359): ignored while RUNNING and with GATE 0. -/
def State.fmcStart (s : State) : State :=
  if s.rck.fmcRunning || s.rck.fmcGate = 0 then s else { s with rck := { s.rck with fmcRunning := true } }

/-- FMC_GATE_CLOSE (R359): a clock that is OFF or reserved counts no edge. -/
def State.fmcClose (s : State) (count : W32) : State :=
  let n := if s.fmcClock then count else 0
  if s.rck.fmcRunning then { s with rck := { s.rck with fmcRunning := false, fmcDone := true, fmcCount := n, fmcNoclk := n = 0 } } else s

/-! ## The tick period -/

/-- TICK_PERIOD_WRITE (R184). The rule states the range and not what a write outside it does: it is ignored (DESIGN CHOICE, log 72). -/
def State.tickPeriod (s : State) (us : Nat) : State :=
  if us < 20 || 50000 < us then s
  else if (List.range 16).any (fun p => (s.part p).started) then { s with tg := { s.tg with refused := true } }
  else if !s.tg.running then { s with tg := { s.tg with running := true, period := us, ofs := 0 } }
  else { s with tg := { s.tg with nextPeriod := some us } }

/-! ## Reset sources -/

/-- The ring registers of a port at a reset of its PCIe logic (R387); its link is down. -/
def Ring.portReset (r : Ring) : Ring := { pcie := r.pcie, linkFail := r.linkFail, inReset := true }

def State.portReset (s : State) (p : Nat) : State :=
  { s with host := { s.host with ring := vset s.host.ring p (s.ring p).portReset } }

/-- Ownership passes (R384): CHANGES counts, both ports get the alert vector, HB_EXPIRED clears and the new deadline
runs. -/
def State.setOwner (s : State) (a : Nat) : State :=
  { s with
    host := { s.host with owner := a, changes := s.host.changes + 1, hbExpired := false,
                          hbDeadline := s.tg.cyc + BitVec.ofNat 64 (s.host.timeout * 1200000) }
    out := alertBoth ++ s.out }

/-- A warm source waits while a level 3 erasure runs (R419); the ALARM_L3 reset that ends the erasure supersedes it. -/
def State.erasing (s : State) : Bool := s.sec.erasePending && s.rck.held.isNone && s.rck.stage ≠ 0 && s.rck.stage ≠ 1

/-- PERST# or hot reset on a port (R360): a module reset on the owner's port, else a reset of the port alone. -/
def State.portSource (s : State) (code p : Nat) : State :=
  if s.host.owner ≠ p then s.portReset p
  else if s.erasing then s
  else
    let u := s.resetSource code false
    (if u.host.owner = 3 then u else { u with host := { u.host with priority := 0 } }.setOwner 3).portReset p

/-- WARM_CMD, 1 ms after the reply of WARM_RESET (R363). -/
def State.warmCmd (s : State) : State :=
  if !s.rck.warmAt || s.erasing then s else s.resetAtOnce 8 false

/-- 100 ms in wafer cycles (R362). -/
def wdogCycles : Nat := 120000000

/-- The Vale watchdog expires (R362); it runs once a control core could refresh it. -/
def State.watchdog (s : State) : State :=
  let due := !s.tg.running || decide (s.rck.wdog.toNat + wdogCycles ≤ s.tg.cyc.toNat)
  if s.rck.held.isSome || s.rck.stage < 3 || !due || s.erasing then s else s.resetAtOnce 9 false

/-- RESET_RELEASE (Table 11.2): POWER_ON and SAG need the input at 11.4 V. -/
def State.resetRelease (s : State) : State :=
  match s.rck.held with
  | none => s
  | some c => if (c = 1 || c = 2) && s.pwr.vbus < 1140 then s else s.release

/-- WARM_RESET_READY (Table 11.4): the wipes have ended; firmware has reloaded every loaded plan. -/
def State.warmReady (s : State) : State :=
  if s.rck.stage ≠ 0x10 || s.rck.held.isSome || s.cores.any (fun c => c.2.bank.wiping ≠ 0) then s
  else
    let ps := (List.range 16).filter (fun p => (s.part p).on && (s.part p).plan.isSome)
    let t := ps.foldl (fun (x : State) p => x.loadCores p (x.part p).placement) s
    { t with rck := { t.rck with ready := true, stage := 0xFF, wdog := t.tg.cyc } }.updPwrGood

/-! ## Trim -/

/-- A good trim copy is in the shadow (R366, R367, R428): sites, options and straps; a pending erasure erases the identity
key (R419); the PCIe link domains switch ON, and the reference stage begins. -/
def State.trimGood (s : State) (copy : Nat) (t : Trim) (straps : Byte) : State :=
  { s with
    sites := t.fused.foldl (fun x k => Tab.set .enabled x k .fused) s.sites
    fab := { s.fab with feedId := straps.toNat }
    host := { s.host with ring := s.host.ring.map (fun r => { r with pcie := if r.pcie = .failed then .failed else .on }) }
    sec := if s.sec.erasePending then { s.sec with idKey := false, idErased := true, erasePending := false } else s.sec
    rck := { s.rck with trimValid := true, copy := copy, startMarch := t.startMarch, wires := t.wires, refSel := t.refSel % 4, judgedBad := [], stage := 2 } }

/-- TRIM_COPY_LOADED (R367). -/
def State.trimLoaded (s : State) (ok : Bool) (t : Trim) (straps : Byte) : State :=
  if s.rck.stage ≠ 1 || s.rck.held.isSome || s.rck.trimFault || s.rck.trimValid then s
  else if ok then s.trimGood (if s.rck.loadingB then 2 else 1) t straps
  else if !s.rck.loadingB then { s with rck := { s.rck with aBad := true, loadingB := true } }
  else { s with rck := { s.rck with bBad := true, trimFault := true } }

/-- TRIM_CHECK (R366): a mismatch of the shadow in service is the TRIM_FAULT reset. -/
def State.trimCheck (s : State) (ok : Bool) : State :=
  if ok || !s.rck.trimValid || s.rck.held.isSome then s else s.resetAtOnce 5 true

/-! ## Firmware images -/

/-- Header bytes 0 to 159 are given and agree with the fields (Table 13.4). -/
def FwImage.headerOk (i : FwImage) : Bool :=
  i.header = bytesLE i.magic.toNat 4 ++ bytesLE i.version.toNat 8 ++ bytesLE i.svn 2 ++ bytesLE i.keyIx 1 ++ i.header.extract 15 16 ++
    bytesLE i.bodyLen 4 ++ bytesBE i.bodyHash 48 ++ (bytesBE i.keyX 48 ++ bytesBE i.keyY 48).take 92

/-- An image verifies but for its SVN (R410): magic, unrevoked key with its OTP hash, signature over header bytes 0 to 159,
body length and body digest. -/
def State.imageSigned (s : State) (i : FwImage) : Bool :=
  i.magic = 0x46574C56#32 && i.keyIx < 2 && !s.sec.revoke.getLsbD i.keyIx && i.headerOk &&
    decide (keyHash i.keyX i.keyY = s.sec.ident.fwKeys.toList.getD i.keyIx 0) && ecdsaOk (sha384 i.header) i.keyX i.keyY i.sigR i.sigS &&
    decide (i.bodyLen ≤ 0x4000000) && decide (i.body.length = i.bodyLen) && decide (sha384 i.body = i.bodyHash)

def FwImage.slot (i : FwImage) (ok : Bool) : FwSlot := { ok := ok, version := i.version, svn := i.svn, sha := i.bodyHash }

/-- Slots A and B also need SVN ≥ MIN_SVN (R410). -/
def State.imageOk (s : State) (i : FwImage) : Bool := s.imageSigned i && decide (s.sec.minSvn ≤ i.svn)

/-- The slot that the boot ROM starts (R411): higher SVN, then higher version, A on a tie; after two WATCHDOG resets in the
Vale stage, the other slot when it verifies. True for slot B; none when neither verifies. -/
def bootSlot (a b : FwSlot) (wdogs : Nat) : Option Bool :=
  match a.ok, b.ok with
  | false, false => none
  | true, false => some false
  | false, true => some true
  | true, true =>
    let pickB := a.svn < b.svn || (a.svn = b.svn && a.version.toNat < b.version.toNat)
    some (if wdogs / 2 % 2 = 1 then !pickB else pickB)

/-- The lowest passing core, and the next (R412). -/
def electCores (ok : BitVec 4) : Option Nat × Option Nat :=
  match (List.range 4).filter ok.getLsbD with
  | [] => (none, none)
  | [a] => (some a, none)
  | a :: b :: _ => (some a, some b)

/-! ## Bring-up -/

/-- STATE of a router's ports once its links are up (R166, R169): W, E, S, N where a neighbour exists, X where Table 6.2
names one. -/
def routerPorts (f q : Nat) : Vector Nat 10 :=
  let x := 4 * (f % 8) + q % 4
  let y := 4 * (f / 8) + q / 4
  let hasX := (y = 0 && x % 4 = 1) || (y = 23 && x % 4 = 2) || ((x = 0 || x = 31) && y % 4 = 2) || (x = 0 && y = 9) || (x = 31 && y = 13) || (x = 0 && y = 0)
  let b := fun (v : Bool) => if v then 1 else 0
  #v[1, 1, 1, 1, b (x ≠ 0), b (x ≠ 31), b (y ≠ 0), b (y ≠ 23), 1, b hasX]

def State.failStage (s : State) : State := { s with rck := { s.rck with failed := true } }
def State.toStage (s : State) (n : Nat) : State := { s with rck := { s.rck with stage := n } }

/-- The Vale stage ends (R411, R412). -/
def State.valeDone (s : State) (i : StageInfo) : State :=
  let a := i.slotA.slot (s.imageOk i.slotA)
  let b := i.slotB.slot (s.imageOk i.slotB)
  match electCores i.coresOk with
  | (none, _) => { s with sec := { s.sec with coresOk := 0, slotA := a, slotB := b } }.failStage
  | (some act, sb) =>
    let sec := { s.sec with coresOk := i.coresOk, active := act, standby := sb.getD 0, noStandby := sb.isNone, slotA := a, slotB := b }
    let pwr := { s.pwr with cap := i.capMf, holdupOk := i.holdupOk }
    match bootSlot a b s.rck.wdogStage with
    | some useB => { s with pwr := pwr, sec := { sec with activeB := useB, standbyB := useB, recovery := false }, rck := { s.rck with wdog := s.tg.cyc, wdogStage := 0 } }.toStage 4
    | none =>
      if i.factoryOk then { s with pwr := pwr, sec := { sec with recovery := true, activeB := false, standbyB := false }, rck := { s.rck with wdog := s.tg.cyc, wdogStage := 0 } }.toStage 4
      else { s with sec := sec }.failStage

/-- The clock stage ends (R370, R185): the generator runs at 1,000 µs and the dividers pass every cycle, which is clock point P0; a field without a
locked PLL is lost. -/
def State.clockDone (s : State) (i : StageInfo) : State :=
  if !i.valeLocked || !s.rck.valePll then s.failStage
  else
    let t := (List.range 48).foldl (fun (x : State) f => if (x.field f).pwr.pll && !i.badFields.any (fun b => b.val = f) then x else x.loseField f) s
    let t := { t with
      tg := { t.tg with running := true, period := 1000, nextPeriod := none, ofs := 0 }
      div := { t.div with current := 32, target := 32 }
      pwr := { t.pwr with vddMv := pointMv 0, vddTarget := pointMv 0, env := { t.pwr.env with point := 0 } } }
    (i.disagree.foldl (fun (x : State) f => x.fieldTickLost f) t).toStage 5

/-- The memory stage ends (R370, Table 11.6). -/
def State.memoryDone (s : State) (i : StageInfo) : State :=
  let t := (List.range 48).foldl (fun (x : State) f =>
    if (x.field f).pwr.lost then x
    else if i.badFields.any (fun b => b.val = f) || (x.field f).pwr.mif = .failed then x.loseField f
    else x.updField f (fun y => { y with pwr := { y.pwr with mif := .on } })) s
  t.toStage 6

/-- The transit stage ends (R170, R370): links up under the repair map, routes loaded. -/
def State.transitDone (s : State) (i : StageInfo) : State :=
  let t := (List.range 48).foldl (fun (x : State) f =>
    if (x.field f).pwr.lost then x
    else if i.badFields.any (fun b => b.val = f) || (x.field f).pwr.trn = .failed then x.loseField f
    else x.updField f (fun y => { y with
      pwr := { y.pwr with trn := .on }
      routers := Vector.ofFn (fun q => { y.routers[q] with port := routerPorts f q.val }) })) s
  (s.rck.wires.foldl State.applyRepair t).loadRoutes.toStage 7

/-- The link stage ends (R370, R425): every port is enabled in fabric mode with address 0xFFF. -/
def State.linksDone (s : State) : State :=
  let en := fun (q : FabPort) =>
    let low := !q.present || decide (1500 < q.powerClass)
    { q with en := true, eth := false, link := if q.link = .failed then .failed else .on, lowPower := low, st := if low || q.link = .failed then FabSt.down else .training }
  { s with fab := { s.fab with addr := 0xFFF, ports := s.fab.ports.map en } }.toStage 9

/-- Whether the light stage has nothing left to do for terrace t. -/
def State.lightSettled (s : State) (t : Nat) : Bool :=
  let x := s.ter t
  (s.enabledOn t).isEmpty || (s.field (t / 2)).pwr.lost || x.st = .failed ||
    (x.st = .lit && (!s.rck.startMarch || (s.enabledOn t).all (fun k => (s.core k).bank.march.done))) ||
    (x.st = .off && (x.heat || s.pwr.alarm.getLsbD alDroop || s.sec.recovery || s.sec.halt || s.lifeCycle = 4))

/-- The light stage ends and READY sets (R370, Table 11.6): sites that failed are retired. -/
def State.lightDone (s : State) (i : StageInfo) : State :=
  let t := i.badSites.foldl (fun (x : State) k => x.retire k) s
  let fin := fun (x : State) => { x with rck := { x.rck with ready := true, stage := 0xFF, wdog := x.tg.cyc } }.updPwrGood
  if s.pwr.holdupOk then (if (List.range 96).all s.lightSettled then fin t else s)
  else if !i.holdupOk then fin (t.alarm alHoldup)
  else s

/-- BRINGUP_STAGE_DONE (R370, R371). -/
def State.stageDone (s : State) (i : StageInfo) : State :=
  if s.rck.held.isSome || s.rck.failed || s.rck.ready || s.rck.trimFault then s
  else match s.rck.stage with
    | 2 => if s.rck.stable then s.toStage (if s.sec.coresOk = 0 then 3 else 4) else s
    | 3 => s.valeDone i
    | 4 => s.clockDone i
    | 5 => s.memoryDone i
    | 6 => s.transitDone i
    | 7 => (i.badPhases.foldl State.phaseFail s).toStage 8
    | 8 => s.linksDone
    | 9 => s.lightDone i
    | _ => s

/-- STANDBY_TAKEOVER (R412): a service core becomes standby. -/
def State.takeover (s : State) : State :=
  if s.sec.coresOk = 0 || s.sec.noStandby then s
  else
    let next := (List.range 4).find? (fun i => s.sec.coresOk.getLsbD i && i ≠ s.sec.active && i ≠ s.sec.standby)
    { s with sec := { s.sec with active := s.sec.standby, standby := next.getD 0, noStandby := next.isNone, activeB := s.sec.standbyB, standbyStaged := false } }

def execRefclkPresent (src : Fin 4) (on : Bool) (s : State) : Host.Outcome State Fault Refusal := .next (s.refclkPresent src on)
def execRefJudge (c : Fin 4) (n : Nat) (s : State) : Host.Outcome State Fault Refusal := .next (s.refJudge c n)
def execRefLost (s : State) : Host.Outcome State Fault Refusal := .next s.refGone
def execPllLock (f : Option FieldIx) (s : State) : Host.Outcome State Fault Refusal := .next (s.pllLock (f.map Fin.val))
def execPllLockTimeout (f : FieldIx) (s : State) : Host.Outcome State Fault Refusal := .next (s.pllTimeout f)
def execPllLockLost (f : FieldIx) (s : State) : Host.Outcome State Fault Refusal := .next (s.pllLost f)

/-- Whether a write to a register of RCK_ or VID_ acts: those blocks answer from the end of the Vale stage on (Table 11.5,
R365). -/
def State.allowsRck (s : State) (who : Option (Fin 3)) : Bool :=
  match who with
  | none => true
  | some a => s.host.owner = a.val && 4 ≤ s.rck.stage && s.rck.held.isNone

/-- FMC_START: the register is written by the owner, or by firmware (R23). -/
def execFmcStart (who : Option (Fin 3)) (s : State) : Host.Outcome State Fault Refusal := .next (if s.allowsRck who then s.fmcStart else s)
def execFmcGateClose (n : W32) (s : State) : Host.Outcome State Fault Refusal := .next (s.fmcClose n)
def execTickPeriodWrite (us : Nat) (s : State) : Host.Outcome State Fault Refusal := .next (s.tickPeriod us)

/-- POWER_ON (Table 11.2). -/
def execPowerOn (s : State) : Host.Outcome State Fault Refusal := .next (s.resetSource 1 true)
def execPerst (p : Fin 2) (s : State) : Host.Outcome State Fault Refusal := .next (s.portSource 6 p)
def execHotReset (p : Fin 2) (s : State) : Host.Outcome State Fault Refusal := .next (s.portSource 7 p)
def execWarmCmd (s : State) : Host.Outcome State Fault Refusal := .next s.warmCmd
def execWatchdog (s : State) : Host.Outcome State Fault Refusal := .next s.watchdog

/-- WATCHDOG_REFRESH (R362). -/
def execWatchdogRefresh (s : State) : Host.Outcome State Fault Refusal := .next { s with rck := { s.rck with wdog := s.tg.cyc } }

/-- PORT_RESET (R360, R387): PERST# or hot reset on a port that is not the owner's. -/
def execPortReset (p : Fin 2) (s : State) : Host.Outcome State Fault Refusal := .next (if s.host.owner = p.val then s else s.portReset p)
def execResetRelease (s : State) : Host.Outcome State Fault Refusal := .next s.resetRelease
def execWarmResetReady (s : State) : Host.Outcome State Fault Refusal := .next s.warmReady
def execTrimCopyLoaded (ok : Bool) (t : Trim) (straps : Byte) (s : State) : Host.Outcome State Fault Refusal := .next (s.trimLoaded ok t straps)
def execTrimCheck (ok : Bool) (s : State) : Host.Outcome State Fault Refusal := .next (s.trimCheck ok)
def execBringupStageDone (i : StageInfo) (s : State) : Host.Outcome State Fault Refusal := .next (s.stageDone i)
def execStandbyTakeover (s : State) : Host.Outcome State Fault Refusal := .next s.takeover

end Sys2Proof.Machine
end

