-- ==== Sys2Proof/Machine/Jorlek.lean ====
section
/-! DEFINITION. Jorlek: packets and their checks (R385 to R393, Table 12.7), agents and ownership (R379 to R384), DEV_INFO
(R401), the host ports' links (R373), and the management interface (R403, R404). -/

namespace Sys2Proof.Machine

open Sys2Proof

/-! ## Status codes (Table 12.9) -/

def stOk : W16 := 0x0000#16
def stOkLate : W16 := 0x0001#16
def stBadOpcode : W16 := 0x0100#16
def stBadParam : W16 := 0x0101#16
def stNotOwner : W16 := 0x0102#16
def stBadHeader : W16 := 0x0103#16
def stBadSequence : W16 := 0x0104#16
def stNotReady : W16 := 0x0105#16
def stOwnerAlive : W16 := 0x0106#16
def stAgentAbsent : W16 := 0x0107#16
def stPortUnsuited : W16 := 0x0108#16
def stBusy : W16 := 0x0109#16
def stClaimLost : W16 := 0x010A#16
def stOwned : W16 := 0x010B#16
def stHostAccess : W16 := 0x010C#16
def stPartUnknown : W16 := 0x0201#16
def stPartRunning : W16 := 0x0205#16
def stRecoveryMode : W16 := 0x0808#16
def stAlarmHalt : W16 := 0x0807#16

/-- The opcodes of Table 12.8. -/
def opcodes : List W16 :=
  [0x0100#16, 0x0101#16, 0x0102#16, 0x0103#16, 0x0201#16, 0x0202#16, 0x0301#16, 0x0401#16, 0x0402#16, 0x0501#16, 0x0502#16, 0x0503#16,
   0x0504#16, 0x0505#16, 0x0601#16, 0x0602#16, 0x0603#16, 0x0701#16, 0x0702#16, 0x0801#16, 0x0802#16, 0x0803#16, 0x0901#16, 0x0A01#16]

/-- The commands that recovery mode still runs (R411). -/
def recoveryOps : List W16 := [0x0100#16, 0x0101#16, 0x0102#16, 0x0103#16, 0x0802#16, 0x0801#16, 0x0901#16]

/-! ## Fetching -/

def Pkt.headerOk (k : Pkt) : Bool := k.magic = 0x4A4C#16 && k.version = 1 && k.rsv = 0 && k.flags.toNat < 2 && k.plen ≤ 4096

/-- The packet as fetched: its issuer is owner or not at this moment (R384). -/
def State.fetched (s : State) (k : Pkt) : Fetched := { pkt := k, owner := s.host.owner = k.agent.val }

/-- A command fetched from the owner meets and renews its deadline (R382). -/
def State.renew (s : State) (a : Nat) : State :=
  if s.host.owner = a then
    { s with host := { s.host with hbExpired := false, hbDeadline := s.tg.cyc + BitVec.ofNat 64 (s.host.timeout * 1200000) } }
  else s

/-- The expected SEQ advances (R391). -/
def State.nextSeq (s : State) (k : Pkt) : State :=
  let e := (s.fw.expSeq.toList.getD k.agent.val none).getD k.seq
  { s with fw := { s.fw with expSeq := vset s.fw.expSeq k.agent.val (some (e + 1)) } }

/-- The checks of Table 12.7 that do not depend on the command; a packet that passes waits in the inbox. -/
def State.fetchOne (s : State) (k : Pkt) : State :=
  let s := s.renew k.agent.val
  let f := s.fetched k
  let refuse := fun (st : W16) => (s.nextSeq k).finish f st 0 0
  if !k.headerOk then refuse stBadHeader
  else match (s.fw.stored.toList.getD k.agent.val []).find? (fun r => r.seq = k.seq) with
    | some r => { (s.putReply { r with replayed := true } (k.flags.getLsbD 0)) with fw := s.fw }
    | none =>
      if (s.fw.expSeq.toList.getD k.agent.val none).getD k.seq ≠ k.seq then s.finish f stBadSequence 0 0
      else if !opcodes.contains k.opcode then refuse stBadOpcode
      else if !s.rck.ready && k.opcode ≠ 0x0100#16 then refuse stNotReady
      else if s.lifeCycle = 4 && k.agent.val ≠ 2 && k.opcode ≠ 0x0100#16 then s.nextSeq k
      else let t := s.nextSeq k; { t with fw := { t.fw with inbox := t.fw.inbox ++ [f] } }

/-- Whether firmware would fetch a packet of an agent now: the management interface answers from VALID of the trim load
and in trim fault, a ring from READY while EN is 1 (R365, R369, R370, R386). -/
def State.listens (s : State) (a : Nat) : Bool :=
  if a = 2 then s.rck.trimValid || s.rck.trimFault else s.rck.ready && (s.ring a).en

/-- Take a command out of the inbox; one that has not been fetched yet is fetched now. None when it does not pass. -/
def State.accept (s : State) (k : Pkt) (op : W16) : State × Option Fetched :=
  if k.opcode ≠ op then (s, none)
  else
    let t := if s.fw.inbox.any (fun f => f.pkt = k) then s else if s.listens k.agent.val then s.fetchOne k else s
    match t.fw.inbox.find? (fun f => f.pkt = k) with
    | none => (t, none)
    | some f => ({ t with fw := { t.fw with inbox := t.fw.inbox.erase f } }, some f)

/-! ## Running a command -/

/-- What a long command occupies (Table 12.8). -/
inductive Target where
  | none
  | part (p : Nat)
  | module_
  | site (k : Nat)
  | ter (t : Nat)
  deriving DecidableEq, Repr

def LongKind.target : LongKind → Target
  | .claim _ => .none
  | .planStart p => .part p
  | .planStop p => .part p
  | .snapNow p => .part p
  | .partner _ _ _ => .module_
  | .recover p => .part p
  | .retest t _ _ => .ter t
  | .rebase p => .part p
  | .retrace t _ _ => .part t
  | .envelope => .module_
  | .terraces _ _ _ => .module_
  | .probe p _ _ _ => .part p
  | .march k => .site k
  | .fwStage _ _ => .module_
  | .fwSwitch => .module_
  | .lifecycle _ => .module_
  | .telemetry _ => .none
  | .fabConfig => .module_

/-- A long command with this target is in flight (R392). -/
def State.busyOn (s : State) (t : Target) : Bool := t ≠ .none && s.fw.flight.any (fun l => l.kind.target = t)

/-- Run a command: its issuer, its target, then the checks and the effect of its own (Table 12.7). -/
def State.command (s : State) (k : Pkt) (op : W16) (owner : Bool) (target : Target) (run : State → Fetched → State) : State :=
  match s.accept k op with
  | (t, none) => t
  | (t, some f) =>
    if t.sec.recovery && !recoveryOps.contains op then t.finish f stRecoveryMode 0 0
    else if owner && !f.owner then t.finish f stNotOwner 0 0
    else if t.busyOn target then t.finish f stBusy 0 0
    else run t f

/-- Complete with a status and nothing else. -/
def State.done (s : State) (f : Fetched) (st : W16) : State := s.finish f st 0 0

/-- Start a long command (R392). -/
def State.fly (s : State) (f : Fetched) (kind : LongKind) : State :=
  { s with fw := { s.fw with flight := s.fw.flight ++ [{ f := f, kind := kind }] } }

/-- PART agrees with the partition that the parameters name (Table 12.7). -/
def Pkt.names (k : Pkt) (p : Nat) : Bool := k.part = p
def Pkt.noPart (k : Pkt) : Bool := k.part = 0xFF

/-- Whether partition p exists. -/
def State.partOn (s : State) (p : Nat) : Bool := p < 16 && (s.part p).on

/-- The length of a data buffer's part of `len` bytes (R393, R404). -/
def dataLenOf (k : Pkt) (len : Nat) : Nat :=
  if k.agent.val = 2 then min (min 4096 k.dlen.toNat) (len - k.data.toNat) else if k.data = 0 then 0 else min k.dlen.toNat len

/-- Complete a command that returns data: the bytes leave, DATA_LEN counts them, and RESULT is the full length when the
buffer is shorter (R393). -/
def State.finishData (s : State) (f : Fetched) (st : W16) (bytes : List Byte) : State :=
  let n := dataLenOf f.pkt bytes.length
  let from_ := if f.pkt.agent.val = 2 then f.pkt.data.toNat else 0
  let t := s.emit (if n = 0 then [] else [.event f.pkt.agent.val f.pkt.opcode.toNat (((bytes.drop from_).take n).map BitVec.toNat)])
  t.finish f st (if f.pkt.dlen.toNat < bytes.length then BitVec.ofNat 64 bytes.length else 0) n

/-! ## Rings -/

def State.setRing (s : State) (p : Nat) (r : Ring) : State := { s with host := { s.host with ring := vset s.host.ring p r } }

/-- RING_ENABLE (R387): EN from 0 to 1, by an access on the ring's own port. -/
def State.ringEnable (s : State) (on p : Nat) : State :=
  let r := s.ring p
  if on ≠ p || r.en || !s.rck.ready then s
  else { s.setRing p { r with en := true, entry := 0, phase := true, last := r.startSeq - 1 } with
         fw := { s.fw with expSeq := vset s.fw.expSeq p (some r.startSeq) } }

/-- RING_POLL (R386): the packets that follow the SEQ last fetched, as their slots hold them (R385, R389). -/
def State.ringPoll (s : State) (p : Fin 2) (word : W64) (pkts : List (List Byte)) (readErr : Bool) : State :=
  let r := s.ring p
  let n := ((word.setWidth 32 : W32) - r.last).toNat
  if !s.listens p then s
  else if readErr then s.setRing p { r with fetchErr := true }
  else if r.slots < n then { s.setRing p { r with overrun := true, en := false } with out := .msix p 1 :: s.out }
  else
    let got := (pkts.map (Pkt.ofBytes (p.castLE (by decide)))).take n
    let t := got.foldl State.fetchOne s
    t.setRing p { t.ring p with last := r.last + BitVec.ofNat 32 got.length }

/-- HOST_DMA_COMPLETE with an error (R386, R393): a ring read sets FETCH_ERR; a command whose buffer failed gives
HOST_ACCESS. -/
def State.hostDma (s : State) (p : Nat) (what : HostDma) (err : Bool) : State :=
  if !err then s
  else
    let hit := fun (q : W32) =>
      match s.fw.inbox.find? (fun f => f.pkt.agent.val = p && f.pkt.seq = q) with
      | some f => { s with fw := { s.fw with inbox := s.fw.inbox.erase f } }.done f stHostAccess
      | none =>
        match s.fw.flight.find? (fun l => l.f.pkt.agent.val = p && l.f.pkt.seq = q) with
        | some l => { s with fw := { s.fw with flight := s.fw.flight.erase l } }.done l.f stHostAccess
        | none => s
    match what with
    | .seqWord => s.setRing p { s.ring p with fetchErr := true }
    | .packet => s.setRing p { s.ring p with fetchErr := true }
    | .buffer q => hit q
    | .image q => hit q

/-- PCIE_LINK_CHANGE (R373): a port's link enters or leaves L0. -/
def State.pcieLink (s : State) (p : Nat) (up : Bool) : State :=
  let r := s.ring p
  if up then (if r.pcie = .on && s.rck.held.isNone then s.setRing p { r with link := true, inReset := false } else s)
  else s.setRing p { r with link := false }

/-! ## Ownership -/

/-- CLAIM (R380). -/
def State.claim (s : State) (f : Fetched) (priority : Nat) (rsv : Nat) : State :=
  let a := f.pkt.agent.val
  if rsv ≠ 0 || !f.pkt.noPart then s.done f stBadParam
  else if s.host.owner = a then { s with host := { s.host with priority := priority } }.done f stOk
  else if s.host.owner ≠ 3 then s.done f stOwned
  else
    let old := s.fw.flight.filter (fun l => l.f.pkt.agent.val = a && (match l.kind with | .claim _ => true | _ => false))
    let t := old.foldl (fun (x : State) l => { x with fw := { x.fw with flight := x.fw.flight.erase l } }.done l.f stClaimLost) s
    { t with host := { t.host with claimOpen := true } }.fly f (.claim priority)

/-- The claims in the window: priority, agent, command. -/
def State.claims (s : State) : List (Nat × Nat × Long) :=
  s.fw.flight.filterMap (fun l => match l.kind with | .claim pr => some (pr, l.f.pkt.agent.val, l) | _ => none)

/-- The winner: lowest priority, then lowest agent. -/
def bestClaim : List (Nat × Nat × Long) → Option (Nat × Nat × Long)
  | [] => none
  | c :: r =>
    match bestClaim r with
    | none => some c
    | some d => if d.1 < c.1 || (d.1 = c.1 && d.2.1 < c.2.1) then some d else some c

/-- CLAIM_WINDOW_END (R380). -/
def State.claimEnd (s : State) : State :=
  if !s.host.claimOpen then s
  else
    let t := { s with host := { s.host with claimOpen := false }, fw := { s.fw with flight := s.fw.flight.filter (fun l => match l.kind with | .claim _ => false | _ => true) } }
    match bestClaim s.claims with
    | none => t
    | some w =>
      let u := { t with host := { t.host with priority := w.1 } }.setOwner w.2.1
      let u := u.done w.2.2.f stOk
      (s.claims.filter (· ≠ w)).foldl (fun (x : State) c => x.done c.2.2.f stClaimLost) u

/-- RELEASE (R383): a successor port must be in L0 with its ring enabled. -/
def State.releaseOwner (s : State) (f : Fetched) (succ : Nat) (force : Bool) (rsv : Nat) : State :=
  if !force && !f.owner then s.done f stNotOwner
  else if force && f.pkt.agent.val ≠ 2 then s.done f stNotOwner
  else if force && !s.host.hbExpired then s.done f stOwnerAlive
  else if rsv ≠ 0 || (3 ≤ succ && succ ≠ 0xFF) || !f.pkt.noPart then s.done f stBadParam
  else if succ < 2 && (!(s.ring succ).link || !(s.ring succ).en) then s.done f stAgentAbsent
  else
    let t := s.done f stOk
    if succ = f.pkt.agent.val then t
    else { t with host := { t.host with priority := 0 } }.setOwner (if succ = 0xFF then 3 else succ)

/-- OWNER_HB_EXPIRED (R189, R382). -/
def State.ownerExpired (s : State) : State :=
  if s.host.owner = 3 || s.host.hbExpired || s.tg.cyc.toNat < s.host.hbDeadline.toNat then s
  else { s with host := { s.host with hbExpired := true }, out := alertBoth ++ s.out }

/-! ## DEV_INFO -/

def TerSt.code : TerSt → Nat
  | .off => 0 | .switching => 1 | .ready => 2 | .zeroing => 3 | .lit => 4 | .stopping => 5 | .failed => 6

def SiteSt.code : SiteSt → Nat
  | .fused => 0 | .enabled => 1 | .spare => 2 | .retired => 3

def bit (b : Bool) (n : Nat) : Nat := if b then 2 ^ n else 0

/-- RCK_BOOT_STAT (R372). -/
def State.bootStat (s : State) : Nat := bit s.rck.ready 31 + bit s.rck.failed 30 + s.rck.lost * 256 + s.rck.stage

def Sec.slotOf (c : Sec) (b : Bool) : FwSlot := if b then c.slotB else c.slotA

/-- The images that the active and the standby core run: in recovery mode the factory image, but for a standby that has been
restarted into a staged one (R411, R413). -/
def Sec.activeImage (c : Sec) : FwSlot := if c.recovery then c.factory else c.slotOf c.activeB
def Sec.standbyImage (c : Sec) : FwSlot := if c.recovery && !c.standbyStaged then c.factory else c.slotOf c.standbyB

/-- The DEV_INFO record (Table 12.10). -/
def State.devInfo (s : State) : List Byte :=
  bytesLE 1 2 ++ bytesLE 0x4896 2 ++ bytesLE Config.stepping.toNat 4 ++ bytesLE s.sec.ident.moduleId.toNat 8 ++ bytesLE Config.serial 32 ++
    bytesLE s.sec.activeImage.version.toNat 8 ++ bytesLE (if s.sec.noStandby then 0 else s.sec.standbyImage.version.toNat) 8 ++
    bytesLE s.bootStat 4 ++ bytesLE s.host.owner 1 ++ bytesLE s.lifeCycle 1 ++ bytesLE s.fab.feedId 1 ++
    bytesLE (bit s.fab.cofed 0 + bit s.fab.forced 1 + bit s.fab.unprotected 2 + bit s.rck.trimFault 3) 1 ++ bytesLE s.fab.addr 2 ++
    bytesLE ((List.range 3072).countP (fun k => s.site k = .enabled)) 2 ++ bytesLE 0 4 ++
    bytesLE ((List.range 48).foldl (fun a f => a + bit (s.field f).pwr.lost f) 0) 6 ++ bytesLE 0 10 ++
    (List.range 96).map (fun t => BitVec.ofNat 8 ((s.ter t).st.code + bit (s.ter t).heat 3)) ++
    (List.range 768).map (fun i => BitVec.ofNat 8 ((s.site (4 * i)).code + 4 * (s.site (4 * i + 1)).code + 16 * (s.site (4 * i + 2)).code + 64 * (s.site (4 * i + 3)).code)) ++
    (List.range 16).map (fun p => BitVec.ofNat 8 (bit (s.part p).on 0 + bit (s.part p).plan.isSome 1 + bit (s.part p).started 2 + bit (s.part p).diag 3)) ++ bytesLE 0 48

/-! ## Management -/

/-- MCTP_CONTROL (R403): answered; a unit proposed is taken within 64 to 256 bytes. -/
def State.mctp (s : State) (code arg : Nat) : State :=
  { s.emit [.mctp code [arg]] with host := { s.host with mtu := if arg = 0 then s.host.mtu else max 64 (min 256 arg) } }

/-- The highest terrace reading of a field. -/
def State.hottest (s : State) (f : Nat) : Nat :=
  ((s.ter (2 * f)).temp.toList ++ (s.ter (2 * f + 1)).temp.toList).foldl max 0

/-- PLDM_REQUEST (R403): types 0, 2 and 4 are answered, type 2 with the sensors' values; others get code 0xFF. -/
def State.pldm (s : State) (type code : Nat) : State :=
  if type = 2 then s.emit [.pldm 2 code ([s.pwr.vbus, s.pwr.ibus, s.pwr.vbus * s.pwr.ibus / 100, bit s.pwr.pwrGood 0, s.host.owner, bit s.rck.trimFault 0] ++
      (List.range 48).map s.hottest ++ (List.range 48).map (fun f => (s.field f).pwr.stackT))]
  else if type = 0 || type = 4 then s.emit [.pldm type code []]
  else s.emit [.pldm type 0xFF []]

def execRingEnable (on p : Fin 2) (s : State) : Host.Outcome State Fault Refusal := .next (s.ringEnable on p)
def execRingPoll (p : Fin 2) (word : W64) (pkts : List (List Byte)) (e : Bool) (s : State) : Host.Outcome State Fault Refusal := .next (s.ringPoll p word pkts e)
def execHostDmaComplete (p : Fin 2) (what : HostDma) (err : Bool) (s : State) : Host.Outcome State Fault Refusal := .next (s.hostDma p what err)
def execPcieLinkChange (p : Fin 2) (up : Bool) (s : State) : Host.Outcome State Fault Refusal := .next (s.pcieLink p up)

/-- MGMT_JORLEK_REQUEST (R404): one packet of agent 2. -/
def execMgmtJorlekRequest (k : Pkt) (s : State) : Host.Outcome State Fault Refusal :=
  .next (if k.agent.val = 2 && s.listens 2 then s.fetchOne k else s)

def execClaim (k : Pkt) (pr : Byte) (rsv : BitVec 24) (s : State) : Host.Outcome State Fault Refusal :=
  .next (s.command k 0x0101#16 false .none (fun t f => t.claim f pr.toNat rsv.toNat))
def execClaimWindowEnd (s : State) : Host.Outcome State Fault Refusal := .next s.claimEnd
def execRelease (k : Pkt) (succ : Byte) (force : Bool) (rsv : BitVec 7) (s : State) : Host.Outcome State Fault Refusal :=
  .next (s.command k 0x0102#16 false .none (fun t f => t.releaseOwner f succ.toNat force rsv.toNat))

/-- HEARTBEAT (R382): it has no parameters and no effect besides the deadline. -/
def execHeartbeat (k : Pkt) (s : State) : Host.Outcome State Fault Refusal :=
  .next (s.command k 0x0103#16 true .none (fun t f => t.done f (if k.plen = 0 && k.noPart then stOk else stBadParam)))
def execOwnerHbExpired (s : State) : Host.Outcome State Fault Refusal := .next s.ownerExpired

/-- DEV_INFO (R401). -/
def execDevInfo (k : Pkt) (s : State) : Host.Outcome State Fault Refusal :=
  .next (s.command k 0x0100#16 false .none (fun t f => if k.plen = 0 && k.noPart then t.finishData f stOk t.devInfo else t.done f stBadParam))

/-- WARM_RESET (R363): OK now, the reset 1 ms later. -/
def execWarmReset (k : Pkt) (s : State) : Host.Outcome State Fault Refusal :=
  .next (s.command k 0x0603#16 true .none (fun t f =>
    if k.plen = 0 && k.noPart then { (t.done f stOk) with rck := { t.rck with warmAt := true } } else t.done f stBadParam))

def execMctpControl (code : Byte) (arg : Nat) (s : State) : Host.Outcome State Fault Refusal := .next (s.mctp code.toNat arg)
def execPldmRequest (type code : Byte) (s : State) : Host.Outcome State Fault Refusal := .next (s.pldm type.toNat code.toNat)

/-- ENTDAA (R403). -/
def execEntdaa (a : BitVec 7) (s : State) : Host.Outcome State Fault Refusal :=
  .next { s with host := { s.host with dynAddr := some a.toNat } }

end Sys2Proof.Machine
end

