-- ==== Sys2Proof/Machine/Envelope.lean ====
section
/-! DEFINITION. The envelope: clock points and the draw bound (R339, R340), the choice of a level and a point (R342), its
execution and deadline (R343, R344), divider and VDD ramps (R339, R358), and TERRACE_SET (R346). -/

namespace Sys2Proof.Machine

open Sys2Proof

def stEnvInfeasible : W16 := 0x0600#16
def stTerraceBusy : W16 := 0x0601#16
def stEnvForced : W16 := 0x0603#16
def stEnvSuperseded : W16 := 0x0604#16
def stThermalHold : W16 := 0x0605#16
def stPowerHalted : W16 := 0x0607#16

/-! ## Clock points -/

/-- Divider N of a point (Table 10.6). -/
def pointDiv (p : Nat) : Nat := 32 - 4 * p

/-- B ≤ bound, tested exactly: B = (n·w + 4,200 W) ÷ 0.88 (R340). -/
def drawFits (n p bound : Nat) : Bool := decide (n * pointW p + 420000 ≤ 88 * bound)

/-- PWT_EST: B in W, nearest. -/
def drawBound (n p : Nat) : Nat := (2 * (n * pointW p + 420000) + 88) / 176

/-- The deepest level that a plan carries, not above L (R342). -/
def Plan.levelAt (pl : Plan) (l : Nat) : Nat := ((pl.levels.map Level.level).filter (· ≤ l)).foldl max 0

/-- The terraces that a partition's placement at a level uses. -/
def Part.tersAt (p : Part) (lvl : Nat) : List Nat :=
  let q : Part := { p with level := lvl }
  ((q.coreSites q.placement).map (fun c => c.2 / 32)).dedup

/-- The terraces in use when every started plan takes level L; with `keep`, its present level. -/
def State.usedAt (s : State) (keep : Bool) (l : Nat) : List Nat :=
  ((List.range 16).flatMap (fun p =>
    let x := s.part p
    if x.started then x.tersAt (if keep then x.level else ((x.plan.map (fun pl => pl.levelAt l)).getD 0)) else [])).dedup

/-- Enabled cores of a list of terraces. -/
def State.coresOf (s : State) (ts : List Nat) : Nat := (ts.flatMap s.enabledOn).length

def State.litTers (s : State) : List Nat := (List.range 96).filter (fun t => s.lit t)

/-- The draw bound of the configuration in force (R340). -/
def State.estimate (s : State) : Nat := drawBound (s.coresOf s.litTers) s.pwr.env.point

/-- Every pair of a level and a point with its core count, in the order that ties prefer: level, then the faster point. -/
def State.envPairs (s : State) (keep : Bool) : List (Nat × Nat × Nat) :=
  (if keep then [s.pwr.env.level] else List.range 8).flatMap (fun l =>
    let n : Nat := s.coresOf (s.usedAt keep l)
    (List.range 5).map (fun p => (l, p, n)))

/-- The pair that maximises n × core clock within the bound (R342). -/
def pickPair (bound : Nat) : List (Nat × Nat × Nat) → Option (Nat × Nat × Nat)
  | [] => none
  | c :: r =>
    let rest := pickPair bound r
    if !drawFits c.2.2 c.2.1 bound then rest
    else match rest with
      | none => some c
      | some d => if c.2.2 * pointDiv c.2.1 < d.2.2 * pointDiv d.2.1 then some d else some c

/-! ## Ramps -/

/-- A write of RCK_DIV.TARGET (R358). -/
def Divider.write (d : Divider) (n : Nat) : Divider := if n < 16 || 32 < n then { d with bad := true } else { d with target := n }

/-- One step of the dividers (R358). -/
def Divider.step (d : Divider) : Divider :=
  { d with current := if d.current < d.target then d.current + 1 else if d.target < d.current then d.current - 1 else d.current }

/-- Firmware moves towards the target point (R339): up, VDD before the divider; down, the divider before VDD. -/
def State.steerClock (s : State) : State :=
  let p := s.pwr.env.tPoint
  let d := s.div
  let down := pointDiv p < d.current
  let mv := pointMv p
  let t := { s with pwr := { s.pwr with vddTarget := if down then s.pwr.vddTarget else if s.pwr.vddMv < mv || d.current = pointDiv p then mv else s.pwr.vddTarget } }
  if down || mv ≤ s.pwr.vddMv then { t with div := t.div.write (pointDiv p) } else t

/-- The clock point is reached (R343). -/
def State.atPoint (s : State) : Bool := s.div.current = pointDiv s.pwr.env.tPoint && s.pwr.vddMv = pointMv s.pwr.env.tPoint

/-! ## Carrying out -/

/-- The level that a started partition is to take. -/
def State.wantLevel (s : State) (p : Nat) : Nat := (((s.part p).plan.map (fun pl => pl.levelAt s.pwr.env.tLevel))).getD 0

/-- The started partitions that still have to be re-placed. -/
def State.toPlace (s : State) : List Nat := (List.range 16).filter (fun p => (s.part p).started && (s.part p).nextLevel.isSome)

/-- Terraces lit and unused at the target, which an envelope in force darkens (R342, R343). -/
def State.freed (s : State) : List Nat :=
  if s.pwr.env.bound = 30000 then [] else s.litTers.filter (fun t => !(s.usedAt true 0).contains t)

/-- The terraces that the target levels need. -/
def State.needed (s : State) : List Nat := (((List.range 16).filter (fun p => (s.part p).started)).flatMap (fun p => (s.part p).tersAt ((s.part p).nextLevel.getD (s.part p).level))).dedup

/-- The envelope moves on as far as it can (R343). Its order: lower, the clock point, the placements, the freed terraces;
higher, the lighting, the placements, the clock point. -/
def State.envAdvance (s : State) : State :=
  let e := s.pwr.env
  if !e.pending then s
  else
    let placed := s.toPlace.isEmpty
    let lower := pointDiv e.tPoint ≤ s.div.current
    let t := if lower || (placed && s.needed.all s.lit) then s.steerClock else s
    if !placed || !t.atPoint || !t.needed.all t.lit then t
    else
      let u := { t with pwr := { t.pwr with env := { t.pwr.env with level := e.tLevel, point := e.tPoint, pending := false, forced := false } } }
      let v := State.paceDark u.freed u.pacedSum 0 u
      let late := v.tg.cyc = e.deadline
      v.endLong (fun k => k = .envelope) (if late then stOkLate else stOk) 0 0

/-- Load the placement in force of a held partition: its cores stand before entry 0 and its cols arm again (R281, R343). -/
def State.rePlace (s : State) (p : Nat) : State :=
  let pl := (s.part p).placement
  let k := ((s.part p).plan.map Plan.mult).getD 1
  let t := s.mapCores (fun k => (s.part p).terraces.getLsbD (k / 32)) Core.discard
  let t := ((t.loadCores p pl).loadReds p pl).loadCols p pl
  (t.updCores ((t.placed p).map Prod.snd) (fun _ c => { c with seq := { st := .held, mult := k } })).armCols p

/-- ENVELOPE_REPLACE at a commit boundary (R343): the held partition takes its level's placement, and the hold lifts at the
next step's first edge. Terraces that the level needs must be lit, and the clock point of a lower envelope comes first. -/
def State.envReplace (s : State) (p : Nat) : State :=
  let x := s.part p
  match x.nextLevel with
  | none => s
  | some l =>
    if !s.pwr.env.pending || x.rcv.active || !(x.tersAt l).all s.lit || (pointDiv s.pwr.env.tPoint ≤ s.div.current && !s.atPoint) then s
    else
      ((s.updPart p (fun y => { y with level := l, nextLevel := none, lift := .envelope :: y.lift })).rePlace p).envAdvance

/-- ENVELOPE_SET (R342). -/
def State.envelopeSet (s : State) (f : Fetched) (bound deadline : Nat) (keep : Bool) (rsv : Nat) : State :=
  if rsv ≠ 0 || 30000 < bound || deadline = 0 || 60000 < deadline || !f.pkt.noPart then s.done f stBadParam
  else if s.sec.halt then s.done f stAlarmHalt
  else
    let b := if bound = 0 then 30000 else bound
    match pickPair b (s.envPairs keep) with
    | none => s.done f stEnvInfeasible
    | some c =>
      let t := s.endLong (fun k => k = .envelope) stEnvSuperseded 0 0
      let t := t.fly f .envelope
      let t := { t with pwr := { t.pwr with env := { t.pwr.env with bound := b, pending := true, tLevel := c.1, tPoint := c.2.1, deadline := t.tg.cyc + BitVec.ofNat 64 (deadline * 1200000) } } }
      let t := if keep then t
        else { t with parts := t.parts.map (fun x =>
          let want := (x.plan.map (fun pl => pl.levelAt c.1)).getD 0
          if x.started && want ≠ x.level then { x with nextLevel := some want, hold := if x.hold.contains .envelope then x.hold else .envelope :: x.hold } else { x with nextLevel := none }) }
      t.envAdvance

/-- The highest point that meets the bound with a core count; none when no point does. -/
def bestPoint (n bound : Nat) : Option Nat := (List.range 5).find? (fun p => drawFits n p bound)

/-- Stop the partitions whose re-placement is pending, in descending number, and darken their terraces until B fits at the
slowest point (R344). -/
def shedParts (bound : Nat) : List Nat → State → State
  | [], s => s
  | p :: r, s =>
    let live := s.litTers.filter (fun t => (s.ter t).darkAt.isNone)
    if drawFits (s.coresOf live) 4 bound then s
    else
      let ts := live.filter (fun t => (s.part p).usesTer t)
      shedParts bound r (ts.foldl (fun (x : State) t => x.orderDark t false) ((s.sendStop p).updPart p (fun x => { x with nextLevel := none })))

/-- ENVELOPE_DEADLINE (R344): when B still exceeds the bound, the bound is forced. -/
def State.envDeadline (s : State) : State :=
  let e := s.pwr.env
  if !e.pending || s.tg.cyc.toNat < e.deadline.toNat then s
  else if drawFits (s.coresOf s.litTers) e.point e.bound && s.atPoint && s.toPlace.isEmpty then s.envAdvance
  else if drawFits (s.coresOf s.litTers) e.point e.bound then s
  else
    let t := match bestPoint (s.coresOf s.litTers) e.bound with
      | some _ => s
      | none => shedParts e.bound s.toPlace.reverse s
    let live := t.litTers.filter (fun k => (t.ter k).darkAt.isNone)
    let p := (bestPoint (t.coresOf live) e.bound).getD 4
    let t := { t with
      pwr := { t.pwr with env := { t.pwr.env with tPoint := p, point := p, pending := false, forced := true } }
      parts := t.parts.map (fun (x : Part) => if x.nextLevel.isSome then { x with nextLevel := none, lift := HoldWhy.envelope :: x.lift } else x) }
    t.steerClock.endLong (fun k => k = .envelope) stEnvForced 0 0

/-- The change of B by one divider step, in 1/88 W rounded up: 1/32 of the full worst-case power at the VDD in force, which
goes with the square of VDD (R345 and its worked example). -/
def State.dividerDraw (s : State) : Nat := (s.coresOf s.litTers * 770 * s.pwr.vddMv ^ 2 + 15679999) / 15680000

/-- The change of B by moving VDD to v mV, in 1/88 W rounded up. -/
def State.vddDraw (s : State) (v : Nat) : Nat :=
  (s.coresOf s.litTers * 770 * s.div.current * (max v s.pwr.vddMv ^ 2 - min v s.pwr.vddMv ^ 2) + 15679999) / 15680000

/-- After a step of a ramp: firmware moves on. -/
def State.afterStep (s : State) : State :=
  if s.pwr.env.pending then s.steerClock.envAdvance
  else if s.pwr.env.forced then s.steerClock
  else s

/-- DIVIDER_STEP (R358), and the envelope that waits for it: its steps are paced (R345). -/
def State.dividerStep (s : State) : State :=
  let moves := (s.pwr.env.pending || s.pwr.env.forced) && s.div.current ≠ s.div.target
  if moves && !s.paceOk s.dividerDraw then s
  else ({ (if moves then s.pace s.dividerDraw else s) with div := s.div.step }).afterStep

/-- VDD_STEP (R339): one 10 mV step, paced by R345; VDD falls only once the ramp is done. -/
def State.vddStep (s : State) : State :=
  let v := s.pwr.vddMv
  let g := s.pwr.vddTarget
  let v1 := if v < g then min g (v + 10) else if g < v && s.div.current = s.div.target then max g (v - 10) else v
  let moves := (s.pwr.env.pending || s.pwr.env.forced) && v1 ≠ v
  if moves && !s.paceOk (s.vddDraw v1) then s
  else
    let t := if moves then s.pace (s.vddDraw v1) else s
    ({ t with pwr := { t.pwr with vddMv := v1 } }).afterStep

/-! ## TERRACE_SET -/

/-- The terraces of a mask. -/
def tersOf (m : BitVec 96) : List Nat := (List.range 96).filter m.getLsbD

/-- Whether a terrace lies in a partition with a plan started. -/
def State.terBusy (s : State) (t : Nat) : Bool :=
  match s.partOfTer t with
  | some p => (s.part p).started
  | none => false

/-- B with the named terraces lit (R346). -/
def State.setFits (s : State) (m : BitVec 96) : Bool :=
  drawFits (s.coresOf (s.litTers ++ (tersOf m).filter (fun t => !s.lit t))) s.pwr.env.point s.pwr.env.bound

/-- TERRACE_SET, darken (R346): complete once every named terrace is OFF. -/
def State.setDark (s : State) (f : Fetched) (m : BitVec 96) (rsv : Nat) : State :=
  if m = 0 || rsv ≠ 0 || !f.pkt.noPart then s.done f stBadParam
  else if (tersOf m).any s.terBusy then s.done f stTerraceBusy
  else
    let todo := (tersOf m).filter (fun t => (s.ter t).st ≠ .off && (s.ter t).st ≠ .failed)
    if todo.isEmpty then s.done f stOk
    else State.paceDark todo s.pacedSum 0 (s.fly f (.terraces (todo.foldl (fun a t => a ||| (1#96 <<< t)) 0) false 0))

/-- TERRACE_SET, light (R346): complete once every named terrace is LIT or its lighting has aborted. -/
def State.setLight (s : State) (f : Fetched) (m : BitVec 96) (rsv : Nat) : State :=
  if m = 0 || rsv ≠ 0 || !f.pkt.noPart then s.done f stBadParam
  else if s.sec.halt then s.done f stAlarmHalt
  else if (tersOf m).any s.terBusy then s.done f stTerraceBusy
  else if (tersOf m).any (fun t => (s.ter t).st = .failed) then s.done f stTerraceFailed
  else if !(tersOf m).all s.coolTer then s.done f stThermalHold
  else if !s.pwr.holdupOk || s.pwr.alarm.getLsbD alImbalance then s.done f stPowerHalted
  else if !s.setFits m then s.done f stEnvInfeasible
  else
    let todo := (tersOf m).filter (fun t => !s.lit t)
    if todo.isEmpty then s.done f stOk
    else s.fly f (.terraces (todo.foldl (fun a t => a ||| (1#96 <<< t)) 0) true 0)

/-- RCK_DIV_WRITE by firmware (R358). -/
def execRckDivWrite (n : BitVec 6) (s : State) : Host.Outcome State Fault Refusal := .next { s with div := s.div.write n.toNat }
def execDividerStep (s : State) : Host.Outcome State Fault Refusal := .next s.dividerStep
def execVddStep (s : State) : Host.Outcome State Fault Refusal := .next s.vddStep

/-- ENVELOPE_SET supersedes a pending one; any other long command of the module makes it BUSY (R392). -/
def execEnvelopeSet (k : Pkt) (bound deadline : W32) (keep : Bool) (rsv : Nat) (s : State) : Host.Outcome State Fault Refusal :=
  .next (s.command k 0x0601#16 true .none (fun t f =>
    if t.fw.flight.any (fun l => l.kind.target = .module_ && l.kind ≠ .envelope) then t.done f stBusy
    else t.envelopeSet f bound.toNat deadline.toNat keep rsv))
def execEnvelopeDeadline (s : State) : Host.Outcome State Fault Refusal := .next s.envDeadline
def execTerraceSetDarken (k : Pkt) (m : BitVec 96) (rsv : Nat) (s : State) : Host.Outcome State Fault Refusal :=
  .next (s.command k 0x0602#16 true .module_ (fun t f => t.setDark f m rsv))
def execTerraceSetLight (k : Pkt) (m : BitVec 96) (rsv : Nat) (s : State) : Host.Outcome State Fault Refusal :=
  .next (s.command k 0x0602#16 true .module_ (fun t f => t.setLight f m rsv))

end Sys2Proof.Machine
end

