-- ==== Sys2Proof/Machine/Clears.lean ====
section
/-! DEFINITION. Clearing writes of counters and records (R20, R71, R74, R75, R114, R137, R155, R165,
R197, R199, R233, R275, R276, R419, R421). -/

namespace Sys2Proof.Machine

open Sys2Proof

/-- Change a core when a write acts. -/
def State.onCore (s : State) (who : Option (Fin 3)) (k : Nat) (g : Core → Core) : State :=
  if s.allows who then s.setCore k (g (s.core k)) else s

/-- A counter of core k is cleared: a TELEMETRY window that covers it is partial and counts from the clear (R400). -/
def State.cutTele (s : State) (who : Option (Fin 3)) (k : Nat) (g : TeleLatch → TeleLatch) : State :=
  if !s.allows who then s
  else { s with fw := { s.fw with flight := s.fw.flight.map (fun l =>
    match l.kind with
    | .telemetry w =>
      if w.opened && !w.closed && (w.part = 0xFF || (s.part w.part).terraces.getLsbD (k / 32)) then
        { l with kind := .telemetry { w with partial_ := true, cores := w.cores.map (fun c => if c.1 = k then (c.1, g c.2) else c) } }
      else l
    | _ => l) } }

def State.onField (s : State) (who : Option (Fin 3)) (f : Nat) (g : Field → Field) : State :=
  if s.allows who then s.updField f g else s

/-- Change a watershed slot. -/
def Field.onSlot (n : Nat) (g : WsSlot → WsSlot) (f : Field) : Field := { f with ws := vset f.ws n (g (f.ws.toList.getD n {})) }

/-- A cleared counter keeps the events of the same cycle. -/
def cleared (same : Nat) : W32 := satAdd 0 same

def Core.onChk (g : Chk → Chk) (c : Core) : Core := { c with chk := g c.chk }
def Field.onUpe (g : Upe → Upe) (f : Field) : Field := { f with upe := g f.upe }

/-- Clearing VALID of the check record also empties the capture buffer (R299); of the disagreements of the same cycle the
one that fills the record fills the buffer. -/
def Chk.clearRecord (x : Chk) (now : Stamp) (same : List (ChkBody × Captured)) : Chk :=
  let r := FirstRec.clear ChkBody.lower now {} (same.map Prod.fst)
  { x with
    record := r
    cap := match same.find? (fun p => p.1 = r.body) with
      | none => {}
      | some (_, c) => { captured := true, src := c } }

/-- The counters of a core cleared at one cause mask (R276); a count in the same cycle leaves 1. -/
def IdleCtr.clear (i : IdleCtr) (mask : BitVec 8) (same : Option (Fin 8)) : IdleCtr :=
  { i with idle := Vector.ofFn (fun c => if mask.getLsbD c.val then (if same = some c then 1 else 0) else i.idle[c]) }

/-- A read of COR_IDLE_LO c, or of COR_RUN_LO, latches the matching HI register (R276). -/
def IdleCtr.latch (i : IdleCtr) (c : Nat) : IdleCtr :=
  if c = 8 then { i with runHi := (i.run >>> 32).setWidth 32 }
  else { i with idleHi := vset i.idleHi c ((i.idle.toList.getD c 0 >>> 32).setWidth 32) }

/-- The level of an alarm source 1 to 4 (R416): 0 acts as 1. -/
def Sec.levelOf (x : Sec) (src : Nat) : Nat := max 1 ((x.cfg >>> (2 * (src - 1))).toNat % 4)

/-- HALT_CLEAR (R20, R419): HALT stays while a source of level 2 or more still shows in SRC. -/
def State.haltClear (s : State) : State :=
  if (List.range 4).any (fun i => s.sec.src.getLsbD i && decide (2 ≤ s.sec.levelOf (i + 1))) then s
  else { s with sec := { s.sec with halt := false } }

/-- CHK_INJ_ARM (R74): only in a diagnosis partition. -/
def State.injArm (s : State) (who : Option (Fin 3)) (k : Nat) : State :=
  match s.partOfSite k with
  | some p => if (s.part p).diag then s.onCore who k (Core.onChk (fun x => { x with inj := true })) else s
  | none => s

def execChkInjArm (who : Option (Fin 3)) (k : Site) (s : State) : Host.Outcome State Fault Refusal := .next (s.injArm who k)
def execClrEvents (who : Option (Fin 3)) (k : Site) (n : Nat) (s : State) : Host.Outcome State Fault Refusal :=
  .next ((s.cutTele who k (fun x => { x with events := 0 })).onCore who k (Core.onChk (fun x => { x with events := cleared n })))
def execClrSkips (who : Option (Fin 3)) (k : Site) (n : Nat) (s : State) : Host.Outcome State Fault Refusal :=
  .next ((s.cutTele who k (fun x => { x with skips := 0 })).onCore who k (Core.onChk (fun x => { x with skips := cleared n })))
/-- CLR_BLOCKS (R75). The latch of COR_CHK_BLOCKS_HI keeps what the last read of LO put there until the next one, across
the clear too (DESIGN CHOICE, log 65). -/
def execClrBlocks (who : Option (Fin 3)) (k : Site) (n : Nat) (s : State) : Host.Outcome State Fault Refusal :=
  .next ((s.cutTele who k (fun x => { x with blocks := 0 })).onCore who k (Core.onChk (fun x => { x with blocks := BitVec.ofNat 64 n })))
def execChkRecordClear (who : Option (Fin 3)) (k : Site) (same : List (ChkBody × Captured)) (s : State) : Host.Outcome State Fault Refusal :=
  .next (s.onCore who k (Core.onChk (fun x => x.clearRecord s.coreNow same)))
def execFaultRecordClear (who : Option (Fin 3)) (k : Site) (same : List FaultBody) (s : State) : Host.Outcome State Fault Refusal :=
  .next (s.onCore who k (fun c => { c with fault := FirstRec.clear FaultBody.lower s.coreNow {} same }))
def execBankErrRecordClear (who : Option (Fin 3)) (k : Site) (same : List BankErrBody) (s : State) : Host.Outcome State Fault Refusal :=
  .next (s.onCore who k (fun c => { c with bank := { c.bank with record := FirstRec.clear BankErrBody.lower s.coreNow {} same } }))
def execRedRecordClear (who : Option (Fin 3)) (f : FieldIx) (q : QuadIx) (same : List RedRecBody) (s : State) : Host.Outcome State Fault Refusal :=
  .next (s.onField who f (fun x => { x with routers := vset x.routers q { x.routers[q] with record := FirstRec.clear RedRecBody.lower s.now {} same } }))
def execUpeFaultClear (who : Option (Fin 3)) (f : FieldIx) (same : List UpeFaultBody) (s : State) : Host.Outcome State Fault Refusal :=
  .next (s.onField who f (Field.onUpe (fun u => { u with fault := FirstRec.clear UpeFaultBody.lower s.now {} same })))
def execFabFaultClear (who : Option (Fin 3)) (same : List FabFaultBody) (s : State) : Host.Outcome State Fault Refusal :=
  .next (if s.allows who then { s with fab := { s.fab with fault := FirstRec.clear FabFaultBody.lower s.now {} same } } else s)
def execAlarmRecordClear (who : Option (Fin 3)) (same : List AlarmBody) (s : State) : Host.Outcome State Fault Refusal :=
  .next (if s.allows who then { s with sec := { s.sec with record := FirstRec.clear AlarmBody.lower s.now {} same } } else s)
def execClrHdr (who : Option (Fin 3)) (k : Site) (n : Nat) (s : State) : Host.Outcome State Fault Refusal :=
  .next (s.onCore who k (fun c => { c with sprHdr := cleared n }))
def execClrDense (who : Option (Fin 3)) (k : Site) (n : Nat) (s : State) : Host.Outcome State Fault Refusal :=
  .next (s.onCore who k (fun c => { c with sprDense := cleared n }))
def execClrSel (who : Option (Fin 3)) (f : FieldIx) (w : SlotIx) (n : Nat) (s : State) : Host.Outcome State Fault Refusal :=
  .next (s.onField who f (Field.onSlot w (fun x => { x with sel := cleared n })))
def execClrAud (who : Option (Fin 3)) (f : FieldIx) (w : SlotIx) (n : Nat) (s : State) : Host.Outcome State Fault Refusal :=
  .next (s.onField who f (Field.onSlot w (fun x => { x with aud := cleared n })))
def execClrMiss (who : Option (Fin 3)) (f : FieldIx) (w : SlotIx) (n : Nat) (s : State) : Host.Outcome State Fault Refusal :=
  .next (s.onField who f (Field.onSlot w (fun x => { x with miss := cleared n })))
def execClrFalse (who : Option (Fin 3)) (f : FieldIx) (w : SlotIx) (n : Nat) (s : State) : Host.Outcome State Fault Refusal :=
  .next (s.onField who f (Field.onSlot w (fun x => { x with false_ := cleared n })))
def execClrFallbacks (who : Option (Fin 3)) (f : FieldIx) (w : SlotIx) (n : Nat) (s : State) : Host.Outcome State Fault Refusal :=
  .next (s.onField who f (Field.onSlot w (fun x => { x with fallbacks := cleared n })))
def execUpeClrBlocks (who : Option (Fin 3)) (f : FieldIx) (n : Nat) (s : State) : Host.Outcome State Fault Refusal :=
  .next (s.onField who f (Field.onUpe (fun u => { u with blocks := cleared n })))
def execUpeClrSkips (who : Option (Fin 3)) (f : FieldIx) (n : Nat) (s : State) : Host.Outcome State Fault Refusal :=
  .next (s.onField who f (Field.onUpe (fun u => { u with skips := cleared n })))
def execClrDiscard (who : Option (Fin 3)) (f : FieldIx) (n : Nat) (s : State) : Host.Outcome State Fault Refusal :=
  .next (s.onField who f (Field.onUpe (fun u => { u with discard := cleared n })))
def execClrRootLate (who : Option (Fin 3)) (f : FieldIx) (n : Nat) (s : State) : Host.Outcome State Fault Refusal :=
  .next (s.onField who f (Field.onUpe (fun u => { u with rootLate := cleared n })))
def execClrRun (who : Option (Fin 3)) (k : Site) (same : Bool) (s : State) : Host.Outcome State Fault Refusal :=
  .next ((s.cutTele who k (fun x => { x with run := 0 })).onCore who k (fun c => { c with idle := { c.idle with run := if same then 1 else 0 } }))
def execClrIdle (who : Option (Fin 3)) (k : Site) (mask : BitVec 8) (same : Option (Fin 8)) (s : State) : Host.Outcome State Fault Refusal :=
  .next ((s.cutTele who k (fun x => { x with idle := (List.range 8).map (fun i => if mask.getLsbD i then 0 else x.idle.getD i 0) })).onCore who k
    (fun c => { c with idle := c.idle.clear mask same }))

def execHaltClear (who : Fin 3) (s : State) : Host.Outcome State Fault Refusal :=
  .next (if s.allows (some who) then s.haltClear else s)

end Sys2Proof.Machine
end

