-- ==== Sys2Proof/Machine/Regs.lean ====
section
/-! DEFINITION. BAR0 writes (R19 to R23, R375, R376, Tables 12.2, 12.3): the register map and the writable fields of every
block. A register that has a command of its own acts through that command; REGISTER_WRITE does the same where the command
takes nothing but the written value. -/

namespace Sys2Proof.Machine

open Sys2Proof

/-- Bits [hi:lo] of a written word. -/
def fld (v : W32) (hi lo : Nat) : Nat := v.toNat / 2 ^ lo % 2 ^ (hi + 1 - lo)

def clamp (lo hi x : Nat) : Nat := max lo (min hi x)

/-- Replace one DW of a 64-bit register. -/
def setHalf (r : W64) (hi : Bool) (v : W32) : W64 :=
  if hi then BitVec.ofNat 64 (r.toNat % 2 ^ 32 + v.toNat * 2 ^ 32) else BitVec.ofNat 64 (r.toNat / 2 ^ 32 * 2 ^ 32 + v.toNat)

/-! ## Blocks -/

/-- VID_ (R317): the recovery, retrace and probe results are W1C. -/
def State.wrVid (s : State) (o : Nat) (v : W32) : State :=
  if !v.msb then s
  else if 0x4000 ≤ o && o < 0x4200 && o % 0x20 = 0x14 then s.updPart ((o - 0x4000) / 0x20) (fun p => { p with snap := { p.snap with rcvValid := false } })
  else if o = 0x4400 then { s with fw := { s.fw with regs := { s.fw.regs with rtrDone := false } } }
  else if o = 0x4410 then { s with fw := { s.fw with regs := { s.fw.regs with prbDone := false } } }
  else s

/-- RCK_ (R372). -/
def State.wrRck (s : State) (o : Nat) (v : W32) : State :=
  match o with
  | 0x00 => { s with rck := { s.rck with refSel := fld v 1 0 } }
  | 0x04 => if v.msb then { s with rck := { s.rck with refLost := false } } else s
  | 0x30 => if v.getLsbD 30 then { s with div := { s.div with bad := false } } else s
  | 0x40 =>
    let t := { s with rck := { s.rck with fmcSel := fld v 30 25, fmcPort := fld v 24 20, fmcGate := fld v 19 0 } }
    if v.msb then t.fmcStart else t
  | 0x44 => if v.msb then { s with rck := { s.rck with fmcDone := false } } else s
  | _ => s

/-- PWT_ (R349, R350). IMBALANCE clears through IMBALANCE_CLEAR. -/
def State.wrPwt (s : State) (o : Nat) (v : W32) : State :=
  match o with
  | 0x10 => { s with pwr := { s.pwr with alarm := s.pwr.alarm &&& ~~~((v.setWidth 9 : BitVec 9) &&& 0x17E#9) } }
  | 0x14 => { s with pwr := { s.pwr with mask := (v.setWidth 9 : BitVec 9) &&& 0x1FE#9 } }
  | 0x18 => { s with pwr := { s.pwr with warn := clamp 80 100 (fld v 31 24), hot := clamp 90 110 (fld v 23 16), droop := clamp 10 60 (fld v 5 0) } }
  | 0x1C => { s with pwr := { s.pwr with stkWarn := clamp 70 90 (fld v 15 8), stkHot := clamp 80 95 (fld v 7 0) } }
  | 0x80 => if v.msb then { s with pwr := { s.pwr with inV := {} } } else s
  | _ => s

/-- TCL_ (R197). -/
def State.wrTcl (s : State) (o : Nat) (v : W32) : State :=
  match o with
  | 0x00 => if v.msb then { s with tg := { s.tg with refused := false } } else s
  | 0x1C => if v.msb then { s with tg := { s.tg with lost := false, lostField := 0 } } else s
  | _ => s

/-- HPO_ but for the rings (R405): the heartbeat timeout and the apertures. -/
def State.wrHpo (s : State) (o : Nat) (v : W32) : State :=
  if o = 4 then { s with host := { s.host with timeout := clamp 10 60000 (fld v 15 0) } }
  else if 0x1000 ≤ o && o < 0x1200 then
    let n := (o - 0x1000) / 8
    { s with host := { s.host with ap := vset s.host.ap n (setHalf (s.host.ap.toList.getD n 0) (o % 8 = 4) v &&& 0xFFFE0000FFFFFFFF#64) } }
  else s

/-- A port's ring registers, from an access on that port (R387, R405). -/
def State.wrRing (s : State) (p : Nat) (o : Nat) (v : W32) : State :=
  let r := s.ring p
  match o with
  | 0x00 =>
    let r1 := { r with poll := fld v 26 16, size := if r.en then r.size else fld v 3 0 }
    if !v.msb then s.setRing p { r1 with en := false } else (s.setRing p r1).ringEnable p p
  | 0x08 => if r.en then s else s.setRing p { r with sq := setHalf r.sq false v &&& ~~~0x3F#64 }
  | 0x0C => if r.en then s else s.setRing p { r with sq := setHalf r.sq true v }
  | 0x10 => if r.en then s else s.setRing p { r with cq := setHalf r.cq false v &&& ~~~0x3F#64 }
  | 0x14 => if r.en then s else s.setRing p { r with cq := setHalf r.cq true v }
  | 0x18 => if r.en then s else s.setRing p { r with seqw := setHalf r.seqw false v &&& ~~~7#64 }
  | 0x1C => if r.en then s else s.setRing p { r with seqw := setHalf r.seqw true v }
  | 0x20 => if r.en then s else s.setRing p { r with startSeq := v }
  | 0x24 => s.setRing p { r with overrun := r.overrun && !v.getLsbD 31, fetchErr := r.fetchErr && !v.getLsbD 30 }
  | _ => s

/-- FAB_ (R275). -/
def State.wrFab (s : State) (o : Nat) (v : W32) : State :=
  if o = 0x80 then (if v.msb then { s with fab := { s.fab with fault := { body := {} } } } else s)
  else if 0xC0 ≤ o && o < 0x100 && o % 4 = 0 then
    (if v.getLsbD 30 then s.updPart ((o - 0xC0) / 4) (fun p => { p with intake := { p.intake with crcBad := false } }) else s)
  else if 0x1000 ≤ o && o < 0x1000 + 28 * 0x40 && o % 0x40 = 4 then
    (if v.getLsbD 28 then s.updPort ((o - 0x1000) / 0x40) (fun q => { q with hbLost := false }) else s)
  else s

/-- SEC_ (R416, R421): the level fields lock at their first write. -/
def State.wrSec (s : State) (o : Nat) (v : W32) : State :=
  match o with
  | 0x100 => if s.sec.cfgLock = 0 then { s with sec := { s.sec with cfg := v.setWidth 8, cfgLock := 0xF#4 } } else s
  | 0x104 =>
    let t := { s with sec := { s.sec with src := s.sec.src &&& ~~~(v.setWidth 4 : BitVec 4) } }
    if v.msb then t.haltClear else t
  | 0x108 => if v.msb then { s with sec := { s.sec with record := { body := {} } } } else s
  | _ => s

/-- The COR_ window of a core (R75, R115, R155, R276). -/
def Core.wrCor (o : Nat) (v : W32) (c : Core) : Core :=
  let z := fun (b : Nat) (x : W32) => if v.getLsbD b then (0 : W32) else x
  match o with
  | 0x10 => if v.msb then { c with fault := { body := {} } } else c
  | 0x80 => { c with chk := { c.chk with suspect := c.chk.suspect &&& ~~~((v >>> 24).setWidth 8 : BitVec 8) } }
  | 0x94 => { c with chk := { c.chk with events := z 0 c.chk.events, skips := z 1 c.chk.skips, blocks := if v.getLsbD 2 then 0 else c.chk.blocks } }
  | 0xA0 => if v.msb then { c with chk := c.chk.clearRecord {} [] } else c
  | 0x20C => { c with sprHdr := z 0 c.sprHdr, sprDense := z 1 c.sprDense }
  | 0x288 =>
    let i := c.idle.clear (v.setWidth 8) none
    { c with idle := { i with run := if v.getLsbD 8 then 0 else i.run } }
  | _ => c

/-- The BNK_ registers of a core (R137). ABORT acts through MARCH_ABORT. -/
def Bank.wrBnk (o : Nat) (v : W32) (dark : Bool) (b : Bank) : Bank :=
  match o with
  | 0x00 => b.writeOwnReg false v
  | 0x04 => b.writeOwnReg true v
  | 0x14 => if v.getLsbD 30 then { b with zfail := false } else b
  | 0x28 => if v.msb then { b with record := { body := {} } } else b
  | 0x40 =>
    let m := { b with march := { b.march with mode := v.getLsbD 1 } }
    if v.getLsbD 0 then m.marchStart dark else m
  | 0x44 => { b with march := { b.march with maskReg := v } }
  | 0x48 => if v.msb then { b with march := { b.march with done := false } } else b
  | _ => b

/-- HBC_WS_ of a slot (R165). -/
def WsSlot.wrWs (o : Nat) (v : W32) (w : WsSlot) : WsSlot :=
  let z := fun (b : Nat) (x : W32) => if v.getLsbD b then (0 : W32) else x
  match o with
  | 0x10 => { w with badmsg := w.badmsg && !v.getLsbD 27 }
  | 0x2C => { w with sel := z 0 w.sel, aud := z 1 w.aud, miss := z 2 w.miss, false_ := z 3 w.false_, fallbacks := z 4 w.fallbacks }
  | _ => w

/-- UPE_ (R233). -/
def Upe.wrUpe (o : Nat) (v : W32) (u : Upe) : Upe :=
  let z := fun (b : Nat) (x : W32) => if v.getLsbD b then (0 : W32) else x
  match o with
  | 0x08 => { u with nonfinite := u.nonfinite && !v.msb }
  | 0x30 => if v.msb then { u with fault := { body := {} } } else u
  | 0x80 => { u with blocks := z 0 u.blocks, skips := z 1 u.skips, discard := z 2 u.discard, rootLate := z 3 u.rootLate }
  | _ => u

/-- Clears of a core's counters cut the TELEMETRY windows that cover it, as the clearing commands do (R400). -/
def State.cutCor (s : State) (k o : Nat) (v : W32) : State :=
  if o = 0x94 && v.toNat % 8 ≠ 0 then s.cutTele none k (fun x => { x with
    events := if v.getLsbD 0 then 0 else x.events, skips := if v.getLsbD 1 then 0 else x.skips, blocks := if v.getLsbD 2 then 0 else x.blocks })
  else if o = 0x288 && v.toNat % 512 ≠ 0 then s.cutTele none k (fun x => { x with
    idle := (List.range 8).map (fun i => if v.getLsbD i then 0 else x.idle.getD i 0), run := if v.getLsbD 8 then 0 else x.run })
  else s

/-- A field window (Table 12.3). -/
def State.wrField (s : State) (f : Nat) (o : Nat) (v : W32) : State :=
  if o < 0x10000 then
    let k := 64 * f + o / 0x400
    if o % 0x400 = 0x98 then (if v.getLsbD 0 then s.injArm none k else s)
    else { s.cutCor k (o % 0x400) v with cores := Tab.upd {} s.cores k (Core.wrCor (o % 0x400) v) }
  else if o < 0x14000 then
    let k := 64 * f + (o - 0x10000) / 0x100
    s.onBank k (Bank.wrBnk (o % 0x100) v (s.dark k))
  else if o < 0x15000 then
    let q := (o - 0x14000) / 0x100
    if o % 0x100 = 8 && v.msb then s.updField f (fun x => { x with routers := vset x.routers q { x.routers.toList.getD q {} with record := { body := {} } } }) else s
  else if o = 0x16020 || o = 0x16120 then (if v.msb then s.updTer (2 * f + (o - 0x16020) / 0x100) (fun t => { t with vdd := {} }) else s)
  else if o = 0x16030 || o = 0x16130 then (if v.msb then s.updTer (2 * f + (o - 0x16030) / 0x100) (fun t => { t with vcs := {} }) else s)
  else if o = 0x16220 then (if v.msb then s.updField f (fun x => { x with pwr := { x.pwr with trnV := {} } }) else s)
  else if 0x18000 ≤ o && o < 0x18800 then s.updField f (Field.onSlot ((o - 0x18000) / 0x40) (WsSlot.wrWs (o % 0x40) v))
  else if 0x1D000 ≤ o && o < 0x1D100 then s.updField f (Field.onUpe (Upe.wrUpe (o % 0x100) v))
  else s

/-! ## The map -/

/-- A BAR0 write of one DW by the agent of a PCIe port (R23, R365, R375, R381, R387, Table 12.2). -/
def State.write32 (s : State) (who : Fin 3) (a : Nat) (v : W32) : State :=
  if who.val = 2 then s
  else if a < 0x200000 then
    (if !s.allowsRck (some who) then s else if a < 0x100000 then s.wrVid a v else s.wrRck (a - 0x100000) v)
  else if !s.rck.ready then s
  else if 0x400100 ≤ a && a < 0x400180 then (if (a - 0x400100) / 0x40 = who.val then s.wrRing who.val ((a - 0x400100) % 0x40) v else s)
  else if s.host.owner ≠ who.val then s
  else if a < 0x300000 then s.wrPwt (a - 0x200000) v
  else if a < 0x400000 then s.wrTcl (a - 0x300000) v
  else if a < 0x500000 then s.wrHpo (a - 0x400000) v
  else if a < 0x600000 then s.wrFab (a - 0x500000) v
  else if a < 0x700000 then s.wrSec (a - 0x600000) v
  else if 0x1000000 ≤ a && a < 0x1600000 then s.wrField ((a - 0x1000000) / 0x20000) ((a - 0x1000000) % 0x20000) v
  else s

/-- REGISTER_WRITE (R375): naturally aligned accesses of 32 or 64 bits; any other is discarded. -/
def State.regWrite (s : State) (who : Fin 3) (a : Nat) (wide : Bool) (v : W64) : State :=
  if wide then (if a % 8 = 0 then (s.write32 who a (v.setWidth 32)).write32 who (a + 4) ((v >>> 32).setWidth 32) else s)
  else if a % 4 = 0 then s.write32 who a (v.setWidth 32) else s

def execRegisterWrite (who : Fin 3) (a : Nat) (wide : Bool) (v : W64) (s : State) : Host.Outcome State Fault Refusal := .next (s.regWrite who a wide v)

end Sys2Proof.Machine
end

