-- ==== Sys2Proof/Machine/Reshard.lean ====
section
/-! DEFINITION. Membership and re-sharding (R262 to R266, R270 to R273). -/

namespace Sys2Proof.Machine

open Sys2Proof

/-- A change of membership that the plan does not cover (R262, R265): the job holds, and firmware asks the host to recompile. -/
def State.beyondLists (s : State) (p : Nat) : State :=
  (s.updPart p (fun y => { y with rs := {}, resharding := false, stopStatus := stBeyondCoverage, hold := if y.hold.contains .reshard then y.hold else .reshard :: y.hold })).emit
    [.event s.host.owner stBeyondCoverage.toNat [p]]

/-- The plan carries a membership size (R248, R273). -/
def Part.carries (x : Part) (d : Nat) : Bool := decide ((((x.plan.bind Plan.job).map JobList.dmin).getD 1) ≤ d) && (x.sizeOf d).isSome

/-- Adopt a new list and begin the re-shard (R262, R264 step 1); below D_min or beyond the staging area the change is beyond
coverage. A FENCE that a faster member has sent already stays. -/
def State.adopt (s : State) (p : Nat) (new : List Member) : State :=
  let x := s.part p
  if !x.carries new.length || !s.stagingFits x new then s.beyondLists p
  else
    s.updPart p (fun y => { y with
      resharding := false
      rs := { stage := 1, fences := if y.rs.stage = 0 then y.rs.fences else [], newList := new, oldList := y.members, expected := y.arriving s.fab.addr y.members new }
      hold := if y.hold.contains .reshard then y.hold else .reshard :: y.hold })

/-- Votes of a list of members. -/
def votes (ms : List Member) : Nat := (ms.map Member.weight).sum

/-- The members reachable from this module (R271). -/
def State.component (s : State) (ms : List Member) : List Member :=
  ms.filter (fun m => m.addr = s.fab.addr || decide (Tab.get 28 s.fab.fwd m.addr < 28))

/-- Table 8.10: whether a component continues. -/
def continues (all comp : List Member) : Bool :=
  votes all < 2 * votes comp ||
    (2 * votes comp = votes all && (match all.find? Member.designated with | some d => comp.contains d | none => false))

/-- What a member that stops with QUORUM_LOST discards (R272): the job's generations, its intake position, its step records and
its re-shard. It remembers the members outside its component, to one of which JOIN will go. -/
def Part.discardJob (x : Part) (comp : List Member) : Part :=
  { x with
    quorumLost := true, stopStatus := stQuorumLost, rs := {}, resharding := false, rcv := {}, retraces := [], past := [], suspects := [], committed := none
    intake := {}, snap := { x.snap with gens := [], taking := none, announced := none, wanted := false }
    rejoin := x.members.filter (fun m => !comp.contains m) }

/-- MEMBERSHIP_DECISION (R271, R272): after 8H of a stable view. A component that does not continue stops with
QUORUM_LOST. -/
def State.decideMembers (s : State) (p : Nat) : State :=
  let x := s.part p
  let comp := s.component x.members
  if !x.on || !x.spans || comp = x.members || s.tg.cyc.toNat < s.fab.viewAt.toNat + 8 * s.hbCycles then s
  else if continues x.members comp then s.adopt p comp
  else (s.sendStop p).updPart p (fun y => y.discardJob comp)

/-- Members in ascending address. -/
def insertMember (m : Member) : List Member → List Member
  | [] => [m]
  | x :: r => if m.addr ≤ x.addr then m :: x :: r else x :: insertMember m r

/-- The rejoining members of a partition are taken in at a commit boundary (R262, R273): appended in ascending address, when the
plan carries the size. The lowest-ranked member first sends them the full parameter set and tells the other members; a JOIN
that the plan does not cover is refused. -/
def State.takeJoins (s : State) (p : Nat) : State :=
  let x := s.part p
  let js := x.joins.foldr insertMember []
  let low := (x.members.head?.map Member.addr) = some s.fab.addr
  if js.isEmpty || !x.started || x.stepOpen || x.rs.stage ≠ 0 then s
  else
    let t := s.updPart p (fun y => { y with joins := [] })
    if !x.carries (x.members ++ js).length then t.emit (if low then js.map (fun m => .module_ m.addr (.joinRefused m.part)) else [])
    else
      let ps := (s.captureRegions p).filter (fun g => g.kind = 1)
      (t.emit (if low then js.map (fun m => Output.module_ m.addr (.params m.part ps)) ++ (s.others x.members).flatMap (fun a => js.map (fun m => .module_ a (.join p m))) else [])).adopt p (x.members ++ js)

/-- JOIN (R273): at the component's lowest-ranked member from the member that rejoins, at the others as that member's notice
(DESIGN CHOICE, log 81). It waits for the next commit boundary. -/
def State.join (s : State) (p : Nat) (m : Member) : State :=
  let x := s.part p
  if !x.started || (x.members ++ x.joins).any (fun y => y.addr = m.addr) then s
  else (s.updPart p (fun y => { y with joins := m :: y.joins })).takeJoins p

/-- The fields whose stack holds a PARAM region of a partition (R263). -/
def State.paramFields (s : State) (p : Nat) : List Nat :=
  (s.fields.filter (fun f => f.2.regions.any (fun r => r.2.en && r.2.part = p && r.2.kind = 1))).map Prod.fst

/-- A cycle n wafer cycles from now. -/
def State.stampIn (s : State) (n : Nat) : Stamp :=
  let per := max 1 (1200 * s.tg.period)
  { tick := s.tg.tick + BitVec.ofNat 48 ((s.tg.ofs + n) / per), ofs := (s.tg.ofs + n) % per }

/-- A controller that holds FENCE(E) from every other member, with its partition in COLLECT, arrives at the fence col
(R264 step 3). The source 0xFFFF marks a controller that has arrived. -/
def State.fenceArrive (s : State) (p f : Nat) : State :=
  let x := s.part p
  if x.rs.stage ≠ 2 || x.rs.fences.contains (f, 0xFFFF) then s
  else if (s.others x.rs.newList).all (fun a => x.rs.fences.contains (f, a)) && (s.field f).upe.phase.toList.getD p .collect = .collect then
    { s.updPart p (fun y => { y with rs := { y.rs with fences := (f, 0xFFFF) :: y.rs.fences } }) with
      arrivals := queueArrival s.arrivals { col := fenceCol p, count := 1, router := 16 * f, from_ := 8 } }
  else s

/-- A flit of this module on VC1 or VC4 that carries epoch E waits at a port (R264 step 2). -/
def State.undrained (s : State) (e : W16) : Bool :=
  s.fab.ports.toList.any (fun q => q.txq.any (fun f => (f.vc = 1 || f.vc = 4) && fieldLE f.bytes 10 2 % 4096 = s.fab.addr && fieldLE f.bytes 12 2 = e.toNat))

/-- RESHARD_DRAIN (R264 step 2): once the port output queues are drained, FENCE(E) goes to every other member and the fence col is armed with a deadline of 1 s. -/
def State.drain (s : State) (p : Nat) : State :=
  let x := s.part p
  if !x.started || x.rs.stage ≠ 1 || x.stepOpen || x.rcv.active || s.undrained x.epoch then s
  else
    let fs := s.paramFields p
    let t := (s.updPart p (fun y => { y with rs := { y.rs with stage := 2, sentFence := true } })).emit ((s.others x.rs.newList).map (fun a => .module_ a (.fence x.epoch)))
    let t := { t with cols := Tab.set {} t.cols (fenceCol p) { en := true, part := p, target := fs.length, st := .armed, dl := some (s.stampIn 1200000000) } }
    fs.foldl (fun (u : State) f => u.fenceArrive p f) t

/-- FENCE (R264 step 3, R266). -/
def State.fence (s : State) (p f src : Nat) (e : W16) : State :=
  let x := s.part p
  if !x.started then s.fabFault p 0 fkClosed src e 0 .none
  else if e ≠ x.epoch then (s.fabFault p 0 fkStale src e 0 .none).staleFails { part := p, epoch := e } fkStale
  else (s.updPart p (fun y => { y with rs := { y.rs with fences := (f, src) :: y.rs.fences } })).fenceArrive p f

/-- PERMUTE_UNIT_ARRIVAL (R252, R264 to R266): a unit of epoch E + 1 whose digest matches lands in the staging area. -/
def State.unitArrival (s : State) (p u : Nat) (bs : List Byte) (sent : W64) : State :=
  let x := s.part p
  if !(x.rs.stage = 4 || x.rs.stage = 5) || !x.rs.expected.contains u || x.rs.arrived.any (fun e => e.1 = u) then s
  else if sent ≠ crc64 bs then (s.fabFault p 0 fkContrib 0 (x.epoch + (if x.rs.stage = 4 then 1 else 0)) 0 .none).failReshard p 0
  else
    let t := match s.stageAt x u with
      | some a => s.updField a.1 (fun f => f.hbmWrite a.2 bs)
      | none => s
    (t.updPart p (fun y => { y with rs := { y.rs with arrived := (u, bs.length) :: y.rs.arrived } })).settle p

/-- PERMUTE_DONE from a member (R264 step 7). -/
def State.permuteDone (s : State) (p src : Nat) : State :=
  if (s.part p).rs.stage < 2 then s
  else (s.updPart p (fun y => { y with rs := { y.rs with doneFrom := src :: y.rs.doneFrom } })).tryResume p

def execMembershipDecision (p : PartIx) (s : State) : Host.Outcome State Fault Refusal := .next (s.decideMembers p)
def execJoin (p : PartIx) (m : Member) (s : State) : Host.Outcome State Fault Refusal := .next (s.join p m)
def execReshardDrain (p : PartIx) (s : State) : Host.Outcome State Fault Refusal := .next (s.drain p)
def execFence (p : PartIx) (f : FieldIx) (src : BitVec 12) (e : W16) (s : State) : Host.Outcome State Fault Refusal := .next (s.fence p f src.toNat e)
def execPermuteUnitArrival (p : PartIx) (u : Nat) (bs : List Byte) (sent : W64) (s : State) : Host.Outcome State Fault Refusal := .next (s.unitArrival p u bs sent)
def execPermuteDone (p : PartIx) (src : BitVec 12) (s : State) : Host.Outcome State Fault Refusal := .next (s.permuteDone p src.toNat)

end Sys2Proof.Machine
end

