-- ==== Sys2Proof/Machine/Mesh.lean ====
section
/-! DEFINITION. The routers: link errors, spare links and routes (R168 to R171, R177), reduction entries (R178 to R180), and
fabric packets that reach a reduction entry (R242). -/

namespace Sys2Proof.Machine

open Sys2Proof

/-! ## Routes that use a link -/

/-- Whether the route from (ax, ay) to (bx, by), X first, passes between (x, y) and its neighbour east (`h`) or north. -/
def routeUses (h : Bool) (x y : Nat) (a b : Nat × Nat) : Bool :=
  if h then a.2 = y && decide (min a.1 b.1 ≤ x) && decide (x < max a.1 b.1)
  else b.1 = x && decide (min a.2 b.2 ≤ y) && decide (y < max a.2 b.2)

/-- The started partitions whose routes use the link of port p of router (f, q); routes that detour are firmware's own, so
then every started partition counts (R171). -/
def State.usersOfLink (s : State) (f q p : Nat) : List Nat :=
  let x := routerX f q
  let y := routerY f q
  if p = 4 || p = 5 then s.usersOfRoute (routeUses true (if p = 4 then x - 1 else x) y) else s.usersOfRoute (routeUses false x (if p = 6 then y - 1 else y))

/-- A link of ports 4 to 7 goes down (R171): a boundary link moves onto a free spare link, another is routed around; the
partitions whose routes used it fault. -/
def State.meshLinkDown (s : State) (f q p : Nat) : State :=
  match neighbour (routerX f q) (routerY f q) p with
  | none => s
  | some _ =>
    let us := s.usersOfLink f q p
    let s := if (s.router f q).port.toList.getD p 0 = 2 then s.loseSpare f q p else s
    let t := if s.canSpare f q p then s.setLink f q p 2 else (s.setLink f q p 3).reroute us
    t.report (us.map (fun i => { part := i, what := .meshLink f q, addr := f * 256 + q * 16 + p }))

/-- The started partitions whose routes use a port that leads to no router (Table 6.1): the core of L0 to L3, the field's
controller of M, and the fabric port or the Vale link of X. -/
def State.usersOfRouterPort (s : State) (f q p : Nat) : List Nat :=
  if p = 8 then s.usersOfField f
  else
    let at_ := (routerX f q, routerY f q)
    (List.range 16).filter (fun i => (s.part i).started &&
      (if p < 4 then ((s.placed i).map Prod.snd).contains (siteAtPort f q p)
       else at_ = (0, 0) || (List.range 28).any (fun j => (s.part i).ports.getLsbD j && passRouter j = at_)))

/-- A port that leads to no router goes down (R171): it has no spare link, and the partitions whose routes used it fault. -/
def State.portDown (s : State) (f q p : Nat) : State :=
  if (s.router f q).port.toList.getD p 0 ≠ 1 then s
  else
    (s.updRouter f q (fun r => { r with port := vset r.port p 3 })).report
      ((s.usersOfRouterPort f q p).map (fun i => { part := i, what := .meshLink f q, addr := f * 256 + q * 16 + p }))

/-- MESH_CRC_ERROR (R171): counted; the sixteenth failure in a row takes the link down. -/
def State.meshCrc (s : State) (f q p : Nat) : State :=
  let n := (s.router f q).streak.toList.getD p 0 + 1
  let t := s.updRouter f q (fun r => { r with crc := satAdd r.crc 1, streak := vset r.streak p (if n = 16 then 0 else n) })
  if n ≠ 16 then t else if 4 ≤ p && p ≤ 7 then t.meshLinkDown f q p else t.portDown f q p

def execMeshCrcError (f : FieldIx) (q : QuadIx) (p : Fin 10) (s : State) : Host.Outcome State Fault Refusal := .next (s.meshCrc f q p)
def execReductionPacket (f : FieldIx) (q : QuadIx) (p : Fin 10) (id : BitVec 10) (len : Nat) (payload : List W32) (s : State) : Host.Outcome State Fault Refusal :=
  .next (s.reductionPacket f q p id.toNat len payload)
end Sys2Proof.Machine
end

