-- ==== Sys2Proof/Machine/Gens.lean ====
section
/-! DEFINITION. Snapshot generations: what they hold (R280, R282), their size (R282), the rate towards the holder (R284), the
interval (R291), the choice of a restart generation (R289), and the restore of one (R282, R164, R227). -/

namespace Sys2Proof.Machine

open Sys2Proof

def stSnapTooLarge : W16 := 0x0502#16
def stNoSnapshot : W16 := 0x0503#16
def stPlanFault : W16 := 0x0507#16

/-- The rules in use by a partition's PARAM regions on a field. -/
def Field.rulesOf (f : Field) (p : Nat) : List Nat := (((f.snapRegions p).filter (fun r => r.kind = 1)).map Region.rule).dedup

/-- The partition state record (R280). -/
def State.captureRecord (s : State) (p : Nat) : PartRec :=
  let x := s.part p
  { step := x.committed.getD (x.step - 1), seed := x.seed, epoch := x.epoch, members := x.members
    powers := s.fields.flatMap (fun f => (f.2.rulesOf p).map (fun k => (f.1, k, Tab.get (Vector.replicate 4 0x3F800000#32) f.2.upe.powers k)))
    rates := s.fields.flatMap (fun f => (f.2.rulesOf p).map (fun k => (f.1, k, (f.2.rule k).eta, (f.2.rule k).lambda)))
    ws := s.fields.flatMap (fun f => (f.2.ws.toList.mapIdx (fun i w => (f.1, i, w))).filter (fun w => w.2.2.en && w.2.2.part = p))
    bindings := s.fields.flatMap (fun f => (f.2.bindings.filter (fun b => b.2.en && b.2.part = p)).map (fun b => (f.1, b.1, b.2.active, b.2.newroot)))
    intakePos := x.intake.pos, detour := x.detour }

/-! ## Rates and the interval -/

/-- The UP fabric-mode ports with a route to a module (R284). -/
def State.portsTo (s : State) (a : Nat) : List Nat :=
  let far := farLinks s.fab.addr s.fab.view
  (s.upPorts.filter (fun u => u.2 = a || decide (Tab.get 9999 (distFrom far.length far (Tab.set 9999 [] u.2 0)) a < 9999))).map Prod.fst

/-- Whether the holder can be reached. -/
def State.holderUp (s : State) : Bool := s.fab.holder ≠ 0xFFF && !s.fab.unprotected && decide (Tab.get 28 s.fab.fwd s.fab.holder < 28)

/-- B in bytes per µs towards the holder (R284). -/
def State.nearRate (s : State) (p : Nat) : Nat :=
  if (s.part p).snap.rateB ≠ 0 then (s.part p).snap.rateB else 171350 * (s.portsTo s.fab.holder).length

/-- Own flash and shelf: 48 GB/s (R284, R290). -/
def flashRate : Nat := 48000

def State.rateOf (s : State) (p : Nat) : Nat := if (s.part p).snap.ownFlash || !s.holderUp then flashRate else max 1 (s.nearRate p)

/-- The integer square root, bit k downwards. -/
def isqrtGo : Nat → Nat → Nat → Nat
  | 0, _, r => r
  | k + 1, n, r => if (r + 2 ^ k) * (r + 2 ^ k) ≤ n then isqrtGo k n (r + 2 ^ k) else isqrtGo k n r

def isqrt (n : Nat) : Nat := isqrtGo 160 n 0

/-- N of adaptive mode (R291): ⌊(√(2δM) − δ) ÷ t̄⌋ in exact arithmetic, with δ = 15 ms + size ÷ rate (bytes, bytes per µs), M in
ms, and t̄ the mean of `steps`, which are wafer cycles; clamped to [N_MIN, N_MAX] and at least 1. -/
def adaptiveN (size rate mMs nMin nMax : Nat) (steps : List Nat) : Nat :=
  let d := 15000 * rate + size
  let c := 1200 * steps.length
  let t := steps.sum
  let root := isqrt (2 * d * (1000 * mMs) * rate * c * c)
  let n := if root ≤ c * d || t = 0 then nMin else (root - c * d) / (t * rate)
  max 1 (min nMax (max nMin n))

/-- The snapshot interval in force (R291); none with MODE 0. -/
def State.interval (s : State) (p : Nat) : Option Nat :=
  let x := (s.part p).snap
  match x.policy.mode with
  | 1 => some (adaptiveN x.size (s.rateOf p) x.mtbfMs x.policy.n x.policy.nMax x.stepCyc)
  | 2 => some x.policy.n
  | _ => none

/-! ## The restart generation -/

/-- An Ethernet-mode port is UP. -/
def State.ethUp (s : State) : Bool := s.fab.ports.toList.any (fun q => q.eth && q.st = .up)

/-- The first source of R289 that holds a generation: 0 near, 1 shelf, 2 store, 3 own flash. -/
def State.genSource (s : State) (g : Gen) : Option Nat :=
  if g.near && s.holderUp then some 0
  else if g.shelf && s.holderUp then some 1
  else if g.store && s.ethUp then some 2
  else if g.own then some 3
  else none

/-- The newest job-valid generation with a source (R289). -/
def State.restartGen (s : State) (p : Nat) : Option Gen := (s.part p).snap.gens.find? (fun g => g.jobValid && (s.genSource g).isSome)

/-- The generation a restart uses: the one named, or the newest, of those that `common` holds of (R289). -/
def State.chosenGen (s : State) (p : Nat) (common : W64 → Bool := fun _ => true) : Option Gen :=
  match (s.part p).rcv.gen with
  | some id => (s.part p).snap.gens.find? (fun g => g.id = id && g.jobValid && common g.id && (s.genSource g).isSome)
  | none => (s.part p).snap.gens.find? (fun g => g.jobValid && common g.id && (s.genSource g).isSome)

/-! ## Restore -/

/-- A region of a placement matches a region of a generation (R282). -/
def GenRegion.fits (g : GenRegion) (r : Region) (rule : Rule) : Bool :=
  g.handle = r.handle && g.kind = r.kind && g.len = r.len &&
    (r.kind ≠ 1 || (g.efmt = r.efmt && g.sfmt = r.sfmt && g.master = r.master && g.nslot = rule.nslot && g.sbf16 % 2 ^ rule.nslot = rule.sbf16 % 2 ^ rule.nslot))

/-- The regions of a placement that a snapshot covers. -/
def Placement.held (pl : Placement) : List PlanRegion := pl.regions.filter (fun r => r.r.kind = 1 || r.r.kind = 4)

/-- A generation fits a plan's placement (R282). -/
def Gen.fits (g : Gen) (plan : Plan) (pl : Placement) : Bool :=
  pl.held.all (fun r => g.regions.any (fun x => x.fits r.r (plan.ruleOf r.field r.r.rule))) &&
    g.regions.all (fun x => pl.held.any (fun r => x.fits r.r (plan.ruleOf r.field r.r.rule)))

/-- The regions of partition p on a field, restored. -/
def Field.restoreRegions (f : Field) (p : Nat) (gs : List GenRegion) : Field :=
  (f.snapRegions p).foldl (fun (x : Field) r =>
    match gs.find? (fun g => g.handle = r.handle) with
    | some g => x.restoreRegion g r
    | none => x) f

/-- A value of the record for a rule: that of the same field, else of any field. -/
def recFind {α : Type} (l : List (Nat × Nat × α)) (f k : Nat) : Option α :=
  match l.find? (fun e => e.1 = f && e.2.1 = k) with
  | some e => some e.2.2
  | none => (l.find? (fun e => e.2.1 = k)).map (fun e => e.2.2)

/-- The rule state, watershed states and bindings of a record on one field (R164, R225, R227, R280, R282). -/
def Field.restoreRecord (f : Field) (fi p : Nat) (rec_ : PartRec) : Field :=
  let rules := (f.rulesOf p).foldl (fun (t : Tab Rule) k =>
    match recFind rec_.rates fi k with
    | some r => Tab.upd {} t k (fun x => { x with eta := r.1, lambda := r.2 })
    | none => t) f.rules
  let powers := (f.rulesOf p).foldl (fun (t : Tab (Vector W32 4)) k =>
    Tab.set (Vector.replicate 4 0x3F800000#32) t k ((recFind rec_.powers fi k).getD (Vector.replicate 4 0x3F800000#32))) f.upe.powers
  let ws : Vector WsSlot 32 := Vector.ofFn (fun i =>
    let w := f.ws[i]
    if w.en && w.part = p then
      match recFind rec_.ws fi i.val with
      | some o => { w with run := o.run, fallback := o.fallback, remain := o.remain, ctr := o.ctr, batches := [], formed := [] }
      | none => { w with run := 0, fallback := false, remain := 0, ctr := 0, batches := [], formed := [] }
    else w)
  let bs : Tab Binding := f.bindings.map (fun b =>
    if b.2.en && b.2.part = p then
      match recFind rec_.bindings fi b.1 with
      | some v => (b.1, { b.2 with active := v.1, newroot := v.2, jobRunning := false })
      | none => b
    else b)
  { f with rules := rules, upe := { f.upe with powers := powers }, ws := ws, bindings := bs }

/-- Restore a generation into partition p, whose plan and placement are loaded (R282). -/
def State.restoreGen (s : State) (p : Nat) (g : Gen) : State :=
  let fs := (s.regionFields p ++ (s.fields.filter (fun f => f.2.ws.toList.any (fun w => w.en && w.part = p))).map Prod.fst).dedup
  let t := s.updFields fs (fun i f => (f.restoreRegions p g.regions).restoreRecord i p g.rec_)
  t.updPart p (fun x => { x with
    step := g.id + 1, nextStep := g.id + 1, committed := some g.id, seed := g.rec_.seed, epoch := g.rec_.epoch, fresh := false
    intake := { x.intake with pos := g.rec_.intakePos, landed := [], fetching := [], stalled := false }
    snap := { x.snap with since := 0 } })

end Sys2Proof.Machine
end

