-- ==== Sys2Proof/Machine/Watershed.lean ====
section
/-! DEFINITION. The watershed units of the HBM controllers (R156 to R162): selections, audit draws, fetch records, activity
reports and dense periods. -/

namespace Sys2Proof.Machine

open Sys2Proof

/-- The bits of a mask below `n`, ascending. -/
def maskBits (n m : Nat) : List Nat := (List.range n).filter m.testBit

/-- A mask from its bits. -/
def maskOf (l : List Nat) : Nat := l.foldl (fun a i => a ||| 2 ^ i) 0

/-- Exchange elements i and x of a list. -/
def swapAt (l : List Nat) (i x : Nat) : List Nat := (l.set i (l.getD x 0)).set x (l.getD i 0)

/-- The audit draw of R159: `draw` gives the 16-bit draws in order. -/
def auditSwaps (u : Nat) (draw : Nat → Nat) : Nat → Nat → List Nat → List Nat
  | 0, _, l => l
  | a + 1, i, l => auditSwaps u draw a (i + 1) (swapAt l i (i + draw i * (u - i) / 2 ^ 16))

/-- The audited blocks among the unselected ones (R158, R159). -/
def auditOf (key : W64) (stream : W32) (ctr : BitVec 48) (un : List Nat) : List Nat :=
  let a := (un.length + 15) / 16
  (auditSwaps un.length (fun i => laneDraw key stream ctr i) a 0 un).take a

/-- A 144-byte fetch record (Table 5.6). -/
def fetchRecord (slot mb n : Nat) (dense : Bool) (mask : Nat) : List Byte :=
  bytesLE mb 2 ++ bytesLE slot 1 ++ bytesLE 2 1 ++ bytesLE n 2 ++ bytesLE (if dense then 1 else 0) 1 ++ bytesLE 0 9 ++ bytesLE mask 128

/-- The source that a controller's packets carry on the mesh: no core site. -/
def controllerSrc (f : Nat) : Nat := 4096 + f

def Field.slot (f : Field) (n : Nat) : WsSlot := f.ws.toList.getD n {}
def Field.setSlot (f : Field) (n : Nat) (w : WsSlot) : Field := { f with ws := vset f.ws n w }

/-- A message out of place (R162). -/
def WsSlot.bad (w : WsSlot) : WsSlot := { w with badmsg := true }

/-- The fetched set of a formed micro-batch: its final mask (R158). -/
def WsBatch.final (b : WsBatch) (nblk : Nat) : Nat := if b.dense then 2 ^ nblk - 1 else b.sel ||| b.audited

/-- Form the fetch list of micro-batch m of a step (R158, R159, R161). -/
def WsSlot.form (w : WsSlot) (key : W64) (stream : W32) (step : W64) (m sel : Nat) : WsSlot :=
  let s := sel % 2 ^ w.nblk
  if w.fallback then
    let left := w.remain - 1
    { w with
      remain := left, fallback := decide (0 < left)
      batches := w.batches ++ [{ step := step, mb := m, sel := s, dense := true }]
      formed := w.formed ++ [m] }
  else
    let un := (List.range w.nblk).filter (fun i => !s.testBit i)
    let au := auditOf key stream w.ctr un
    { w with
      sel := satAdd w.sel (maskBits w.nblk s).length
      ctr := w.ctr + BitVec.ofNat 48 ((au.length + 3) / 4)
      batches := w.batches ++ [{ step := step, mb := m, sel := s, audited := maskOf au, aCount := au.length }]
      formed := w.formed ++ [m] }

/-- The step that a partition is in: the last one begun. -/
def Part.stepNow (x : Part) : W64 := x.nextStep - 1

/-- Key of the audit draws of a step (R159). -/
def auditKey (x : Part) : W64 := gen (stepSeed x.seed x.stepNow) 0xFFFFFFFE#32 0

/-- The fetch record leaves for every core of the layer (R158): the packet posts the slot's semaphore as it lands. -/
def State.sendRecord (s : State) (f slot mb mask : Nat) (dense : Bool) : State :=
  let w := (s.field f).slot slot
  let rec_ := fetchRecord slot mb (maskBits w.nblk mask).length dense mask
  let x := s.part w.part
  let ks := w.cores.filterMap (fun l => x.siteOf x.placement l)
  { s with mesh := s.mesh ++ ks.map (fun k =>
      ({ src := controllerSrc f, kind := 0, dst := k, addr := w.frecAddr, bytes := rec_, rsemEn := true, rsem := w.frecSem } : MeshPkt)) }

/-- The stack address of the final mask of micro-batch m (R158). -/
def WsSlot.maskAddr (w : WsSlot) (m : Nat) : Nat := 128 * w.mbase + 128 * m

/-- WS_SELECTION (R158, R162). -/
def State.wsSelection (s : State) (f n m sel : Nat) : State :=
  let w := (s.field f).slot n
  if !w.en || w.formed.contains m then s.updField f (fun x => x.setSlot n w.bad)
  else
    let w1 := w.form (auditKey (s.part w.part)) (BitVec.ofNat 32 (32 * f + n)) (s.part w.part).stepNow m sel
    let b := w1.batches.getLast?.getD {}
    let mask := b.final w.nblk
    (s.updField f (fun x => (x.hbmWrite (w.maskAddr m) (bytesLE mask 128)).setSlot n w1)).sendRecord f n m mask b.dense

/-- The evaluation of a micro-batch with its reports ORed into y (R160, R161). -/
def WsSlot.evaluate (w : WsSlot) (b : WsBatch) (y : Nat) : WsSlot :=
  if b.dense then w
  else
    let misses := (maskBits w.nblk (y &&& b.audited)).length
    let false_ := ((maskBits w.nblk b.sel).filter (fun i => !y.testBit i)).length
    let w := { w with
      lastA := b.aCount, lastMiss := misses
      aud := satAdd w.aud b.aCount, miss := satAdd w.miss misses, false_ := satAdd w.false_ false_ }
    if w.fallback then w
    else if w.missBound * b.aCount < 256 * misses then
      (if w.run + 1 = 4 then { w with run := 0, fallback := true, remain := w.denseSlots, fallbacks := satAdd w.fallbacks 1 }
       else { w with run := w.run + 1 })
    else { w with run := 0 }

/-- WS_ACTIVITY_REPORT (R160 to R162). -/
def WsSlot.report (w : WsSlot) (m act : Nat) : WsSlot :=
  match w.batches.find? (fun b => b.mb = m) with
  | none => w.bad
  | some b =>
    if !w.en || w.reports ≤ b.reports then w.bad
    else
      let y := b.y ||| (act % 2 ^ w.nblk)
      let b1 := { b with reports := b.reports + 1, y := y }
      let w1 := { w with batches := w.batches.map (fun x => if x.mb = m then b1 else x) }
      if b1.reports = w.reports then w1.evaluate b y else w1

def execWsSelection (f : FieldIx) (n : SlotIx) (m : W16) (sel : BitVec 1024) (s : State) : Host.Outcome State Fault Refusal :=
  .next (s.wsSelection f n m.toNat sel.toNat)
def execWsActivityReport (f : FieldIx) (n : SlotIx) (m : W16) (act : BitVec 1024) (s : State) : Host.Outcome State Fault Refusal :=
  .next (s.updField f (fun x => x.setSlot n ((x.slot n).report m.toNat act.toNat)))

end Sys2Proof.Machine
end

