-- ==== Sys2Proof/Machine/Stream.lean ====
section
/-! DEFINITION. The stream lists of the HBM controllers (R203 to R206, R208, R211) and the backward masks of watershed
streams (R163). -/

namespace Sys2Proof.Machine

open Sys2Proof

def Core.streamEntry (c : Core) : StreamEntry := c.streams.getD c.stream.entry {}

/-- The partition whose plan is started and places site k. -/
def State.runsOn (s : State) (k : Nat) : Option Nat := (s.partOfSite k).filter (fun p => (s.part p).started)

/-- The tiles of one block among NBLK equal groups (R203). -/
def blockTiles (e : StreamEntry) (nblk i : Nat) : List Nat :=
  let npb := e.ntile / nblk
  (List.range npb).map (· + npb * i)

/-- A stream with transposed tiles that follows a slot is the dX stream of R163. -/
def StreamEntry.backward (e : StreamEntry) : Bool := e.xp ≠ 0

/-- A micro-batch's fetched blocks for a forward pass of a step: known once its list is formed (R158). -/
def WsSlot.listOf (w : WsSlot) (step : W64) (m : Nat) : Option (List Nat) :=
  (w.batches.find? (fun b => b.mb = m && b.step = step)).map (fun b => maskBits w.nblk (b.final w.nblk))

/-- Prepare the present pass of site k's entry: all its tiles, or those of the blocks that R158 or R163 lists. A forward pass
waits until its list is formed; a backward pass reads the final mask from the stack and writes it as a fetch record, to the streaming
core only and with its FREC semaphore posted (DESIGN CHOICE, log 71). -/
def State.preparePass (s : State) (k : Nat) : State :=
  let c := s.core k
  let e := c.streamEntry
  let go := fun (t : State) (l : List Nat) => t.setCore k { c with stream := { c.stream with ready := true, todo := l, moved := 0 } }
  if c.stream.ready then s
  else if !e.wsen then go s (List.range e.ntile)
  else
    let f := k / 64
    let w := (s.field f).slot e.wslot
    let m := e.mb0 + c.stream.pass
    if !e.backward then
      match w.listOf (c.stream.step.getD 0) m with
      | none => s
      | some bs => go s (bs.flatMap (blockTiles e w.nblk))
    else
      match (s.field f).hbmRead (w.maskAddr m) 128 with
      | .error u => s.failCore k 0x51 u c.seq.pc
      | .ok bytes =>
        let mask := natLE bytes % 2 ^ w.nblk
        let dense := ((w.batches.find? (fun b => b.mb = m)).map WsBatch.dense).getD false
        let bs := maskBits w.nblk mask
        let pkt : MeshPkt := { src := controllerSrc f, kind := 0, dst := k, addr := w.frecAddr, bytes := fetchRecord e.wslot m bs.length dense mask, rsemEn := true, rsem := w.frecSem }
        let t : State := { s with mesh := s.mesh ++ [pkt] }
        go t (bs.flatMap (blockTiles e w.nblk))

/-- The step whose stream an entry belongs to (R203): a STEP entry begins the next one, the first the step at which the plan
started. -/
def Core.nextStream (c : Core) (first : W64) : Option W64 :=
  if c.streamEntry.step || c.stream.step.isNone then some ((c.stream.step.map (· + 1)).getD first) else c.stream.step

/-- STREAM_ENTRY_START (R203): the next entry of site k starts; a STEP entry only while the partition is not held. -/
def State.streamStart (s : State) (k : Nat) : State :=
  let c := s.core k
  match s.runsOn k with
  | none => s
  | some p =>
    if c.stream.active || c.streams.isEmpty || c.seq.st = .faulted then s
    else if c.streamEntry.step && (!(s.part p).hold.isEmpty || c.held) then s
    else (s.setCore k { c with stream := { c.stream with step := c.nextStream (s.part p).step, active := true, pass := 0, ready := false, todo := [], moved := 0 } }).preparePass k

/-- Whether a block of the tile at a stack address is PENDING (R204). -/
def Field.tilePending (f : Field) (addr : Nat) : Bool :=
  f.regions.any (fun r =>
    r.2.en && r.2.kind = 1 && !r.2.frozen && decide (64 * r.2.base ≤ addr) && decide (addr < 64 * r.2.base + r.2.bytes) &&
      (let t := (addr - 64 * r.2.base) / r.2.stride
       (List.range (512 * r.2.g)).any (fun i => f.pendingBit r.2 (512 * r.2.g * t + i))))

/-- A stream fault at its receiving core (R232): the core faults and its stream ends. -/
def State.streamFail (s : State) (k kind d : Nat) : State :=
  let c := s.core k
  (s.setCore k { c with stream := { c.stream with active := false } }).failCore k kind d c.seq.pc

/-- A tile has gone: after the last of a pass the entry's semaphore is posted by 1; after the last pass the list moves on
(R203). -/
def State.tileGone (s : State) (k count : Nat) : State :=
  let c := s.core k
  let e := c.streamEntry
  let left := c.stream.todo.drop count
  if !left.isEmpty then s.putCore k { c with stream := { c.stream with todo := left, moved := 0 } }
  else
    let pos : StreamPos :=
      if c.stream.pass + 1 < e.rep then { c.stream with pass := c.stream.pass + 1, ready := false, todo := [], moved := 0 }
      else { step := c.stream.step, entry := if e.last || c.streams.length ≤ c.stream.entry + 1 then 0 else c.stream.entry + 1 }
    match { c with stream := pos }.post e.sem 1 with
    | (c1, .fault kd d) => (s.setCore k { c1 with stream := { c1.stream with active := false } }).failCore k kd d c1.seq.pc
    | (c1, _) => s.putCore k c1

/-- STREAM_TILE_SEND (R203, R204): the next tile of site k goes into its window, as far as the window has space. It waits for
the fetch record of a watershed stream and, before its first byte, for the PENDING bits of its blocks. -/
def State.streamSend (s : State) (k : Nat) : State :=
  match s.runsOn k with
  | none => s
  | some _ =>
    if !(s.core k).stream.active then s
    else
      let s := s.preparePass k
      let c := s.core k
      let e := c.streamEntry
      let f := s.field (k / 64)
      if !c.stream.ready || !c.stream.active || (e.wsen && s.mesh.any (fun m => m.dst = k && m.src = controllerSrc (k / 64))) then s
      else match c.stream.todo with
        | [] => s.tileGone k 0
        | t :: _ =>
          let u := e.unitAt f t
          if u.bad then s.streamFail k 0x52 (256 * c.stream.entry + e.xp)
          else if c.stream.moved = 0 && u.addrs.any f.tilePending then s
          else match f.readAll u.len u.addrs with
            | .error x => s.streamFail k 0x51 x
            | .ok raws =>
              let bytes := (u.out raws).drop c.stream.moved
              let n := min bytes.length (c.window e.win).space
              if n = 0 && !bytes.isEmpty then s
              else match c.produce .dma s.coreNow e.win (bytes.take n) with
                | (c1, .wait _) => s.setCore k c1
                | (c1, .fault kd d) => (s.setCore k c1).streamFail k kd d
                | (c1, .ok _) =>
                  if n < bytes.length then s.putCore k { c1 with stream := { c1.stream with moved := c1.stream.moved + n } }
                  else (s.setCore k c1).tileGone k u.count

def execStreamEntryStart (k : Site) (s : State) : Host.Outcome State Fault Refusal := .next (s.streamStart k)
def execStreamTileSend (k : Site) (s : State) : Host.Outcome State Fault Refusal := .next (s.streamSend k)

end Sys2Proof.Machine
end

