-- ==== Sys2Proof/Machine/Upe.lean ====
section
/-! DEFINITION. The update engine: gradient writes and their faults (R218, R219, R214, R231), the global norm and the clip
(R220), the recurrence table (R221 to R227) and preconditioners (R229, R230). -/

namespace Sys2Proof.Machine

open Sys2Proof

def one32 : W32 := 0x3F800000#32

/-! ## Faults and phases -/

/-- Engine fault kinds (Table 7.11). -/
def ekGradLate : Nat := 1
def ekGradFrozen : Nat := 2
def ekHbmUncorr : Nat := 3
def ekBankUncorr : Nat := 5
def ekBadMsg : Nat := 6

/-- Record an engine fault and report it; the engine's work for the partition stops until the partition has stopped (R231). -/
def State.engineFault (s : State) (f p kind region addr : Nat) : State :=
  let t := s.updField f (fun x => { x with upe := { x.upe with fault := x.upe.fault.note UpeFaultBody.lower s.now { part := p, kind := kind, region := region, addr := BitVec.ofNat 32 addr }, halted := x.upe.halted ||| BitVec.ofNat 16 (2 ^ p) } })
  t.report [{ part := p, what := .engine kind f, addr := addr }]

/-- The engine's work for a partition has stopped at a fault (R231). -/
def Field.halted (f : Field) (p : Nat) : Bool := f.upe.halted.getLsbD p

def Field.phase (f : Field) (p : Nat) : UpePhase := f.upe.phase.toList.getD p .collect
def Field.setPhase (f : Field) (p : Nat) (x : UpePhase) : Field := { f with upe := { f.upe with phase := vset f.upe.phase p x } }

/-! ## Gradient writes -/

/-- 64-byte units of a region's GRAD area (R437). -/
def Region.gradUnits (r : Region) : Nat := 1024 * r.g * r.len

/-- What is wrong with a gradient write: outside a GRAD area, frozen, or late (R207, R214, R219). -/
inductive GradBad where
  | range | frozen | late
  deriving DecidableEq, Repr

def Field.gradBad (f : Field) (n unit : Nat) : Option GradBad :=
  let r := f.region n
  if !r.en || r.kind ≠ 1 || r.gradUnits ≤ unit then some .range
  else if r.frozen then some .frozen
  else if f.phase r.part ≠ .collect then some .late
  else none

/-- The first uncorrectable unit that a gradient write reads (R206, R218): FMASK, and for ADD the stored values and MAP. -/
def Field.gradUnread (f : Field) (r : Region) (unit : Nat) (add : Bool) : Option Nat :=
  let bs := r.unitBlocks unit
  let fm := if r.fmen then bs.map (fun i => r.fmask + i / 512) else []
  let old := if add then bs.map (fun i => r.map + i / 256) ++ (if bs.any (f.touched r) then [r.grad + unit] else []) else []
  (fm ++ old).find? f.hbmBad.contains

/-- GRADIENT_WRITE (R214, R218, R219): a core's bad write is the core's fault, a fabric or tree write the engine's. A write
for a partition with no plan started is discarded; a fabric write is judged as its packet (R254, R266). -/
def State.gradientWrite (s : State) (f n unit : Nat) (add : Bool) (vals : List W32) (src : GradSrc) : State :=
  let x := s.field f
  let r := x.region n
  let ok := match x.gradUnread r unit add with
    | some u => s.engineFault f r.part ekHbmUncorr n u
    | none => s.updField f (fun y => y.gradWrite r unit add (vals.take 16))
  match src with
  | .core k =>
    if s.runsOn k ≠ some r.part then (if (s.runsOn k).isSome then s.failCore k 0x50 (r.grad + unit) (s.core k).seq.pc else s)
    else match x.gradBad n unit with
      | some .range => s.failCore k 0x50 (r.grad + unit) (s.core k).seq.pc
      | some .frozen => s.failCore k 0x53 n (s.core k).seq.pc
      | some .late => s.failCore k 0x54 n (s.core k).seq.pc
      | none => ok
  | .tree =>
    if !(s.part r.part).started then s
    else match x.gradBad n unit with
      | some .range => s
      | some .frozen => s.engineFault f r.part ekGradFrozen n (r.grad + unit)
      | some .late => s.engineFault f r.part ekGradLate n (r.grad + unit)
      | none => ok
  | .fabric port from_ e =>
    match s.judgePacket { vc := 1, part := r.part, src := from_, epoch := e, tkind := 1 } with
    | some kind => (s.fabFault r.part port kind from_ e 0 .none).staleFails { part := r.part, epoch := e } kind
    | none =>
      match x.gradBad n unit with
      | some .range => s
      | some .frozen => s.engineFault f r.part ekGradFrozen n (r.grad + unit)
      | some .late => s.engineFault f r.part ekGradLate n (r.grad + unit)
      | none => ok

/-! ## Blocks -/

/-- The trained regions of a partition on a stack, by number: PARAM, not frozen. -/
def Field.trained (f : Field) (p : Nat) : List (Nat × Region) :=
  f.regions.filter (fun r => r.2.en && r.2.part = p && r.2.kind = 1 && !r.2.frozen)

/-- The touched blocks of a region whose FMASK bit is 0, ascending. -/
def Field.liveBlocks (f : Field) (r : Region) : List Nat := (List.range r.blocks).filter (fun i => f.touched r i && !f.masked r i)

/-- The units that tell the engine what a region's blocks hold: MAP, FMASK, and of each live block's tile the header and the
codes or bitmaps (R143, R149, R201). -/
def Field.mapUnits (f : Field) (r : Region) : List Nat :=
  let tiles := ((f.liveBlocks r).map (fun i => (r.place i).1)).dedup
  wordsOf (64 * r.map) ((r.blocks + 3) / 4) ++ (if r.fmen then wordsOf (64 * r.fmask) ((r.blocks + 7) / 8) else []) ++
    (if r.sfmt = 0 then [] else tiles.flatMap (fun t =>
      let lay := f.lay r t
      r.tileAddr t / 64 :: wordsOf (r.tileAddr t + lay.codes) (if r.sfmt = 4 then lay.vals - lay.codes else lay.scales - lay.codes)))

/-- The 64-byte units that the engine reads for block i: gradients, slots, master, elements and scale. -/
def Field.blockUnits (f : Field) (r : Region) (rule : Rule) (i : Nat) : List Nat :=
  let p := r.place i
  let lay := f.lay r p.1
  let cs := f.cells r i
  (cs.map (fun c => r.gradAddr i c.1 / 64)) ++
    (List.range (min rule.nslot 4)).flatMap (fun k => wordsOf (64 * r.slot.toList.getD k 0 + slotBytes rule k * i) (slotBytes rule k)) ++
    (if r.master then wordsOf (64 * r.masterBase + 128 * i) 128 else []) ++
    (cs.map (fun c => (r.tileAddr p.1 + lay.vals + elemBits r.efmt * c.2 / 8) / 64)) ++
    (if r.efmt = 6 then [] else [(r.tileAddr p.1 + lay.scales + 4 * p.2.1 + p.2.2) / 64])

/-- The first unit of a list that reads uncorrectable (R206). -/
def Field.badUnit (f : Field) (us : List Nat) : Option Nat := us.find? f.hbmBad.contains

/-! ## The norm (R220) -/

/-- Σ g² of a block over its retained elements: each square rounded, the fixed tree over 32 leaves. -/
def Field.blockSsq (f : Field) (r : Region) (i : Nat) : W32 :=
  let cs := (f.cells r i).map Prod.fst
  fixedTree 5 ((List.range 32).map (fun x => if cs.contains x then fmul32 (f.f32 (r.gradAddr i x)) (f.f32 (r.gradAddr i x)) else 0#32))

/-- The engine's total, or the unit that could not be read with its region. -/
def Field.normBlocks (f : Field) (n : Nat) (r : Region) : List Nat → W32 → Except (Nat × Nat) W32
  | [], acc => .ok acc
  | i :: rest, acc =>
    match f.badUnit ((f.cells r i).map (fun c => r.gradAddr i c.1 / 64)) with
    | some u => .error (n, u)
    | none => f.normBlocks n r rest (fadd32 acc (f.blockSsq r i))

def Field.normRegions (f : Field) : List (Nat × Region) → W32 → Except (Nat × Nat) W32
  | [], acc => .ok acc
  | (n, r) :: rest, acc =>
    match f.badUnit (f.mapUnits r) with
    | some u => .error (n, u)
    | none =>
      match f.normBlocks n r (f.liveBlocks r) acc with
      | .error e => .error e
      | .ok v => f.normRegions rest v

/-- An engine's total as a one-flit VC1 packet: lane 0 of 32, the others +0. It enters the mesh at the M port of the field's
router of quad 0 (DESIGN CHOICE, log 78). -/
def normPacket (f redId : Nat) (v : W32) : MeshPkt :=
  { src := controllerSrc f, kind := 5, dst := f, vc := 1, bytes := bytesLE v.toNat 128, id := redId, at_ := 16 * f, from_ := 8, to_ := 16 * f }

/-- NORM_MESSAGE (R220 step 1, Table 7.11). A message for a partition with no plan started is discarded. -/
def State.normMessage (s : State) (f p : Nat) : State :=
  let x := s.field f
  if !(s.part p).started || x.halted p then s
  else if x.phase p ≠ .collect then s.engineFault f p ekBadMsg 0 0
  else
    let t := s.updField f (fun y => y.setPhase p .norm)
    match x.normRegions (x.trained p) 0#32 with
    | .error (n, u) => t.engineFault f p ekHbmUncorr n u
    | .ok v =>
      let u := t.updField f (fun y => { y with upe := { y.upe with ssq := v } })
      { u with mesh := u.mesh ++ [normPacket f x.upe.redId v] }

/-! ## The clip (Table 7.7) -/

/-- The clip scale, or none when the step's update is skipped. -/
def clipScale (n2 c : W32) : Option W32 :=
  if !isFin32 n2 then none
  else if !flt32 (fmul32 c c) n2 && !isNan32 (fmul32 c c) then some one32
  else some (fmul32 c (rsqrt32 n2))

/-! ## The recurrence (R222, R224) -/

def onePowers : Vector W32 4 := Vector.replicate 4 one32

/-- A term's value (Table 7.9). -/
def termValue (func : Nat) (a b eps : W32) : W32 :=
  match func with
  | 0 => a
  | 1 => fmul32 a a
  | 2 => if isNan32 a then qnan32 else if flt32 0#32 a then one32 else if flt32 a 0#32 then 0xBF800000#32 else 0#32
  | _ => fmul32 a (rsqrt32 (fadd32 b eps))

/-- An operand: a slot as `read` gives it, or the gradient (R222). -/
def operand (code : Nat) (read : Nat → W32) (g : W32) : W32 := if code < 4 then read code else g

def termOf (word : Nat) (eps : W32) (read : Nat → W32) (g : W32) : W32 :=
  termValue (word / 64 % 4) (operand (word % 8) read g) (operand (word / 8 % 8) read g) eps

/-- Bias corrections of a rule from its powers (R225). -/
def biasOf (ps : Vector W32 4) : List W32 := ps.toList.map (fun p => fdiv32 one32 (fsub32 one32 p))

/-- P_k ← RNE32(P_k × α_k) for every slot of a rule (R225). -/
def Rule.advance (rule : Rule) (ps : Vector W32 4) : Vector W32 4 :=
  Vector.ofFn (fun k => if k.val < rule.nslot then fmul32 ps[k] ((rule.slots.getD k {}).alpha) else ps[k])

/-- The stochastic draws of a block: the write's number within the block, then the element (R226). -/
abbrev Draws := Nat → Nat → Nat

/-- The number of a block's stochastic writes before that of slot k. -/
def Rule.writesBefore (rule : Rule) (k : Nat) : Nat := if rule.srnd then ((List.range k).filter rule.sbf16.testBit).length else 0

/-- The stochastic writes of a block. -/
def Rule.writes (rule : Rule) : Nat := rule.writesBefore (min rule.nslot 4) + if rule.prnd then 1 else 0

/-- Slot k as stored (R224, R226). -/
def Rule.storeSlot (rule : Rule) (draws : Draws) (x k : Nat) (v : W32) : W32 :=
  if rule.sbf16.testBit k then fromBF16 (toBF16 (if rule.srnd then .sr (draws (rule.writesBefore k) x) else .rne) v) else v

/-- The new slots of one element (R224). -/
def Rule.newSlots (rule : Rule) (draws : Draws) (x : Nat) (g : W32) (old : List W32) : List W32 :=
  (List.range (min rule.nslot 4)).foldl (fun s k =>
    let sl := rule.slots.getD k {}
    let v := termOf sl.term sl.eps (fun i => s.getD i 0#32) g
    s.set k (rule.storeSlot draws x k (ffma32 sl.beta v (fmul32 sl.alpha (s.getD k 0#32))))) old

/-- The update value u of one element (R224). -/
def Rule.updateOf (rule : Rule) (bc : List W32) (g : W32) (s : List W32) : W32 :=
  let read := fun i => if rule.bca.testBit i then fmul32 (s.getD i 0#32) (bc.getD i one32) else s.getD i 0#32
  (List.range (min rule.nterm 4)).foldl (fun u j =>
    let t := rule.terms.getD j {}
    ffma32 t.gamma (termOf t.term t.eps read g) u) 0#32

/-- The new parameter of one element (R224). -/
def Rule.newParam (rule : Rule) (u p : W32) : W32 :=
  ffma32 (fneg32 rule.eta) u (fmul32 (fsub32 one32 rule.lambda) p)

/-! ## Preconditioners (R229) -/

/-- Areas of a binding over a region: its tiles lie one after another along the reduction rows. -/
def Region.areaCols (r : Region) (k : Nat) : Nat := (128 * r.g + k - 1) / k
def Region.areaRows (r : Region) (k : Nat) : Nat := (128 * r.len + k - 1) / k
def Region.areaCount (r : Region) (k : Nat) : Nat := r.areaCols k * r.areaRows k

/-- The clipped gradient at logical row and column of a region; +0 where untouched, frozen, not retained or outside. -/
def Field.clipped (f : Field) (r : Region) (c : W32) (row col : Nat) : W32 :=
  if 128 * r.len ≤ row || 128 * r.g ≤ col then 0#32
  else
    let i := r.blockIx (row / 128) col (row % 128 / 32)
    if f.touched r i && !f.masked r i && (r.sfmt = 0 || (f.cells r i).any (fun x => x.1 = row % 32)) then
      (if c = one32 then f.f32 (r.gradAddr i (row % 32)) else fmul32 (f.f32 (r.gradAddr i (row % 32))) c)
    else 0#32

/-- A K × K matrix of the stack. -/
def Field.matrix (f : Field) (addr k : Nat) : List (List W32) :=
  (List.range k).map (fun i => (List.range k).map (fun j => f.f32 (addr + 4 * (k * i + j))))

def Field.setMatrix (f : Field) (addr : Nat) (m : List (List W32)) : Field :=
  f.hbmWrite addr (m.flatMap (fun row => row.flatMap (fun v => bytesLE v.toNat 4)))

/-- Σ a·b by fma in ascending index order from a start value. -/
def fmaDot (start : W32) (a b : List W32) : W32 := (a.zip b).foldl (fun acc p => ffma32 p.1 p.2 acc) start

def transpose (k : Nat) (m : List (List W32)) : List (List W32) := (List.range k).map (fun j => m.map (fun row => row.getD j 0#32))

/-- A product, each element from +0. -/
def matMul (k : Nat) (a b : List (List W32)) : List (List W32) :=
  let bt := transpose k b
  a.map (fun row => bt.map (fun col => fmaDot 0#32 row col))

/-- β·S + X·Yᵀ of the rows of X and Y. -/
def statUpdate (beta : W32) (s x y : List (List W32)) : List (List W32) :=
  (s.zip x).map (fun p => (p.1.zip y).map (fun q => fmaDot (fmul32 beta q.1) p.2 q.2))

/-- The statistics and the roots of area a (R229): L then R of every area; buffer 0 then buffer 1. -/
def Binding.statAddr (b : Binding) (a : Nat) : Nat := 64 * b.statBase + 8 * b.k * b.k * a
def Binding.rootAddr (b : Binding) (areas a : Nat) : Nat := 64 * b.rootBase + 8 * b.k * b.k * ((if b.active then areas else 0) + a)

/-- Whether an area holds a touched block that is not frozen. -/
def Field.areaLive (f : Field) (r : Region) (k a : Nat) : Bool :=
  let r0 := a / r.areaCols k * k
  let c0 := a % r.areaCols k * k
  (f.liveBlocks r).any (fun i =>
    let p := r.place i
    let row := 128 * p.1 + 32 * p.2.2
    decide (r0 ≤ row) && decide (row < r0 + k) && decide (c0 ≤ p.2.1) && decide (p.2.1 < c0 + k))

/-- Statistics and the preconditioned gradient of one area. -/
def Field.precArea (f : Field) (r : Region) (b : Binding) (c : W32) (stat : Bool) (a : Nat) : Field × List (List W32) :=
  let k := b.k
  let r0 := a / r.areaCols k * k
  let c0 := a % r.areaCols k * k
  let gc := (List.range k).map (fun i => (List.range k).map (fun j => f.clipped r c (r0 + i) (c0 + j)))
  let gt := transpose k gc
  let sa := b.statAddr a
  let ra := b.rootAddr (r.areaCount k) a
  let f1 := if stat then (f.setMatrix sa (statUpdate b.beta (f.matrix sa k) gc gc)).setMatrix (sa + 4 * k * k) (statUpdate b.beta (f.matrix (sa + 4 * k * k) k) gt gt) else f
  (f1, matMul k (matMul k (f.matrix ra k) gc) (f.matrix (ra + 4 * k * k) k))

/-- The units of the statistics and of the active roots that the engine reads for a region's live areas (R229). -/
def Field.precUnits (f : Field) (r : Region) (b : Binding) (stat : Bool) : List Nat :=
  ((List.range (r.areaCount b.k)).filter (f.areaLive r b.k)).flatMap (fun a =>
    (if stat then wordsOf (b.statAddr a) (8 * b.k * b.k) else []) ++ wordsOf (b.rootAddr (r.areaCount b.k) a) (8 * b.k * b.k))

/-- Every live area of a region: the field with its statistics, and the products by area. -/
def Field.precAreas (f : Field) (r : Region) (b : Binding) (c : W32) (stat : Bool) : Field × List (Nat × List (List W32)) :=
  ((List.range (r.areaCount b.k)).filter (f.areaLive r b.k)).foldl (fun (acc : Field × List (Nat × List (List W32))) a =>
    let q := acc.1.precArea r b c stat a
    (q.1, (a, q.2) :: acc.2)) (f, [])

/-! ## One block (R224) -/

/-- What a region's blocks share in an APPLY. -/
structure ApplyCtx where
  rule : Rule
  bc : List W32
  c : W32
  key : W64
  stream : W32
  prec : Option (Nat × List (Nat × List (List W32)))

/-- The gradient that the recurrence takes for row x of block i. -/
def Field.gradIn (f : Field) (r : Region) (ctx : ApplyCtx) (i x : Nat) : W32 :=
  let raw := f.f32 (r.gradAddr i x)
  match ctx.prec with
  | none => if ctx.c = one32 then raw else fmul32 raw ctx.c
  | some (k, areas) =>
    let p := r.place i
    let row := 128 * p.1 + 32 * p.2.2 + x
    let m := (areas.lookup (row / k * r.areaCols k + p.2.1 / k)).getD []
    ((m.getD (row % k) []).getD (p.2.1 % k) 0#32)

/-- A slot's value of row x of block i. -/
def Field.slotIn (f : Field) (r : Region) (rule : Rule) (i x k : Nat) : W32 :=
  let base := 64 * r.slot.toList.getD k 0 + slotBytes rule k * i
  if rule.sbf16.testBit k then fromBF16 (f.bf16 (base + 2 * x)) else f.f32 (base + 4 * x)

def Field.slotOut (f : Field) (r : Region) (rule : Rule) (i x k : Nat) (v : W32) : Field :=
  let base := 64 * r.slot.toList.getD k 0 + slotBytes rule k * i
  if rule.sbf16.testBit k then f.hbmWrite (base + 2 * x) (bytesLE (toBF16 .rne v) 2) else f.setF32 (base + 4 * x) v

/-- The decoded parameter (R224): the master, or RNE32(element × 2^X). -/
def Field.paramIn (f : Field) (r : Region) (i : Nat) (cell : Nat × Nat) : W32 :=
  if r.master then f.f32 (64 * r.masterBase + 128 * i + 4 * cell.1)
  else
    let p := r.place i
    let lay := f.lay r p.1
    let code := f.getBits (r.tileAddr p.1 + lay.vals) (elemBits r.efmt * cell.2) (elemBits r.efmt)
    let sc := f.getBits (r.tileAddr p.1 + lay.scales + 4 * p.2.1 + p.2.2) 0 8
    (exactElem r.efmt code (if r.efmt = 6 then some 0 else (scaleExp sc).map (· + intExp r.efmt))).rne32

/-- Re-encode a block from its new parameters (R66, R224). -/
def Field.encodeBlock (f : Field) (r : Region) (i : Nat) (cs : List (Nat × Nat)) (rs : List Rnd) (ps : List W32) : Field :=
  let p := r.place i
  let lay := f.lay r p.1
  let base := r.tileAddr p.1
  let w := elemBits r.efmt
  let mx := if r.efmt = 6 then (0, (ps.zip rs).map (fun q => toBF16 q.2 q.1)) else toMX r.efmt rs (ps.map dec32)
  let g := (cs.zip mx.2).foldl (fun (y : Field) q => y.putBits (base + lay.vals) (w * q.1.2) w q.2) f
  if r.efmt = 6 then g else g.hbmWrite (base + lay.scales + 4 * p.2.1 + p.2.2) [BitVec.ofNat 8 mx.1]

/-- Update one block (R224, R226): slots, master, streamed block, TOUCHED and PENDING; the counter of the region moves on. -/
def Field.applyBlock (f : Field) (n : Nat) (r : Region) (ctx : ApplyCtx) (i : Nat) : Field :=
  let rule := ctx.rule
  let base := Tab.get 0 f.upe.srCtr n
  let draws : Draws := fun w x => laneDraw ctx.key ctx.stream (base + BitVec.ofNat 48 (8 * w)) x
  let cs := f.cells r i
  let news := cs.map (fun cell =>
    let g := f.gradIn r ctx i cell.1
    let s := rule.newSlots draws cell.1 g ((List.range (min rule.nslot 4)).map (f.slotIn r rule i cell.1))
    (cell, s, rule.newParam (rule.updateOf ctx.bc g s) (f.paramIn r i cell)))
  let f1 := news.foldl (fun (y : Field) e => (e.2.1.mapIdx (fun k v => (k, v))).foldl (fun (z : Field) q => z.slotOut r rule i e.1.1 q.1 q.2) y) f
  let f2 := if r.master then news.foldl (fun (y : Field) e => y.setF32 (64 * r.masterBase + 128 * i + 4 * e.1.1) e.2.2) f1 else f1
  let rs := cs.map (fun cell => if rule.prnd then Rnd.sr (draws (rule.writesBefore (min rule.nslot 4)) cell.1) else .rne)
  let f3 := f2.encodeBlock r i cs rs (news.map (fun e => e.2.2))
  let f4 := (f3.setBit (64 * r.map) (2 * i) false).clearPending r i
  { f4 with upe := { f4.upe with blocks := satAdd f4.upe.blocks 1, srCtr := Tab.set 0 f4.upe.srCtr n (base + BitVec.ofNat 48 (8 * rule.writes)) } }

/-- The blocks of a region in order; an unreadable unit ends the work (R231). -/
def Field.applyBlocks (n : Nat) (r : Region) (ctx : ApplyCtx) : List Nat → Field → Field × Option (Nat × Nat)
  | [], f => (f, none)
  | i :: rest, f =>
    match f.badUnit (f.blockUnits r ctx.rule i) with
    | some u => (f, some (n, u))
    | none => Field.applyBlocks n r ctx rest (f.applyBlock n r ctx i)

/-- One region of an APPLY (R220 step 3): its areas are preconditioned, then its blocks are updated. A unit that the engine
needs first and cannot read ends the work (R206, R231). -/
def Field.applyRegion (f : Field) (n : Nat) (r : Region) (c : W32) (key : W64) (stepNo : Nat) : Field × Option (Nat × Nat) :=
  let rule := f.rule r.rule
  let live := f.liveBlocks r
  let b : Binding := Tab.get {} f.bindings r.pcidx
  let pc := r.pcen && b.en && b.k ≠ 0
  let stat : Bool := stepNo % (max 1 b.statEvery) = 0
  let gc := if pc then live.flatMap (fun i => (f.cells r i).map (fun c => r.gradAddr i c.1 / 64)) else []
  match f.badUnit (f.mapUnits r ++ (if pc then gc ++ f.precUnits r b stat else [])) with
  | some u => (f, some (n, u))
  | none =>
  let q := if pc then
      let q := f.precAreas r b c stat
      (q.1, some (b.k, q.2))
    else (f, none)
  let ctx : ApplyCtx := { rule := rule, bc := biasOf (Tab.get onePowers f.upe.powers r.rule), c := c, key := key, stream := BitVec.ofNat 32 (0x10000000 + r.shard), prec := q.2 }
  Field.applyBlocks n r ctx live q.1

def Field.applyRegions (c : W32) (key : W64) (stepNo : Nat) : List (Nat × Region) → Field → Field × Option (Nat × Nat)
  | [], f => (f, none)
  | (n, r) :: rest, f =>
    match f.applyRegion n r c key stepNo with
    | (g, some e) => (g, some e)
    | (g, none) => Field.applyRegions c key stepNo rest g

/-- The start of APPLY (R225, R230): roots toggle, late root jobs count, and unless the update is skipped the powers of the
rules in use advance. -/
def Field.startApply (f : Field) (p : Nat) (skip : Bool) : Field :=
  let mine := f.bindings.filter (fun b => b.2.en && b.2.part = p)
  let late := mine.any (fun b => b.2.jobRunning && !b.2.newroot)
  let bs : Tab Binding := f.bindings.map (fun b => if b.2.en && b.2.part = p && b.2.newroot then (b.1, { b.2 with active := !b.2.active, newroot := false }) else b)
  let rules := ((f.trained p).map (fun r => r.2.rule)).dedup
  let ps := if skip then f.upe.powers else rules.foldl (fun t k => Tab.set onePowers t k ((f.rule k).advance (Tab.get onePowers t k))) f.upe.powers
  { f with
    bindings := bs
    upe := { f.upe with powers := ps, srCtr := [], rootLate := satAdd f.upe.rootLate (if late then 1 else 0), phase := vset f.upe.phase p .apply, part := p } }

/-- A skipped update (Table 7.7): every TOUCHED and PENDING bit of the partition's regions clears. -/
def Field.skipApply (f : Field) (p : Nat) : Field :=
  let g := (f.trained p).foldl (fun (y : Field) r => y.hbmWrite (64 * r.2.map) (List.replicate (up64 ((r.2.blocks + 3) / 4)) 0#8)) f
  { g with upe := { g.upe with nonfinite := true, skips := satAdd g.upe.skips 1 } }

/-- SCALAR_BROADCAST (R220 steps 2 and 3): N² reaches the field's M port. -/
def State.scalarBroadcast (s : State) (f p : Nat) (n2 : W32) : State :=
  let x := s.field f
  if !(s.part p).started || x.halted p then s
  else if x.phase p ≠ .norm then s.engineFault f p ekBadMsg 0 0
  else
    let y := { x with upe := { x.upe with total := n2 } }
    match clipScale n2 (x.upe.clip.toList.getD p 0x7F800000#32) with
    | none => s.setField f ((y.startApply p true).skipApply p)
    | some c =>
      let z := y.startApply p false
      let z := { z with upe := { z.upe with scale := c } }
      match Field.applyRegions c (stepSeed (s.part p).seed (s.part p).stepNow) (s.part p).stepNow.toNat (z.trained p) z with
      | (g, none) => s.setField f g
      | (g, some (n, u)) => (s.setField f g).engineFault f p ekHbmUncorr n u

/-- APPLY_DONE (R220 step 4): with the last block written the phase returns to COLLECT and firmware is told. An engine that
stopped at a fault never gets there (R231). -/
def State.applyDone (s : State) (f p : Nat) : State :=
  if (s.field f).phase p ≠ .apply || (s.field f).halted p then s
  else (s.updField f (fun x => x.setPhase p .collect)).updPart p (fun y => { y with enginesDone := if y.enginesDone.contains f then y.enginesDone else f :: y.enginesDone })

def execGradientWrite (f : FieldIx) (n : Fin 256) (unit : Nat) (add : Bool) (vals : List W32) (src : GradSrc) (s : State) : Host.Outcome State Fault Refusal :=
  .next (s.gradientWrite f n unit add vals src)
def execNormMessage (f : FieldIx) (p : PartIx) (s : State) : Host.Outcome State Fault Refusal := .next (s.normMessage f p)
def execScalarBroadcast (f : FieldIx) (p : PartIx) (n2 : W32) (s : State) : Host.Outcome State Fault Refusal := .next (s.scalarBroadcast f p n2)
def execApplyDone (f : FieldIx) (p : PartIx) (s : State) : Host.Outcome State Fault Refusal := .next (s.applyDone f p)

end Sys2Proof.Machine
end

