-- ==== Sys2Proof/Machine/Steps.lean ====
section
/-! DEFINITION. Steps of a partition: STEP_BEGIN (R28, R30, R65) and STEP_COMMIT with what falls on a commit boundary (R32,
R227, R230, R246, R291, R308, R312, R343, R398), and the announcement of a snapshot's step (R291). -/

namespace Sys2Proof.Machine

open Sys2Proof

/-- STEP_BEGIN (R30): at a partition tick edge at which the shards of the held step are in, the step begins. -/
def State.stepBegin (s : State) (p : Nat) : State :=
  let x := s.part p
  let ks := (s.placed p).map Prod.snd
  if x.started && s.tg.ofs = 0 && x.edgeIn = (x.plan.map Plan.mult).getD 1 && !ks.isEmpty && ks.all (fun k => (s.core k).seq.st = .held && !(s.core k).held) &&
      (x.hold.filter (· ≠ .input)).isEmpty && !x.replayOver && x.shardsIn x.nextStep then
    (s.beginStep p).updCores ks (fun _ c => c.atEdge false false s.coreNow)
  else s

/-! ## Commit -/

/-- Every engine of the partition has written its last block (R32, R220): the fields that train a region of it are done. -/
def State.enginesIn (s : State) (p : Nat) : Bool :=
  s.fields.all (fun f => (f.2.trained p).isEmpty || (s.part p).enginesDone.contains f.1)

/-- A fault of the partition that firmware has not handled yet (R32, R219, R231): a report, or a core that stands faulted. -/
def State.faultOpen (s : State) (p : Nat) : Bool :=
  s.fw.reports.any (fun r => r.part = p) || (s.placed p).any (fun c => (s.core c.2).seq.st = .faulted)

/-- A step that began before this edge stands oldest: a step takes a whole number of partition ticks (R28). -/
def State.stepRan (s : State) (p : Nat) : Bool :=
  match (s.part p).begun with
  | [] => false
  | b :: _ => b.tick ≠ s.tg.tick

/-- The oldest step in progress commits now: at a partition tick edge (R28, R108), with the engines done, no check event
waiting for its verdict, every result digest matched, no fault and no recovery (R32, R253, R300). -/
def State.commits (s : State) (p : Nat) : Bool :=
  let x := s.part p
  x.started && x.stepOpen && s.stepRan p && s.tg.ofs = 0 && x.edgeIn = (x.plan.map Plan.mult).getD 1 && !s.faultOpen p && s.enginesIn p && x.checkSites.isEmpty && x.arb.isEmpty && !x.digestBad && x.digestsMatched && !x.rollBack && !x.rcv.active

/-- The shard IDs of the step at the intake position (R246). -/
def Part.shardIds (x : Part) : List W64 :=
  match x.plan.bind Plan.intake with
  | none => []
  | some it => (List.range it.shards).map (fun i => ((it.entries[(x.intake.pos + i) % max 1 it.entries.length]?).map IntakeEntry.shard).getD 0)

/-- Logical cores away from their base sites (Table 9.8). -/
def Part.siteMap (x : Part) : List (Nat × Nat) :=
  let base := ((x.plan.map Plan.base).getD {}).cores
  (x.coreSites x.placement).filter (fun c => (base.find? (fun b => b.logical = c.1)).map PlanCore.site ≠ some c.2)

/-- The retrace record of a step that commits (R308). -/
def State.retraceOf (s : State) (p : Nat) (b : Begun) : Retrace :=
  let x := s.part p
  { step := b.step, snapId := ((s.restartGen p).map Gen.id).getD 0, seed := x.seed, hash := (x.plan.map Plan.hash).getD 0, detour := x.detour
    siteMap := x.siteMap, epoch := x.epoch, memberGen := x.memberGen, shards := x.shardIds, firstTick := b.tick
    ticks := (s.tg.tick - b.tick).toNat / max 1 ((x.plan.map Plan.mult).getD 1) }

/-- The records kept (R308), newest first: the last 64, and those back to the snapshot that the oldest of them restarts
from. -/
def keepRetraces (rs : List Retrace) : List Retrace :=
  match rs[63]? with
  | none => rs
  | some o => rs.take 64 ++ (rs.drop 64).takeWhile (fun r => o.snapId.toNat < r.step.toNat)

/-- The intake moves on (R246): I ← (I + SHARDS) mod N, and the slot of the committed step is free. -/
def Part.intakeNext (x : Part) (n : W64) : IntakeSt :=
  match x.plan.bind Plan.intake with
  | none => x.intake
  | some it => { x.intake with pos := (x.intake.pos + it.shards) % max 1 it.entries.length, landed := x.intake.landed.filter (fun l => l.1 ≠ n) }

/-- η and λ of a rule for a step under the plan's schedule (R227). -/
def PlanRule.ratesAt (r : PlanRule) (n : Nat) : Option (W32 × W32) :=
  ((r.rates.filter (fun e => e.1 ≤ n)).getLast?).map Prod.snd

/-- Firmware rewrites η and λ for step n (R227). -/
def State.setRates (s : State) (p n : Nat) : State :=
  match (s.part p).plan with
  | none => s
  | some pl =>
    pl.rules.foldl (fun (t : State) r =>
      match r.ratesAt n with
      | some e => t.updField r.field (fun f => { f with rules := Tab.upd {} f.rules r.idx (fun x => { x with eta := e.1, lambda := e.2 }) })
      | none => t) s

/-- A binding's root job is due after step n (R230). -/
def Binding.rootDue (b : Binding) (p n : Nat) : Bool := b.en && b.part = p && b.rootEvery ≠ 0 && n % b.rootEvery = 0

/-- Firmware starts a job entry on its root core, which is free when it runs nothing and has not faulted (R230). -/
def Core.startJob (c : Core) (entry : Nat) : Core :=
  if c.seq.st = .running || c.seq.st = .waiting || c.seq.st = .faulted then c else c.startRun entry 0

/-- Root jobs start at a commit boundary whose step is a multiple of ROOT_EVERY (R230): the plan's schedule entries for the
job, on its root cores. -/
def State.startRoots (s : State) (p n : Nat) : State :=
  let x := s.part p
  let due := ((x.plan.map Plan.bindings).getD []).filter (fun b => (Tab.get {} (s.field b.field).bindings b.idx).rootDue p n)
  let jobs := due.flatMap (fun b => b.job.filterMap (fun j => (x.siteOf x.placement j.1).map (fun k => (k, j.2))))
  let t := jobs.foldl (fun (u : State) j => u.updCores [j.1] (fun _ c => c.startJob j.2)) s
  { t with fields := Tab.mapV {} t.fields (fun _ f => { f with bindings := f.bindings.map (fun b => if b.2.rootDue p n then (b.1, { b.2 with jobRunning := true }) else b) }) }

/-- The policy that takes effect at a commit boundary (R312). -/
def SnapState.takePolicy (x : SnapState) : SnapState :=
  match x.nextPolicy with
  | none => x
  | some q => { x with policy := q, nextPolicy := none, mtbfMs := if x.mtbfMs = 0 then 1000 * q.m0 else x.mtbfMs }

/-- This module is the lowest-ranked DESIGNATED member (R279, R285, R291). -/
def State.leads (s : State) (ms : List Member) : Bool :=
  match ms.find? Member.designated with
  | some m => m.addr = s.fab.addr
  | none => true

def State.leader (ms : List Member) : Option Nat := (ms.find? Member.designated).map Member.addr

/-- A snapshot is due after the commit of step n (R291, R313): in a job that spans modules at the announced step. -/
def State.snapDue (s : State) (p : Nat) (n : W64) : Bool :=
  let x := s.part p
  if x.snap.wanted then true
  else if x.spans then x.snap.announced = some n
  else match s.interval p with
    | some k => k ≤ x.snap.since
    | none => false

/-- The announcement that the lowest-ranked DESIGNATED member makes after the commit of step n, at least two steps ahead
(R291). -/
def State.announce (s : State) (p : Nat) (n : W64) : State :=
  let x := s.part p
  if !x.spans || !s.leads x.members || x.snap.announced.isSome then s
  else match s.interval p with
    | none => s
    | some k =>
      if x.snap.since + 2 < k then s
      else
        let at_ := n + BitVec.ofNat 64 (max 2 (k - x.snap.since))
        (s.updPart p (fun y => { y with snap := { y.snap with announced := some at_ } })).emit ((s.others x.members).map (fun a => .module_ a (.snapAnnounce p at_)))

/-- Hold for a snapshot (R111, R283): no later step begins. A SNAP_NOW or a REBASE that waits is served by this snapshot (R313,
R314). -/
def State.holdSnap (s : State) (p : Nat) : State :=
  s.updPart p (fun y => { y with hold := if y.hold.contains .snapshot then y.hold else .snapshot :: y.hold
                                 snap := { y.snap with phase := .held, nowIn := (s.long? (fun k => k = .snapNow p)).isSome, rebaseIn := y.snap.rebase, wanted := false, announced := none, beganCyc := s.tg.cyc } })

/-- JOB_STOP to every other member of a job that spans modules (R279, R398). -/
def State.tellStop (s : State) (p : Nat) : State :=
  if (s.part p).spans then s.emit ((s.others (s.part p).members).map (fun a => .module_ a .jobStop)) else s

/-- A replayed step ends (R310): only the training state goes on. -/
def State.replayStep (s : State) (p : Nat) (b : Begun) : State :=
  let x := s.part p
  ((s.updPart p (fun y => { y with
    step := b.step + 1, committed := some b.step, begun := y.begun.drop 1, stepOpen := !(y.begun.drop 1).isEmpty
    enginesDone := [], digests := [], intake := x.intakeNext b.step })).setRates p (b.step.toNat + 1)).startRoots p b.step.toNat

/-- The commit of the oldest step in progress. -/
def State.commitStep (s : State) (p : Nat) (b : Begun) : State :=
  let x := s.part p
  let t := s.updPart p (fun y => { y with
    retraces := keepRetraces (s.retraceOf p b :: y.retraces)
    step := b.step + 1, committed := some b.step, begun := y.begun.drop 1, stepOpen := !(y.begun.drop 1).isEmpty
    enginesDone := [], digests := []
    suspects := y.suspects.filter (fun e => b.step.toNat < e.2.toNat + 64)
    intake := x.intakeNext b.step
    snap := { y.snap.takePolicy with stepCyc := ((s.tg.cyc - b.cyc).toNat :: y.snap.stepCyc).take 64, since := y.snap.since + 1 } })
  let t := (t.setRates p (b.step.toNat + 1)).startRoots p b.step.toNat
  let t := t.updPart p (fun y => { y with snap := { y.snap with ivl := (t.interval p).getD 0 } })
  let t := if t.snapDue p b.step && (t.part p).snap.phase = .idle then t.holdSnap p else t.announce p b.step
  let t := if (t.part p).stopAtCommit && !(t.part p).stepOpen then (t.tellStop p).sendStop p else t
  if (t.part p).stepOpen then t else (t.takeJoins p).envReplace p

/-- STEP_COMMIT (R32). -/
def State.stepCommit (s : State) (p : Nat) : State :=
  if s.commits p then
    match (s.part p).begun with
    | b :: _ => if (s.part p).replay.isSome then s.replayStep p b else s.commitStep p b
    | [] => s
  else s

/-- SNAPSHOT_ANNOUNCE (R291): every member snapshots at the announced step. -/
def State.snapAnnounced (s : State) (p : Nat) (n : W64) : State :=
  if (s.part p).started && (s.part p).spans && (s.part p).step.toNat ≤ n.toNat then s.updPart p (fun y => { y with snap := { y.snap with announced := some n } }) else s

def execStepBegin (p : PartIx) (s : State) : Host.Outcome State Fault Refusal := .next (s.stepBegin p)
def execStepCommit (p : PartIx) (s : State) : Host.Outcome State Fault Refusal := .next (s.stepCommit p)
def execSnapshotAnnounce (p : PartIx) (n : W64) (s : State) : Host.Outcome State Fault Refusal := .next (s.snapAnnounced p n)

end Sys2Proof.Machine
end

