-- ==== Sys2Proof/Machine/Intake.lean ====
section
/-! DEFINITION. The intake of training data (R245 to R247) and the pairing of a module with its holder (R267 to R269). -/

namespace Sys2Proof.Machine

open Sys2Proof

/-! ## Intake -/

/-- The index in the list of shard i of step n: the position counts from the step to commit next (R246). -/
def Part.entryIx (x : Part) (it : Intake) (n : W64) (i : Nat) : Nat :=
  (x.intake.pos + (n - x.step).toNat * it.shards + i) % max 1 it.entries.length

/-- Steps whose shards may be fetched: from the step to commit next to the last one with a free slot (R247). -/
def Part.inWindow (x : Part) (it : Intake) (n : W64) : Bool := decide ((n - x.step).toNat < it.slots)

/-- The stack byte address where an entry of step n lands (R246). -/
def State.landAddr (s : State) (it : Intake) (e : IntakeEntry) (n : W64) : Nat :=
  64 * (((s.field e.field).region it.region).base + n.toNat % max 1 it.slots * it.slotSize + e.ofs)

/-- The RDMA READ of an entry, over the port its storage target names (R247). -/
def State.readShard (s : State) (e : IntakeEntry) : State :=
  s.sendRoce (s.fab.targets.toList.getD e.target {}).port { target := e.target, addr := e.remote, len := e.len }

/-- INTAKE_FETCH (R247): the shards of step n that are neither in nor under way. -/
def State.intakeFetch (s : State) (p : Nat) (n : W64) : State :=
  let x := s.part p
  match x.plan.bind Plan.intake with
  | none => s
  | some it =>
    if !x.inWindow it n then s
    else
      let todo := (List.range it.shards).filter (fun i => !x.intake.landed.contains (n, i) && !x.intake.fetching.any (fun f => f.1 = n && f.2.1 = i))
      todo.foldl (fun (t : State) i => t.readShard ((it.entries[x.entryIx it n i]?).getD {}))
        (s.updPart p (fun y => { y with intake := { y.intake with fetching := y.intake.fetching ++ todo.map (fun i => (n, i, 0)) } }))

/-- SHARD_LANDED (R247): the bytes land in the step's slot; a read that failed or a wrong CRC-64 is fetched again, and the
third failure stalls the partition. -/
def State.shardLanded (s : State) (p : Nat) (n : W64) (i : Nat) (bytes : List Byte) (readErr : Bool) : State :=
  let x := s.part p
  match x.plan.bind Plan.intake, x.intake.fetching.find? (fun f => f.1 = n && f.2.1 = i) with
  | some it, some f =>
    let ix := x.entryIx it n i
    let e := (it.entries[ix]?).getD {}
    let rest := x.intake.fetching.filter (fun g => g ≠ f)
    let t := if readErr then s else s.updField e.field (fun y => y.hbmWrite (s.landAddr it e n) (bytes.take e.len))
    if !readErr && bytes.length = e.len && crc64 bytes = e.crc then
      t.updPart p (fun y => { y with intake := { y.intake with
        landed := (n, i) :: y.intake.landed, fetching := rest, stalled := y.intake.stalled && rest.any (fun g => 3 ≤ g.2.2) } })
    else
      let fails := f.2.2 + 1
      let t := t.updPart p (fun y => { y with intake := { y.intake with
        fetching := rest ++ [(n, i, fails)], crcBad := y.intake.crcBad || !readErr
        stalled := y.intake.stalled || decide (3 ≤ fails), entry := if 3 ≤ fails then ix else y.intake.entry } })
      if fails = 3 then { t with out := alertBoth ++ t.out }
      else if fails < 3 then t.readShard e
      else t
  | _, _ => s

/-- INTAKE_RETRY (R247): every stalled shard is read again. -/
def State.intakeRetry (s : State) (p : Nat) : State :=
  let x := s.part p
  match x.plan.bind Plan.intake with
  | none => s
  | some it =>
    if !x.intake.stalled then s
    else (x.intake.fetching.filter (fun f => 3 ≤ f.2.2)).foldl (fun (t : State) f => t.readShard ((it.entries[x.entryIx it f.1 f.2.1]?).getD {})) s

/-! ## The partner reserve -/

def stPartnerCofed : W16 := 0x0400#16
def stPartnerBusy : W16 := 0x0401#16
def stPartnerReserve : W16 := 0x0404#16
def stFabUnreachable : W16 := 0x0A02#16

/-- What a plan carries for the membership sizes of its job (R248). -/
def Plan.sizes (pl : Plan) : List JobSize := (pl.job.map JobList.sizes).getD []

/-- The placements of the full membership: base, detours and levels. -/
def Plan.fullPlacements (pl : Plan) : List Placement := pl.base :: (pl.detours.map Detour.pl ++ pl.levels.map Level.pl)

/-- Every placement of a plan. -/
def Plan.placements (pl : Plan) : List Placement := pl.fullPlacements ++ pl.sizes.map JobSize.base

/-- The areas of a placement's regions on a field: (first byte, bytes) (R437). -/
def Plan.areasOn (pl : Plan) (q : Placement) (f : Nat) : List (Nat × Nat) :=
  (q.regions.filter (fun r => r.field = f)).flatMap (fun r => ((r.r.areas (pl.ruleOf f r.r.rule)).filter (fun a => a.2 ≠ 0)).map (fun a => (64 * a.1, a.2)))

/-- The bytes of a stack below a partner reserve in GiB (R267). -/
def belowReserve (gib : Nat) : Nat := (96 - gib) * 2 ^ 30

/-- A placement stays below the reserve: every area ends below it, and together they fit (Table 7.3). -/
def Plan.fitsBelow (pl : Plan) (q : Placement) (gib : Nat) : Bool :=
  ((q.regions.map PlanRegion.field).dedup).all (fun f =>
    (pl.areasOn q f).all (fun a => decide (a.1 + a.2 ≤ belowReserve gib)) && decide (((pl.areasOn q f).map Prod.snd).sum ≤ belowReserve gib))

/-- Bytes of the snapshot slots kept here for another module: two per protected partition (R285, R286). -/
def Fab.slotBytes (f : Fab) : Nat :=
  (((f.slots.map HeldSlot.part).dedup).map (fun q => 2 * ((f.slots.filter (fun h => h.part = q)).map HeldSlot.size).foldl max 0)).sum

/-- A partner reserve agrees with this module's loaded plans and the slots it keeps (Table 8.9). -/
def State.reserveOk (s : State) (gib : Nat) : Bool :=
  s.parts.toList.all (fun x => match x.plan with
    | none => true
    | some pl => pl.placements.all (fun q => pl.fitsBelow q gib)) && decide (s.fab.slotBytes ≤ 48 * gib * 2 ^ 30)

/-- Co-fed (R267). -/
def cofedIds (a b : Nat) : Bool := a = b || a = 0xFF || b = 0xFF

/-- The copies that a former holder kept are out of reach. -/
def State.dropCopies (s : State) : State :=
  { s with parts := s.parts.map (fun x => { x with snap := { x.snap with gens := x.snap.gens.map (fun g => { g with near := false, shelf := false }) } }) }

/-- PARTNER_SET (R267): 0xFFF clears; else the checks of this module, and the request leaves. -/
def State.partnerSet (s : State) (f : Fetched) (holder : Nat) (force : Bool) (reserve rsv : Nat) : State :=
  if rsv ≠ 0 || 64 < reserve || !f.pkt.noPart then s.done f stBadParam
  else if holder = 0xFFF then
    { s.dropCopies with fab := { s.fab with holder := 0xFFF, reserve := 0, holderFeed := 0, cofed := false, forced := false, unprotected := false, room := none } }.done f stOk
  else if 28 ≤ Tab.get 28 s.fab.fwd holder then s.done f stFabUnreachable
  else if !s.reserveOk reserve then s.done f stPartnerReserve
  else (s.fly f (.partner holder reserve force)).emit [.module_ holder (.pairing s.fab.feedId reserve force)]

/-- The verdict of a holder on a request (Table 8.9). -/
def State.pairingVerdict (s : State) (src feed reserve : Nat) (force : Bool) : W16 :=
  if s.fab.held ≠ 0xFFF && s.fab.held ≠ src then stPartnerBusy
  else if !s.reserveOk reserve then stPartnerReserve
  else if cofedIds feed s.fab.feedId && !force then stPartnerCofed
  else stOk

/-- PAIRING_REQUEST at the holder (R267). -/
def State.pairingRequest (s : State) (src feed reserve : Nat) (force : Bool) : State :=
  let st := s.pairingVerdict src feed reserve force
  let t := s.emit [.module_ src (.pairingReply s.fab.feedId st)]
  if st ≠ stOk then t
  else { t with fab := { t.fab with held := src, reserve := reserve, cofed := cofedIds feed s.fab.feedId, forced := cofedIds feed s.fab.feedId } }

/-- PAIRING_REPLY (R267): OK pairs this module; any other verdict changes nothing. -/
def State.pairingReply (s : State) (feed : Nat) (status : W16) : State :=
  match s.long? (fun k => match k with | .partner _ _ _ => true | _ => false) with
  | none => s
  | some l =>
    match l.kind with
    | .partner h r _ =>
      let t := if status ≠ stOk then s
        else
          let u := if s.fab.holder = h && !s.fab.unprotected then s else s.dropCopies
          { u with fab := { u.fab with holder := h, reserve := r, holderFeed := feed, unprotected := false, room := none,
                                       cofed := cofedIds feed s.fab.feedId, forced := cofedIds feed s.fab.feedId } }
      t.endLong (fun k => k = l.kind) status 0 0
    | _ => s

/-- A snapshot in progress fails (R287): its slot is invalid, the hold lifts, and SNAP_NOW ends. -/
def State.failSnap (s : State) (p : Nat) : State :=
  (s.updPart p (fun y => { y with lift := .snapshot :: y.lift, snap := { y.snap with phase := .idle, taking := none, rebase := false, nowIn := false, rebaseIn := false } })).endLong
    (fun k => k = .snapNow p) stNoSnapshot 0 0

/-- HOLDER_LOST (R269, R287): the module is unprotected, and a snapshot under way to the holder fails. -/
def State.holderLost (s : State) : State :=
  if s.fab.holder = 0xFFF || s.fab.unprotected then s
  else
    let t := { s with fab := { s.fab with unprotected := true } }.emit [.event s.host.owner 0x0503 [s.fab.holder]]
    (List.range 16).foldl (fun (u : State) p =>
      let x := (u.part p).snap
      if (x.phase = .copying || x.phase = .confirming) && !x.ownFlash then u.failSnap p else u) t

def execIntakeFetch (p : PartIx) (n : W64) (s : State) : Host.Outcome State Fault Refusal := .next (s.intakeFetch p n)
def execShardLanded (p : PartIx) (n : W64) (i : Nat) (bs : List Byte) (e : Bool) (s : State) : Host.Outcome State Fault Refusal := .next (s.shardLanded p n i bs e)
def execIntakeRetry (p : PartIx) (s : State) : Host.Outcome State Fault Refusal := .next (s.intakeRetry p)
def execPartnerSet (k : Pkt) (h : BitVec 12) (force : Bool) (r : W32) (rsv : Nat) (s : State) : Host.Outcome State Fault Refusal :=
  .next (s.command k 0x0503#16 true .module_ (fun t f => t.partnerSet f h.toNat force r.toNat rsv))
def execPairingRequest (src : BitVec 12) (feed : Byte) (r : Nat) (force : Bool) (s : State) : Host.Outcome State Fault Refusal :=
  .next (s.pairingRequest src.toNat feed.toNat r force)
def execPairingReply (feed : Byte) (st : W16) (s : State) : Host.Outcome State Fault Refusal := .next (s.pairingReply feed.toNat st)
def execHolderLost (s : State) : Host.Outcome State Fault Refusal := .next s.holderLost

end Sys2Proof.Machine
end

