-- ==== Sys2Proof/Machine/Snapshot.lean ====
section
/-! DEFINITION. Taking snapshots (R283 to R288, R312, R313): the protected module's side, the holder's side, the shelf and
the shared store. -/

namespace Sys2Proof.Machine

open Sys2Proof

/-! ## Policy and requests -/

/-- The bytes of the holder's reserve that are left for partition p (R286, R287): what the holder reported, or the reserve
less the slots of this module's other partitions that snapshot. -/
def State.roomFor (s : State) (p : Nat) : Nat :=
  match s.fab.room with
  | some r => r
  | none => 48 * s.fab.reserve * 2 ^ 30 -
      (((List.range 16).filter (fun q => q ≠ p && (s.part q).on && ((s.part q).snap.policy.mode ≠ 0 || (s.part q).snap.gens.any Gen.near))).map (fun q => 2 * (s.part q).snap.size)).sum

/-- The two slots of a partition do not fit in the holder's reserve (R286); without a holder its own flash serves. -/
def State.tooLarge (s : State) (p : Nat) : Bool := s.holderUp && decide (s.roomFor p < 2 * (s.part p).snap.size)

/-- The parameters of SNAP_POLICY are in range (R312). -/
def SnapPolicy.ok (q : SnapPolicy) : Bool :=
  decide (q.mode < 3) && decide (1 ≤ q.k) && decide (q.k ≤ 8) && decide (1 ≤ q.m0) && decide (1 ≤ q.n) && (q.mode ≠ 1 || decide (q.n ≤ q.nMax)) &&
    (q.target < 16 || q.target = 0xFF) && decide (1 ≤ q.storeEvery) && decide (q.storeEvery ≤ 255)

/-- SNAP_POLICY (R312). -/
def State.snapPolicy (s : State) (f : Fetched) (p : Nat) (q : SnapPolicy) (rsv : Nat) : State :=
  if rsv ≠ 0 || 16 ≤ p || !f.pkt.names p || !q.ok then s.done f stBadParam
  else if !s.partOn p then s.done f stPartUnknown
  else if s.tooLarge p then s.done f stSnapTooLarge
  else (s.updPart p (fun x => { x with snap := { x.snap with nextPolicy := some q } })).done f stOk

/-- SNAP_NOW (R313). -/
def State.snapNow (s : State) (f : Fetched) (p : Nat) : State :=
  if 16 ≤ p || !f.pkt.names p then s.done f stBadParam
  else if !s.partOn p then s.done f stPartUnknown
  else if s.tooLarge p then s.done f stSnapTooLarge
  else (s.updPart p (fun x => { x with snap := { x.snap with wanted := true } })).fly f (.snapNow p)

/-! ## The protected module -/

/-- No TOUCHED or PENDING bit of a partition's regions is set on a field, and its phase is COLLECT (R283). -/
def Field.quiet (f : Field) (p : Nat) : Bool :=
  f.upe.phase.toList.getD p .collect = .collect &&
    (f.snapRegions p).all (fun r => r.kind ≠ 1 || r.frozen || f.hbm.all (fun b => b.1 < 64 * r.map || 64 * r.map + up64 ((r.blocks + 3) / 4) ≤ b.1))

/-- The slot that a new snapshot writes is the one that does not hold the newest confirmed generation (R285): older copies
of its place are gone. -/
def freeSlot (own : Bool) (gs : List Gen) : List Gen :=
  match gs with
  | [] => []
  | g :: r => g :: r.map (fun x => if own then { x with own := false } else { x with near := false })

/-- Generations without a copy are gone. -/
def Gen.kept (g : Gen) : Bool := g.near || g.shelf || g.store || g.own

/-- SNAPSHOT_BEGIN (R283, R284, R286, R268): the partition stands held with no step open. When an engine is not in COLLECT or
a map bit is set, the hold lifts and the next commit boundary tries again. In a forced co-fed pair the shelf copy of the
previous generation comes first. -/
def State.snapshotBegin (s : State) (p : Nat) : State :=
  let x := s.part p
  if !x.started || x.snap.phase ≠ .held || x.stepOpen || x.rcv.active then s
  else if s.fab.forced && s.holderUp && (x.snap.gens.head?.map (fun g => g.near && !g.shelf)).getD false then s
  else if !s.fields.all (fun f => f.2.quiet p) then
    s.updPart p (fun y => { y with lift := .snapshot :: y.lift, snap := { y.snap with phase := .idle, wanted := true } })
  else
    let near := s.holderUp && !s.tooLarge p
    let id := x.committed.getD (x.step - 1)
    let g : Gen := { id := id, near := near, own := !near, regions := s.captureRegions p, rec_ := s.captureRecord p }
    (s.updPart p (fun y => { y with snap := { y.snap with phase := .copying, ownFlash := !near, taking := some g, gens := (freeSlot (!near) y.snap.gens).filter Gen.kept } })).emit
      (if near then (.module_ s.fab.holder (.snapBegin p id x.snap.size x.snap.policy)) :: .module_ s.fab.holder (.snapRecord p id g.rec_) ::
        g.regions.map (fun r => .module_ s.fab.holder (.region p id r r.digest)) else [])

/-- Wafer cycles from the commit boundary to the end of the copy (Table 9.1): 5 ms and S ÷ B. -/
def State.copyCycles (s : State) (p : Nat) : Nat := 6000000 + 1200 * (s.part p).snap.size / s.rateOf p

/-- The copies whose regions have all left go over to CONFIRMING: the holder checks the digests (Table 9.1, VID_SNAP_STAT). -/
def State.copiesEnd (s : State) : State :=
  (List.range 16).foldl (fun (t : State) p =>
    if (t.part p).snap.phase = .copying && !(t.part p).snap.ownFlash && decide (s.copyCycles p ≤ (s.tg.cyc - (t.part p).snap.beganCyc).toNat) then
      t.updPart p (fun y => { y with snap := { y.snap with phase := .confirming } })
    else t) s

/-- The rate measured in a near snapshot (R284): bytes per µs of the copy, 15 ms less than the stop. -/
def measuredRate (size cycles old : Nat) : Nat :=
  if cycles ≤ 18000000 then old else max 1 (size * 1200 / (cycles - 18000000))

/-- The lowest-ranked DESIGNATED member announces a generation that every member has confirmed (R285). -/
def State.announceValid (s : State) (p : Nat) (id : W64) : State :=
  let x := s.part p
  if x.members.all (fun m => x.snap.confirms.contains (id, m.addr)) then
    (s.updPart p (fun y => { y with snap := { y.snap with
      confirms := y.snap.confirms.filter (fun c => c.1 ≠ id), gens := y.snap.gens.map (fun (g : Gen) => if g.id = id then { g with jobValid := true } else g) } })).emit
      ((s.others x.members).map (fun a => .module_ a (.jobValid p id)))
  else s

/-- A member's confirmation reaches the lowest-ranked DESIGNATED member (R285). -/
def State.memberConfirms (s : State) (p : Nat) (a : Nat) (id : W64) : State :=
  let x := s.part p
  if !x.spans || !s.leads x.members || !x.members.any (fun m => m.addr = a) then s
  else (s.updPart p (fun y => { y with snap := { y.snap with confirms := (id, a) :: y.snap.confirms.filter (· ≠ (id, a)) } })).announceValid p id

/-- This module's own generation is confirmed (R283, R285, R313): the hold lifts, and in a job that spans modules the
lowest-ranked DESIGNATED member learns it. A SNAP_NOW or a REBASE for which this snapshot was taken goes on. -/
def State.ownConfirm (s : State) (p : Nat) (id : W64) : State :=
  let x := s.part p
  match x.snap.taking with
  | none => s
  | some g =>
    if g.id ≠ id || !(x.snap.phase = .copying || x.snap.phase = .confirming) then s
    else
      let cyc := (s.tg.cyc - x.snap.beganCyc).toNat
      let g := { g with confirmed := true, jobValid := !x.spans }
      let t := s.updPart p (fun y => { y with
        lift := if y.snap.rebaseIn then y.lift else .snapshot :: y.lift
        snap := { y.snap with
          phase := .idle, taking := none, gens := g :: y.snap.gens, since := 0, stopMs := min 0xFFFF (cyc / 1200000)
          rebase := y.snap.rebase && !y.snap.rebaseIn, rebaseIn := false, nowIn := false
          rateB := if g.near then measuredRate y.snap.size cyc y.snap.rateB else y.snap.rateB } })
      let t := if x.spans then
          (match State.leader x.members with
           | some a => if a = s.fab.addr then t.memberConfirms p a id else t.emit [.module_ a (.confirm p id)]
           | none => t)
        else t
      let t := if x.snap.nowIn then t.endLong (fun k => k = .snapNow p) stOk 0 0 else t
      if x.snap.rebaseIn then
        (t.updPart p (fun y => { y with rcv := { y.rcv with active := true, path := 8, gen := some id, detour := some (0, 0), startCyc := s.tg.cyc } })).sendStop p
      else t

/-- CONFIRM: the holder's or the own flash's, or a member's confirmation. -/
def State.confirm (s : State) (p : Nat) (from_ : Option Nat) (id : W64) : State :=
  match from_ with
  | none => s.ownConfirm p id
  | some a => s.memberConfirms p a id

/-- JOB_VALID (R285): announced by the lowest-ranked DESIGNATED member once every member has confirmed. -/
def State.jobValid (s : State) (p : Nat) (id : W64) : State :=
  let x := s.part p
  if !x.snap.gens.any (fun g => g.id = id && g.confirmed && !g.jobValid) then s
  else if x.spans && s.leads x.members then s.announceValid p id
  else s.updPart p (fun y => { y with snap := { y.snap with gens := y.snap.gens.map (fun (g : Gen) => if g.id = id then { g with jobValid := true } else g) } })

/-- GENERATION_LOSS_NOTICE (R287): near copies are invalid, and the holder's remaining reserve is known. -/
def State.genLoss (s : State) (p : Nat) (ids : List W64) (room : Nat) : State :=
  let t := { s with fab := { s.fab with room := some room } }.updPart p (fun y => { y with snap := { y.snap with
    gens := (y.snap.gens.map (fun (g : Gen) => if ids.contains g.id then { g with near := false } else g)).filter Gen.kept } })
  match (s.part p).snap.taking with
  | some g => if ids.contains g.id then t.failSnap p else t
  | none => t

/-! ## The holder -/

/-- The bytes of this module's reserve that are left for the module it holds for (R287). -/
def State.heldRoom (s : State) : Nat := s.reserveBytes 48 - s.fab.slotBytes

/-- SNAP_BEGIN at the holder (R283, R285): the slot that does not hold the newest valid generation is taken. The policy of the
protected module comes with it (DESIGN CHOICE, log 82: R288 has the holder follow it). -/
def State.heldBegin (s : State) (src p : Nat) (id : W64) (size : Nat) (pol : SnapPolicy) : State :=
  if src ≠ s.fab.held || src = 0xFFF then s
  else
    let mine := s.fab.slots.filter (fun h => h.part = p)
    let keep := (mine.find? HeldSlot.valid).toList
    { s with fab := { s.fab with slots := { part := p, id := id, size := size, pol := pol } :: (keep ++ s.fab.slots.filter (fun h => h.part ≠ p)) } }

/-- A generation joins the shelf's queue (R288). -/
def Shelf.queue (h : Shelf) (g : Nat × W64) : Shelf :=
  if h.writing.isNone then { h with writing := some g } else { h with waiting := h.waiting ++ [g] }

/-- SNAPSHOT_COPY_DONE (R283, R287, R288): the regions have arrived, each with its contribution digest. With good digests the
slot holds them, CONFIRM leaves and the shelf write begins or waits; a failed digest leaves the slot invalid. -/
def State.copyDone (s : State) (p : Nat) (id : W64) (rs : List (GenRegion × W64)) : State :=
  if !s.fab.slots.any (fun h => h.part = p && h.id = id && !h.valid) then s
  else if rs.any (fun r => r.1.digest ≠ r.2) then s.emit [.module_ s.fab.held (.generationLoss p [id] s.heldRoom)]
  else
    { s with fab := { s.fab with
        slots := s.fab.slots.map (fun (h : HeldSlot) => if h.part = p && h.id = id then { h with valid := true, regions := rs.map Prod.fst } else h)
        shelf := s.fab.shelf.queue (p, id) } }.emit [.module_ s.fab.held (.confirm p id)]

/-- The next shelf write (R288): the newest waiting generation, older ones skipped; in a forced co-fed pair, the oldest. -/
def Shelf.next (h : Shelf) (forced : Bool) : Shelf :=
  match forced, h.waiting with
  | _, [] => { h with writing := none }
  | true, g :: r => { h with writing := some g, waiting := r }
  | false, w => { h with writing := w.getLast?, waiting := [] }

/-- The two newest complete generations of each partition (R288). -/
def Shelf.keep (gs : List (Nat × W64)) : List (Nat × W64) :=
  ((gs.map Prod.fst).dedup).flatMap (fun p => (gs.filter (fun g => g.1 = p)).take 2)

/-- A complete shelf generation is the STORE_EVERY-th of its partition, and the policy names a target and a rate (R288). -/
def SnapPolicy.stores (q : SnapPolicy) (n : Nat) : Bool := q.rate ≠ 0 && decide (q.target < 16) && n % max 1 q.storeEvery = 0

/-- The holder's shelf write ends (R288): the protected module is told, every STORE_EVERY-th generation goes to the target that
its policy names when the target's port is an Ethernet-mode port in service, and the next write begins. -/
def State.shelfDone (s : State) (g : Nat × W64) : State :=
  let h := s.fab.shelf
  let n := Tab.get 0 h.count g.1 + 1
  let slot := (s.fab.slots.find? (fun x => x.part = g.1 && x.id = g.2)).getD {}
  let port := (s.fab.targets.toList.getD slot.pol.target {}).port
  let copy := slot.pol.stores n && (s.port port).eth && (s.port port).st = .up
  let t := { s with
    fab := { s.fab with
      slots := s.fab.slots.map (fun (x : HeldSlot) => if x.part = g.1 && x.id = g.2 then { x with shelf := true } else x)
      shelf := { h with complete := Shelf.keep (g :: h.complete), count := Tab.set 0 h.count g.1 n, stored := if copy then g :: h.stored else h.stored }.next s.fab.forced } }.emit
    [.module_ s.fab.held (.shelfDone g.1 g.2 copy)]
  if copy then t.sendRoce port { target := slot.pol.target, len := slot.size, store := some g, rate := slot.pol.rate } else t

/-- The holder's notice at the protected module (R288): the generation is on the shelf, which keeps the two newest, and in the
store when the holder copied it. -/
def SnapState.shelved (x : SnapState) (id : W64) (stored : Bool) : SnapState :=
  let gs := x.gens.map (fun (y : Gen) => if y.id = id then { y with shelf := true, store := y.store || stored } else y)
  let newest := ((gs.filter Gen.shelf).take 2).map Gen.id
  { x with gens := (gs.map (fun (y : Gen) => if y.shelf && !newest.contains y.id then { y with shelf := false } else y)).filter Gen.kept }

/-- SHELF_WRITE_DONE (R288): the local shelf's write, or the notice of this module's holder. -/
def State.shelfWriteDone (s : State) (notice : Option (PartIx × W64 × Bool)) : State :=
  match notice with
  | some (p, id, stored) => if s.holderUp then s.updPart p (fun x => { x with snap := x.snap.shelved id stored }) else s
  | none =>
    match s.fab.shelf.writing with
    | some g => s.shelfDone g
    | none => s

def execSnapPolicy (k : Pkt) (p : Byte) (q : SnapPolicy) (rsv : Nat) (s : State) : Host.Outcome State Fault Refusal :=
  .next (s.command k 0x0501#16 true .none (fun t f => t.snapPolicy f p.toNat q rsv))
def execSnapNow (k : Pkt) (p : Byte) (s : State) : Host.Outcome State Fault Refusal :=
  .next (s.command k 0x0502#16 true (.part p.toNat) (fun t f => t.snapNow f p.toNat))
def execSnapshotBegin (p : PartIx) (s : State) : Host.Outcome State Fault Refusal := .next (s.snapshotBegin p)
def execSnapBegin (src : BitVec 12) (p : PartIx) (id : W64) (size : Nat) (pol : SnapPolicy) (s : State) : Host.Outcome State Fault Refusal :=
  .next (s.heldBegin src.toNat p id size pol)
def execSnapshotCopyDone (p : PartIx) (id : W64) (rs : List (GenRegion × W64)) (s : State) : Host.Outcome State Fault Refusal := .next (s.copyDone p id rs)
def execConfirm (p : PartIx) (from_ : Option (BitVec 12)) (id : W64) (s : State) : Host.Outcome State Fault Refusal := .next (s.confirm p (from_.map BitVec.toNat) id)
def execJobValid (p : PartIx) (id : W64) (s : State) : Host.Outcome State Fault Refusal := .next (s.jobValid p id)
def execShelfWriteDone (notice : Option (PartIx × W64 × Bool)) (s : State) : Host.Outcome State Fault Refusal := .next (s.shelfWriteDone notice)
def execGenerationLossNotice (p : PartIx) (ids : List W64) (room : Nat) (s : State) : Host.Outcome State Fault Refusal := .next (s.genLoss p ids room)

end Sys2Proof.Machine
end

