-- ==== Sys2Proof/Machine/Recovery.lean ====
section
/-! DEFINITION. Recoveries (R277 to R279, R289, R292 to R297, R302): the gathering of faults, the judgement of losses, spare
cores, the restore, and the restart of a job. -/

namespace Sys2Proof.Machine

open Sys2Proof

/-! ## Fault classes (Table 9.2) -/

/-- What Table 9.2 does with a fault. -/
inductive FaultClass where
  | plan
  | site (k : Nat)
  | hbm (field addr : Nat)
  | tick (field : Nat)
  | digest (port : Nat)
  | mesh
  | other
  deriving DecidableEq, Repr

/-- The class of a reported fault; an uncorrectable stack read is named by its field and the address that the report gives, an
engine's uncorrectable bank word by the site. -/
def State.classOf (_ : State) (r : FaultReport) : FaultClass :=
  match r.what with
  | .core kind k =>
    if kind = 0x02#8 || kind = 0x09#8 || kind = 0x48#8 || kind = 0x56#8 then .site k
    else if kind = 0x51#8 then .hbm (k / 64) r.addr
    else if kind = 0x44#8 then .tick (k / 64)
    else .plan
  | .colFault _ => .plan
  | .reduction _ => .plan
  | .engine kind f =>
    if kind = ekHbmUncorr then .hbm f r.addr
    else if kind = ekBankUncorr then .site r.addr
    else if kind = ekBadMsg || kind = ekGradLate || kind = ekGradFrozen then .plan
    else .other
  | .fabric kind port => if kind = fkContrib || kind = fkResult || kind = fkStale then .digest port else if kind = fkColl then .plan else .other
  | .meshLink _ _ => .mesh
  | .tickLost f => .tick f
  | .lost => .other
  | .alarm => .other

/-- A fault with its core named by logical index, as the recurrence of a plan fault compares it (Table 9.2). -/
def State.logicalFault (s : State) (r : FaultReport) : FaultWhat × Nat :=
  match r.what with
  | .core kind k => (.core kind ((s.core k).logical.getD k), 0)
  | .reduction id => (.reduction id, 0)
  | .colFault c => (.colFault c, 0)
  | w => (w, 0)

/-- A past fault lies within the window: the last 64 committed steps (R293). -/
def Part.inWindowPast (x : Part) (f : PastFault) : Bool := decide (x.step.toNat ≤ f.step.toNat + 64)

/-- An earlier fault of the same class and unit within the window; for a plan fault, the same kind in the same step. -/
def State.recurs (s : State) (r : FaultReport) : Bool :=
  let x := s.part r.part
  match s.classOf r with
  | .plan => x.past.any (fun f => f.what = (s.logicalFault r).1 && f.step = x.step)
  | .site k => x.past.any (fun f => x.inWindowPast f && s.classOf { part := r.part, what := f.what, addr := f.addr } = .site k)
  | .hbm f a => x.past.any (fun q => x.inWindowPast q && q.what = .engine ekHbmUncorr f && q.addr = a)
  | .tick f => x.past.any (fun q => x.inWindowPast q && q.what = .tickLost f)
  | .digest p => x.past.any (fun q => x.inWindowPast q && (match q.what with | .fabric k o => o = p && (k = fkContrib || k = fkResult || k = fkStale) | _ => false))
  | _ => false

/-- A fault as it is remembered once its recovery restarts the partition. -/
def State.pastOf (s : State) (r : FaultReport) : PastFault :=
  let step := (s.part r.part).step
  match s.classOf r with
  | .plan => { what := (s.logicalFault r).1, step := step }
  | .hbm f a => { what := .engine ekHbmUncorr f, addr := a, step := step }
  | .tick f => { what := .tickLost f, step := step }
  | _ => { what := r.what, addr := r.addr, step := step }

/-! ## Reachability on the mesh (R171) -/

/-- The quad of a core site (R8). -/
def quadOf (k : Nat) : Nat := k % 64 / 16 * 4 + k % 8 / 2


/-- The routers reached from a list, one hop further. -/
def State.hop (s : State) (seen front : List (Nat × Nat)) : List (Nat × Nat) :=
  (front.flatMap (fun a =>
    let f := fieldAt a.1 a.2
    let q := quadAt a.1 a.2
    [4, 5, 6, 7].filterMap (fun p =>
      match neighbour a.1 a.2 p with
      | some (x, y, _) => if (s.router f q).port.toList.getD p 0 = 3 || (s.field (fieldAt x y)).pwr.trn ≠ .on then none else some (x, y)
      | none => none))).dedup.filter (fun b => !seen.contains b)

def State.flood (s : State) : Nat → List (Nat × Nat) → List (Nat × Nat) → List (Nat × Nat)
  | 0, seen, _ => seen
  | n + 1, seen, front =>
    match s.hop seen front with
    | [] => seen
    | f => State.flood s n (seen ++ f) f

/-- The routers that the Vale link's router reaches. -/
def State.reached (s : State) : List (Nat × Nat) := s.flood 768 [(0, 0)] [(0, 0)]

/-- Whether the link between core site k and its router is down. -/
def State.portLost (s : State) (k : Nat) : Bool :=
  (s.router (k / 64) (quadOf k)).port.toList.getD (k % 16 / 8 * 2 + k % 2) 0 = 3

/-- The terraces of a partition's placement that a mesh cut off (Table 9.2). -/
def State.cutOff (s : State) (p : Nat) : List Nat :=
  let seen := if s.tg.detourDraw.isNone then none else some s.reached
  (((s.placed p).map Prod.snd).filter (fun k =>
    s.portLost k || seen.any (fun l => !l.contains (routerX (k / 64) (quadOf k), routerY (k / 64) (quadOf k))))).map (fun k => k / 32) |>.dedup

/-! ## Losses -/

/-- The losses that matter to the placement in force (R296). -/
def State.usedLosses (s : State) (p : Nat) (ls : List Loss) : List Loss :=
  let sites := (s.placed p).map Prod.snd
  let fs := ((s.part p).placement.regions.map PlanRegion.field) ++ sites.map (fun k => k / 64)
  ls.dedup.filter (fun l => match l with
    | .none => false
    | .core k => sites.contains k
    | .terrace t => sites.any (fun k => k / 32 = t)
    | .field f => fs.contains f
    | .member _ => true)

/-- Both terraces of a field lost are the field (Table 9.2). -/
def mergeTerraces (ls : List Loss) : List Loss :=
  let fs := ls.filterMap (fun l => match l with | .terrace t => if ls.contains (.terrace (t ^^^ 1)) then some (t / 2) else none | .field f => some f | _ => none)
  (fs.dedup.map Loss.field) ++ ls.filter (fun l => match l with | .terrace t => !fs.contains (t / 2) | .field _ => false | _ => true)

/-- Hops between the quads of two sites of one field. -/
def quadHops (a b : Nat) : Nat :=
  let qa := quadOf a
  let qb := quadOf b
  (max (qa % 4) (qb % 4) - min (qa % 4) (qb % 4)) + (max (qa / 4) (qb / 4) - min (qa / 4) (qb / 4))

/-- The site with the smallest key. -/
def bestBy (key : Nat → Nat) : List Nat → Option Nat
  | [] => none
  | k :: r =>
    match bestBy key r with
    | none => some k
    | some m => if key m < key k then some m else some k

/-- The spare that replaces a site (R295): the same field, in a lit terrace of the partition; same quad, fewest hops, lowest
number. -/
def State.spareFor (s : State) (p k : Nat) (taken : List Nat) : Option Nat :=
  bestBy (fun m => (if quadOf m = quadOf k then 0 else 1) * 1000000 + quadHops m k * 10000 + m)
    (((List.range 64).map (fun i => 64 * (k / 64) + i)).filter (fun m =>
      s.site m = .spare && s.lit (m / 32) && (s.part p).terraces.getLsbD (m / 32) && !taken.contains m))

/-- Spares for the logical cores of a placement whose sites are not Enabled: (logical, spare), or none for a core that has no
spare. -/
def State.assignSpares (s : State) (p : Nat) : List (Nat × Nat) → List Nat → List (Nat × Nat × Option Nat)
  | [], _ => []
  | c :: r, taken =>
    if s.site c.2 = .enabled then State.assignSpares s p r taken
    else
      let m := s.spareFor p c.2 taken
      (c.1, c.2, m) :: State.assignSpares s p r (m.toList ++ taken)

/-- The placement that a detour state selects. -/
def Part.placementOf (x : Part) (d : Nat × Nat) : Placement := { x with detour := d, level := 0 : Part }.placement

/-- The detour that a loss calls for, when the plan carries it; a plan with NODETOUR has none (R294). -/
def Part.detourFor (x : Part) (l : Loss) : Option (Nat × Nat) :=
  let has := fun (isF : Bool) (u : Nat) => (x.plan.map (fun pl => !pl.nodetour && pl.detours.any (fun d => d.isField = isF && d.unit = u))).getD false
  match l with
  | .terrace t => if has false t then some (1, t) else none
  | .field f => if has true f then some (2, f) else none
  | _ => none

/-- A partition stays stopped with a status (R289, R297, Table 9.2): the owner is told, and RECOVER ends. -/
def State.stayStopped (s : State) (p : Nat) (status : W16) (path : Nat) : State :=
  let x := s.part p
  let ms := (s.tg.cyc - x.rcv.startCyc).toNat / 1200000
  let t := s.updPart p (fun y => { y with
    stopStatus := status, rcv := {}, startAt := none
    snap := { y.snap with phase := .idle, rcvValid := true, rcvPath := path, rcvMs := min ms 131071, rcvCount := satAdd y.snap.rcvCount 1 } })
  (t.emit [.event s.host.owner status.toNat [p]]).endLong (fun k => k = .recover p) status 0 0

/-- Set the path, the detour and the spares of a recovery from its losses (R278, R295, R296, Table 9.4). Terraces and fields
that a missing spare or a cut-off adds count among the losses. -/
def State.judge (s : State) (p : Nat) : State :=
  let x := s.part p
  let cores := x.rcv.losses.filterMap (fun l => match l with | .core k => some k | _ => none)
  let s := cores.foldl (fun (t : State) k => t.retire k) s
  let units := (mergeTerraces (s.usedLosses p (x.rcv.losses ++ (s.cutOff p).map Loss.terrace))).filter (fun l => match l with | .core _ => false | _ => true)
  let members := units.any (fun l => match l with | .member _ => true | _ => false)
  let places := units.filter (fun l => match l with | .member _ => false | _ => true)
  let now := s.assignSpares p (x.coreSites x.placement) []
  let bare := if places.isEmpty then ((now.filter (fun c => c.2.2.isNone)).map (fun c => Loss.terrace (c.2.1 / 32))).dedup else []
  match mergeTerraces (places ++ bare) with
  | [] =>
    let spares := now.filterMap (fun c => c.2.2.map (fun m => (c.1, m)))
    let path := if members then 4 else if spares.isEmpty then 0 else 1
    let t := s.updPart p (fun y => { y with rcv := { y.rcv with path := path, detour := if y.rcv.path = 8 then y.rcv.detour else none, spares := spares } })
    t.updCores (spares.map Prod.snd) (fun _ c => if c.bank.waking then c else { c with bank := c.bank.startWake })
  | [l] =>
    match (if x.detour.1 = 0 && x.level = 0 then x.detourFor l else none) with
    | none => s.stayStopped p stBeyondCoverage 6
    | some d =>
      let there := s.assignSpares p (x.coreSites (x.placementOf d)) []
      if there.any (fun c => c.2.2.isNone) then s.stayStopped p stBeyondCoverage 6
      else
        let spares := there.filterMap (fun c => c.2.2.map (fun m => (c.1, m)))
        let path := if members then 4 else if d.1 = 1 then 2 else 3
        let t := s.updPart p (fun y => { y with rcv := { y.rcv with path := path, detour := some d, spares := spares } })
        t.updCores (spares.map Prod.snd) (fun _ c => if c.bank.waking then c else { c with bank := c.bank.startWake })
  | _ => s.stayStopped p stBeyondCoverage 6

/-! ## Gathering (R278) -/

/-- Statuses with which a partition stays stopped until the owner acts. -/
def staysStopped (st : W16) : Bool := st = 0x0500#16 || st = stNoSnapshot || st = stBeyondCoverage || st = stPlanFault

/-- Firmware takes up a report of partition p: the recovery starts, or starts again with one more fault; the stop tick message
and JOB_STOP leave (R277 to R279). -/
def State.gather (s : State) (r : FaultReport) : State :=
  let p := r.part
  let x := s.part p
  let t := s.updPart p (fun y => { y with
    startAt := if y.rcv.active then none else y.startAt, ready := [], stopAtCommit := false
    rcv := { y.rcv with
      active := true, reports := r :: y.rcv.reports, losses := (r.loss :: y.rcv.losses).filter (· ≠ .none), ready := false
      startCyc := if y.rcv.active then y.rcv.startCyc else s.tg.cyc } })
  let t := if x.rcv.active then t else t.tellStop p
  t.sendStop p

/-- The loss that a recurrence adds (Table 9.2). -/
def State.recurLoss (s : State) (r : FaultReport) : Loss :=
  if !s.recurs r then .none
  else match s.classOf r with
    | .site k => .core k
    | .hbm f _ => .field f
    | .tick f => .field f
    | _ => .none

/-- The sites whose banks a preserving march tests before the restart (Table 9.2). -/
def State.marchSites (s : State) (r : FaultReport) : List Nat :=
  match s.classOf r with
  | .site k => if s.recurs r || !s.lit (k / 32) then [] else [k]
  | _ => []

/-- FAULT_REPORT (R277, R278, R293): the oldest report. -/
def State.faultReport (s : State) : State :=
  match s.fw.reports with
  | [] => s
  | r :: rest =>
    let s := { s with fw := { s.fw with reports := rest } }
    let p := r.part
    let x := s.part p
    if !x.on || staysStopped x.stopStatus || !(x.started || x.rcv.active || r.loss ≠ .none || r.what = .lost) then s
    else
      let again := s.recurs r
      let t := s.gather { r with loss := if r.loss = .none then s.recurLoss r else r.loss }
      if again && s.classOf r = .plan then t.stayStopped p stPlanFault 5
      else
        let t := t.updPart p (fun y => { y with rcv := { y.rcv with march := (y.rcv.march ++ s.marchSites r).dedup } })
        let t := match s.classOf r with
          | .digest port => if again then t.linkLost port else t
          | _ => t
        (t.judge p).startMarches p

/-! ## The restore -/

/-- The list of members in force once a change is adopted (R262). -/
def Part.listNow (x : Part) : List Member := if x.rs.stage ≠ 0 then x.rs.newList else x.members

/-- Every member lost is out of the list (R262, R272). -/
def Part.membersSettled (x : Part) : Bool :=
  x.rcv.losses.all (fun l => match l with | .member a => !x.listNow.any (fun m => m.addr = a) | _ => true)

/-- The restart can be restored (R289, R293, R295, R302): the partition stands stopped, its marches, spares, arbitration and
membership are settled, and the placement's terraces are lit and its stacks present. -/
def State.mayRestore (s : State) (p : Nat) : Bool :=
  let x := s.part p
  let pl := match x.rcv.detour with | some d => x.placementOf d | none => x.placement
  x.on && x.plan.isSome && x.rcv.active && !x.started && x.startAt.isNone && !x.rcv.ready && x.rcv.march.isEmpty && x.rcv.spares.isEmpty && x.checkSites.isEmpty &&
    x.membersSettled && (x.coreSites pl).all (fun c => s.lit (c.2 / 32)) && pl.regions.all (fun r => (s.field r.field).pwr.mif = .on && !(s.field r.field).pwr.lost)

/-- The first possible edge for a start (R187, R279). -/
def State.startSoon (s : State) (p : Nat) : State := s.updPart p (fun y => { y with startAt := some (s.waferEdgeAfter msgLead) })

/-- The lowest-ranked DESIGNATED member with READY from every member sends RESTART (R279). -/
def State.tryRestart (s : State) (p : Nat) : State :=
  let x := s.part p
  let os := s.others x.listNow
  if s.leads x.listNow && x.rcv.ready && os.all x.ready.contains then
    ((s.updPart p (fun y => { y with ready := [] })).emit (os.map (fun a => .module_ a .restart))).startSoon p
  else s

/-- A member that stands ready reports it (R279). -/
def State.reportReady (s : State) (p : Nat) : State :=
  let t := s.updPart p (fun y => { y with rcv := { y.rcv with ready := true } })
  if s.leads (s.part p).listNow then t.tryRestart p
  else match State.leader (s.part p).listNow with
    | some a => t.emit [.module_ a .ready]
    | none => t

/-- A single-module job starts; a member reports READY. -/
def State.goOn (s : State) (p : Nat) : State := if (s.part p).listNow.length ≤ 1 then s.startSoon p else s.reportReady p

/-- Every other member of the job can read a generation (R289), by what the members report of their sources. -/
def State.commonGen (s : State) (p : Nat) (avail : List (BitVec 12 × List W64)) (id : W64) : Bool :=
  (s.others (s.part p).listNow).all (fun a => avail.any (fun e => e.1.toNat = a && e.2.contains id))

/-- RESTORE_DONE (R282, R289, R292, R297): the placement is loaded, the generation restored and the job goes on; without a
generation the partition stays stopped with NO_SNAPSHOT. -/
def State.restoreDone (s : State) (p : Nat) (avail : List (BitVec 12 × List W64)) : State :=
  if !s.mayRestore p then s
  else
    let x := s.part p
    match s.chosenGen p (s.commonGen p avail), x.plan with
    | some g, some plan =>
      let d := x.rcv.detour.getD x.detour
      let pl := match x.rcv.detour with | some d => x.placementOf d | none => x.placement
      if !g.fits plan pl then s
      else
        let remember := x.rcv.reports.map s.pastOf
        let t := s.mapCores (fun k => x.terraces.getLsbD (k / 32)) Core.discard
        let t := t.updPart p (fun y => { y with
          detour := d, level := if y.rcv.detour.isSome then 0 else y.level, past := (y.past ++ remember).filter y.inWindowPast
          rcv := { y.rcv with source := (s.genSource g).getD 0 } })
        let t := t.loadPlacement p pl
        let t := (if x.rcv.detour.isSome then t.loadRoutes else t).restoreGen p g
        let t := t.updPart p (fun y => { y with
          members := if y.rs.stage ≠ 0 then y.rs.oldList else y.members
          snap := { y.snap with phase := .restoring } })
        t.goOn p
    | _, _ => s.stayStopped p stNoSnapshot 7

/-! ## Jobs across modules (R279) -/

/-- JOB_STOP from another member: the partition stops and its generation is restored; a member that stands ready, or whose
start edge is named, begins again. -/
def State.jobStop (s : State) (p : Nat) : State :=
  let x := s.part p
  if staysStopped x.stopStatus || !(x.started || x.rcv.active || (x.spans && x.startAt.isSome)) then s
  else (s.updPart p (fun y => { y with
    startAt := none, ready := []
    rcv := { y.rcv with active := true, ready := false, startCyc := if y.rcv.active then y.rcv.startCyc else s.tg.cyc } })).sendStop p

/-- MEMBER_READY at the lowest-ranked DESIGNATED member. -/
def State.memberReady (s : State) (p src : Nat) : State :=
  let x := s.part p
  if x.started || !(x.rcv.active || x.restartWanted) || !s.leads x.listNow || !x.listNow.any (fun m => m.addr = src) then s
  else (s.updPart p (fun y => { y with ready := if y.ready.contains src then y.ready else src :: y.ready })).tryRestart p

/-- RESTART: a member that has reported READY starts its plan. -/
def State.restart (s : State) (p : Nat) : State :=
  let x := s.part p
  if !x.started && x.startAt.isNone && x.rcv.ready then s.startSoon p else s

/-! ## Spares and marches -/

/-- A spare's zeroing has ended (R295): it becomes Enabled and takes its logical core over; after a failure the site is retired
and another spare is sought. -/
def State.spareWoken (s : State) (p k : Nat) : State :=
  let x := s.part p
  match x.rcv.spares.find? (fun e => e.2 = k) with
  | none => s
  | some e =>
    if (s.core k).bank.zfail then ((s.retire k).updPart p (fun y => { y with rcv := { y.rcv with spares := y.rcv.spares.filter (· ≠ e) } })).judge p
    else
      { s.updPart p (fun y => { y with remap := (e.1, k) :: y.remap.filter (fun m => m.1 ≠ e.1), rcv := { y.rcv with spares := y.rcv.spares.filter (· ≠ e) } }) with
        sites := Tab.set .enabled s.sites k .enabled }

/-- A march that a recovery waited for has ended: a failure adds the core path (Table 9.2). -/
def State.recoveryMarch (s : State) (k : Nat) : State :=
  match (List.range 16).find? (fun p => (s.part p).rcv.march.contains k) with
  | none => s
  | some p =>
    let bad := (s.core k).bank.march.fail
    let t := s.updPart p (fun y => { y with rcv := { y.rcv with march := y.rcv.march.filter (· ≠ k), losses := if bad then .core k :: y.rcv.losses else y.rcv.losses } })
    if bad then t.judge p else t

def execFaultReport (s : State) : Host.Outcome State Fault Refusal := .next s.faultReport
def execRestoreDone (p : PartIx) (avail : List (BitVec 12 × List W64)) (s : State) : Host.Outcome State Fault Refusal := .next (s.restoreDone p avail)
def execJobStop (p : PartIx) (s : State) : Host.Outcome State Fault Refusal := .next (s.jobStop p)
def execMemberReady (p : PartIx) (src : BitVec 12) (s : State) : Host.Outcome State Fault Refusal := .next (s.memberReady p src.toNat)
def execRestart (p : PartIx) (s : State) : Host.Outcome State Fault Refusal := .next (s.restart p)

end Sys2Proof.Machine
end

