-- ==== Sys2Proof/Machine/Arbitrate.lean ====
section
/-! DEFINITION. Arbitration of check events (R299 to R302), the ends of wipes, marches and zeroing on wake (R133 to R136,
R326), and MARCH_RUN (R399). -/

namespace Sys2Proof.Machine

open Sys2Proof

def stMarchFail : W16 := 0x0702#16
def stSiteDark : W16 := 0x0703#16

/-! ## Arbitration -/

/-- The peer core of R300: Enabled in a lit terrace of the partition, CHK_OFF 0; same quad, then the nearest site number. -/
def State.peerOf (s : State) (p k : Nat) : Option Nat :=
  bestBy (fun m => (if m / 64 = k / 64 && quadOf m = quadOf k then 0 else 1) * 1000000000 + (max m k - min m k) * 10000 + m)
    ((s.sitesOf p).filter (fun m => m ≠ k && s.site m = .enabled && s.lit (m / 32) && !(s.core m).chk.off))

/-- Change a core's capture buffer. -/
def Core.onCap (c : Core) (g : Capture → Capture) : Core := { c with chk := { c.chk with cap := g c.chk.cap } }

/-- A replay begins on a core: the active and shadow tiles are invalid from then on (R300). -/
def Core.beginReplay (src : Capture) (c : Core) : Core :=
  { c.onCap (fun x => { x with replaying := true, rdone := false, rchk := false, replay := [], src := src.src }) with
    arr := { c.arr with active := none, shadow := none, shadowReady := false } }

/-- CHECK_ARBITRATION (R300, R302): at the boundary of a step with a check event, or in a recovery of its partition, the replay
of one captured event begins on its core and on the peer. An event of a dark core can be replayed no more. -/
def State.checkArbitration (s : State) (p : Nat) : State :=
  let x := s.part p
  let ready := if x.started then x.stepOpen && s.tg.ofs = 0 && s.enginesIn p else x.rcv.active
  if !ready || !x.arb.isEmpty then s
  else match x.checkSites with
    | [] => s
    | k :: rest =>
      if !s.lit (k / 32) || !(s.core k).chk.cap.captured then
        s.updPart p (fun y => { y with checkSites := rest, rollBack := y.rollBack || y.started })
      else
        let peer := s.peerOf p k
        let cap := (s.core k).chk.cap
        let t := s.updPart p (fun y => { y with
          arb := [(k, peer.getD k)], hold := if y.hold.contains .arbitration then y.hold else .arbitration :: y.hold
          rollBack := y.rollBack || decide (1 < y.checkSites.length) || (s.core k).chk.record.more })
        t.updCores (k :: peer.toList) (fun _ c => c.beginReplay cap)

/-- Two FP32 values are equal with +0 and −0 taken as equal (R301). -/
def sameBits (a b : W32) : Bool := a = b || ((a ||| b) &&& 0x7FFFFFFF#32) = 0
def sameVals (a b : List W32) : Bool := a.length = b.length && (a.zip b).all (fun p => sameBits p.1 p.2)

/-- The tile that a captured image loads as (R41, R140). -/
def Captured.tile (c : Captured) : Tile := (if c.headed then headedTile c.tileRaw c.tileLen else denseTile c.wfmt c.tileRaw).withSums

/-- A replay of the captured tile and row-block (R300): what the products, with their errors, and the check lane, with errors
`lane` of the bits of its sum, form. -/
def Captured.run (c : Captured) (ups : List Upset) (lane : W32) : BlkChk :=
  let t := c.tile
  let k := checkBlock t c.afmt c.rec_ c.block ((List.range (128 * t.g)).map (fun j => blockDot t c.afmt c.rec_ ups j c.block))
  { k with sChk := k.sChk ^^^ lane, intDiff := k.intDiff + k.sChk.toInt - (k.sChk ^^^ lane).toInt }

/-- The check verdict of a replay: a compared row-block that disagrees. -/
def Captured.verdict (c : Captured) (k : BlkChk) : Bool := !k.skip && disagrees c.isInt k

/-- S_out formed from C's values agrees with A's S_chk under R68 (R301). -/
def Captured.agrees (c : Captured) (vals : List W32) : Bool :=
  if c.isInt then BitVec.ofInt 32 ((vals.map (fun v => fpInt (dec32 v))).foldl (· + ·) 0) = c.sChk
  else
    let so := sOutOf (vals.length / 128) vals
    isFin32 so && !disagrees false { sOut := so, sChk := c.sChk, m := c.m }

/-- The rows of Table 9.6. -/
inductive Verdict where
  | lane | laneTransient | array | arrayTransient | suspect
  deriving DecidableEq, Repr

/-- The first row of Table 9.6 that applies to the captured values A, the replay B with its check verdict, and the peer's
replay C with its own; without a peer no row of the first three applies. -/
def verdictOf (cap : Capture) (bBad : Bool) (peer : Option Capture) : Verdict :=
  match peer with
  | none => .suspect
  | some q =>
    if q.rchk then .suspect
    else if sameVals q.replay cap.src.vals then (if bBad then .lane else .laneTransient)
    else if cap.src.agrees q.replay then
      (if sameVals cap.replay q.replay && !sameVals cap.replay cap.src.vals then .arrayTransient else .array)
    else .suspect

/-- A verdict's retirement and its effect on the step (Table 9.6, R301, R302). In a recovery it affects only retirement. -/
def State.applyVerdict (s : State) (p k : Nat) (v : Verdict) : State :=
  let x := s.part p
  let again := x.suspects.any (fun e => e.1 = k)
  let retire := v = .array || (v = .suspect && again)
  let t := if v = .lane then s.setCore k { s.core k with chk := { (s.core k).chk with off := true } } else s
  let t := t.updPart p (fun y => { y with
    arb := [], checkSites := y.checkSites.filter (· ≠ k)
    suspects := if v = .suspect then (k, y.step) :: y.suspects else y.suspects
    rollBack := y.rollBack || v = .array || v = .arrayTransient || v = .suspect })
  let t := if retire then t.retire k else t
  let y := t.part p
  if y.rcv.active then (if retire then { t with fw := { t.fw with reports := t.fw.reports ++ [{ part := p, what := .lost, loss := .core k, addr := k }] } } else t)
  else if y.rollBack then
    (if retire || y.checkSites.isEmpty then
      { t with fw := { t.fw with reports := t.fw.reports ++ [{ part := p, what := .lost, loss := if retire then .core k else .none, addr := k }] } }
     else t)
  else if y.checkSites.isEmpty then t.updPart p (fun z => { z with lift := .arbitration :: z.lift })
  else t

/-- REPLAY_DONE (R300, R318): a replay finishes with its values and its own check verdict in the buffer; with both in, the
verdict of the arbitration falls. -/
def State.replayDone (s : State) (p k on : Nat) (ups : List Upset) (lane : W32) : State :=
  match (s.part p).arb.find? (fun a => a.1 = k) with
  | none => s
  | some a =>
    if !(on = k || on = a.2) || !(s.core on).chk.cap.replaying then s
    else
      let r := (s.core on).chk.cap.src.run ups lane
      let t := s.setCore on ((s.core on).onCap (fun x => { x with replaying := false, rdone := true, rchk := x.src.verdict r, replay := r.vals }))
      if (t.core k).chk.cap.replaying || (t.core a.2).chk.cap.replaying then t
      else
        let cap := (t.core k).chk.cap
        t.applyVerdict p k (verdictOf cap cap.rchk (if a.2 = k then none else some (t.core a.2).chk.cap))

/-! ## Ends of marches, wipes and zeroing -/

/-- What the end of a march on a core brings (R134, R293, R399): a failing Enabled or Spare core retires, a recovery goes on, and
MARCH_RUN completes. -/
def State.marchEnded (s : State) (k : Nat) : State :=
  if (s.core k).bank.march.running then s
  else
    let t := if (s.core k).bank.march.fail then s.retire k else s
    (t.recoveryMarch k).endMarches

/-- Change the banks of a core whose march may end with it. -/
def State.onMarch (s : State) (k : Nat) (g : Bank → Bank) : State :=
  let ran := (s.core k).bank.march.running
  let t := s.onBank k g
  if ran then t.marchEnded k else t

/-- A wake that failed adds the core path to a recovery of the core's partition (Table 9.2). -/
def State.wakeFailed (s : State) (k : Nat) : State :=
  match s.partOfSite k with
  | none => s
  | some p =>
    if (s.part p).rcv.active then (s.updPart p (fun y => { y with rcv := { y.rcv with losses := .core k :: y.rcv.losses } })).judge p else s

/-- WAKE_ZEROING_DONE (R135, R293, R295, R326): the banks are released; a read-back that differed retires the core, which adds
the core path to a recovery of its partition; the terrace may be LIT; a spare takes over; at bring-up with START_MARCH the cores of a lit terrace march (Table 11.5). -/
def State.wakeDone (s : State) (k : Nat) (differs : Option Nat) : State :=
  if !(s.core k).bank.waking then s
  else
    let t := s.onBank k (fun b => b.wakeDone differs)
    let spare := (List.range 16).find? (fun p => (s.part p).rcv.spares.any (fun e => e.2 = k))
    let t := match spare with
      | some p => t.spareWoken p k
      | none => if differs.isSome then (t.retire k).wakeFailed k else t
    let was := (s.ter (k / 32)).st
    let u := t.checkLit (k / 32)
    let u := if s.rck.stage = 9 && s.rck.startMarch && was ≠ .lit && u.lit (k / 32) then
        u.updCores (u.enabledOn (k / 32)) (fun j c => { c with bank := { c.bank with march := { c.bank.march with mode := false, maskReg := 0xFFFFFFFF#32 } }.marchStart (u.dark j) })
      else u
    u.envAdvance

/-- MARCH_RUN (R399). -/
def State.marchRun (s : State) (f : Fetched) (field core : Nat) (mode : Bool) (mask : W32) (rsv : Nat) : State :=
  let k := 64 * field + core
  if rsv ≠ 0 || 48 ≤ field || 64 ≤ core || mask = 0 || !f.pkt.noPart then s.done f stBadParam
  else if !s.lit (k / 32) then s.done f stSiteDark
  else if (match s.partOfSite k with | some p => (s.part p).started | none => false) then s.done f stPartRunning
  else if (s.core k).bank.march.running then s.done f stBusy
  else (s.onBank k (fun b => { b with march := { b.march with mode := mode, maskReg := mask } }.marchStart false)).fly f (.march k)

def execCheckArbitration (p : PartIx) (s : State) : Host.Outcome State Fault Refusal := .next (s.checkArbitration p)
def execReplayDone (p : PartIx) (k on : Site) (ups : List Upset) (lane : W32) (s : State) : Host.Outcome State Fault Refusal :=
  .next (s.replayDone p k on ups lane)

def execBnkSecureWrite (k : Site) (v : W32) (s : State) : Host.Outcome State Fault Refusal :=
  .next (s.onMarch k (fun b => b.writeSecure v (s.dark k)))
def execWipeDone (k : Site) (b : BankIx) (differs : Bool) (s : State) : Host.Outcome State Fault Refusal :=
  .next (s.onMarch k (fun x => x.wipeDone b differs))
def execMarchBankDone (k : Site) (fail : Option (Fin 6 × Fin 4096 × Fin 544)) (s : State) : Host.Outcome State Fault Refusal :=
  .next (s.onMarch k (fun b => b.marchBankDone (fail.map (fun x => (x.1.val, x.2.1.val, x.2.2.val)))))
def execMarchAbortDone (k : Site) (s : State) : Host.Outcome State Fault Refusal := .next (s.onMarch k Bank.marchAbortDone)
def execWakeZeroingDone (k : Site) (d : Option BankIx) (s : State) : Host.Outcome State Fault Refusal := .next (s.wakeDone k (d.map Fin.val))
def execMarchRun (k : Pkt) (field core : Byte) (mode : Bool) (mask : W32) (rsv : Nat) (s : State) : Host.Outcome State Fault Refusal :=
  .next (s.command k 0x0702#16 true (.site (64 * field.toNat + core.toNat)) (fun t f => t.marchRun f field.toNat core.toNat mode mask rsv))

end Sys2Proof.Machine
end

