-- ==== Sys2Proof/Machine/ArrayInsn.lean ====
section
/-! DEFINITION. The array instructions (R97, Table 3.7): what the sequencer judges at issue, and the queue they join. -/

namespace Sys2Proof.Machine

open Sys2Proof

/-- The row count of a group as the instructions issued so far leave it: the last GOPEN still queued, or the group's own. -/
def Core.groupCount (c : Core) (g : Nat) : Nat :=
  c.arr.q.foldl (fun n a => match a.op with
    | .gopen x _ count => if x = g then count else n
    | _ => n) (c.arr.group g).count

/-- What every class 0x6 instruction does first, in fault-kind order (R85): ILLEGAL_INSN, BAD_FORMAT, REG_BUSY, STAGE_OFF;
once the scalar registers it reads are there (R77), ALIGN and ADDR_RANGE; then it joins the queue, 8 deep, and a full
queue stops the sequencer (R76). -/
def arrBody (w : W64) (f : ArrF) (legal : Bool) (fmtBad : Option Nat) (feeds : Bool) (vs ss : List Nat)
    (addr : Core → Option (Nat × Nat)) (op : Core → ArrOp) (c : Core) : Core × Out Eff :=
  if f.rsv ≠ 0 || !legal then (c, .fault 0x01 (hiWord w))
  else match fmtBad with
    | some code => (c, .fault 0x03 code)
    | none =>
      match c.regBusy vs with
      | some r => (c, .fault 0x04 r)
      | none =>
        if feeds && c.seq.ord ≠ .stage then (c, .fault 0x05 0)
        else if c.depends ss then (c, .wait none)
        else match addr c with
          | some (k, d) => (c, .fault k d)
          | none =>
            if 8 ≤ c.arr.q.length then (c, .wait (some queueFull))
            else ({ c with arr := { c.arr with q := c.arr.q ++ [{ pc := c.seq.pc, op := op c, before := c.vq.length }] } }, .ok {})

/-- Alignment and range of a GDRAIN.B, judged when it is issued (R58). -/
def drainFault (f : ArrF) (c : Core) : Option (Nat × Nat) :=
  let a := (c.S f.sa).toNat
  let n := c.groupCount f.group.toNat
  firstFault [(a % 64 ≠ 0, 0x06, a), (n ≠ 0 && 0x7FFFFF < a + 512 * n - 1, 0x07, a)]

/-- A staging instruction sets the program-order staging state (R82). -/
def stagingBody (w : W64) (f : ArrF) (ord : StageOrd) (op : ArrOp) (c : Core) : Core × Out Eff :=
  match arrBody w f true none false [] [] (fun _ => none) (fun _ => op) c with
  | (c1, .ok e) => ({ c1 with seq := { c1.seq with ord := ord } }, .ok e)
  | r => r

def execTload (k : Site) (f : ArrF) (s : State) : Host.Outcome State Fault Refusal :=
  .next (s.issue k (encArr 0x00 f) (arrBody (encArr 0x00 f) f (f.fuse.toNat < 2)
    (if 6 < f.wfmt.toNat then some f.wfmt.toNat else none) true [] [] (fun _ => none)
    (fun _ => .tload f.wfmt.toNat f.win.toNat (f.fuse.toNat % 2 = 1) 0 0)))

/-- The weight format of the tile that a PASS issued now would apply (R436): that of the last TLOAD still queued, or of the
shadow tile, or of the active one. -/
def Core.nextTileFmt (c : Core) : Option Nat :=
  c.arr.q.foldl (fun n a => match a.op with
    | .tload wfmt _ _ _ _ => some wfmt
    | _ => n) ((c.arr.shadow <|> c.arr.active).map Tile.efmt)

/-- BAD_FORMAT of a PASS at issue: a reserved AFMT (R85). A PASS that breaks the pairing too (R40) while the staging is
unbound raises this one fault, the lower of the two kinds (R85). -/
def passFmtBad (f : ArrF) (c : Core) : Option Nat :=
  let a := f.afmt.toNat
  if 6 < a then some a
  else if c.seq.ord = .stage then none
  else match c.nextTileFmt with
    | some t => if pairs a t then none else some (a + 16 * t)
    | none => none

def execPass (k : Site) (f : ArrF) (upsets : List Upset) (s : State) : Host.Outcome State Fault Refusal :=
  .next (s.issue k (encArr 0x01 f) (fun c => arrBody (encArr 0x01 f) f true (passFmtBad f c) true [] [] (fun _ => none)
    (fun _ => .pass f.group.toNat f.afmt.toNat f.first.toNat f.n.toNat f.win.toNat upsets) c))

def execGopen (k : Site) (f : ArrF) (s : State) : Host.Outcome State Fault Refusal :=
  .next (s.issue k (encArr 0x08 f) (arrBody (encArr 0x08 f) f true none false [] [] (fun _ => none)
    (fun _ => .gopen f.group.toNat f.first.toNat f.n.toNat)))

def execGclose (k : Site) (f : ArrF) (s : State) : Host.Outcome State Fault Refusal :=
  .next (s.issue k (encArr 0x09 f) (arrBody (encArr 0x09 f) f true none false [] [] (fun _ => none)
    (fun _ => .gclose f.group.toNat)))

def execGdrainB (k : Site) (f : ArrF) (s : State) : Host.Outcome State Fault Refusal :=
  .next (s.issue k (encArr 0x0A f) (arrBody (encArr 0x0A f) f (f.fuse.toNat ≠ 3) none false [] [f.sa.toNat] (drainFault f)
    (fun c => .gdrainB f.group.toNat f.fuse.toNat (c.S f.sa).toNat)))

def execGdrainV (k : Site) (f : ArrF) (s : State) : Host.Outcome State Fault Refusal :=
  .next (s.issue k (encArr 0x0B f) (arrBody (encArr 0x0B f) f (f.fuse.toNat ≠ 3 && f.sa.toNat % 2 = 0) none false
    [f.sa.toNat, f.sa.toNat + 1] [] (fun _ => none)
    (fun _ => .gdrainV f.group.toNat f.fuse.toNat f.first.toNat f.sa.toNat)))

def execGrel (k : Site) (f : ArrF) (s : State) : Host.Outcome State Fault Refusal :=
  .next (s.issue k (encArr 0x0C f) (arrBody (encArr 0x0C f) f true none false [] [] (fun _ => none)
    (fun _ => .grel f.group.toNat)))

def execGside (k : Site) (f : ArrF) (s : State) : Host.Outcome State Fault Refusal :=
  .next (s.issue k (encArr 0x0D f) (arrBody (encArr 0x0D f) f true none false [] [] (fun _ => none)
    (fun _ => .gside f.first.toNat f.sa.toNat)))

def execStage (k : Site) (f : ArrF) (s : State) : Host.Outcome State Fault Refusal :=
  .next (s.issue k (encArr 0x10 f) (stagingBody (encArr 0x10 f) f .stage .stage))

def execUnstage (k : Site) (f : ArrF) (s : State) : Host.Outcome State Fault Refusal :=
  .next (s.issue k (encArr 0x11 f) (stagingBody (encArr 0x11 f) f .unstage .unstage))

end Sys2Proof.Machine
end

