-- ==== Sys2Proof/Machine/CoreEvents.lean ====
section
/-! DEFINITION. Events inside a core: tile ready (R41, R144), check compares (R68 to R74, R299), group closes, drains and
releases (Table 2.6), staging (R82), completed waits (R98), END (R109), and the bank's write-back (R118). -/

namespace Sys2Proof.Machine

open Sys2Proof

/-- TILE_READY (R41, R67, R144, R155): the codes have been checked and the check lane's sums are ready. -/
def State.tileReady (s : State) (k : Nat) : State :=
  let c := s.core k
  match c.arr.shadow with
  | none => s
  | some t =>
    if c.arr.shadowReady then s
    else match t.codeFault with
      | some d => s.raiseFault k { c with arr := { c.arr with shadow := none } } 0x14 d c.arr.loadPc
      | none =>
        s.putCore k { c with
          arr := { c.arr with shadow := some t.withSums, shadowReady := true }
          sprHdr := if t.headed then satAdd c.sprHdr 1 else c.sprHdr
          sprDense := if t.headed && t.denseBit then satAdd c.sprDense 1 else c.sprDense }

def execTileReady (k : Site) (s : State) : Host.Outcome State Fault Refusal := .next (s.tileReady k)

/-- One row-block of a compare (R68 to R71, R73, R74): CHK_OFF and special values skip it, an armed injection makes the
next compared one disagree. The flag says that this block filled the record. -/
def compareBlock (now : Stamp) (r : RowChk) (c : Core) (p : Nat × BlkChk) : Core :=
  let k := p.2
  if c.chk.off || k.skip then { c with chk := { c.chk with skips := satAdd c.chk.skips 1 } }
  else
    let isInt := r.wfmt = 5
    let blocks := c.chk.blocks + 1
    if c.chk.inj || disagrees isInt k then
      let body : ChkBody := { injected := c.chk.inj, wfmt := r.wfmt, afmt := r.afmt, group := r.group, block := p.1, row := r.row, at_ := now, sOut := k.sOut, sChk := k.sChk, tau := tauOf isInt k.m }
      { c with chk := { c.chk with
          blocks := blocks
          inj := false
          suspect := c.chk.suspect ||| BitVec.ofNat 8 (2 ^ r.group)
          events := satAdd c.chk.events 1
          record := c.chk.record.note ChkBody.lower now body
          cap := if c.chk.record.valid && !(c.chk.record.cycle = now && ChkBody.lower body c.chk.record.body) then c.chk.cap else
            { c.chk.cap with
              captured := true, rdone := false
              src := { headed := r.headed, wfmt := r.wfmt, afmt := r.afmt, tileRaw := r.tileRaw, tileLen := r.tileLen, rec_ := r.rec_, block := p.1
                       vals := k.vals, sChk := k.sChk, m := k.m, isInt := isInt } } } }
    else { c with chk := { c.chk with blocks := blocks } }

/-- CHECK_COMPARE: the oldest row in the pipeline completes its four compares; a disagreement is reported to firmware
(R70, R300). -/
def State.checkCompare (s : State) (k : Nat) : State :=
  let c := s.core k
  match c.arr.pend with
  | [] => s
  | r :: rest =>
    let c1 := (r.blocks.mapIdx (fun i b => (i, b))).foldl (compareBlock s.coreNow r) { c with arr := { c.arr with pend := rest } }
    let t := s.putCore k c1
    let hit := !c.chk.off && r.blocks.any (fun b => !b.skip && (c.chk.inj || disagrees (r.wfmt = 5) b))
    if !hit then t
    else match s.partOfSite k with
      | none => t
      | some p =>
        { t with
          parts := if h : p < 16 then t.parts.set p { t.part p with checkSites := if (t.part p).checkSites.contains k then (t.part p).checkSites else (t.part p).checkSites ++ [k] } h else t.parts
          out := .event 0xFF 0x70 [k] :: t.out }

def execCheckCompare (k : Site) (s : State) : Host.Outcome State Fault Refusal := .next (s.checkCompare k)

/-- The array's queue without its head. -/
def Arr.popQ (a : Arr) : Arr := { a with q := a.q.drop 1 }

/-- The operation at the head of the array's queue. -/
def Arr.head (a : Arr) : Option ArrOp := (a.q.head?).map QArr.op

/-- GCLOSE_DONE (Table 2.6): every row entered for the group is written and checked; it becomes CLOSED. -/
def State.gcloseDone (s : State) (k g : Nat) : State :=
  let c := s.core k
  if (c.arr.group g).closing && c.arr.head = some (.gclose g) && !c.arr.pend.any (fun r => r.group = g) then
    s.putCore k { c with arr := (c.arr.setGroup g { c.arr.group g with st := .closed, closing := false }).popQ }
  else s

def execGcloseDone (k : Site) (g : Fin 8) (s : State) : Host.Outcome State Fault Refusal := .next (s.gcloseDone k g)

/-- DRAIN_DONE (R58): the oldest drain of the group completes. -/
def State.drainDone (s : State) (k g : Nat) : State :=
  let c := s.core k
  if !(c.arr.group g).drains.isEmpty then
    s.putCore k { c with arr := c.arr.setGroup g { c.arr.group g with drains := (c.arr.group g).drains.drop 1 } }
  else s

def execDrainDone (k : Site) (g : Fin 8) (s : State) : Host.Outcome State Fault Refusal := .next (s.drainDone k g)

/-- GREL_DONE (Table 2.6): the drain that held a RELEASE has completed; the group becomes FREE. -/
def State.grelDone (s : State) (k g : Nat) : State :=
  let c := s.core k
  if (c.arr.group g).releasing && c.arr.head = some (.grel g) && (c.arr.group g).drains.isEmpty then
    s.putCore k { c with arr := (c.arr.setGroup g {}).popQ }
  else s

def execGrelDone (k : Site) (g : Fin 8) (s : State) : Host.Outcome State Fault Refusal := .next (s.grelDone k g)

/-- Whether a drain into V24 to V31 is under way. -/
def Core.drainsHigh (c : Core) : Bool := c.arr.groups.toList.any (fun g => g.drains.any id)

/-- STAGE_BIND (R82): V24 to V31 bind to the staging once every earlier instruction that names them has completed. -/
def State.stageBind (s : State) (k : Nat) : State :=
  let c := s.core k
  if c.seq.stageReq && c.arr.head = some .stage && !c.drainsHigh then
    s.putCore k { c with seq := { c.seq with staged := true, stageReq := false }, arr := c.arr.popQ }
  else s

def execStageBind (k : Site) (s : State) : Host.Outcome State Fault Refusal := .next (s.stageBind k)

/-- UNSTAGE_DONE (R82): the feed holds no undelivered byte, and the binding ends. -/
def State.unstageDone (s : State) (k : Nat) : State :=
  let c := s.core k
  if c.seq.unstageReq && c.arr.head = some .unstage then
    s.putCore k { c with seq := { c.seq with staged := false, unstageReq := false }, arr := c.arr.popQ }
  else s

def execUnstageDone (k : Site) (s : State) : Host.Outcome State Fault Refusal := .next (s.unstageDone k)

/-- SEMWAIT_DONE (R98): the count of the SEMWAIT that waits is reached; n is subtracted and the program goes on. -/
def State.semwaitDone (s : State) (k : Nat) : State :=
  let c := s.core k
  match c.fetch c.seq.pc with
  | some w => if c.seq.st = .waiting && w.toNat / 2 ^ 52 = 0x901 then s.issue k w (semwaitBody w (decSync w)) else s
  | none => s

def execSemwaitDone (k : Site) (s : State) : Host.Outcome State Fault Refusal := .next (s.semwaitDone k)

/-- Whether every array and vector instruction of the core has completed: no row is in the pipeline, no drain is under way,
no tile waits to be ready, and both queues are empty (R109). -/
def Core.settled (c : Core) : Bool :=
  c.arr.q.isEmpty && c.vq.isEmpty && c.arr.pend.isEmpty && c.arr.groups.toList.all (fun g => g.drains.isEmpty) &&
    !(c.arr.shadow.isSome && !c.arr.shadowReady)

/-- END_RETIRE (R109): the array is no longer busy and every earlier instruction has completed; the run has finished. -/
def State.endRetire (s : State) (k : Nat) : State :=
  let c := s.core k
  if c.seq.endIssued && c.seq.st = .running && c.settled then
    s.setCore k { c with seq := { c.seq with st := .ended, wcause := 4, endIssued := false } }
  else s

def execEndRetire (k : Site) (s : State) : Host.Outcome State Fault Refusal := .next (s.endRetire k)

/-- BANK_WRITE_BACK (R118): the corrected codeword of a word goes back, when a write-back of it is pending. -/
def State.bankWriteBack (s : State) (k w : Nat) : State :=
  let c := s.core k
  if c.bank.writeBack.contains w then
    match c.bank.decoded w with
    | some (bs, _) => s.putCore k { c with bank := c.bank.store w bs }
    | none => s.putCore k { c with bank := { c.bank with writeBack := c.bank.writeBack.erase w } }
  else s

def execBankWriteBack (k : Site) (w : Nat) (s : State) : Host.Outcome State Fault Refusal := .next (s.bankWriteBack k w)

end Sys2Proof.Machine
end

