-- ==== Sys2Proof/Machine/PlanUnits.lean ====
section
/-! DEFINITION. What a plan writes to the units of its fields, and its unloading (R126, R127, R138, R165, R258, R395); a plan moved by
whole fields (R309). -/

namespace Sys2Proof.Machine

open Sys2Proof

/-- The placements of other loaded plans. -/
def State.otherPlans (s : State) (p : Nat) : List Plan :=
  (List.range 16).filterMap (fun q => if q = p then none else (s.part q).plan)

/-- A rule of the plan of partition p that no other loaded plan uses. -/
def State.ruleFree (s : State) (p f k : Nat) : Bool :=
  (((s.part p).plan.map Plan.rules).getD []).any (fun r => r.field = f && r.idx = k) &&
    !(s.otherPlans p).any (fun o => o.rules.any (fun r => r.field = f && r.idx = k))

/-- Firmware writes a slot's configuration, HBC_WS_CFG to HBC_WS_FREC (Table 12.12); the status and the counters stay (R165). -/
def WsSlot.load (w : WsSlot) (p : Nat) (cfg : WsSlot) : WsSlot :=
  { w with
    en := cfg.en, part := p, reports := cfg.reports, missBound := cfg.missBound, nblk := cfg.nblk, denseSlots := cfg.denseSlots, mbase := cfg.mbase
    frecSem := cfg.frecSem, frecAddr := cfg.frecAddr, cores := cfg.cores, ctr := 0, batches := [], formed := [] }

/-- A field without partition p's regions, bindings, reduction entries, watershed slots, clip bound and the rules that are
free. -/
def Field.unload (p : Nat) (free : Nat → Bool) (f : Field) : Field :=
  { f with
    regions := f.regions.filter (fun r => r.2.part ≠ p || !r.2.en)
    bindings := f.bindings.filter (fun b => b.2.part ≠ p || !b.2.en)
    rules := f.rules.filter (fun r => !free r.1)
    ws := f.ws.map (fun w => if w.en && w.part = p then w.load 0 {} else w)
    routers := f.routers.map (fun r => { r with red := r.red.filter (fun e => e.2.part ≠ p || !e.2.en) })
    upe := { f.upe with clip := vset f.upe.clip p 0x7F800000#32 } }

/-- The plan of partition p is unloaded (R126, R127, R138, R258, R395): its cores, cols, regions, windows and reduction
entries are free, and its secure banks are wiped. -/
def State.unloadPlan (s : State) (p : Nat) : State :=
  let x := s.part p
  { s with
    cores := Tab.mapV {} s.cores (fun k c => if x.terraces.getLsbD (k / 32) then c.unloadPlan (s.dark k) else c)
    fields := Tab.mapV {} s.fields (fun i f => f.unload p (s.ruleFree p i))
    cols := s.cols.filter (fun c => c.2.part ≠ p || !c.2.en)
    parts := vset s.parts p { x with plan := none } }

/-- Rules, bindings, watershed slots and clip bounds of a plan (sections 0x04, 0x05, 0x09, 0x0D). -/
def State.loadUnits (s : State) (p : Nat) (pl : Plan) : State :=
  let t := pl.rules.foldl (fun (t : State) r => t.updField r.field (fun f => { f with rules := Tab.set {} f.rules r.idx { r.rule with en := true } })) s
  let t := pl.bindings.foldl (fun (t : State) b => t.updField b.field (fun f => { f with bindings := Tab.set {} f.bindings b.idx { b.b with en := true, part := p } })) t
  let t := pl.ws.foldl (fun (t : State) w => t.updField w.field (fun f => f.setSlot w.slot ((f.slot w.slot).load p { w.cfg with en := true }))) t
  let t := pl.upe.foldl (fun (t : State) u => t.updField u.1 (fun f => { f with upe := { f.upe with share := u.2.1, redId := u.2.2 } })) t
  pl.clips.foldl (fun (t : State) c => t.updField c.1 (fun f => { f with upe := { f.upe with clip := vset f.upe.clip p c.2 } })) t

/-- A plan of the partition is started, or its start edge is named. -/
def State.running (s : State) (p : Nat) : Bool := (s.part p).started || (s.part p).startAt.isSome


/-! ## Moved plans (R309) -/

/-- A field moved by columns and rows; none when it leaves the wafer. -/
def moveField (f : Nat) (dx dy : Int) : Option Nat :=
  let x := (f % 8 : Nat) + dx
  let y := (f / 8 : Nat) + dy
  if 0 ≤ x && x < 8 && 0 ≤ y && y < 6 then some (8 * y.toNat + x.toNat) else none
def moveSite (k : Nat) (dx dy : Int) : Option Nat := (moveField (k / 64) dx dy).map (fun f => 64 * f + k % 64)

/-- A destination entry moved: a kind-2 entry names a field. -/
def Dest.moved (d : Dest) (dx dy : Int) : Dest := if d.kind = 2 then { d with field := (moveField d.field dx dy).getD d.field } else d

/-- A placement moved by whole fields; what leaves the wafer goes. -/
def Placement.moved (pl : Placement) (dx dy : Int) : Placement :=
  { pl with
    terraces := (List.range 96).foldl (fun (m : BitVec 96) t =>
      match (if pl.terraces.getLsbD t then moveField (t / 2) dx dy else none) with
      | some f => m ||| BitVec.ofNat 96 (2 ^ (2 * f + t % 2))
      | none => m) 0
    cores := pl.cores.filterMap (fun c => (moveSite c.site dx dy).map (fun k => { c with site := k, dest := c.dest.map (fun d => (d.1, d.2.moved dx dy)) }))
    regions := pl.regions.filterMap (fun r => (moveField r.field dx dy).map (fun f => { r with field := f }))
    reds := pl.reds.filterMap (fun r => (moveField r.field dx dy).map (fun f => { r with field := f })) }

/-- A plan of one placement, moved by whole fields: its rules, bindings, slots, bounds, buffers and data slots move with it. -/
def Plan.moved (pl : Plan) (base : Placement) (dx dy : Int) : Plan :=
  { pl with
    base := base.moved dx dy, nodetour := true, detours := [], levels := []
    rules := pl.rules.filterMap (fun r => (moveField r.field dx dy).map (fun f => { r with field := f }))
    bindings := pl.bindings.filterMap (fun r => (moveField r.field dx dy).map (fun f => { r with field := f }))
    ws := pl.ws.filterMap (fun r => (moveField r.field dx dy).map (fun f => { r with field := f }))
    clips := pl.clips.filterMap (fun r => (moveField r.1 dx dy).map (fun f => (f, r.2)))
    upe := pl.upe.filterMap (fun r => (moveField r.1 dx dy).map (fun f => (f, r.2)))
    colls := pl.colls.filterMap (fun r => (moveField r.field dx dy).map (fun f => { r with field := f }))
    intake := pl.intake.map (fun i => { i with entries := i.entries.filterMap (fun e => (moveField e.field dx dy).map (fun f => { e with field := f })) }) }

end Sys2Proof.Machine
end

