-- ==== Sys2Proof/Machine/Diagnose.lean ====
section
/-! DEFINITION. RECOVER (R314, R315), PROBE_RUN (R306, R307) and RETRACE (R309, R310) with their results (R317). -/

namespace Sys2Proof.Machine

open Sys2Proof

def stRetraceDiverged : W16 := 0x0505#16
def stRetraceGone : W16 := 0x0506#16
def stProbeMismatch : W16 := 0x0700#16
def stDiagRequired : W16 := 0x0701#16
def stPlanAbsent : W16 := 0x0303#16

/-! ## RECOVER -/

/-- The checks that RECOVER RESTART and RESTART_FROM share (R282, R289, R314), and the start of the recovery. -/
def State.recoverFrom (s : State) (f : Fetched) (p : Nat) (id : Option W64) : State :=
  if 16 ≤ p || !f.pkt.names p then s.done f stBadParam
  else if !s.partOn p then s.done f stPartUnknown
  else
    let x := s.part p
    match x.plan with
    | none => s.done f stPlanAbsent
    | some plan =>
      if x.started then s.done f stPartRunning
      else
        let y : Part := { x with rcv := { active := true, startCyc := s.tg.cyc, gen := id } }
        match (s.setPart p y).chosenGen p with
        | none => s.done f stNoSnapshot
        | some g =>
          if !g.fits plan x.placement then s.done f stBadParam
          else (s.setPart p { y with stopStatus := 0, startAt := none, ready := [] }).fly f (.recover p)

/-- RECOVER RETEST (R315): every bank of every site of the terrace is marched in destructive mode, and the probe runs. `bad` and
`laneOk` are the sites that the probe finds faulty and the check lanes that pass it. -/
def State.retest (s : State) (f : Fetched) (t : Nat) (bad laneOk : List Nat) : State :=
  if 96 ≤ t || !f.pkt.noPart then s.done f stBadParam
  else
    let inPart := match s.partOfTer t with
      | none => stOk
      | some p => if !(s.part p).diag then stDiagRequired else if s.running p then stPartRunning else stOk
    if inPart ≠ stOk then s.done f inPart
    else if !s.lit t then s.done f stSiteDark
    else
      let u := s.updCores (s.testSites t) (fun _ c => { c with bank := { c.bank with march := { c.bank.march with mode := false, maskReg := 0xFFFFFFFF#32 } }.marchStart false })
      (u.fly f (.retest t bad laneOk)).endMarches

/-- RECOVER REBASE (R314): at the next commit boundary a snapshot, then the base placement. -/
def State.rebase (s : State) (f : Fetched) (p : Nat) : State :=
  if 16 ≤ p || !f.pkt.names p then s.done f stBadParam
  else if !s.partOn p then s.done f stPartUnknown
  else
    let x := s.part p
    match x.plan with
    | none => s.done f stPlanAbsent
    | some plan =>
      let bad := (x.coreSites plan.base).any (fun c => !s.lit (c.2 / 32)) || plan.base.regions.any (fun r => (s.field r.field).pwr.lost || (s.field r.field).pwr.mif ≠ .on)
      if bad then s.done f stBadParam
      else (s.updPart p (fun y => { y with snap := { y.snap with wanted := true, rebase := true } })).fly f (.rebase p)

/-! ## PROBE_RUN -/

/-- PROBE_RUN (R306). -/
def State.probeRun (s : State) (f : Fetched) (p : Nat) (retire : Bool) (fields : BitVec 48) (seed : W64) (rsv : Nat) : State :=
  if rsv ≠ 0 || 16 ≤ p || !f.pkt.names p then s.done f stBadParam
  else if !s.partOn p then s.done f stPartUnknown
  else if !(s.part p).diag then s.done f stDiagRequired
  else if (s.part p).started then s.done f stPartRunning
  else if (List.range 48).any (fun i => fields.getLsbD i && !(s.fieldsOf p).contains i) then s.done f stBadParam
  else { (s.updPart p (fun y => { y with checkSites := [] })) with fw := { s.fw with regs := { s.fw.regs with prbSites := [] } } }.fly f (.probe p fields retire seed)

/-- Cores of a partition that a probe pairs in a field (R307), by site number. -/
def State.probeCores (s : State) (p f : Nat) : List Nat := (s.sitesOf p).filter (fun k => k / 64 = f && s.site k = .enabled && s.lit (k / 32))

/-- The pairs of R307; an odd core left over is paired with the first of the list. -/
def pairUp (first : Nat) : List Nat → List (Nat × Nat)
  | [] => []
  | [a] => [(a, first)]
  | a :: b :: r => (a, b) :: pairUp first r

def State.probePairs (s : State) (p f : Nat) : List (Nat × Nat) := pairUp ((s.probeCores p f).headD 0) (s.probeCores p f)

/-- The sites that the digests of a chunk name (R307): the majority against the pair's odd one out; both when the field has a
single pair, or when no two of the three agree (DESIGN CHOICE, log 86). -/
def namedFaulty (single : Bool) (a b : Nat) (da db dc : W64) : List Nat :=
  if da = db then []
  else if single then [a, b]
  else if dc = da then [b]
  else if dc = db then [a]
  else [a, b]

/-- PROBE_CHUNK_COMPARE (R307): the pair's digests of a chunk are compared, and on a difference with that of the first core of the
next pair; the last chunk ends the probe with VID_PRB_RES. Healthy cores form the same digest from the key and the pair's
stream; `ea`, `eb` and `ec` are what physical errors add. -/
def State.probeChunk (s : State) (p chunk a b : Nat) (ea eb ec : W64) (last : Bool) : State :=
  match s.long? (fun k => match k with | .probe q _ _ _ => q = p | _ => false) with
  | none => s
  | some l =>
    match l.kind with
    | .probe _ fields retire seed =>
      let f := a / 64
      let pairs := s.probePairs p f
      match pairs.findIdx? (fun e => e = (a, b)) with
      | none => s
      | some i =>
        if !fields.getLsbD f then s
        else
          let h := Config.probeDigest (gen seed 0xFFFFFFFD#32 (BitVec.ofNat 48 f)) i chunk
          let bad := namedFaulty (decide (pairs.length ≤ 1)) a b (h + ea) (h + eb) (h + ec) ++ (if last then (s.part p).checkSites else [])
          let all := (s.fw.regs.prbSites ++ bad).dedup
          let t := { s with fw := { s.fw with regs := { s.fw.regs with prbSites := all } } }
          if !last then t
          else
            let t := if retire then all.foldl (fun (u : State) k => u.retire k) t else t
            let t := { (t.updPart p (fun y => { y with checkSites := [] })) with fw := { t.fw with regs := { t.fw.regs with prbDone := true, prbMismatch := !all.isEmpty } } }
            t.endLong (fun k => k = l.kind) (if all.isEmpty then stOk else stProbeMismatch) 0 0
    | _ => s

/-! ## RETRACE -/

/-- The placement of a retrace record (Table 9.8): that of its detour state, with the site map's sites for the logical cores away
from their base sites. -/
def Part.recordedPl (x : Part) (r : Retrace) : Placement :=
  let pl := x.placementOf r.detour
  let base := ((x.plan.map Plan.base).getD {}).cores
  let site := fun (c : PlanCore) => match r.siteMap.lookup c.logical with
    | some k => k
    | none => ((base.find? (fun b => b.logical = c.logical)).map PlanCore.site).getD c.site
  { pl with
    reds := pl.spared (pl.cores.map (fun c => (c.logical, site c)))
    cores := pl.cores.map (fun c => { c with site := site c }) }

/-- The recorded sites, by logical core. -/
def Part.recorded (x : Part) (r : Retrace) : List (Nat × Nat) := (x.recordedPl r).cores.map (fun c => (c.logical, c.site))

/-- The record of a retrace ends with a result (R317). -/
def State.retraceEnds (s : State) (res n tick : Nat) (step : W64) (site logical : Nat) : State :=
  { s with fw := { s.fw with regs := { s.fw.regs with
      rtrDone := true, rtrResult := res, rtrN := n, rtrTick := tick % 65536, rtrStep := step.setWidth 32, rtrSite := site, rtrLogical := logical } } }

/-- A plan takes the place of what stands loaded in a partition, on a placement of it. Cols that another partition holds stay its
own (DESIGN CHOICE, log 84). -/
def State.swapPlan (s : State) (p : Nat) (plan : Option Plan) (detour : Nat × Nat) (level : Nat) (remap : List (Nat × Nat)) (members : List Member) : State :=
  let t := (s.unloadPlan p).updPart p (fun y => { y with plan := plan, detour := detour, level := level, remap := remap, members := members })
  match plan with
  | none => t
  | some pl =>
    let place := (t.part p).placement
    let held := (t.cols.filter (fun c => c.2.en && c.2.part ≠ p)).map Prod.fst
    (t.loadPlacement p { place with cols := place.cols.filter (fun c => !held.contains c.col) }).loadUnits p pl

/-- The replay begins (R310): the recorded placement, moved, is loaded into the target, the generation is restored, and the target
starts. With JOINT the members of the job replay with the same target number (R310). -/
def State.startReplay (s : State) (p tp : Nat) (dx dy : Int) (joint : Bool) (r : Retrace) (g : Gen) (plan : Plan) : State :=
  let x := s.part p
  let y := s.part tp
  let ms := if joint then x.members.map (fun (m : Member) => { m with part := tp }) else []
  let t := s.swapPlan tp (some (plan.moved (x.recordedPl r) dx dy)) (0, 0) 0 [] ms
  let t := t.restoreGen tp g
  (t.updPart tp (fun z => { z with
    stopStatus := 0, rcv := {}, ready := []
    replay := some { plan := y.plan, detour := y.detour, level := y.level, remap := y.remap, members := y.members, gen := g.id, src := p, last := r.step } })).startSoon tp

/-- A retrace has ended (R310): the target is stopped with what stood loaded there before; a source that was its own target has its
restart generation restored. -/
def State.endReplay (s : State) (tp : Nat) : State :=
  match (s.part tp).replay with
  | none => s
  | some q =>
    let t := (s.stopPart tp).updPart tp (fun y => { y with replay := none })
    let t := t.swapPlan tp q.plan q.detour q.level q.remap q.members
    match (if q.src = tp then (t.part tp).snap.gens.find? (fun g => g.id = q.gen) else none) with
    | some g => t.restoreGen tp g
    | none => t

/-- RETRACE (R309, R310): the replay's ticks are compared as they end. -/
def State.retrace (s : State) (f : Fetched) (p target : Nat) (dx dy : Int) (step : W64) (joint : Bool) (rsv : Nat) : State :=
  let tp := if target = 0xFF then p else target
  if rsv ≠ 0 || 16 ≤ p || (16 ≤ target && target ≠ 0xFF) || !f.pkt.names p then s.done f stBadParam
  else if !s.partOn p || !s.partOn tp then s.done f stPartUnknown
  else
    let x := s.part p
    match (x.retraces.take 64).find? (fun r => r.step = step), x.plan with
    | some r, some plan =>
      match x.snap.gens.find? (fun g => g.id = r.snapId && g.jobValid && (s.genSource g).isSome) with
      | none => (s.retraceEnds 2 0 0 0 0 0).done f stRetraceGone
      | some g =>
        if (if target = 0xFF then s.running p else !(s.part tp).diag || s.running tp) then s.done f stDiagRequired
        else if !(x.recorded r).all (fun c => match moveSite c.2 dx dy with
            | some m => (s.site m = .enabled || s.site m = .spare) && (s.part tp).terraces.getLsbD (m / 32)
            | none => false) then s.done f stBadParam
        else (s.startReplay p tp dx dy joint r g plan).fly f (.retrace tp p step)
    | _, _ => (s.retraceEnds 2 0 0 0 0 0).done f stRetraceGone

/-- The logical cores whose digest differs from the log's (R310). -/
def diffs (log now : List (Nat × W64)) : List Nat := (log.filter (fun e => match now.lookup e.1 with | some d => d ≠ e.2 | none => false)).map Prod.fst

/-- The step and the tick of it, counted from its first tick, that ended at the last partition tick edge of a replay. -/
def State.replayedTick (s : State) (tp : Nat) : Option (W64 × Nat) :=
  let k := max 1 (((s.part tp).plan.map Plan.mult).getD 1)
  (((s.part tp).replay.map Replay.begun).getD []).find? (fun b => decide (k ≤ (s.tg.tick - b.2).toNat)) |>.map (fun b => (b.1, (s.tg.tick - b.2).toNat / k - 1))

/-- RETRACE_TICK_COMPARE (R310): the digests that the target's cores latched for the tick are compared with the log where the log
still holds the tick; the first difference, or the last tick of the step, ends the retrace. -/
def State.tickCompare (s : State) (tp : Nat) : State :=
  match s.long? (fun k => match k with | .retrace t _ _ => t = tp | _ => false), s.replayedTick tp with
  | some l, some (step, n) =>
    match l.kind with
    | .retrace _ p _ =>
      let x := s.part p
      match x.retraces.find? (fun r => r.step = step) with
      | none => s
      | some r =>
        let k := max 1 (((s.part tp).plan.map Plan.mult).getD 1)
        let now := (s.placed tp).map (fun c => (c.1, (s.core c.2).tdig))
        let ds := match s.fw.log.find? (fun e => e.part = p && e.tick = r.firstTick + BitVec.ofNat 48 ((n + 1) * k)) with
          | some e => diffs e.digests now
          | none => []
        match ds with
        | [] =>
          if ((s.part tp).replay.any (fun q => q.last = step)) && decide (r.ticks ≤ n + 1) then
            ((s.retraceEnds 0 0 0 0 0 0).endReplay tp).endLong (fun k => k = l.kind) stOk 0 0
          else s
        | d :: rest =>
          let low := rest.foldl min d
          let src : Part := if tp = p then { x with plan := (s.part tp).replay.bind Replay.plan } else x
          ((s.retraceEnds 1 ds.length n step (((src.recorded r).lookup low).getD 0) low).endReplay tp).endLong (fun k => k = l.kind) stRetraceDiverged 0 0
    | _ => s
  | _, _ => s

def execRecoverRestart (k : Pkt) (p : Byte) (s : State) : Host.Outcome State Fault Refusal :=
  .next (s.command k 0x0504#16 true (.part p.toNat) (fun t f => t.recoverFrom f p.toNat none))
def execRecoverRestartFrom (k : Pkt) (p : Byte) (id : W64) (s : State) : Host.Outcome State Fault Refusal :=
  .next (s.command k 0x0504#16 true (.part p.toNat) (fun t f => t.recoverFrom f p.toNat (some id)))
def execRecoverRetest (k : Pkt) (t : W16) (bad laneOk : List Site) (s : State) : Host.Outcome State Fault Refusal :=
  .next (s.command k 0x0504#16 true (.ter t.toNat) (fun u f => u.retest f t.toNat (bad.map Fin.val) (laneOk.map Fin.val)))
def execRecoverRebase (k : Pkt) (p : Byte) (s : State) : Host.Outcome State Fault Refusal :=
  .next (s.command k 0x0504#16 true (.part p.toNat) (fun t f => t.rebase f p.toNat))
def execRetrace (k : Pkt) (p target : Byte) (dx dy : Int) (step : W64) (joint : Bool) (rsv : Nat) (s : State) : Host.Outcome State Fault Refusal :=
  .next (s.command k 0x0505#16 true (.part (if target = 0xFF#8 then p.toNat else target.toNat)) (fun t f => t.retrace f p.toNat target.toNat dx dy step joint rsv))
def execRetraceTickCompare (tp : PartIx) (s : State) : Host.Outcome State Fault Refusal := .next (s.tickCompare tp)
def execProbeRun (k : Pkt) (p : Byte) (retire : Bool) (fields : BitVec 48) (seed : W64) (rsv : Nat) (s : State) : Host.Outcome State Fault Refusal :=
  .next (s.command k 0x0701#16 true (.part p.toNat) (fun t f => t.probeRun f p.toNat retire fields seed rsv))
def execProbeChunkCompare (p : PartIx) (chunk : Nat) (a b : Site) (ea eb ec : W64) (last : Bool) (s : State) : Host.Outcome State Fault Refusal :=
  .next (s.probeChunk p chunk a b ea eb ec last)

end Sys2Proof.Machine
end

