-- ==== Sys2Proof/Machine/Dma.lean ====
section
/-! DEFINITION. The DMA engine (R207): COPY, HRD, HWR and GWR, judged when the engine takes them and carried out when they
complete. -/

namespace Sys2Proof.Machine

open Sys2Proof

/-- The structured format of the tiles at a stack unit: that of the PARAM region which holds it, else dense (R200). -/
def Field.sfmtAt (f : Field) (u : Nat) : Nat × Nat :=
  match f.regions.find? (fun p => p.2.en && p.2.kind = 1 && p.2.base ≤ u && u < p.2.base + (p.2.bytes + 63) / 64) with
  | some p => (p.2.sfmt, p.2.efmt)
  | none => (0, 0)

/-- The sources of an HRD with XP ≠ 0 as a stream entry names them (R208, R211): dense tiles or row-record groups of FMT one
after another, or the headed tiles of the region that the address lies in, at the region's stride. -/
def DmaOp.entry (h : DmaOp) (f : Field) : StreamEntry :=
  let s := f.sfmtAt h.sa.toNat
  { addr := h.sa.toNat, stride := (if s.1 = 0 then hrdSource h.xp h.fmt else tileStride s.1 s.2) / 64, ntile := h.sc.toNat,
    xp := h.xp, hdr := s.1 ≠ 0, efmt := if s.1 = 0 then h.fmt else s.2 }

/-- The units of an HRD with XP ≠ 0, in order. -/
def unitsFrom (e : StreamEntry) (f : Field) : Nat → Nat → List StreamUnit
  | 0, _ => []
  | n + 1, t => if e.ntile ≤ t then [] else e.unitAt f t :: unitsFrom e f n (t + (e.unitAt f t).count)

def DmaOp.units (h : DmaOp) (f : Field) : List StreamUnit := unitsFrom (h.entry f) f h.sc.toNat 0

/-- Source and result bytes of an operation: SC counts units for HRD with XP ≠ 0 (R207). -/
def DmaOp.srcBytes (h : DmaOp) (f : Field) : Nat := if h.op = 1 && h.xp ≠ 0 then h.sc.toNat * (64 * (h.entry f).stride) else h.sc.toNat
def DmaOp.dstBytes (h : DmaOp) (f : Field) : Nat := if h.op = 1 && h.xp ≠ 0 then ((h.units f).map StreamUnit.olen).sum else h.sc.toNat

/-- The bank sides of an operation, address and bytes (R207): a side with a window has no address. -/
def DmaOp.bankSides (h : DmaOp) (f : Field) : List (Nat × Nat) :=
  match h.op with
  | 0 => (h.sa.toNat, h.srcBytes f) :: (if h.w then [] else [(h.sb.toNat, h.dstBytes f)])
  | 1 => if h.w then [] else [(h.sb.toNat, h.dstBytes f)]
  | _ => if h.w then [] else [(h.sa.toNat, h.srcBytes f)]

/-- The GRAD region and the first unit in its GRAD area that a GWR names. -/
def DmaOp.gradRegion (h : DmaOp) : Nat := h.sb.toNat % 256
def DmaOp.gradUnit (h : DmaOp) : Nat := h.sb.toNat / 256 % 2 ^ 32 / 64

/-- The unit by which a core names binding n in a root job's transfer (R230): the first unit above the 96 GiB of the
stack, plus n. DESIGN CHOICE: the spec gives the transfer no address. -/
def bindingUnit : Nat := 0x60000000

/-- Whether an HWR is a root job's transfer to a binding descriptor of the core's partition (R230, R234). -/
def DmaOp.toBinding (h : DmaOp) (f : Field) (part : Nat) : Bool :=
  h.op = 2 && bindingUnit ≤ h.sb.toNat && h.sb.toNat < bindingUnit + 128 && h.sc = 64 &&
    (Tab.get {} f.bindings (h.sb.toNat - bindingUnit)).en && (Tab.get {} f.bindings (h.sb.toNat - bindingUnit)).part = part

/-- NEWROOT sets when bit 29 of the transfer's first word is 1; no other bit of the descriptor is written (R234). -/
def Field.rootWrite (f : Field) (n : Nat) (bs : List Byte) : Field :=
  if (natLE (bs.take 4)).testBit 29 then
    { f with bindings := Tab.upd {} f.bindings n (fun b => { b with newroot := true, jobRunning := false }) }
  else f

/-- A root job of the partition runs on a field (R230). -/
def Field.rootJob (f : Field) (part : Nat) : Bool := f.bindings.any (fun b => b.2.en && b.2.part = part && b.2.jobRunning)

/-- The first stack unit that an operation may not use (R207). A root job writes PRECOND regions as well (R200, R230). -/
def DmaOp.outside (h : DmaOp) (f : Field) (part : Nat) : Option Nat :=
  match h.op with
  | 1 => f.firstOutside (fun r => r.part = part) h.sa.toNat ((h.srcBytes f + 63) / 64)
  | 2 => if h.toBinding f part then none
    else f.firstOutside (fun r => r.part = part && (r.kind = 2 || r.kind = 3 || (r.kind = 4 && f.rootJob part))) h.sb.toNat (h.sc.toNat / 64)
  | 3 =>
    let r := f.region h.gradRegion
    let units := 1024 * r.g * r.len
    if r.en && r.kind = 1 && r.part = part then
      (if r.frozen || h.sc.toNat < 64 || h.gradUnit + h.sc.toNat / 64 ≤ units then none
       else some (r.grad + max h.gradUnit units))
    else some (r.grad + h.gradUnit)
  | _ => none

/-- The faults of an operation when the engine takes it, in kind order (R207, R214, R219). -/
def DmaOp.bad (h : DmaOp) (f : Field) (part : Option Nat) : Option (Nat × Nat) :=
  let sides := h.bankSides f
  let region := f.region h.gradRegion
  let out := if h.sc = 0 then none else match part with
    | some p => h.outside f p
    | none => if h.op = 0 then none else some 0
  firstFault [
    (sides.any (fun p => p.1 % 64 ≠ 0), 0x06, ((sides.find? (fun p => p.1 % 64 ≠ 0)).getD (0, 0)).1),
    (sides.any (fun p => 0x800000 < p.1 + p.2), 0x07, ((sides.find? (fun p => 0x800000 < p.1 + p.2)).getD (0, 0)).1),
    (out.isSome, 0x50, out.getD 0),
    (h.op = 1 && h.xp ≠ 0 && h.sc ≠ 0 && (h.units f).any StreamUnit.bad, 0x52, 0xFF00 + h.xp),
    (h.op = 3 && h.sc ≠ 0 && region.frozen, 0x53, h.gradRegion),
    (h.op = 3 && h.sc ≠ 0 && (f.upe.phase.toList.getD region.part .collect) ≠ .collect, 0x54, h.gradRegion),
    (!(h.op = 1 && h.xp ≠ 0) && h.sc.toNat % 64 ≠ 0, 0x57, h.sc.toNat)]

/-- What the engine finds when it takes an operation. -/
def State.dmaJudge (s : State) (k : Nat) (h : DmaOp) : Option (Nat × Nat) :=
  h.bad (s.field (k / 64)) (s.partOfSite k)

/-- What every class 0x7 instruction does first (R85, R207): legality, format, waits; then it joins the queue, 16 deep.
An operation that joins an empty queue is judged at once. -/
def dmaBody (s : State) (k op : Nat) (w : W64) (f : DmaF) (fmtBad : Bool) (c : Core) : Core × Out Eff :=
  if f.rsv ≠ 0 || 4 ≤ f.xp.toNat then (c, .fault 0x01 (hiWord w))
  else if fmtBad then (c, .fault 0x03 f.fmt.toNat)
  else if c.depends [f.sa.toNat, f.sb.toNat, f.sc.toNat] then (c, .wait none)
  else if 16 ≤ c.dma.length then (c, .wait (some queueFull))
  else
    let h : DmaOp := { pc := c.seq.pc, op := op, sa := c.S f.sa, sb := c.S f.sb, sc := c.S f.sc, sem := f.sem.toNat, win := f.win.toNat, w := f.w = 1, xp := f.xp.toNat, fmt := f.fmt.toNat, add := f.gmode = 1 }
    match (if c.dma = [] then s.dmaJudge k h else none) with
    | some (kd, d) => (c, .fault kd d)
    | none => ({ c with dma := c.dma ++ [h] }, .ok {})

def execCopy (k : Site) (f : DmaF) (s : State) : Host.Outcome State Fault Refusal :=
  .next (s.issue k (encDma 0x00 f) (dmaBody s k 0 (encDma 0x00 f) f false))
def execHrd (k : Site) (f : DmaF) (s : State) : Host.Outcome State Fault Refusal :=
  .next (s.issue k (encDma 0x01 f) (dmaBody s k 1 (encDma 0x01 f) f (f.xp ≠ 0 && 6 < f.fmt.toNat)))
def execHwr (k : Site) (f : DmaF) (s : State) : Host.Outcome State Fault Refusal :=
  .next (s.issue k (encDma 0x02 f) (dmaBody s k 2 (encDma 0x02 f) f false))
def execGwr (k : Site) (f : DmaF) (s : State) : Host.Outcome State Fault Refusal :=
  .next (s.issue k (encDma 0x03 f) (dmaBody s k 3 (encDma 0x03 f) f false))

/-- The bytes an operation moves next (R130): a producer writes each byte as the window has space for it, a consumer reads
each 64-byte word as the fill covers it. -/
def Core.dmaAmount (c : Core) (h : DmaOp) (f : Field) : Nat :=
  let rest := h.dstBytes f - h.moved
  if !h.w then rest
  else if h.op ≤ 1 then min rest (c.window h.win).space
  else min rest ((c.window h.win).fill / 64 * 64)

/-- `n` result bytes of units from byte `m` on (R208, R209); the first uncorrectable 64-byte unit of a source ends the read. -/
def takeUnits (f : Field) : List StreamUnit → Nat → Nat → Except Nat (List Byte)
  | [], _, _ => .ok []
  | u :: us, m, n =>
    if n = 0 then .ok []
    else if u.olen ≤ m then takeUnits f us (m - u.olen) n
    else match f.readAll u.len u.addrs with
      | .error x => .error x
      | .ok raws =>
        let bs := ((u.out raws).drop m).take n
        match takeUnits f us 0 (n - bs.length) with
        | .error x => .error x
        | .ok more => .ok (bs ++ more)

/-- Bytes of the stack for an HRD: raw, or unit by unit through the transpose (R208, R209, R211). -/
def hrdBytes (h : DmaOp) (f : Field) (n : Nat) : Except Nat (List Byte) :=
  if h.xp = 0 then f.hbmRead (64 * h.sa.toNat + h.moved) n else takeUnits f (h.units f) h.moved n

/-- One move of an operation: the core, the field and what is wrong. -/
def dmaMove (now : Stamp) (h : DmaOp) (n : Nat) (c : Core) (f : Field) : Core × Field × Out Unit :=
  let source : Core × Out (List Byte) :=
    match h.op with
    | 0 => c.readBytes .dma now (h.sa.toNat + h.moved) n
    | 1 => match hrdBytes h f n with
      | .error u => (c, .fault 0x51 u)
      | .ok bs => (c, .ok bs)
    | _ => if h.w then c.consume .dma now h.win n else c.readBytes .dma now (h.sa.toNat + h.moved) n
  match source with
  | (c1, .wait x) => (c1, f, .wait x)
  | (c1, .fault k d) => (c1, f, .fault k d)
  | (c1, .ok bs) =>
    match h.op with
    | 2 => (c1, if bindingUnit ≤ h.sb.toNat then f.rootWrite (h.sb.toNat - bindingUnit) bs else f.hbmWrite (64 * h.sb.toNat + h.moved) bs, .ok ())
    | 3 =>
      let r := f.region h.gradRegion
      let u0 := h.gradUnit + h.moved / 64
      let f1 := (chunks 64 (n / 64) bs).mapIdx (fun i b => (i, b)) |>.foldl (fun (x : Field) p =>
        x.gradWrite r (u0 + p.1) h.add ((chunks 4 16 p.2).map (fun q => BitVec.ofNat 32 (natLE q)))) f
      (c1, f1, .ok ())
    | _ =>
      match (if h.w then c1.produce .dma now h.win bs else c1.writeBytes .dma now (h.sb.toNat + h.moved) bs) with
      | (c2, .wait x) => (c2, f, .wait x)
      | (c2, .fault k d) => (c2, f, .fault k d)
      | (c2, .ok _) => (c2, f, .ok ())

/-- The next operation, if any, is judged as the engine takes it. -/
def State.dmaNext (s : State) (k : Nat) (c : Core) : Option (Nat × Nat × Nat) :=
  match c.dma with
  | [] => none
  | h :: _ => (s.dmaJudge k h).map (fun p => (p.1, p.2, h.pc))

/-- DMA_COMPLETE: the operation at the head of the queue moves its bytes; when the last has landed it posts SEM by 1 (R78,
R207) and the engine takes the next. A GWR that reaches a region outside COLLECT raises GRAD_LATE (R219). -/
def State.dmaComplete (s : State) (k : Nat) : State :=
  let c := s.core k
  match c.dma with
  | [] => s
  | h :: t =>
    let f := s.field (k / 64)
    let late := h.op = 3 && h.sc ≠ 0 && (f.upe.phase.toList.getD (f.region h.gradRegion).part .collect) ≠ .collect
    let failed := fun (x : Core) (fields : Tab Field) (kd d pc : Nat) =>
      { s with fields := fields }.raiseFault k { x with dma := [] } kd d pc
    if late then failed c s.fields 0x54 h.gradRegion h.pc
    else
      let n := c.dmaAmount h f
      match dmaMove s.coreNow h n c f with
      | (c1, _, .wait _) => s.setCore k c1
      | (c1, _, .fault kd d) => failed c1 s.fields kd d h.pc
      | (c1, f1, .ok _) =>
        let fields := if h.op ≤ 1 then s.fields else Tab.set {} s.fields (k / 64) f1
        if h.moved + n < h.dstBytes f then
          { s.putCore k { c1 with dma := { h with moved := h.moved + n } :: t } with fields := fields }
        else
          match c1.post h.sem 1 with
          | (c2, .fault kd d) => failed c2 fields kd d h.pc
          | (c2, _) =>
            match s.dmaNext k { c2 with dma := t } with
            | some (kd, d, pc) => failed c2 fields kd d pc
            | none => { s.putCore k { c2 with dma := t } with fields := fields }

def execDmaComplete (k : Site) (s : State) : Host.Outcome State Fault Refusal := .next (s.dmaComplete k)

end Sys2Proof.Machine
end

