-- ==== Sys2Proof/Machine/PlanCheck.lean ====
section
/-! DEFINITION. The checks of PLAN_LOAD (R395, R396): the image, then the checks of the chapters in their order. -/

namespace Sys2Proof.Machine

open Sys2Proof

def stPlanAlias : W16 := 0x0200#16
def stPlanTooLarge : W16 := 0x0202#16
def stPlanFormat : W16 := 0x0300#16
def stPlanPresent : W16 := 0x0301#16
def stPlanDigest : W16 := 0x0302#16

/-- The status of the first condition that holds, OK when none does. -/
def firstBad (l : List (Bool × W16)) : W16 := ((l.find? Prod.fst).map Prod.snd).getD stOk

/-! ## The image (R396) -/

/-- A directory entry names a section of Table 12.12 inside the image. -/
def SecEntry.ok (e : SecEntry) (len : Nat) : Bool := decide (1 ≤ e.type) && decide (e.type ≤ 14) && e.rsv = 0 && decide (e.ofs + e.len ≤ len)

/-- Ranges (start, length) that share no byte. -/
def overlaps (a b : Nat × Nat) : Bool := decide (a.1 < b.1 + b.2) && decide (b.1 < a.1 + a.2)

def apart : List (Nat × Nat) → Bool
  | [] => true
  | a :: r => r.all (fun b => !overlaps a b) && apart r

/-- Header, directory, length, P and K (R395, check 1). -/
def PlanImage.ok (i : PlanImage) (len : Nat) : Bool :=
  i.magic = 0x4E414C50 && decide (64 ≤ i.head.length) && i.version = 1 && decide (1 ≤ i.nsec) && decide (i.nsec ≤ 64) && decide (64 + 16 * i.nsec ≤ i.head.length) && decide (i.flags < 2) &&
    i.length = len && i.dir.all (fun e => e.ok len) && apart (i.dir.map (fun e => (e.ofs, e.len))) &&
    decide (20 ≤ i.period) && decide (i.period ≤ 50000) && decide (1 ≤ i.mult)

/-! ## Placements (R395, check 5) -/

/-- Indices and codes of a placement within their ranges (R9, Tables 3.10, 6.9, 7.1, 7.4). -/
def Placement.inRange (q : Placement) : Bool :=
  q.cores.all (fun c => decide (c.site < 3072) && c.words.all (fun w => decide (w.1 < 16384)) && decide (c.sched.length ≤ 256) && decide (c.streams.length ≤ 256) &&
      c.dest.all (fun d => decide (d.1 < 64)) && c.wins.all (fun w => decide (w.1 < 16)) && c.streams.all (fun e => e.ntile ≠ 0 && e.rep ≠ 0)) &&
    decide ((q.cores.map PlanCore.logical).Nodup) &&
    q.regions.all (fun r => decide (r.field < 48) && decide (r.n < 256) && decide (1 ≤ r.r.kind) && decide (r.r.kind ≤ 4) && decide (r.r.rule < 16) && decide (r.r.efmt ≤ 6) &&
      decide (r.r.sfmt ≤ 4) && (r.r.sfmt = 0 || r.r.efmt ≠ 6) && decide (r.r.pcidx < 128)) &&
    q.reds.all (fun r => decide (r.field < 48) && decide (r.quad < 16) && decide (r.id < 1024)) && q.cols.all (fun c => decide (c.col < 8192))

/-- The indices of a plan's other records (R9): detour units, clip bounds, and the units of a job. -/
def Plan.inRange (pl : Plan) : Bool :=
  pl.detours.all (fun d => decide (d.unit < (if d.isField then 48 else 96))) && pl.clips.all (fun c => decide (c.1 < 48)) &&
    pl.upe.all (fun u => decide (u.1 < 48) && decide (1 ≤ u.2.1) && decide (u.2.1 ≤ 15) && decide (u.2.2 < 1024)) &&
    pl.sizes.all (fun z => z.slots.all (fun u => decide (u.field < 48) && decide (u.region < 256)) && z.staging.all (fun a => decide (a.field < 48))) &&
    pl.colls.all (fun c => c.coll ≠ 0 && decide (c.coll < 65536) && decide (c.field < 48)) &&
    pl.bindings.all (fun b => b.job.all (fun j => pl.base.cores.any (fun c => c.logical = j.1 && decide (j.2 < c.sched.length))))

/-- A placement of partition x stands on its own terraces, Enabled sites and one site per logical core. -/
def State.sitesOk (s : State) (q : Placement) : Bool :=
  q.cores.all (fun c => q.terraces.getLsbD (c.site / 32) && s.site c.site = .enabled) && decide ((q.cores.map PlanCore.site).Nodup)

/-! ## Cores -/

/-- A schedule (R107). -/
def schedOk (l : List SchedEntry) : Bool := l.any SchedEntry.last && l.any SchedEntry.stepFirst && l.all (fun e => e.rep ≠ 0 && e.span ≠ 0)

/-- No bank of the secure set is owned by HOST (R126). -/
def PlanCore.secureOk (c : PlanCore) : Bool := (List.range 32).all (fun b => !(c.secure.getLsbD b && ownOf c.own b = 2))

/-- The window that a word's WIN field names where the field is used (R128). -/
def winOf (w : W64) : Option Nat :=
  match decodeInsn 0 w with
  | some (.tload _ f) => some f.win.toNat
  | some (.pass _ f _) => some f.win.toNat
  | some (.rxbind _ f) => some f.win.toNat
  | some (.copy _ f) => if f.w = 1 then some f.win.toNat else none
  | some (.hrd _ f) => if f.w = 1 then some f.win.toNat else none
  | some (.hwr _ f) => if f.w = 1 then some f.win.toNat else none
  | some (.gwr _ f) => if f.w = 1 then some f.win.toNat else none
  | some (.send _ f) => if f.w = 1 then some f.win.toNat else none
  | some (.red _ f) => if f.w = 1 then some f.win.toNat else none
  | some (.msg _ f) => if f.w = 1 then some f.win.toNat else none
  | some (.rxfree _ f) => if f.w = 1 then some f.win.toNat else none
  | _ => none

def PlanCore.winOn (c : PlanCore) (n : Nat) : Bool := (Tab.get {} c.wins n).size ≠ 0

/-- Windows within their limits, and no disabled window in use by a store word (R128). -/
def PlanCore.winsOk (c : PlanCore) : Bool :=
  c.wins.all (fun w => w.2.base % 64 = 0 && w.2.size % 64 = 0 && decide (w.2.base + w.2.size ≤ 0x800000)) &&
    c.words.all (fun w => match winOf w.2 with | some n => c.winOn n | none => true) && c.streams.all (fun e => c.winOn e.win)

/-- The region of a placement that holds a 64-byte unit of a stack. -/
def Placement.regionAt (q : Placement) (f u : Nat) : Option Region :=
  ((q.regions.find? (fun r => r.field = f && decide (r.r.base ≤ u) && decide (u < r.r.base + (r.r.bytes + 63) / 64))).map PlanRegion.r)

/-- The first units of an entry's tiles. -/
def StreamEntry.units (e : StreamEntry) : List Nat := (List.range e.ntile).map (fun i => e.addr + e.stride * i)

/-- A region that no transpose may read (R152): S1x4, or S4x16 with TRANS 0. TRANS stands in a tile's header alone: firmware
reads that of the region's first tile, where one is stored (DEDUCED, log 30). -/
def State.noTrans (s : State) (f : Nat) (r : Region) : Bool :=
  let h := natLE (Tab.getRange 0 (s.field f).hbm (64 * r.base) 8)
  r.sfmt = 2 || (r.sfmt = 3 && h / 2 ^ 24 % 256 = 0xE5 && !(tileHdr h).trans)

/-- No transpose reads a region that it cannot (R152). -/
def State.transOk (s : State) (q : Placement) : Bool :=
  q.cores.all (fun c => c.streams.all (fun e => e.xp = 0 || e.units.all (fun u =>
    match q.regionAt (c.site / 64) u with
    | some r => !s.noTrans (c.site / 64) r
    | none => true)))

/-- The targets of kinds 0 and 1 are placed (R182). -/
def Placement.targetsOk (q : Placement) : Bool :=
  q.cores.all (fun c => c.dest.all (fun d => decide (1 < d.2.kind) || q.cores.any (fun o => o.logical = d.2.site)))

/-- The bytes of an entry's tile, as far as the entry tells. -/
def StreamEntry.bytes (e : StreamEntry) : Nat := if e.hdr then 1 else if e.xp ≤ 1 then denseBytes e.efmt else hrdSource e.xp e.efmt

/-- The tiles of the stream lists lie in PARAM or DATA regions (Table 7.3). -/
def Placement.streamsIn (q : Placement) : Bool :=
  q.cores.all (fun c => c.streams.all (fun e => e.units.all (fun u =>
    match q.regionAt (c.site / 64) u with
    | some r => (r.kind = 1 || r.kind = 3) && decide (64 * u + e.bytes ≤ 64 * r.base + r.bytes)
    | none => false)))

/-- The stream lists (R203). -/
def Plan.streamsOk (pl : Plan) (q : Placement) : Bool :=
  q.cores.all (fun c =>
    (c.streams.isEmpty || c.streams.any StreamEntry.last) &&
    c.streams.all (fun e =>
      (!e.wsen || (match pl.ws.find? (fun w => w.field = c.site / 64 && w.slot = e.wslot) with | some w => w.cfg.nblk ≠ 0 && e.ntile % w.cfg.nblk = 0 | none => false)) &&
      decide (e.efmt ≤ (if e.hdr then 5 else 6)) && decide (e.xp < 4) && c.winOn e.win))

/-! ## Regions (R202, Table 7.3) -/

/-- The tile storage of the PARAM regions of a placement on a field. -/
def Placement.tilesOn (q : Placement) (f : Nat) : List (Nat × Nat) :=
  (q.regions.filter (fun r => r.field = f && r.r.kind = 1 && r.r.bytes ≠ 0)).map (fun r => (64 * r.r.base, r.r.bytes))

/-- Two placements' areas share no byte on any field. -/
def clear (fs : List Nat) (a b : Nat → List (Nat × Nat)) : Bool := fs.all (fun f => (a f).all (fun x => (b f).all (fun y => !overlaps x y)))

/-- Table 7.3 for one placement, row by row. -/
def State.regionStatus (s : State) (p : Nat) (pl : Plan) (q : Placement) : W16 :=
  let os := (s.otherPlans p).flatMap (fun o => o.placements.map (fun r => (o, r)))
  let fs := (q.regions.map PlanRegion.field).dedup
  let params := q.regions.filter (fun r => r.r.kind = 1)
  firstBad [
    (!(fs.all (fun f => apart (q.tilesOn f)) && os.all (fun o => clear fs q.tilesOn o.2.tilesOn)), stPlanAlias),
    (!(fs.all (fun f => apart (pl.areasOn q f)) && os.all (fun o => clear fs (pl.areasOn q) (o.1.areasOn o.2))), stBadParam),
    (!decide ((q.regions.map (fun r => (r.field, r.n))).Nodup) || q.regions.any (fun r => os.any (fun o => o.2.regions.any (fun x => x.field = r.field && x.n = r.n))) ||
      pl.bindings.any (fun b => os.any (fun o => o.1.bindings.any (fun x => x.field = b.field && x.idx = b.idx))), stBadParam),
    (!pl.fitsBelow q s.fab.reserve, stPlanTooLarge),
    (q.regions.any (fun r => r.r.kind = 2) && decide ((s.fieldsOf p).length ≤ 12), stBadParam),
    (!decide ((params.map (fun (r : PlanRegion) => r.r.shard)).Nodup), stBadParam),
    (!q.streamsIn, stBadParam),
    (pl.rules.any (fun r => os.any (fun o => o.1.rules.any (fun x => x.field = r.field && x.idx = r.idx && x.rule ≠ r.rule))), stBadParam)]

/-! ## Rules and bindings (R222, R223, R229) -/

/-- A term word names no reserved operand and no slot at or above NSLOT; operand B counts where the function reads it. -/
def Rule.termOk (r : Rule) (w : Nat) : Bool :=
  let ok := fun (c : Nat) => c = 4 || decide (c < r.nslot) && decide (c < 4)
  ok (w % 8) && (w / 64 % 4 ≠ 3 || ok (w / 8 % 8))

def Rule.ok (r : Rule) : Bool :=
  decide (r.nslot ≤ 4) && decide (1 ≤ r.nterm) && decide (r.nterm ≤ 4) && (r.slots.take r.nslot).all (fun t => r.termOk t.term) &&
    (r.terms.take r.nterm).all (fun t => r.termOk t.term) &&
    (List.range r.nslot).all (fun k => !(r.bca.testBit k && (r.slots.getD k {}).alpha = 0x3F800000#32))

def Binding.ok (b : Binding) : Bool := b.k % 32 = 0 && decide (32 ≤ b.k) && decide (b.k ≤ 256) && b.statEvery ≠ 0 && b.rootEvery ≠ 0

def Plan.rulesOk (pl : Plan) : Bool :=
  pl.rules.all (fun r => decide (r.idx < 16) && decide (r.field < 48) && r.rule.ok) && pl.bindings.all (fun b => decide (b.idx < 128) && decide (b.field < 48) && b.b.ok)

/-! ## Jobs and intake (R245, R248, R261) -/

/-- The membership list (R248): none runs on this module alone. -/
def JobList.ok (j : JobList) (me : Nat) : Bool :=
  me ≠ 0xFFF && decide (1 ≤ j.members.length) && decide (j.members.length ≤ 4095) && decide (1 ≤ j.dmin) && decide (j.dmin ≤ j.members.length) &&
    j.members.any Member.designated && decide ((j.members.map Member.addr).Nodup) && j.members.all (fun m => m.addr ≠ 0xFFF && decide (1 ≤ m.weight) && decide (m.weight ≤ 255)) &&
    j.members.any (fun m => m.addr = me) && decide (1 ≤ j.units) && decide (j.units ≤ 65536)

/-- The intake list (R245) on one placement, with the storage targets of Table 8.5. -/
def Intake.ok (it : Intake) (q : Placement) (targets : List StoreTarget) : Bool :=
  decide (1 ≤ it.entries.length) && decide (it.entries.length ≤ 65536) && decide (1 ≤ it.shards) && decide (it.shards ≤ 256) && decide (2 ≤ it.slots) && decide (it.slots ≤ 8) &&
    it.entries.all (fun e =>
      (match q.regions.find? (fun r => r.field = e.field && r.n = it.region) with
        | some r => r.r.kind = 3 && decide (it.slots * it.slotSize ≤ r.r.len)
        | none => false) &&
      decide (64 * e.ofs + e.len ≤ 64 * it.slotSize) && e.len ≠ 0 && e.len % 64 = 0 && decide (e.target < 16) && (targets.getD e.target {}).port ≠ 0xFF)

/-! ## Detours and levels (R294, R341) -/

/-- The fields that a placement uses: a core or a region. -/
def Placement.fields (q : Placement) : List Nat := (q.cores.map (fun (c : PlanCore) => c.site / 64) ++ q.regions.map PlanRegion.field).dedup

def Placement.usesUnit (q : Placement) (isField : Bool) (u : Nat) : Bool :=
  if isField then q.fields.contains u else q.terraces.getLsbD u || q.cores.any (fun c => c.site / 32 = u)

/-- Each terrace and field in use has its detour plan, which does without it (R294). -/
def Plan.detoursOk (pl : Plan) : Bool :=
  (pl.nodetour ||
    (((pl.base.cores.map (fun (c : PlanCore) => c.site / 32)).dedup).all (fun t => pl.detours.any (fun d => !d.isField && d.unit = t)) &&
      pl.base.fields.all (fun f => pl.detours.any (fun d => d.isField && d.unit = f)))) &&
    pl.detours.all (fun d => !d.pl.usesUnit d.isField d.unit)

/-- The levels (R341): their streams stay within the regions, as every placement's do (R202). -/
def Plan.levelsOk (pl : Plan) : Bool :=
  pl.levels.all (fun l => decide (1 ≤ l.level) && decide (l.level ≤ 7) && l.pl.regions = pl.base.regions && l.pl.streamsIn && (l.pl.terraces &&& ~~~pl.base.terraces) = 0) &&
    decide ((pl.levels.map Level.level).Nodup)

/-! ## The order of the checks -/

/-- Watershed slots on their own stack (R156). -/
def Plan.wsOk (pl : Plan) : Bool :=
  pl.ws.all (fun w => decide (w.field < 48) && decide (w.slot < 32) && decide (w.cfg.nblk ≤ 1024) && w.tileFields.all (· = w.field))

/-- The checks of R395 in their order; OK when the plan passes. -/
def State.planStatus (s : State) (p : Nat) (replace : Bool) (len hash : Nat) (i : PlanImage) : W16 :=
  let pl := i.content
  let all := pl.placements
  let x := s.part p
  let others := (s.otherPlans p).flatMap Plan.placements
  let me := firstBad [
    (!i.ok len, stPlanFormat),
    (hash ≠ 0 && hash ≠ i.sha, stPlanDigest),
    (!s.partOn p, stPartUnknown),
    (x.plan.isSome && !replace, stPlanPresent),
    (x.started || x.startAt.isSome, stPartRunning),
    (!pl.inRange || !all.all Placement.inRange || !all.all (fun q => (q.terraces &&& ~~~x.terraces) = 0 && s.sitesOk q), stBadParam),
    (!all.all (fun q => q.cores.all (fun c => schedOk c.sched)), stBadParam),
    (!all.all (fun q => q.cores.all PlanCore.secureOk), stBadParam),
    (!all.all (fun q => q.cores.all PlanCore.winsOk), stBadParam),
    (!all.all s.transOk, stBadParam),
    (!pl.wsOk, stBadParam),
    (!all.all Placement.targetsOk, stBadParam),
    (all.any (fun q => q.cols.any (fun c => c.target = 0 || decide (65535 < c.target) || others.any (fun o => o.cols.any (fun d => d.col = c.col)))), stBadParam)]
  let base := if me ≠ stOk then me else s.regionStatus p pl pl.base
  let rest := if base ≠ stOk then base else firstBad [
    (!all.all pl.streamsOk, stBadParam),
    (!pl.rulesOk, stBadParam),
    (match pl.job with | some j => !j.ok s.fab.addr | none => false, stBadParam),
    (all.any (fun q => q.cols.any (fun c => decide (8176 ≤ c.col))), stBadParam),
    (match pl.intake with | some it => !pl.fullPlacements.all (fun q => it.ok q s.fab.targets.toList) | none => false, stBadParam),
    (pl.sizes.any (fun z => match z.intake with | some it => !it.ok z.base s.fab.targets.toList | none => false), stBadParam),
    (!pl.detoursOk, stBadParam)]
  if rest ≠ stOk then rest
  else firstBad ((pl.detours.map Detour.pl ++ pl.sizes.map JobSize.base).map (fun q => (decide (s.regionStatus p pl q ≠ stOk), s.regionStatus p pl q)) ++ [(!pl.levelsOk, stBadParam)])

end Sys2Proof.Machine
end

