-- ==== Sys2Proof/Machine/Plans.lean ====
section
/-! DEFINITION. Partitions and plans as the owner orders them: PART_CREATE and PART_DESTROY (R257, R258), PLAN_LOAD (R395),
PLAN_START (R397) and PLAN_STOP (R398). -/

namespace Sys2Proof.Machine

open Sys2Proof

def stPartExists : W16 := 0x0203#16
def stPartOverlap : W16 := 0x0204#16
def stPlanStopped : W16 := 0x0304#16
def stTickConflict : W16 := 0x0402#16
def stStartPassed : W16 := 0x0403#16

/-! ## Partitions -/

/-- A terrace or port of the request is held elsewhere, or a port is in Ethernet mode (R257). -/
def State.partTaken (s : State) (terraces : BitVec 96) (ports : BitVec 28) : Bool :=
  (List.range 16).any (fun q => (s.part q).on && ((s.part q).terraces &&& terraces ≠ 0 || (s.part q).ports &&& ports ≠ 0)) ||
    (List.range 28).any (fun i => ports.getLsbD i && (s.port i).eth)

/-- PART_CREATE (R257). -/
def State.partCreate (s : State) (f : Fetched) (p : Nat) (diag : Bool) (terraces : BitVec 96) (ports : W32) (rsv : Nat) : State :=
  if 16 ≤ p || rsv ≠ 0 || 2 ^ 28 ≤ ports.toNat || terraces = 0 || !f.pkt.names p then s.done f stBadParam
  else if (s.part p).on then s.done f stPartExists
  else if s.partTaken terraces (ports.setWidth 28) then s.done f stPartOverlap
  else (s.setPart p { on := true, diag := diag, terraces := terraces, ports := ports.setWidth 28 }).done f stOk

/-- Long commands in flight for a partition end with it. -/
def State.endFlights (s : State) (p : Nat) (st : W16) : State :=
  ((s.fw.flight.filter (fun l => l.kind.target = .part p)).foldl (fun (t : State) l =>
    { t with fw := { t.fw with flight := t.fw.flight.erase l } }.done l.f st) s)

/-- A partition ceases to exist (R258). -/
def State.destroy (s : State) (p : Nat) : State := ((s.unloadPlan p).setPart p {}).endFlights p stPartUnknown

/-- PART_DESTROY (R258). -/
def State.partDestroy (s : State) (f : Fetched) (p : Nat) : State :=
  if 16 ≤ p || !f.pkt.names p then s.done f stBadParam
  else if !s.partOn p then s.done f stPartUnknown
  else if s.running p then s.done f stPartRunning
  else (s.destroy p).done f stOk

/-! ## PLAN_LOAD -/

/-- A plan that has passed its checks takes the place of the former one. Snapshots and retrace records stay. -/
def State.install (s : State) (p : Nat) (pl : Plan) : State :=
  let t := s.unloadPlan p
  let t := t.updPart p (fun x => { x with
    plan := some pl, fresh := true, seed := 0, step := 0, nextStep := 0, committed := none, detour := (0, 0), level := 0, nextLevel := none, remap := []
    members := (pl.job.map JobList.members).getD [], memberGen := 0, digests := [], intake := {}, past := [], stopStatus := 0
    rcv := { x.rcv with detour := none, spares := [] }, snap := { x.snap with size := pl.snapSize } })
  (t.loadPlacement p pl.base).loadUnits p pl

/-- PLAN_LOAD (R395). -/
def State.planLoad (s : State) (f : Fetched) (p : Nat) (replace : Bool) (rsv : Nat) (addr : W64) (len hash : Nat) (i : PlanImage) : State :=
  if f.pkt.agent.val = 2 then s.done f stPortUnsuited
  else if 16 ≤ p || rsv ≠ 0 || addr.toNat % 64 ≠ 0 || !f.pkt.names p then s.done f stBadParam
  else if s.planStatus p replace len hash i ≠ stOk then s.done f (s.planStatus p replace len hash i)
  else (s.install p { i.content with hash := i.sha }).finish f stOk (BitVec.ofNat 64 i.content.snapSize) 0

/-! ## PLAN_START -/

/-- Wafer cycles from now to the edge of a later tick, at period `per` from the next edge on (R184). -/
def State.cyclesTo (s : State) (tick per : Nat) : Nat := s.toEdge + (tick - s.tg.tick.toNat - 1) * (1200 * per)

/-- The checks of R397 in their order; `tick` 0 asks for the first possible edge. -/
def State.startStatus (s : State) (p tick : Nat) : W16 :=
  let x := s.part p
  let pl := x.plan.getD {}
  let others := (List.range 16).any (fun q => q ≠ p && (s.part q).started)
  let per := if others then s.tg.nextPeriod.getD s.tg.period else pl.period
  firstBad [
    (s.sec.halt, stAlarmHalt),
    (!s.partOn p, stPartUnknown),
    (x.plan.isNone, stPlanAbsent),
    (s.running p, stPartRunning),
    (!(x.coreSites x.placement).all (fun c => s.lit (c.2 / 32)), stSiteDark),
    (others && pl.period ≠ per, stTickConflict),
    (tick ≠ 0 && x.spans, stBadParam),
    (tick ≠ 0 && (decide (tick ≤ s.tg.tick.toNat) || decide (s.cyclesTo tick per < msgLead)), stStartPassed)]

/-- PLAN_START (R29, R65, R397): with no partition running firmware first sets the period; a member of a job of several
modules waits for the others as in a restart. -/
def State.planStart (s : State) (f : Fetched) (p rsv : Nat) (seed step tick : W64) : State :=
  if 16 ≤ p || rsv ≠ 0 || 2 ^ 48 ≤ tick.toNat || !f.pkt.names p then s.done f stBadParam
  else if s.startStatus p tick.toNat ≠ stOk then s.done f (s.startStatus p tick.toNat)
  else
    let x := s.part p
    let t := if (List.range 16).any (fun q => (s.part q).started) then s else s.tickPeriod ((x.plan.map Plan.period).getD 0)
    let t := t.updPart p (fun y => { y with seed := seed, step := step, nextStep := step, fresh := true, committed := none, begun := [], rcv := {}, stopStatus := 0, restartWanted := y.spans })
    let t := t.fly f (.planStart p)
    if x.spans then t.reportReady p
    else t.updPart p (fun y => { y with startAt := some (if tick = 0 then t.waferEdgeAfter msgLead else tick.setWidth 48) })

/-! ## PLAN_STOP -/

/-- PLAN_STOP (R398). -/
def State.planStop (s : State) (f : Fetched) (p mode : Nat) : State :=
  if 16 ≤ p || 1 < mode || !f.pkt.names p then s.done f stBadParam
  else if !s.partOn p then s.done f stPartUnknown
  else
    let x := s.part p
    if x.plan.isNone then s.done f stPlanAbsent
    else if !x.started then s.done f stPlanStopped
    else
      let t := s.fly f (.planStop p)
      if mode = 1 then (t.tellStop p).sendStop p
      else
        let t := t.updPart p (fun y => { y with hold := .stop :: y.hold, stopAtCommit := true })
        if x.stepOpen then t else (t.tellStop p).sendStop p

def execPartCreate (k : Pkt) (p : Byte) (diag : Bool) (ts : BitVec 96) (ps : W32) (rsv : Nat) (s : State) : Host.Outcome State Fault Refusal :=
  .next (s.command k 0x0201#16 true .none (fun t f => t.partCreate f p.toNat diag ts ps rsv))
def execPartDestroy (k : Pkt) (p : Byte) (s : State) : Host.Outcome State Fault Refusal :=
  .next (s.command k 0x0202#16 true .none (fun t f => t.partDestroy f p.toNat))
def execPlanLoad (k : Pkt) (p : Byte) (replace : Bool) (rsv : Nat) (addr : W64) (len : W32) (hash : Nat) (i : PlanImage) (s : State) : Host.Outcome State Fault Refusal :=
  .next (s.command k 0x0301#16 true (.part p.toNat) (fun t f => t.planLoad f p.toNat replace rsv addr len.toNat hash i))
def execPlanStart (k : Pkt) (p : Byte) (rsv : Nat) (seed step tick : W64) (s : State) : Host.Outcome State Fault Refusal :=
  .next (s.command k 0x0401#16 true (.part p.toNat) (fun t f => t.planStart f p.toNat rsv seed step tick))
def execPlanStop (k : Pkt) (p mode : Byte) (s : State) : Host.Outcome State Fault Refusal :=
  .next (s.command k 0x0402#16 true (.part p.toNat) (fun t f => t.planStop f p.toNat mode.toNat))

end Sys2Proof.Machine
end

