-- ==== Sys2Proof/Machine/HostAccess.lean ====
section
/-! DEFINITION. Accesses through BAR2 (R377, R378), FAB_CONFIG (R244), the cages (R424, R425) and TELEMETRY (R400). -/

namespace Sys2Proof.Machine

open Sys2Proof

def stFabPortBusy : W16 := 0x0A00#16

/-! ## BAR2 -/

/-- Fields of HPO_AP (R405). -/
def apEn (a : W64) : Bool := a.msb
def apKind (a : W64) : Nat := a.toNat / 2 ^ 61 % 4
def apField (a : W64) : Nat := a.toNat / 2 ^ 55 % 64
def apCore (a : W64) : Nat := a.toNat / 2 ^ 49 % 64
def apBase (a : W64) : Nat := a.toNat % 2 ^ 32

/-- What a piece of an access within one 64-byte unit comes to: done with the bytes read, refused, or it waits for a
handover (R125). -/
inductive BarOut where
  | done (bs : List Byte)
  | refused
  | waits
  deriving DecidableEq, Repr

/-- An access cut at 64-byte units: (address, offset in the access, length). -/
def barPieces (addr len : Nat) : List (Nat × Nat × Nat) :=
  (List.range ((addr + len + 63) / 64 - addr / 64)).filterMap (fun i =>
    let lo := max addr (64 * (addr / 64 + i))
    let hi := min (addr + len) (64 * (addr / 64 + i + 1))
    if lo < hi then some (lo, lo - addr, hi - lo) else none)

/-- A piece in a stack (Table 12.4): a partial write is merged with the stored unit, and discarded when that unit reads
uncorrectable. -/
def State.barStack (s : State) (f a n : Nat) (w : Option (List Byte)) : State × BarOut :=
  let x := s.field f
  if 48 ≤ f || belowReserve s.fab.reserve ≤ a || x.pwr.mif ≠ .on then (s, .refused)
  else match w with
    | none => if x.hbmBad.contains (a / 64) then (s, .refused) else (s, .done (Tab.getRange 0 x.hbm a n))
    | some bs => if n < 64 && x.hbmBad.contains (a / 64) then (s, .refused) else (s.updField f (fun y => y.hbmWrite a bs), .done [])

/-- A piece in a core's banks (R121, R123, R124, Table 4.2). A terrace without power refuses it. -/
def State.barBank (s : State) (k a n : Nat) (w : Option (List Byte)) : State × BarOut :=
  if s.dark k then (s, .refused)
  else match w with
    | none =>
      match (s.core k).readBytes .host s.coreNow a n with
      | (c, .ok bs) => (s.setCore k c, .done bs)
      | (_, .wait _) => (s, .waits)
      | (c, .fault _ _) => (s.setCore k c, .refused)
    | some bs =>
      match (s.core k).writeBytes .host s.coreNow a bs with
      | (c, .ok _) => (s.setCore k c, .done [])
      | (_, .wait _) => (s, .waits)
      | (c, .fault _ _) => (s.setCore k c, .refused)

/-- One piece at an offset of BAR2 (R377). `ap` is the aperture size. -/
def State.barPiece (s : State) (ap ofs n : Nat) (w : Option (List Byte)) : State × BarOut :=
  let a := s.host.ap.toList.getD (ofs / ap) 0
  let o := ofs % ap
  if !apEn a || 64 ≤ ofs / ap then (s, .refused)
  else if apKind a = 1 then s.barStack (apField a) (64 * apBase a / ap * ap + o) n w
  else if apKind a = 2 && decide (apField a < 48) && decide (o < 0x800000) then s.barBank (64 * apField a + apCore a) o n w
  else (s, .refused)

/-- The pieces of an access in order: the state and the bytes read, refused ones as 0xFF; none when a piece waits. -/
def State.barRun (ap ofs : Nat) (w : Option (List Byte)) : List (Nat × Nat × Nat) → State → List Byte → Option (State × List Byte)
  | [], s, acc => some (s, acc)
  | (a, o, n) :: r, s, acc =>
    match s.barPiece ap a n (w.map (fun bs => (bs.drop o).take n)) with
    | (_, .waits) => none
    | (t, .done bs) => State.barRun ap ofs w r t (acc ++ bs)
    | (t, .refused) => State.barRun ap ofs w r t (acc ++ List.replicate n 0xFF#8)

/-- The DWs of the bytes that a read returns. -/
def dwords : Nat → List Byte → List W64
  | 0, _ => []
  | n + 1, bs => if bs.isEmpty then [] else BitVec.ofNat 64 (natLE (bs.take 4)) :: dwords n (bs.drop 4)

/-- BAR2_ACCESS (R378, Table 12.4): `size` is the size of BAR2. An access that waits for a handover is presented again. -/
def State.bar2 (s : State) (p : Nat) (size ofs len : Nat) (w : Option (List Byte)) : State :=
  let n := (w.map List.length).getD len
  let answer := fun (t : State) (bs : List Byte) => if w.isSome then t else t.emit ((dwords bs.length bs).map (fun v => Output.bar p v))
  if !s.rck.ready || s.host.owner ≠ p || size < 64 then answer s (List.replicate n 0xFF#8)
  else match State.barRun (size / 64) ofs w (barPieces ofs n) s [] with
    | some (t, bs) => answer t bs
    | none => s

/-! ## FAB_CONFIG -/

/-- A port takes a new mode or enable: its link goes down and trains again (R237, R244). A link domain is ON while its port is
enabled (R324). -/
def State.setPortMode (s : State) (i : Nat) (en eth : Bool) : State :=
  let q := s.port i
  if q.en = en && q.eth = eth then s
  else (s.linkLost i).updPort i (fun x =>
    let link := if x.link = .failed then DomSt.failed else if en then .on else .off
    { x with en := en, eth := eth, link := link, st := if en && link = .on && !x.lowPower then .training else .down })

/-- FAB_CONFIG (R244, Table 8.5). -/
def State.fabConfig (s : State) (f : Fetched) (addr hb : Nat) (en eth : BitVec 28) (mac ip : Nat) (pfcEn : Bool) (pri dscp : Nat) (ts : List StoreTarget) (rsv : Nat) : State :=
  let changed := (List.range 28).filter (fun i => (s.port i).en ≠ en.getLsbD i || (s.port i).eth ≠ eth.getLsbD i)
  if rsv ≠ 0 || 1000 < hb || !f.pkt.noPart || ts.any (fun t => 28 ≤ t.port && t.port ≠ 0xFF) then s.done f stBadParam
  else if changed.any (fun i => (List.range 16).any (fun p => (s.part p).on && (s.part p).ports.getLsbD i)) then s.done f stFabPortBusy
  else if addr ≠ 0xFFF && addr ≠ s.fab.addr && (List.range 16).any (fun p => (s.part p).started) then s.done f stFabPortBusy
  else
    let t := { s with fab := { s.fab with
      addr := if addr = 0xFFF then s.fab.addr else addr, hb := if hb = 0 then s.fab.hb else hb
      mac := mac, ip := ip, pfcEn := pfcEn, pfcPri := pri, dscp := dscp, targets := Vector.ofFn (fun i => ts.getD i.val {}) } }
    (changed.foldl (fun (u : State) i => u.setPortMode i (en.getLsbD i) (eth.getLsbD i)) t).done f stOk

/-! ## Cages -/

/-- CAGE_PRESENCE (R424, R425): an assembly fitted, with the power in mW that it declares, or removed. -/
def State.cage (s : State) (i : Nat) (a : Option Nat) : State :=
  let t := s.linkLost i
  match a with
  | none => t.updPort i (fun x => { x with present := false, powerClass := 0, lowPower := true, st := .down })
  | some mw =>
    let low := decide (1500 < mw)
    t.updPort i (fun x => { x with present := true, powerClass := mw, lowPower := low, st := if x.en && x.link = .on && !low then .training else .down })

/-! ## TELEMETRY -/

/-- The TELEMETRY commands of an agent in flight. -/
def State.windowsOf (s : State) (a : Nat) : Nat :=
  s.fw.flight.countP (fun l => l.f.pkt.agent.val = a && (match l.kind with | .telemetry _ => true | _ => false))

/-- TELEMETRY (R400). -/
def State.telemetry (s : State) (f : Fetched) (p mask len : Nat) (start : W64) (rsv : Nat) : State :=
  let w := if start = 0 then s.tg.tick.toNat + 1 else start.toNat
  if 16 ≤ s.windowsOf f.pkt.agent.val then s.done f stBusy
  else if rsv ≠ 0 || 32 ≤ mask || len = 0 || 1000000 < len || (16 ≤ p && p ≠ 0xFF) || !f.pkt.names p || 2 ^ 48 ≤ w then s.done f stBadParam
  else if p ≠ 0xFF && !s.partOn p then s.done f stPartUnknown
  else if w ≤ s.tg.tick.toNat then s.done f stStartPassed
  else s.fly f (.telemetry { part := p, mask := mask, start := BitVec.ofNat 48 w, len := len })

/-- The increase of a counter over the window, summed over its cores. -/
def TeleWin.sum (w : TeleWin) (g : TeleLatch → W64) : List Byte :=
  bytesLE ((w.endCores.map (fun (c : Nat × TeleLatch) => g c.2 - g (Tab.get {} w.cores c.1))).foldl (· + ·) 0).toNat 8

/-- The highest terrace or transit reading of a field. -/
def State.hottestAll (s : State) (f : Nat) : Nat := ((s.field f).pwr.trnTemp.map Prod.snd).foldl max (s.hottest f)

/-- The record of Table 12.13. The lowest and highest input power and the energy are measured; the manual counts payload bytes
sent in no register, so they are free values. -/
def State.teleRecord (s : State) (w : TeleWin) (pmin pmax energy : Nat) : List Byte :=
  let sec := fun (i : Nat) (bs : List Byte) => if w.mask.testBit i then bs else []
  bytesLE w.start.toNat 8 ++ bytesLE (w.start.toNat + w.len) 8 ++ bytesLE w.part 1 ++ bytesLE w.mask 1 ++ bytesLE (bit w.partial_ 0) 1 ++ bytesLE 0 13 ++
    sec 0 ((List.range 8).flatMap (fun i => w.sum (fun l => l.idle.getD i 0)) ++ w.sum TeleLatch.run) ++
    sec 1 (w.sum (fun l => l.events.setWidth 64) ++ w.sum (fun l => l.skips.setWidth 64) ++ w.sum TeleLatch.blocks) ++
    sec 2 (bytesLE pmin 4 ++ bytesLE pmax 4 ++ bytesLE energy 8) ++
    sec 3 ((List.range 48).flatMap (fun f => bytesLE (s.hottestAll f) 1)) ++
    sec 4 ((List.range 28).flatMap (fun i =>
      bytesLE ((w.endFab.getD i (0, 0)).1 - (w.fab.getD i (0, 0)).1).toNat 4 ++ bytesLE ((w.endFab.getD i (0, 0)).2 - (w.fab.getD i (0, 0)).2).toNat 4 ++
        bytesLE (Config.freeValue (s.freeCtr + i)).toNat 8))

/-- TELEMETRY_WINDOW_END (R400): at the end edge the command completes with its record. -/
def State.teleEnd (s : State) (seq : W32) (agent : Nat) (pmin pmax energy : Nat) : State :=
  match s.fw.flight.find? (fun l => l.f.pkt.seq = seq && l.f.pkt.agent.val = agent && (match l.kind with | .telemetry w => w.closed | _ => false)) with
  | none => s
  | some l =>
    match l.kind with
    | .telemetry w =>
      { s with freeCtr := s.freeCtr + 28, fw := { s.fw with flight := s.fw.flight.erase l } }.finishData l.f stOk (s.teleRecord w pmin pmax energy)
    | _ => s

def execBar2Access (p : Fin 2) (size : W64) (ofs len : Nat) (bs : Option (List Byte)) (s : State) : Host.Outcome State Fault Refusal :=
  .next (s.bar2 p size.toNat ofs len bs)
def execFabConfig (k : Pkt) (addr : BitVec 12) (hb : W16) (en eth : BitVec 28) (mac ip : Nat) (pfcEn : Bool) (pri : BitVec 3) (dscp : BitVec 6) (ts : List StoreTarget) (rsv : Nat)
    (s : State) : Host.Outcome State Fault Refusal :=
  .next (s.command k 0x0A01#16 true .module_ (fun t f => t.fabConfig f addr.toNat hb.toNat en eth mac ip pfcEn pri.toNat dscp.toNat ts rsv))
def execCagePresence (p : PortIx) (a : Option Nat) (s : State) : Host.Outcome State Fault Refusal := .next (s.cage p a)
def execTelemetry (k : Pkt) (p mask : Byte) (len : W32) (start : W64) (rsv : Nat) (s : State) : Host.Outcome State Fault Refusal :=
  .next (s.command k 0x0901#16 false .none (fun t f => t.telemetry f p.toNat mask.toNat len.toNat start rsv))
def execTelemetryWindowEnd (seq : W32) (agent : Fin 3) (pmin pmax energy : Nat) (s : State) : Host.Outcome State Fault Refusal :=
  .next (s.teleEnd seq agent pmin pmax energy)

end Sys2Proof.Machine
end

