-- ==== Sys2Proof/Machine/RegRead.lean ====
section
/-! DEFINITION. BAR0 reads (R19, R21, R23, R75, R197, R234, R276, R365, R375, R376, R381): the value of every register, built from its
fields, so that reserved bits and write-only fields read zero, and the reads that latch. -/

namespace Sys2Proof.Machine

open Sys2Proof

/-- A register from its fields (high bit, low bit, value); every other bit reads zero (R21). -/
def regOf (fs : List (Nat × Nat × Nat)) : W32 :=
  fs.foldl (fun (r : W32) f => r ||| (BitVec.ofNat 32 (f.2.2 % 2 ^ (f.1 + 1 - f.2.1)) <<< f.2.1)) 0#32

/-- A one-bit field. -/
def flag (b : Bool) : Nat := b.toNat

def lo32 (w : W64) : W32 := w.setWidth 32
def hi32 (w : W64) : W32 := (w >>> 32).setWidth 32

/-- TICK_LO, TICK_HI and CYC of a time-stamp, by offset in steps of 4. -/
def stampReg (t : Stamp) (i : Nat) : W32 :=
  if i = 0 then t.tick.setWidth 32 else if i = 4 then regOf [(15, 0, t.tick.toNat / 2 ^ 32)] else regOf [(25, 0, t.ofs)]

/-! ## Cores -/

def GSt.isOpen (g : Group) : Bool := g.st = .opened
def GSt.isClosed (g : Group) : Bool := g.st = .closed

/-- The bits of a list of flags, the first at bit 0. -/
def bitsOf (l : List Bool) : Nat := l.foldr (fun b n => flag b + 2 * n) 0

/-- COR_ (R75, R115, R138, R155, R276, R304, R318). -/
def Core.rdCor (o : Nat) (c : Core) : W32 :=
  let r := c.chk.record
  if 0x100 ≤ o && o < 0x200 then
    let w := c.win.toList.getD ((o - 0x100) / 16) {}
    match o % 16 with
    | 0 => regOf [(22, 6, w.base / 64)]
    | 4 => regOf [(23, 0, w.size)]
    | 8 => regOf [(23, 0, w.head)]
    | _ => regOf [(23, 0, w.tail)]
  else if 0x240 ≤ o && o < 0x280 then
    (if o % 8 = 0 then lo32 (c.idle.idle.toList.getD ((o - 0x240) / 8) 0) else c.idle.idleHi.toList.getD ((o - 0x240) / 8) 0)
  else match o with
  | 0x00 => regOf [(31, 31, flag c.seq.staged), (26, 24, c.wcauseCode), (23, 16, c.seq.mult), (15, 8, c.seq.entry), (2, 0, c.stateCode)]
  | 0x04 => regOf [(31, 16, c.seq.rep), (13, 0, c.seq.pc)]
  | 0x10 => regOf [(31, 31, flag c.fault.valid), (30, 30, flag c.fault.more), (23, 16, c.fault.body.kind.toNat), (13, 0, c.fault.body.pc)]
  | 0x14 => stampReg c.fault.body.at_ 0
  | 0x18 => stampReg c.fault.body.at_ 4
  | 0x1C => stampReg c.fault.body.at_ 8
  | 0x20 => c.fault.body.detail
  | 0x30 => regOf [(22, 4, c.adpBase / 16)]
  | 0x34 => regOf [(10, 0, c.adpLen)]
  | 0x80 => regOf [(31, 24, c.chk.suspect.toNat), (23, 16, bitsOf (c.arr.groups.toList.map GSt.isOpen)), (15, 8, bitsOf (c.arr.groups.toList.map GSt.isClosed)),
      (7, 4, (c.arr.active.map Tile.efmt).getD 0), (3, 3, flag c.chk.off), (2, 2, flag c.arr.shadowReady), (1, 1, flag c.arr.active.isSome), (0, 0, flag !c.arr.pend.isEmpty)]
  | 0x84 => c.chk.events
  | 0x88 => c.chk.skips
  | 0x8C => lo32 c.chk.blocks
  | 0x90 => c.chk.blocksHi
  | 0xA0 => regOf [(31, 31, flag r.valid), (30, 30, flag r.more), (29, 29, flag r.body.injected), (28, 25, r.body.wfmt), (24, 21, r.body.afmt),
      (20, 18, r.body.group), (17, 16, r.body.block), (10, 0, r.body.row)]
  | 0xA4 => stampReg r.body.at_ 0
  | 0xA8 => stampReg r.body.at_ 4
  | 0xAC => stampReg r.body.at_ 8
  | 0xB0 => r.body.sOut
  | 0xB4 => r.body.sChk
  | 0xB8 => r.body.tau
  | 0xC0 => lo32 c.rnd.seed
  | 0xC4 => hi32 c.rnd.seed
  | 0xC8 => c.rnd.stream
  | 0xCC => c.rnd.ctr.setWidth 32
  | 0xD0 => regOf [(15, 0, c.rnd.ctr.toNat / 2 ^ 32)]
  | 0x200 => c.sprHdr
  | 0x204 => c.sprDense
  | 0x280 => lo32 c.idle.run
  | 0x284 => c.idle.runHi
  | 0x300 => lo32 c.tdig
  | 0x304 => hi32 c.tdig
  | 0x308 => regOf [(31, 31, flag c.chk.cap.captured), (30, 30, flag c.chk.cap.replaying), (29, 29, flag c.chk.cap.rdone), (28, 28, flag c.chk.cap.rchk)]
  | _ => 0

/-- BNK_ (R137). -/
def Bank.rdBnk (o : Nat) (b : Bank) : W32 :=
  let m := b.march
  match o with
  | 0x00 => lo32 b.own
  | 0x04 => hi32 b.own
  | 0x08 => b.pend
  | 0x0C => b.secure
  | 0x10 => b.busy
  | 0x14 => regOf [(31, 31, flag (b.waking || b.wiping ≠ 0)), (30, 30, flag b.zfail), (4, 0, b.zbank)]
  | 0x20 => b.corr
  | 0x24 => b.uncorr
  | 0x28 => regOf [(31, 31, flag b.record.valid), (30, 30, flag b.record.more), (29, 26, b.record.body.req), (16, 0, b.record.body.word)]
  | 0x2C => stampReg b.record.body.at_ 0
  | 0x30 => stampReg b.record.body.at_ 4
  | 0x34 => stampReg b.record.body.at_ 8
  | 0x38 => b.rejects
  | 0x40 => regOf [(1, 1, flag m.mode)]
  | 0x44 => m.maskReg
  | 0x48 => regOf [(31, 31, flag m.done), (30, 30, flag m.fail), (29, 29, flag m.aborted), (28, 28, flag m.running), (10, 8, m.element), (4, 0, m.bank)]
  | 0x4C => regOf [(31, 20, m.failWord), (19, 15, m.failBank), (9, 0, m.failBit)]
  | _ => 0

/-! ## Fields -/

/-- FLD_RTR_ (R199): ports 9 to 4. -/
def Router.rdRtr (o : Nat) (r : Router) : W32 :=
  match o with
  | 0x00 => regOf ((List.range 6).map (fun i => (2 * i + 9, 2 * i + 8, r.port.toList.getD (i + 4) 0)))
  | 0x04 => r.crc
  | 0x08 => regOf [(31, 31, flag r.record.valid), (30, 30, flag r.record.more), (29, 28, r.record.body.reason), (27, 24, r.record.body.port), (9, 0, r.record.body.id)]
  | _ => 0

/-- A minimum-voltage record at its base (R350). -/
def Vmin.rd (v : Vmin) (o : Nat) : W32 := if o = 0 then regOf [(31, 31, flag v.valid), (15, 0, v.mv)] else stampReg v.at_ (o - 4)

def DomSt.code : DomSt → Nat
  | .off => 0 | .on => 1 | .failed => 2
def UpePhase.code : UpePhase → Nat
  | .collect => 0 | .norm => 1 | .apply => 2

/-- Failed phases of a mask. -/
def ones (l : List Bool) : Nat := (l.filter id).length
def maskOnes {n : Nat} (m : BitVec n) : Nat := ones ((List.range n).map m.getLsbD)

/-- The FLD_PWR_ registers of a terrace (R351). -/
def Ter.rd (t : Ter) (o : Nat) : W32 :=
  let temp := fun i => t.temp.toList.getD i 0
  match o with
  | 0x00 => regOf [(31, 29, t.st.code), (28, 28, flag t.heat), (27, 27, flag t.senseFb), (26, 26, flag t.hold), (25, 19, t.switches), (18, 16, maskOnes t.vcsFail),
      (15, 8, t.temp.toList.foldl max 0), (5, 0, maskOnes t.vddFail)]
  | 0x04 => t.vddFail.setWidth 32
  | 0x08 => regOf [(21, 16, t.vcsFail.toNat), (15, 0, t.vddFail.toNat / 2 ^ 32)]
  | 0x0C => regOf [(7, 0, temp 0), (15, 8, temp 1), (23, 16, temp 2), (31, 24, temp 3)]
  | 0x10 => regOf [(7, 0, temp 4), (15, 8, temp 5), (23, 16, temp 6), (31, 24, temp 7)]
  | _ => if 0x20 ≤ o && o < 0x30 then t.vdd.rd (o - 0x20) else if 0x30 ≤ o && o < 0x40 then t.vcs.rd (o - 0x30) else 0

/-- The FLD_PWR_ registers of a transit domain (R351). -/
def FieldPwr.rd (w : FieldPwr) (o : Nat) : W32 :=
  if o = 0 then
    regOf [(31, 30, w.trn.code), (29, 29, flag w.trnHeat), (28, 28, flag (w.mif = .on)), (27, 24, maskOnes w.mifVddFail + maskOnes w.mifFail), (23, 20, maskOnes w.trnFail),
      (15, 8, (w.trnTemp.map Prod.snd).foldl max 0), (7, 0, w.stackT)]
  else if 0x20 ≤ o && o < 0x30 then w.trnV.rd (o - 0x20) else 0

/-- HBC_WS_ (R165). -/
def WsSlot.rdWs (o : Nat) (w : WsSlot) : W32 :=
  match o with
  | 0x00 => regOf [(31, 31, flag w.en), (30, 24, w.reports), (23, 16, w.missBound), (10, 0, w.nblk)]
  | 0x04 => regOf [(15, 0, w.denseSlots)]
  | 0x08 => BitVec.ofNat 32 w.mbase
  | 0x0C => regOf [(31, 26, w.frecSem), (22, 6, w.frecAddr / 64)]
  | 0x10 => regOf [(31, 31, flag w.fallback), (30, 28, w.run), (27, 27, flag w.badmsg), (15, 0, w.remain)]
  | 0x14 => regOf [(21, 11, w.lastA), (10, 0, w.lastMiss)]
  | 0x18 => w.sel
  | 0x1C => w.aud
  | 0x20 => w.miss
  | 0x24 => w.false_
  | 0x28 => w.fallbacks
  | _ => 0

/-- A region descriptor (Table 7.1, R234). -/
def Region.rd (r : Region) (o : Nat) : W32 :=
  match o with
  | 0 => regOf [(31, 31, flag r.en), (30, 27, r.kind), (26, 23, r.rule), (22, 19, r.efmt), (18, 15, r.sfmt), (14, 14, flag r.master), (13, 13, flag r.frozen),
      (12, 12, flag r.fmen), (11, 11, flag r.pcen), (10, 4, r.pcidx), (3, 0, r.part)]
  | 4 => BitVec.ofNat 32 r.base
  | 8 => BitVec.ofNat 32 r.len
  | 12 => BitVec.ofNat 32 r.grad
  | 16 => BitVec.ofNat 32 r.map
  | 36 => BitVec.ofNat 32 r.masterBase
  | 40 => BitVec.ofNat 32 r.fmask
  | 44 => regOf [(27, 0, r.shard)]
  | _ => if 20 ≤ o && o < 36 then BitVec.ofNat 32 (r.slot.toList.getD ((o - 20) / 4) 0) else 0

/-- A rule entry (Table 7.8, R234). -/
def Rule.rd (r : Rule) (o : Nat) : W32 :=
  if o = 0 then regOf [(31, 31, flag r.en), (30, 28, r.nslot), (27, 26, r.nterm - 1), (25, 25, flag r.prnd), (24, 24, flag r.srnd), (23, 20, r.sbf16), (19, 16, r.bca)]
  else if o = 4 then r.eta
  else if o = 8 then r.lambda
  else if 16 ≤ o && o < 80 then
    let k := r.slots.getD ((o - 16) / 16) {}
    match o % 16 with
    | 0 => k.alpha
    | 4 => k.beta
    | 8 => regOf [(7, 0, k.term)]
    | _ => k.eps
  else if 80 ≤ o && o < 144 then
    let j := r.terms.getD ((o - 80) / 16) {}
    match o % 16 with
    | 0 => j.gamma
    | 4 => regOf [(7, 0, j.term)]
    | 8 => j.eps
    | _ => 0
  else 0

/-- A binding descriptor (Table 7.10, R234). -/
def Binding.rd (b : Binding) (o : Nat) : W32 :=
  match o with
  | 0 => regOf [(31, 31, flag b.en), (30, 30, flag b.active), (29, 29, flag b.newroot), (28, 20, b.k)]
  | 4 => b.beta
  | 8 => BitVec.ofNat 32 b.statBase
  | 12 => BitVec.ofNat 32 b.rootBase
  | 16 => regOf [(15, 0, b.statEvery), (31, 16, b.rootEvery)]
  | _ => 0

/-- UPE_ (R233). -/
def Upe.rdUpe (o : Nat) (u : Upe) : W32 :=
  if 0x40 ≤ o && o < 0x80 then u.clip.toList.getD ((o - 0x40) / 4) 0
  else match o with
  | 0x00 => regOf [(31, 28, u.share), (27, 18, u.redId)]
  | 0x04 => regOf ((List.range 16).map (fun p => (2 * p + 1, 2 * p, (u.phase.toList.getD p .collect).code)))
  | 0x08 => regOf [(31, 31, flag u.nonfinite), (19, 16, u.part)]
  | 0x0C => u.ssq
  | 0x10 => u.total
  | 0x14 => u.scale
  | 0x20 => u.blocks
  | 0x24 => u.skips
  | 0x28 => u.discard
  | 0x2C => u.rootLate
  | 0x30 => regOf [(31, 31, flag u.fault.valid), (30, 30, flag u.fault.more), (19, 16, u.fault.body.part), (15, 8, u.fault.body.kind), (7, 0, u.fault.body.region)]
  | 0x34 => u.fault.body.addr
  | _ => 0

/-- A field window (Table 12.3). -/
def State.rdField (s : State) (f o : Nat) : W32 :=
  let x := s.field f
  if o < 0x10000 then (s.core (64 * f + o / 0x400)).rdCor (o % 0x400)
  else if o < 0x14000 then (s.core (64 * f + (o - 0x10000) / 0x100)).bank.rdBnk (o % 0x100)
  else if o < 0x15000 then (s.router f ((o - 0x14000) / 0x100)).rdRtr (o % 0x100)
  else if 0x16000 ≤ o && o < 0x16200 then (x.ter.toList.getD ((o - 0x16000) / 0x100) {}).rd (o % 0x100)
  else if 0x16200 ≤ o && o < 0x16300 then x.pwr.rd (o - 0x16200)
  else if 0x18000 ≤ o && o < 0x18800 then (x.slot ((o - 0x18000) / 0x40)).rdWs (o % 0x40)
  else if 0x19000 ≤ o && o < 0x1D000 then (Tab.get {} x.regions ((o - 0x19000) / 0x40)).rd (o % 0x40)
  else if 0x1D000 ≤ o && o < 0x1D100 then x.upe.rdUpe (o - 0x1D000)
  else if 0x1E000 ≤ o && o < 0x1F000 then (Tab.get {} x.rules ((o - 0x1E000) / 0x100)).rd (o % 0x100)
  else if 0x1F000 ≤ o && o < 0x20000 then (Tab.get {} x.bindings ((o - 0x1F000) / 0x20)).rd (o % 0x20)
  else 0

/-! ## The module's blocks -/

def SnapPhase.code : SnapPhase → Nat
  | .idle => 0 | .held => 1 | .copying => 2 | .confirming => 3 | .restoring => 4
def ColSt.code : ColSt → Nat
  | .idle => 0 | .armed => 1 | .done => 2 | .doneLate => 3 | .expired => 4
def FabSt.code : FabSt → Nat
  | .down => 0 | .training => 1 | .init => 2 | .up => 3 | .failed => 4

/-- VID_ (R317). -/
def State.rdVid (s : State) (o : Nat) : W32 :=
  let g := s.fw.regs
  if 0x4000 ≤ o && o < 0x4200 then
    let p := (o - 0x4000) / 0x20
    let x := s.part p
    let gen := s.restartGen p
    match o % 0x20 with
    | 0x00 => regOf [(31, 29, x.snap.phase.code), (28, 28, flag (gen.any Gen.near)), (27, 27, flag (gen.any Gen.shelf)), (26, 26, flag (gen.any Gen.store)),
        (25, 25, flag x.snap.ownFlash), (15, 0, x.snap.stopMs)]
    | 0x04 => lo32 ((gen.map Gen.id).getD 0)
    | 0x08 => hi32 ((gen.map Gen.id).getD 0)
    | 0x0C => BitVec.ofNat 32 x.snap.ivl
    | 0x10 => BitVec.ofNat 32 (x.snap.mtbfMs / 1000)
    | 0x14 => regOf [(31, 31, flag x.snap.rcvValid), (30, 28, x.snap.rcvPath), (27, 26, x.snap.rcvSource), (25, 24, x.detour.1), (23, 17, x.detour.2), (16, 0, x.snap.rcvMs)]
    | 0x18 => x.snap.rcvCount
    | _ => 0
  else match o with
  | 0x4400 => regOf [(31, 31, flag g.rtrDone), (30, 29, g.rtrResult), (28, 16, g.rtrN), (15, 0, g.rtrTick)]
  | 0x4404 => g.rtrStep
  | 0x4408 => regOf [(27, 16, g.rtrSite), (11, 0, g.rtrLogical)]
  | 0x4410 => regOf [(31, 31, flag g.prbDone), (30, 30, flag g.prbMismatch), (23, 12, g.prbSites.length), (11, 0, (g.prbSites.drop 1).foldl min (g.prbSites.headD 0))]
  | _ => 0

/-- RCK_ (R372). -/
def State.rdRck (s : State) (o : Nat) : W32 :=
  let r := s.rck
  let pll := fun (i : Nat) => (s.field i).pwr.pll
  match o with
  | 0x00 => regOf [(1, 0, r.refSel)]
  | 0x04 => regOf [(31, 31, flag r.refLost), (30, 30, flag r.unchecked), (5, 4, r.active), (3, 3, flag r.oscRun), (2, 2, flag r.a3), (1, 1, flag r.h4), (0, 0, flag r.stable)]
  | 0x08 => BitVec.ofNat 32 (bitsOf ((List.range 32).map pll))
  | 0x0C => regOf [(16, 16, flag r.valePll), (15, 0, bitsOf ((List.range 16).map (fun i => pll (32 + i))))]
  | 0x10 => regOf [(15, 8, r.causeStage), (7, 0, r.cause)]
  | 0x20 => regOf [(31, 31, flag r.trimValid), (30, 30, flag r.trimFault), (29, 29, flag r.aBad), (28, 28, flag r.bBad), (27, 26, r.copy), (0, 0, flag r.startMarch)]
  | 0x24 => BitVec.ofNat 32 s.bootStat
  | 0x30 => regOf [(31, 31, flag (s.div.current ≠ s.div.target)), (30, 30, flag s.div.bad), (21, 16, s.div.current), (5, 0, s.div.target)]
  | 0x40 => regOf [(30, 25, r.fmcSel), (24, 20, r.fmcPort), (19, 0, r.fmcGate)]
  | 0x44 => regOf [(31, 31, flag r.fmcDone), (30, 30, flag r.fmcRunning), (29, 29, flag r.fmcNoclk)]
  | 0x48 => r.fmcCount
  | _ => 0

/-- Domain i is LIT or ON (Table 10.3). -/
def State.domOn (s : State) (i : Nat) : Bool :=
  if i < 96 then s.lit i
  else if i < 144 then (s.field (i - 96)).pwr.trn = .on
  else if i < 192 then (s.field (i - 144)).pwr.mif = .on
  else if i < 220 then (s.port (i - 192)).link = .on
  else if i < 222 then (s.ring (i - 220)).pcie = .on
  else i = 222

/-- PWT_ (R349, R350). -/
def State.rdPwt (s : State) (o : Nat) : W32 :=
  let w := s.pwr
  if 0x40 ≤ o && o < 0x5C then BitVec.ofNat 32 (bitsOf ((List.range 32).map (fun i => s.domOn (8 * (o - 0x40) + i))))
  else if 0x80 ≤ o && o < 0x90 then w.inV.rd (o - 0x80)
  else match o with
  | 0x00 => regOf [(31, 16, w.vbus), (15, 0, w.ibus)]
  | 0x04 => regOf [(31, 16, w.pairA), (15, 0, w.pairB)]
  | 0x08 => regOf [(31, 31, flag w.holdupOk), (25, 16, w.vbank), (15, 0, w.cap)]
  | 0x10 => w.alarm.setWidth 32
  | 0x14 => w.mask.setWidth 32
  | 0x18 => regOf [(31, 24, w.warn), (23, 16, w.hot), (5, 0, w.droop)]
  | 0x1C => regOf [(15, 8, w.stkWarn), (7, 0, w.stkHot)]
  | 0x20 => regOf [(31, 16, w.env.bound), (15, 13, w.env.level), (12, 10, w.env.point), (9, 9, flag w.env.pending), (8, 8, flag w.env.forced)]
  | 0x24 => regOf [(15, 0, s.estimate)]
  | 0x28 => w.sagShort
  | _ => 0

/-- TCL_ (R197, R198). -/
def State.rdTcl (s : State) (o : Nat) : W32 :=
  let g := s.tg
  if 0x10000 ≤ o && o < 0x90000 then
    let c := s.col ((o - 0x10000) / 16)
    let dl := c.dl.getD {}
    match o % 16 with
    | 0 => regOf [(31, 31, flag c.en), (30, 27, c.part), (15, 0, c.target)]
    | 4 => regOf [(31, 29, c.st.code), (28, 28, flag c.dl.isSome), (27, 27, flag c.mismatch), (26, 26, flag c.excess), (15, 0, c.count)]
    | 8 => dl.tick.setWidth 32
    | 12 => regOf [(31, 26, dl.tick.toNat / 2 ^ 32), (25, 0, dl.ofs)]
    | _ => 0
  else match o with
  | 0x00 => regOf [(31, 31, flag g.refused), (15, 0, g.period)]
  | 0x04 => g.tick.setWidth 32
  | 0x08 => g.tickHi.setWidth 32
  | 0x0C => regOf [(25, 0, g.tickOfs)]
  | 0x10 => lo32 g.cyc
  | 0x14 => g.cycHi
  | 0x18 => regOf [(31, 24, g.hops), (23, 16, g.cross), (15, 0, g.bound)]
  | 0x1C => regOf [(31, 31, flag g.lost), (30, 30, flag g.running), (5, 0, g.lostField)]
  | _ => 0

/-- HPO_ (R405). -/
def State.rdHpo (s : State) (o : Nat) : W32 :=
  let h := s.host
  if o = 0 then regOf [(31, 24, h.changes.toNat), (23, 16, h.priority), (3, 3, flag h.claimOpen), (2, 2, flag h.hbExpired), (1, 0, h.owner)]
  else if o = 4 then regOf [(15, 0, h.timeout)]
  else if 0x100 ≤ o && o < 0x180 then
    let r := s.ring ((o - 0x100) / 0x40)
    match o % 0x40 with
    | 0x00 => regOf [(31, 31, flag r.en), (26, 16, r.poll), (3, 0, r.size)]
    | 0x08 => lo32 r.sq
    | 0x0C => hi32 r.sq
    | 0x10 => lo32 r.cq
    | 0x14 => hi32 r.cq
    | 0x18 => lo32 r.seqw
    | 0x1C => hi32 r.seqw
    | 0x20 => r.startSeq
    | 0x24 => regOf [(31, 31, flag r.overrun), (30, 30, flag r.fetchErr)]
    | 0x28 => r.last
    | _ => 0
  else if 0x1000 ≤ o && o < 0x1200 then
    let a := h.ap.toList.getD ((o - 0x1000) / 8) 0
    if o % 8 = 0 then lo32 a else hi32 a
  else 0

/-- The partition that holds a port (R244). -/
def State.portHolder (s : State) (n : Nat) : Option Nat := (List.range 16).find? (fun p => (s.part p).on && (s.part p).ports.getLsbD n)

/-- FAB_ (R275). LL_VERSION reads 1 (R237). -/
def State.rdFab (s : State) (o : Nat) : W32 :=
  let b := s.fab
  if 0x40 ≤ o && o < 0x80 then
    let x := s.part ((o - 0x40) / 4)
    regOf [(31, 31, flag x.resharding), (15, 0, x.epoch.toNat)]
  else if 0xC0 ≤ o && o < 0x100 then
    let i := (s.part ((o - 0xC0) / 4)).intake
    regOf [(31, 31, flag i.stalled), (30, 30, flag i.crcBad), (15, 0, i.entry)]
  else if 0x1000 ≤ o && o < 0x1700 then
    let n := (o - 0x1000) / 0x40
    let q := s.port n
    match o % 0x40 with
    | 0x00 => regOf [(31, 31, flag q.en), (30, 30, flag q.eth), (29, 29, flag (s.portHolder n).isSome), (28, 25, (s.portHolder n).getD 0)]
    | 0x04 => regOf [(31, 29, q.st.code), (28, 28, flag q.hbLost), (27, 16, q.peer), (15, 11, q.peerPort)]
    | 0x08 => q.crc
    | 0x0C => q.replay
    | 0x10 => q.fecCorr
    | 0x14 => q.fecUncorr
    | 0x18 => q.downs
    | _ => 0
  else match o with
  | 0x00 => regOf [(31, 24, linkVersion), (11, 0, b.addr)]
  | 0x04 => regOf [(31, 31, flag b.forced), (30, 30, flag b.cofed), (29, 29, flag b.unprotected), (15, 8, b.holderFeed), (7, 0, b.feedId)]
  | 0x08 => regOf [(31, 16, b.reserve), (11, 0, b.holder)]
  | 0x0C => regOf [(11, 0, b.held)]
  | 0x80 => regOf [(31, 31, flag b.fault.valid), (30, 30, flag b.fault.more), (29, 26, b.fault.body.part), (25, 21, b.fault.body.port), (15, 12, b.fault.body.kind), (11, 0, b.fault.body.src)]
  | 0x84 => regOf [(31, 16, b.fault.body.epoch.toNat), (15, 0, b.fault.body.coll.toNat)]
  | 0x88 => stampReg b.fault.body.at_ 0
  | 0x8C => stampReg b.fault.body.at_ 4
  | 0x90 => stampReg b.fault.body.at_ 8
  | _ => 0

/-- SEC_ (R421). -/
def State.rdSec (s : State) (o : Nat) : W32 :=
  let c := s.sec
  match o with
  | 0x00 => regOf [(31, 31, flag c.idErased), (30, 30, flag (c.ownerKey ≠ 0)), (8, 4, c.otp.length), (2, 0, s.lifeCycle)]
  | 0x04 => regOf [(31, 31, flag c.recovery), (30, 30, flag c.slotA.ok), (29, 29, flag c.slotB.ok), (28, 28, flag c.activeB), (15, 0, c.minSvn)]
  | 0x08 => regOf [(31, 31, flag c.debugOpen), (30, 30, flag c.noStandby), (11, 8, c.coresOk.toNat), (5, 4, c.standby), (1, 0, c.active)]
  | 0x100 => c.cfg.setWidth 32
  | 0x104 => regOf [(31, 31, flag c.halt), (30, 30, flag c.erasePending), (3, 0, c.src.toNat)]
  | 0x108 => regOf [(31, 31, flag c.record.valid), (30, 30, flag c.record.more), (25, 0, c.record.body.at_.ofs)]
  | 0x10C => regOf [(31, 30, c.record.body.level), (29, 27, c.record.body.source), (26, 0, c.record.body.at_.tick.toNat)]
  | _ => 0

/-! ## The map -/

/-- A BAR0 read of one DW by the agent of a PCIe port (R23, R365, R375, R381, Table 12.2): the current value, whoever owns the module.
RCK_ and VID_ answer from the end of the Vale stage on (Table 11.5), the other blocks from READY on; the upper part of SEC_ reads zero to an observer. -/
def State.read32 (s : State) (who : Fin 3) (a : Nat) : W32 :=
  if a < 0x200000 && s.rck.stage < 4 then 0xFFFFFFFF#32
  else if a < 0x100000 then s.rdVid a
  else if a < 0x200000 then s.rdRck (a - 0x100000)
  else if !s.rck.ready then 0xFFFFFFFF#32
  else if a < 0x300000 then s.rdPwt (a - 0x200000)
  else if a < 0x400000 then s.rdTcl (a - 0x300000)
  else if a < 0x500000 then s.rdHpo (a - 0x400000)
  else if a < 0x600000 then s.rdFab (a - 0x500000)
  else if a < 0x700000 then (if 0xFF < a - 0x600000 && s.host.owner ≠ who.val then 0 else s.rdSec (a - 0x600000))
  else if 0x1000000 ≤ a && a < 0x1600000 then s.rdField ((a - 0x1000000) / 0x20000) ((a - 0x1000000) % 0x20000)
  else 0

/-- A BAR0 read of 32 or 64 bits (R375): any other access, and one not naturally aligned, returns zero. -/
def State.regRead (s : State) (who : Fin 3) (a : Nat) (wide : Bool) : W64 :=
  if wide then (if a % 8 = 0 then (s.read32 who a).setWidth 64 ||| ((s.read32 who (a + 4)).setWidth 64 <<< 32) else 0)
  else if a % 4 = 0 then (s.read32 who a).setWidth 64 else 0

/-! ## Reads that latch -/

/-- The agent of a PCIe port takes the value of a register; the management interface has no BAR (R403). -/
def State.answerRead (s : State) (who : Fin 3) (a : Nat) : State :=
  if who.val = 2 then s else s.emit [.bar who.val (s.regRead who a false)]

/-- The field window of a core's COR_ registers. -/
def corBase (k : Nat) : Nat := 0x1000000 + k / 64 * 0x20000 + k % 64 * 0x400

/-- CHK_BLOCKS_LO_READ (R75): a read latches COUNT_HI. The latch keeps its value until the next read of LO, whatever COR_CHK_CLR
clears (DESIGN CHOICE, log 65). -/
def execChkBlocksLoRead (who : Fin 3) (k : Site) (s : State) : Host.Outcome State Fault Refusal :=
  .next ((if s.rck.ready then s.setCore k (Core.onChk (fun x => { x with blocksHi := (x.blocks >>> 32).setWidth 32 }) (s.core k)) else s).answerRead who (corBase k + 0x8C))

/-- IDLE_LO_READ (R276): COR_IDLE_LO of a cause, or COR_RUN_LO. -/
def execIdleLoRead (who : Fin 3) (k : Site) (c : Fin 9) (s : State) : Host.Outcome State Fault Refusal :=
  .next ((if s.rck.ready then s.setCore k { s.core k with idle := (s.core k).idle.latch c } else s).answerRead who (corBase k + 0x240 + 8 * c.val))

/-- TICK_LO_READ (R197). -/
def execTickLoRead (who : Fin 3) (s : State) : Host.Outcome State Fault Refusal :=
  .next ((if s.rck.ready then { s with tg := { s.tg with tickHi := (s.tg.tick >>> 32).setWidth 16, tickOfs := s.tg.ofs } } else s).answerRead who 0x300004)

/-- CYC_LO_READ (R197). -/
def execCycLoRead (who : Fin 3) (s : State) : Host.Outcome State Fault Refusal :=
  .next ((if s.rck.ready then { s with tg := { s.tg with cycHi := (s.tg.cyc >>> 32).setWidth 32 } } else s).answerRead who 0x300010)

end Sys2Proof.Machine
end

