-- ==== Sys2Proof/Machine/Scalar.lean ====
section
/-! DEFINITION. The scalar, branch and control operations of the sequencer (R95, R96, Table 3.6). -/

namespace Sys2Proof.Machine

open Sys2Proof

/-- What every class 0x0 instruction does first: a non-zero reserved field is ILLEGAL_INSN (R85), and it waits for the
registers that a unit has still to write, and before it overwrites one that the vector engine has still to read (R77).
`srcs` are the registers it reads, `dst` the one it writes. -/
def scalarBody (w : W64) (f : ScalarF) (legal : Bool) (srcs dst : List (BitVec 5)) (run : Core → Core × Out Eff) (c : Core) :
    Core × Out Eff :=
  if f.rsv ≠ 0 || !legal then (c, .fault 0x01 (hiWord w))
  else if c.depends ((srcs ++ dst).map BitVec.toNat) || c.overwrites (dst.map BitVec.toNat) then (c, .wait none)
  else run c

/-- SD ← SA op SB (Table 3.6). -/
def aluBody (op : W64 → W64 → W64) (w : W64) (f : ScalarF) : Core → Core × Out Eff :=
  scalarBody w f true [f.sa, f.sb] [f.sd] (fun c => (c.setS f.sd (op (c.S f.sa) (c.S f.sb)), .ok {}))

/-- The shift count of SHL, SHR and SAR: SB[6:0] (Table 3.6). -/
def shiftCount (b : W64) : Nat := b.toNat % 128

/-- The address of LD and ST: SA + IMM32, sign-extended. -/
def ldAddr (c : Core) (f : ScalarF) : Nat := (c.S f.sa + f.imm.signExtend 64).toNat

/-- The address faults of LD and ST (Table 3.6). -/
def ldFault (a : Nat) : Option (Nat × Nat) :=
  firstFault [(a % 8 ≠ 0, 0x06, a), (0x7FFFFF < a + 7, 0x07, a)]

def ldBody (now : Stamp) (w : W64) (f : ScalarF) : Core → Core × Out Eff :=
  scalarBody w f true [f.sa] [f.sd] (fun c =>
    match ldFault (ldAddr c f) with
    | some (k, d) => (c, .fault k d)
    | none =>
      match c.readBytes .scalar now (ldAddr c f) 8 with
      | (c1, .ok bs) => (c1.setS f.sd (BitVec.ofNat 64 (natLE bs)), .ok {})
      | (c1, .wait x) => (c1, .wait x)
      | (c1, .fault k d) => (c1, .fault k d))

def stBody (now : Stamp) (w : W64) (f : ScalarF) : Core → Core × Out Eff :=
  scalarBody w f true [f.sa, f.sb] [] (fun c =>
    match ldFault (ldAddr c f) with
    | some (k, d) => (c, .fault k d)
    | none =>
      match c.writeBytes .scalar now (ldAddr c f) (bytesLE (c.S f.sb).toNat 8) with
      | (c1, .ok _) => (c1, .ok {})
      | (c1, .wait x) => (c1, .wait x)
      | (c1, .fault k d) => (c1, .fault k d))

/-- The special values of SRD (Table 3.6). -/
def srdValue (s : State) (k : Nat) (c : Core) (code : Nat) : W64 :=
  match code with
  | 0 => s.tg.tick.setWidth 64
  | 1 => BitVec.ofNat 64 s.tg.ofs
  | 2 => s.tg.cyc
  | 3 => BitVec.ofNat 64 (c.logical.getD 0)
  | 4 => match s.partOfSite k with | some p => (s.part p).step | none => 0
  | 5 => BitVec.ofNat 64 c.seq.entry
  | _ => BitVec.ofNat 64 c.seq.rep

def srdBody (s : State) (k : Nat) (w : W64) (f : ScalarF) : Core → Core × Out Eff :=
  scalarBody w f (f.imm.toNat % 16 ≤ 6) [] [f.sd] (fun c => (c.setS f.sd (srdValue s k c (f.imm.toNat % 16)), .ok {}))

/-- CTLW: COR_ADP_BASE keeps bits [22:4], COR_ADP_LEN takes values above 1,024 as 1,024 (R102, R115). -/
def ctlwBody (w : W64) (f : ScalarF) : Core → Core × Out Eff :=
  scalarBody w f (f.imm.toNat % 16 ≤ 1) [f.sa] [] (fun c =>
    if f.imm.toNat % 16 = 0 then ({ c with adpBase := (c.S f.sa).toNat / 16 % 0x80000 * 16 }, .ok {})
    else ({ c with adpLen := min (c.S f.sa).toNat 1024 }, .ok {}))

/-- COND of BR (Table 3.6). -/
def condHolds (cond : Nat) (a : W64) : Bool :=
  match cond with
  | 0 => true
  | 1 => a == 0
  | 2 => a != 0
  | 3 => a.msb
  | _ => !a.msb

/-- BR (R96). -/
def brBody (w : W64) (f : BranchF) (c : Core) : Core × Out Eff :=
  if f.rsv ≠ 0 || 4 < f.cond.toNat then (c, .fault 0x01 (hiWord w))
  else if c.depends [f.sa.toNat] then (c, .wait none)
  else if condHolds f.cond.toNat (c.S f.sa) then
    let t := (c.seq.pc : Int) + f.ofs.toInt
    if t < 0 || 16383 < t then (c, .fault 0x01 (hiWord w)) else (c, .ok { jump := some t.toNat })
  else (c, .ok {})

/-- LOOP (R96): a count of 0 skips the body; levels open in the order 0, 1, 2, 3. -/
def loopBody (w : W64) (f : BranchF) (c : Core) : Core × Out Eff :=
  if f.rsv ≠ 0 || f.ofs.toInt < 1 || 16383 < (c.seq.pc : Int) + f.ofs.toInt then (c, .fault 0x01 (hiWord w))
  else if c.depends [f.sa.toNat] then (c, .wait none)
  else if f.level.toNat ≠ c.seq.loops.length then (c, .fault 0x21 f.level.toNat)
  else
    let stop := c.seq.pc + f.ofs.toNat
    let n := (c.S f.sa).toNat % 2 ^ 32
    if n = 0 then ({ c with seq := { c.seq with pc := stop } }, .ok {})
    else ({ c with seq := { c.seq with pc := c.seq.pc, loops := { level := f.level.toNat, start := c.seq.pc + 1, stop := stop, left := n } :: c.seq.loops } }, .ok {})

def execAdd (k : Site) (f : ScalarF) (s : State) : Host.Outcome State Fault Refusal :=
  .next (s.issue k (encScalar 0x00 f) (aluBody (· + ·) (encScalar 0x00 f) f))
def execSub (k : Site) (f : ScalarF) (s : State) : Host.Outcome State Fault Refusal :=
  .next (s.issue k (encScalar 0x01 f) (aluBody (· - ·) (encScalar 0x01 f) f))
def execAnd (k : Site) (f : ScalarF) (s : State) : Host.Outcome State Fault Refusal :=
  .next (s.issue k (encScalar 0x02 f) (aluBody (· &&& ·) (encScalar 0x02 f) f))
def execOr (k : Site) (f : ScalarF) (s : State) : Host.Outcome State Fault Refusal :=
  .next (s.issue k (encScalar 0x03 f) (aluBody (· ||| ·) (encScalar 0x03 f) f))
def execXor (k : Site) (f : ScalarF) (s : State) : Host.Outcome State Fault Refusal :=
  .next (s.issue k (encScalar 0x04 f) (aluBody (· ^^^ ·) (encScalar 0x04 f) f))
def execShl (k : Site) (f : ScalarF) (s : State) : Host.Outcome State Fault Refusal :=
  .next (s.issue k (encScalar 0x05 f) (aluBody (fun a b => a <<< shiftCount b) (encScalar 0x05 f) f))
def execShr (k : Site) (f : ScalarF) (s : State) : Host.Outcome State Fault Refusal :=
  .next (s.issue k (encScalar 0x06 f) (aluBody (fun a b => a >>> shiftCount b) (encScalar 0x06 f) f))
def execSar (k : Site) (f : ScalarF) (s : State) : Host.Outcome State Fault Refusal :=
  .next (s.issue k (encScalar 0x07 f) (aluBody (fun a b => a.sshiftRight (shiftCount b)) (encScalar 0x07 f) f))
def execMul (k : Site) (f : ScalarF) (s : State) : Host.Outcome State Fault Refusal :=
  .next (s.issue k (encScalar 0x08 f) (aluBody (· * ·) (encScalar 0x08 f) f))
def execSlt (k : Site) (f : ScalarF) (s : State) : Host.Outcome State Fault Refusal :=
  .next (s.issue k (encScalar 0x09 f) (aluBody (fun a b => if a.slt b then 1 else 0) (encScalar 0x09 f) f))
def execSltu (k : Site) (f : ScalarF) (s : State) : Host.Outcome State Fault Refusal :=
  .next (s.issue k (encScalar 0x0A f) (aluBody (fun a b => if a.ult b then 1 else 0) (encScalar 0x0A f) f))
def execLdi (k : Site) (f : ScalarF) (s : State) : Host.Outcome State Fault Refusal :=
  .next (s.issue k (encScalar 0x10 f) (scalarBody (encScalar 0x10 f) f true [] [f.sd] (fun c => (c.setS f.sd (f.imm.signExtend 64), .ok {}))))
def execLdih (k : Site) (f : ScalarF) (s : State) : Host.Outcome State Fault Refusal :=
  .next (s.issue k (encScalar 0x11 f) (scalarBody (encScalar 0x11 f) f true [] [f.sd] (fun c =>
    (c.setS f.sd (BitVec.ofNat 64 (f.imm.toNat * 2 ^ 32 + (c.S f.sd).toNat % 2 ^ 32)), .ok {}))))
def execAddi (k : Site) (f : ScalarF) (s : State) : Host.Outcome State Fault Refusal :=
  .next (s.issue k (encScalar 0x12 f) (scalarBody (encScalar 0x12 f) f true [f.sa] [f.sd] (fun c =>
    (c.setS f.sd (c.S f.sa + f.imm.signExtend 64), .ok {}))))
def execLd (k : Site) (f : ScalarF) (s : State) : Host.Outcome State Fault Refusal :=
  .next (s.issue k (encScalar 0x20 f) (ldBody s.coreNow (encScalar 0x20 f) f))
def execSt (k : Site) (f : ScalarF) (s : State) : Host.Outcome State Fault Refusal :=
  .next (s.issue k (encScalar 0x21 f) (stBody s.coreNow (encScalar 0x21 f) f))
def execSrd (k : Site) (f : ScalarF) (s : State) : Host.Outcome State Fault Refusal :=
  .next (s.issue k (encScalar 0x30 f) (srdBody s k (encScalar 0x30 f) f))
def execCtlw (k : Site) (f : ScalarF) (s : State) : Host.Outcome State Fault Refusal :=
  .next (s.issue k (encScalar 0x31 f) (ctlwBody (encScalar 0x31 f) f))
def execBr (k : Site) (f : BranchF) (s : State) : Host.Outcome State Fault Refusal :=
  .next (s.issue k (encBranch 0x00 f) (brBody (encBranch 0x00 f) f))
def execLoop (k : Site) (f : BranchF) (s : State) : Host.Outcome State Fault Refusal :=
  .next (s.issue k (encBranch 0x01 f) (loopBody (encBranch 0x01 f) f))

end Sys2Proof.Machine
end

