-- ==== Sys2Proof/Machine/Security.lean ====
section
/-! DEFINITION. The life cycle (R406 to R409), firmware updates (R413), attestation (R414, R415), alarms (R416, R418,
R419) and the debug port (R417). -/

namespace Sys2Proof.Machine

open Sys2Proof

def stFwSignature : W16 := 0x0800#16
def stFwRollback : W16 := 0x0801#16
def stFwNotStaged : W16 := 0x0802#16
def stLcTransition : W16 := 0x0803#16
def stLcAuth : W16 := 0x0804#16
def stLcExhausted : W16 := 0x0805#16
def stAttestUnavailable : W16 := 0x0806#16

/-! ## Life cycle -/

/-- LIFECYCLE action 0 (R407): a fresh nonce of 48 bytes. -/
def State.lifecycleNonce (s : State) (f : Fetched) (rsv : Nat) : State :=
  let t : State := { s with fw := { s.fw with nonce := none } }
  if (List.range 16).any (fun p => (s.part p).started) then t.done f stPartRunning
  else if rsv ≠ 0 || !f.pkt.noPart then t.done f stBadParam
  else
    let n := Config.freeBytes s.freeCtr % 2 ^ 384
    { t with freeCtr := t.freeCtr + 1, fw := { t.fw with nonce := some n } }.finishData f stOk (bytesBE n 48)

/-- The message that authorises a transition (R407): module ID, target code, nonce. -/
def lcMessage (module_ : W64) (target nonce : Nat) : Nat := sha384 (bytesLE module_.toNat 8 ++ bytesLE target 1 ++ bytesBE nonce 48)

/-- How Table 13.2 authorises a transition. -/
inductive LcAuth where
  | none
  | mfg
  | owner
  | newOwner
  | refused
  deriving DecidableEq, Repr

def lcAuth (from_ to_ : Nat) : LcAuth :=
  match from_, to_ with
  | 0, 1 => .mfg
  | 1, 2 => .newOwner
  | 2, 3 => .owner
  | 3, 1 => .mfg
  | 1, 4 => .none
  | 3, 4 => .none
  | 2, 4 => .owner
  | _, _ => .refused

/-- A signature over `e` by the key (x, y), whose hash is the one that OTP holds. -/
def signedBy (hash e x y r s : Nat) : Bool := decide (keyHash x y = hash) && ecdsaOk e x y r s

/-- The checks of R406 and R407 on a transition; (mx, my) is the public key that the signature is judged under. -/
def State.lcStatus (s : State) (target x y r sg mx my : Nat) : W16 :=
  let auth := lcAuth s.lifeCycle target
  let signed := fun (h : Nat) => match s.fw.nonce with | some n => signedBy h (lcMessage s.sec.ident.moduleId target n) mx my r sg | none => false
  firstBad [
    ((List.range 16).any (fun p => (s.part p).started), stPartRunning),
    (decide (16 ≤ s.sec.otp.length), stLcExhausted),
    (auth = .refused, stLcTransition),
    (auth = .newOwner && !onCurve x y, stBadParam),
    (auth ≠ .newOwner && (x ≠ 0 || y ≠ 0), stBadParam),
    (auth = .mfg && !signed s.sec.ident.mfgKey, stLcAuth),
    (auth = .owner && !signed s.sec.ownerKey, stLcAuth)]

/-- The partner reserve of every stack is written with zeros (R408). -/
def State.eraseReserve (s : State) : State :=
  { s with
    fields := Tab.mapV {} s.fields (fun _ f => { f with
      hbm := f.hbm.filter (fun b => decide (b.1 < belowReserve s.fab.reserve)), hbmBad := f.hbmBad.filter (fun u => decide (64 * u < belowReserve s.fab.reserve)) })
    fab := { s.fab with slots := [] } }

/-- LIFECYCLE action 1 (R407, R408): an accepted transition destroys every partition and starts the erasure. -/
def State.lifecycleTransition (s : State) (f : Fetched) (rsv target x y r sg mx my : Nat) : State :=
  let t : State := { s with fw := { s.fw with nonce := none } }
  if rsv ≠ 0 || !f.pkt.noPart then t.done f stBadParam
  else if s.lcStatus target x y r sg mx my ≠ stOk then t.done f (s.lcStatus target x y r sg mx my)
  else
    let u := ((List.range 16).filter (fun p => (t.part p).on)).foldl State.destroy t
    { u with sec := { u.sec with lcTarget := some (target, if target = 2 then keyHash x y else u.sec.ownerKey) } }.fly f (.lifecycle target)

/-- LIFECYCLE_ERASE_DONE (R408, R409): the reserve is erased, the media key replaced when the module leaves OWNED, the
identity key erased or generated, and the OTP entry programmed. A SCRAPPED module has no terrace lit (Table 13.1). -/
def State.lifecycleDone (s : State) : State :=
  match s.sec.lcTarget with
  | none => s
  | some (target, owner) =>
    let from_ := s.lifeCycle
    let t := s.eraseReserve
    let t := if from_ = 2 then { t with sec := { t.sec with mediaKey := t.sec.mediaKey + 1 }, fw := { t.fw with log := [] }, fab := { t.fab with shelf := {} } } else t
    let t := if target = 4 then t.darkenAll else t
    let draw := t.freeCtr
    let sec := { t.sec with
      lcTarget := none
      ownerKey := owner
      otp := t.sec.otp ++ [(target, true)]
      idKey := if target = 4 then false else t.sec.idKey || target = 1
      idErased := if target = 4 then true else if target = 1 then false else t.sec.idErased
      keyDraw := if target = 1 then some draw else t.sec.keyDraw }
    { t with sec := sec, freeCtr := draw + 1 }.endLong (fun k => k = LongKind.lifecycle target) stOk 0 0

/-! ## Firmware updates -/

/-- The slot that the active core does not run. -/
def Sec.setSlot (c : Sec) (b : Bool) (x : FwSlot) : Sec := if b then { c with slotB := x } else { c with slotA := x }

/-- An image into the slot that is not active (R413): it verifies, and the standby core restarts into it. -/
def State.stage (s : State) (f : Fetched) (i : FwImage) (revert whole : Bool) : State :=
  let b := !s.sec.activeB
  let bad := s.sec.setSlot b (i.slot false)
  if !whole || !s.imageSigned i then { s with sec := { bad with standbyStaged := false } }.done f stFwSignature
  else if i.svn < s.sec.minSvn then { s with sec := { bad with standbyStaged := false } }.done f stFwRollback
  else { s with sec := { bad with standbyStaged := false } }.fly f (.fwStage b revert)

/-- FW_UPDATE STAGE and REVERT; agent 2 gets PORT_UNSUITED. REVERT takes the image that is in the other slot. `whole` says
that header, body and trailer were read. -/
def State.fwStage (s : State) (f : Fetched) (i : FwImage) (revert whole : Bool) : State :=
  if f.pkt.agent.val = 2 then s.done f stPortUnsuited
  else if !f.pkt.noPart then s.done f stBadParam
  else s.stage f i revert whole

/-- The standby becomes active, and the former active core restarts into the new image (R413), which ends recovery mode (R411). -/
def State.switchCores (s : State) : State :=
  { s with sec := { s.sec with
      active := s.sec.standby, standby := s.sec.active, activeB := s.sec.standbyB, standbyB := s.sec.standbyB, standbyStaged := false, recovery := false } }

/-- FW_UPDATE SWITCH. -/
def State.fwSwitch (s : State) (f : Fetched) : State :=
  if f.pkt.agent.val = 2 then s.done f stPortUnsuited
  else if !f.pkt.noPart then s.done f stBadParam
  else if !s.fw.flight.isEmpty then s.done f stBusy
  else if !s.sec.standbyStaged || s.sec.noStandby then s.done f stFwNotStaged
  else s.switchCores.done f stOk

/-- FW_UPDATE COMMIT_SVN. -/
def State.fwCommit (s : State) (f : Fetched) : State :=
  if f.pkt.agent.val = 2 then s.done f stPortUnsuited
  else if !f.pkt.noPart then s.done f stBadParam
  else { s with sec := { s.sec with minSvn := max s.sec.minSvn s.sec.activeImage.svn } }.done f stOk

/-- STANDBY_REPLAY_DONE (R413): the slot is valid and the standby runs its image; a REVERT switches as well. The image is
the one that the slot holds. -/
def State.replayedStandby (s : State) : State :=
  match s.long? (fun k => match k with | .fwStage _ _ => true | _ => false) with
  | none => s
  | some l =>
    match l.kind with
    | .fwStage b revert =>
      if s.sec.erasePending then s
      else
        let c := s.sec.setSlot b { s.sec.slotOf b with ok := true }
        let t := { s with sec := { c with standbyB := b, standbyStaged := true } }
        (if revert then t.switchCores else t).endLong (fun k => k = l.kind) stOk 0 0
    | _ => s

/-! ## SPDM (R414, R415) -/

/-- Request and response codes of SPDM 1.2, the standard that R414 names. -/
def spdmError : Nat := 0x7F

/-- The measurement blocks of Table 13.6, an absent item as 0. -/
def State.measurements (s : State) : List Nat :=
  [Config.romHash, s.sec.activeImage.sha, if s.sec.noStandby then 0 else s.sec.standbyImage.sha, Config.trimHash s.rck.copy,
    sha384 (bytesLE s.lifeCycle 1 ++ bytesBE s.sec.ownerKey 48)] ++
    (List.range 16).map (fun p => ((s.part p).plan.map Plan.hash).getD 0) ++ [sha384 (bytesLE s.sec.cfg.toNat 4 ++ bytesLE (bit s.sec.debugOpen 0) 1)]

/-- The stage of an agent's SPDM connection: 0 none, 1 version, 2 capabilities, 3 algorithms. -/
def State.spdmAt (s : State) (a : Nat) : Nat := s.sec.spdm.toList.getD a 0
def State.setSpdm (s : State) (a n : Nat) : State := { s with sec := { s.sec with spdm := vset s.sec.spdm a n } }

/-- Whether the module can sign. -/
def State.canSign (s : State) : Bool := s.sec.idKey && !s.sec.idErased

/-- The response to a request of an agent: the connection's new stage, the response code and its content. A request out of its
order, of another slot, or of no support gets an error; a signed response draws its signature. -/
def State.spdmAnswer (s : State) (a code slot : Nat) : State × Nat × List Nat :=
  let at_ := s.spdmAt a
  match code with
  | 0x84 => (s.setSpdm a 1, 0x04, [0x12])
  | 0xE1 => if at_ = 0 then (s, spdmError, [4]) else (s.setSpdm a 2, 0x61, [])
  | 0xE3 => if at_ < 2 then (s, spdmError, [4]) else (s.setSpdm a 3, 0x63, [])
  | 0x81 => if at_ < 3 then (s, spdmError, [4]) else (s, 0x01, [sha384 (bytesBE Config.certChain 4096)])
  | 0x82 => if at_ < 3 then (s, spdmError, [4]) else if slot ≠ 0 then (s, spdmError, [1]) else (s, 0x02, [Config.certChain])
  | 0x83 =>
    if at_ < 3 then (s, spdmError, [4])
    else if slot ≠ 0 then (s, spdmError, [1])
    else if !s.canSign then (s, spdmError, [5])
    else ({ s with freeCtr := s.freeCtr + 1 }, 0x03, [Config.freeBytes s.freeCtr])
  | 0xE0 =>
    if at_ < 3 then (s, spdmError, [4])
    else if !s.canSign then (s, spdmError, [5])
    else ({ s with freeCtr := s.freeCtr + 1 }, 0x60, s.measurements ++ [Config.freeBytes s.freeCtr])
  | _ => (s, spdmError, [7])

/-- A request over MCTP (agent 2) or as a host's SPDM message; before READY no SPDM is answered (R404). -/
def State.spdmRequest (s : State) (a code slot : Nat) : State :=
  if !s.rck.ready then s
  else
    let r := s.spdmAnswer a code slot
    r.1.emit [.spdm a r.2.1 r.2.2]

/-- ATTEST (R414): the response goes to the data buffer. Its length is that of the SPDM message, which the manual leaves to
the standard. -/
def State.attest (s : State) (f : Fetched) (code slot : Nat) : State :=
  let a := f.pkt.agent.val
  if !f.pkt.noPart then s.done f stBadParam
  else if (code = 0x83 || code = 0xE0) && !s.canSign then s.done f stAttestUnavailable
  else
    let r := s.spdmAnswer a code slot
    let len := (Config.freeValue r.1.freeCtr).toNat % 2 ^ 16
    let t := { r.1 with freeCtr := r.1.freeCtr + 1 }.emit [.spdm a r.2.1 r.2.2]
    t.finish f stOk (if f.pkt.dlen.toNat < len then BitVec.ofNat 64 len else 0) (dataLenOf f.pkt len)

/-! ## Alarms -/

/-- The alarm record (R71, R419): of alarms sampled in one cycle it keeps the lowest source code and the highest level. -/
def State.noteAlarm (s : State) (source level : Nat) : FirstRec AlarmBody :=
  let r := s.sec.record
  if r.valid && r.body.at_ = s.now then { r with more := true, body := { r.body with source := min source r.body.source, level := max level r.body.level } }
  else r.note AlarmBody.lower s.now { level := level, source := source, at_ := s.now }

/-- An alarm of a source acts at its level (R418). At level 3 the identity key goes first and a FW_UPDATE STAGE ends with its
slot invalid. -/
def State.raise (s : State) (source : Nat) : State :=
  let level := s.sec.levelOf source
  if s.rck.held.isSome then s
  else
    let t := { s with sec := { s.sec with src := s.sec.src ||| BitVec.ofNat 4 (2 ^ (source - 1)), record := s.noteAlarm source level } }.emit [.pldm 2 0 [source, level]]
    let t := if level < 3 then t else { t with sec := { t.sec with erasePending := true, idKey := false, idErased := t.sec.idErased || t.sec.idKey } }
    if level < 2 then t
    else
      let on := (List.range 16).filter (fun p => (t.part p).started)
      let u := (t.darkenAll).report (on.map (fun p => { part := p, what := .alarm }))
      { u with sec := { u.sec with halt := true } }

/-- ALARM_L3_ERASE_DONE (R418, R419): the reserve is erased, ERASE_PENDING clears, and the ALARM_L3 reset follows. -/
def State.eraseDone (s : State) : State :=
  if !s.sec.erasePending || s.rck.held.isSome then s
  else { s.eraseReserve with sec := { s.sec with erasePending := false } }.resetAtOnce 4 true

/-! ## The debug port -/

/-- DEBUG_TOKEN (R417): signed over the module ID and the nonce. -/
def State.debugToken (s : State) (x y r sg : Nat) : State :=
  match s.fw.nonce with
  | none => s
  | some n =>
    let e := sha384 (bytesLE s.sec.ident.moduleId.toNat 8 ++ bytesBE n 48)
    let h := if s.lifeCycle = 2 then s.sec.ownerKey else s.sec.ident.mfgKey
    if signedBy h e x y r sg then { s with sec := { s.sec with debugOpen := true }, fw := { s.fw with nonce := none } } else s

def execFwUpdateStage (k : Pkt) (_ : W64) (len : W32) (i : FwImage) (s : State) : Host.Outcome State Fault Refusal :=
  .next (s.command k 0x0801#16 true .module_ (fun t f => t.fwStage f i false (decide (384 + i.bodyLen ≤ len.toNat))))
def execFwUpdateSwitch (k : Pkt) (s : State) : Host.Outcome State Fault Refusal := .next (s.command k 0x0801#16 true .module_ (fun t f => t.fwSwitch f))
def execFwUpdateRevert (k : Pkt) (i : FwImage) (s : State) : Host.Outcome State Fault Refusal :=
  .next (s.command k 0x0801#16 true .module_ (fun t f => t.fwStage f i true true))
def execFwUpdateCommitSvn (k : Pkt) (s : State) : Host.Outcome State Fault Refusal := .next (s.command k 0x0801#16 true .module_ (fun t f => t.fwCommit f))
def execStandbyReplayDone (s : State) : Host.Outcome State Fault Refusal := .next s.replayedStandby
def execAttest (k : Pkt) (code : Byte) (slot : Nat) (s : State) : Host.Outcome State Fault Refusal :=
  .next (s.command k 0x0802#16 false .none (fun t f => t.attest f code.toNat slot))
def execLifecycleNonce (k : Pkt) (rsv : Nat) (s : State) : Host.Outcome State Fault Refusal := .next (s.command k 0x0803#16 true .module_ (fun t f => t.lifecycleNonce f rsv))
def execLifecycleTransition (k : Pkt) (rsv : Nat) (target : Byte) (x y r sg mx my : Nat) (s : State) : Host.Outcome State Fault Refusal :=
  .next (s.command k 0x0803#16 true .module_ (fun t f => t.lifecycleTransition f rsv target.toNat x y r sg mx my))
def execLifecycleEraseDone (s : State) : Host.Outcome State Fault Refusal := .next s.lifecycleDone
def execGetVersion (a : Fin 3) (s : State) : Host.Outcome State Fault Refusal := .next (s.spdmRequest a 0x84 0)
def execGetCapabilities (a : Fin 3) (s : State) : Host.Outcome State Fault Refusal := .next (s.spdmRequest a 0xE1 0)
def execNegotiateAlgorithms (a : Fin 3) (s : State) : Host.Outcome State Fault Refusal := .next (s.spdmRequest a 0xE3 0)
def execGetDigests (a : Fin 3) (s : State) : Host.Outcome State Fault Refusal := .next (s.spdmRequest a 0x81 0)
def execGetCertificate (a : Fin 3) (slot : Nat) (s : State) : Host.Outcome State Fault Refusal := .next (s.spdmRequest a 0x82 slot)
def execChallenge (a : Fin 3) (slot : Nat) (s : State) : Host.Outcome State Fault Refusal := .next (s.spdmRequest a 0x83 slot)
def execGetMeasurements (a : Fin 3) (s : State) : Host.Outcome State Fault Refusal := .next (s.spdmRequest a 0xE0 0)

/-- TAMPER (R416): the loop is armed in OWNED only. -/
def execTamper (s : State) : Host.Outcome State Fault Refusal := .next (if s.lifeCycle = 2 then s.raise 1 else s)
def execVglitch (s : State) : Host.Outcome State Fault Refusal := .next (s.raise 2)
def execCglitch (s : State) : Host.Outcome State Fault Refusal := .next (s.raise 3)

/-- DEBUG (R416): an access to the closed debug port. -/
def execDebugAccess (s : State) : Host.Outcome State Fault Refusal := .next (if s.sec.debugOpen then s else s.raise 4)
def execAlarmL3EraseDone (s : State) : Host.Outcome State Fault Refusal := .next s.eraseDone
def execDebugToken (x y r sg : Nat) (s : State) : Host.Outcome State Fault Refusal := .next (s.debugToken x y r sg)

end Sys2Proof.Machine
end

