-- ==== Sys2Proof/Machine/Vector.lean ====
section
/-! DEFINITION. The vector instructions (Table 3.5): what the sequencer judges at issue, and the queue they join (R76). -/

namespace Sys2Proof.Machine

open Sys2Proof

/-- What every vector instruction does first, in fault-kind order (R85): ILLEGAL_INSN, BAD_FORMAT, REG_BUSY. The engine
takes it at once where its queue is empty and nothing it needs is missing; else it joins the queue, 8 deep (R76), and a
full queue stops the sequencer. -/
def vecBody (w : W64) (f : VecF) (o : VecOp) (c : Core) : Core × Out Eff :=
  if f.rsv ≠ 0 || 2 ≤ f.rnd.toNat || (f.rnd = 1 && !o.sr) || !o.legal then (c, .fault 0x01 (hiWord w))
  else if o.fmtBad then (c, .fault 0x03 f.fmt.toNat)
  else match c.regBusy (o.vs.map BitVec.toNat) with
    | some r => (c, .fault 0x04 r)
    | none =>
      if c.vq.isEmpty then
        match c.tryVec o with
        | (c1, .wait x) => ({ c1 with vq := [{ pc := c.seq.pc, word := w, why := x }] }, .ok {})
        | r => r
      else if c.vq.length < 8 then ({ c with vq := c.vq ++ [{ pc := c.seq.pc, word := w }] }, .ok {})
      else (c, .wait (some queueFull))

def execVadd (k : Site) (f : VecF) (s : State) : Host.Outcome State Fault Refusal :=
  .next (s.issue k (encVec 2 0x00 f) (vecBody (encVec 2 0x00 f) f (vaddOp f)))
def execVsub (k : Site) (f : VecF) (s : State) : Host.Outcome State Fault Refusal :=
  .next (s.issue k (encVec 2 0x01 f) (vecBody (encVec 2 0x01 f) f (vsubOp f)))
def execVadds (k : Site) (f : VecF) (s : State) : Host.Outcome State Fault Refusal :=
  .next (s.issue k (encVec 2 0x02 f) (vecBody (encVec 2 0x02 f) f (vaddsOp f)))
def execVsubs (k : Site) (f : VecF) (s : State) : Host.Outcome State Fault Refusal :=
  .next (s.issue k (encVec 2 0x03 f) (vecBody (encVec 2 0x03 f) f (vsubsOp f)))
def execVaddu (k : Site) (f : VecF) (s : State) : Host.Outcome State Fault Refusal :=
  .next (s.issue k (encVec 2 0x04 f) (vecBody (encVec 2 0x04 f) f (vadduOp f)))
def execVsubu (k : Site) (f : VecF) (s : State) : Host.Outcome State Fault Refusal :=
  .next (s.issue k (encVec 2 0x05 f) (vecBody (encVec 2 0x05 f) f (vsubuOp f)))
def execVand (k : Site) (f : VecF) (s : State) : Host.Outcome State Fault Refusal :=
  .next (s.issue k (encVec 2 0x08 f) (vecBody (encVec 2 0x08 f) f (vandOp f)))
def execVor (k : Site) (f : VecF) (s : State) : Host.Outcome State Fault Refusal :=
  .next (s.issue k (encVec 2 0x09 f) (vecBody (encVec 2 0x09 f) f (vorOp f)))
def execVxor (k : Site) (f : VecF) (s : State) : Host.Outcome State Fault Refusal :=
  .next (s.issue k (encVec 2 0x0A f) (vecBody (encVec 2 0x0A f) f (vxorOp f)))
def execVandn (k : Site) (f : VecF) (s : State) : Host.Outcome State Fault Refusal :=
  .next (s.issue k (encVec 2 0x0B f) (vecBody (encVec 2 0x0B f) f (vandnOp f)))
def execVshl (k : Site) (f : VecF) (s : State) : Host.Outcome State Fault Refusal :=
  .next (s.issue k (encVec 2 0x10 f) (vecBody (encVec 2 0x10 f) f (vshlOp f)))
def execVshr (k : Site) (f : VecF) (s : State) : Host.Outcome State Fault Refusal :=
  .next (s.issue k (encVec 2 0x11 f) (vecBody (encVec 2 0x11 f) f (vshrOp f)))
def execVsar (k : Site) (f : VecF) (s : State) : Host.Outcome State Fault Refusal :=
  .next (s.issue k (encVec 2 0x12 f) (vecBody (encVec 2 0x12 f) f (vsarOp f)))
def execVshli (k : Site) (f : VecF) (s : State) : Host.Outcome State Fault Refusal :=
  .next (s.issue k (encVec 2 0x14 f) (vecBody (encVec 2 0x14 f) f (vshliOp f)))
def execVshri (k : Site) (f : VecF) (s : State) : Host.Outcome State Fault Refusal :=
  .next (s.issue k (encVec 2 0x15 f) (vecBody (encVec 2 0x15 f) f (vshriOp f)))
def execVsari (k : Site) (f : VecF) (s : State) : Host.Outcome State Fault Refusal :=
  .next (s.issue k (encVec 2 0x16 f) (vecBody (encVec 2 0x16 f) f (vsariOp f)))
def execVcmpeq (k : Site) (f : VecF) (s : State) : Host.Outcome State Fault Refusal :=
  .next (s.issue k (encVec 2 0x18 f) (vecBody (encVec 2 0x18 f) f (vcmpeqOp f)))
def execVcmplt (k : Site) (f : VecF) (s : State) : Host.Outcome State Fault Refusal :=
  .next (s.issue k (encVec 2 0x19 f) (vecBody (encVec 2 0x19 f) f (vcmpltOp f)))
def execVcmpltu (k : Site) (f : VecF) (s : State) : Host.Outcome State Fault Refusal :=
  .next (s.issue k (encVec 2 0x1A f) (vecBody (encVec 2 0x1A f) f (vcmpltuOp f)))
def execVsel (k : Site) (f : VecF) (s : State) : Host.Outcome State Fault Refusal :=
  .next (s.issue k (encVec 2 0x20 f) (vecBody (encVec 2 0x20 f) f (vselOp f)))
def execVmov (k : Site) (f : VecF) (s : State) : Host.Outcome State Fault Refusal :=
  .next (s.issue k (encVec 2 0x21 f) (vecBody (encVec 2 0x21 f) f (vmovOp f)))
def execVbcast (k : Site) (f : VecF) (s : State) : Host.Outcome State Fault Refusal :=
  .next (s.issue k (encVec 2 0x22 f) (vecBody (encVec 2 0x22 f) f (vbcastOp f)))
def execVld (k : Site) (f : VecF) (s : State) : Host.Outcome State Fault Refusal :=
  .next (s.issue k (encVec 2 0x30 f) (vecBody (encVec 2 0x30 f) f (vldOp s.coreNow f)))
def execVst (k : Site) (f : VecF) (s : State) : Host.Outcome State Fault Refusal :=
  .next (s.issue k (encVec 2 0x31 f) (vecBody (encVec 2 0x31 f) f (vstOp s.coreNow f)))
def execFadd (k : Site) (f : VecF) (s : State) : Host.Outcome State Fault Refusal :=
  .next (s.issue k (encVec 3 0x00 f) (vecBody (encVec 3 0x00 f) f (faddOp f)))
def execFsub (k : Site) (f : VecF) (s : State) : Host.Outcome State Fault Refusal :=
  .next (s.issue k (encVec 3 0x01 f) (vecBody (encVec 3 0x01 f) f (fsubOp f)))
def execFmul (k : Site) (f : VecF) (s : State) : Host.Outcome State Fault Refusal :=
  .next (s.issue k (encVec 3 0x02 f) (vecBody (encVec 3 0x02 f) f (fmulOp f)))
def execFfma (k : Site) (f : VecF) (s : State) : Host.Outcome State Fault Refusal :=
  .next (s.issue k (encVec 3 0x03 f) (vecBody (encVec 3 0x03 f) f (ffmaOp f)))
def execFmax (k : Site) (f : VecF) (s : State) : Host.Outcome State Fault Refusal :=
  .next (s.issue k (encVec 3 0x04 f) (vecBody (encVec 3 0x04 f) f (fmaxOp f)))
def execFmin (k : Site) (f : VecF) (s : State) : Host.Outcome State Fault Refusal :=
  .next (s.issue k (encVec 3 0x05 f) (vecBody (encVec 3 0x05 f) f (fminOp f)))
def execFcmpeq (k : Site) (f : VecF) (s : State) : Host.Outcome State Fault Refusal :=
  .next (s.issue k (encVec 3 0x08 f) (vecBody (encVec 3 0x08 f) f (fcmpeqOp f)))
def execFcmplt (k : Site) (f : VecF) (s : State) : Host.Outcome State Fault Refusal :=
  .next (s.issue k (encVec 3 0x09 f) (vecBody (encVec 3 0x09 f) f (fcmpltOp f)))
def execFcmple (k : Site) (f : VecF) (s : State) : Host.Outcome State Fault Refusal :=
  .next (s.issue k (encVec 3 0x0A f) (vecBody (encVec 3 0x0A f) f (fcmpleOp f)))
def execFcmpun (k : Site) (f : VecF) (s : State) : Host.Outcome State Fault Refusal :=
  .next (s.issue k (encVec 3 0x0B f) (vecBody (encVec 3 0x0B f) f (fcmpunOp f)))
def execVexp2 (k : Site) (f : VecF) (s : State) : Host.Outcome State Fault Refusal :=
  .next (s.issue k (encVec 4 0x00 f) (vecBody (encVec 4 0x00 f) f (vexp2Op f)))
def execVrsqrt (k : Site) (f : VecF) (s : State) : Host.Outcome State Fault Refusal :=
  .next (s.issue k (encVec 4 0x01 f) (vecBody (encVec 4 0x01 f) f (vrsqrtOp f)))
def execVcvtTomx (k : Site) (f : VecF) (s : State) : Host.Outcome State Fault Refusal :=
  .next (s.issue k (encVec 4 0x08 f) (vecBody (encVec 4 0x08 f) f (vcvtTomxOp f)))
def execVcvtFrommx (k : Site) (f : VecF) (s : State) : Host.Outcome State Fault Refusal :=
  .next (s.issue k (encVec 4 0x09 f) (vecBody (encVec 4 0x09 f) f (vcvtFrommxOp f)))
def execVcvtTobf16 (k : Site) (f : VecF) (s : State) : Host.Outcome State Fault Refusal :=
  .next (s.issue k (encVec 4 0x0A f) (vecBody (encVec 4 0x0A f) f (vcvtTobf16Op f)))
def execVcvtFrombf16 (k : Site) (f : VecF) (s : State) : Host.Outcome State Fault Refusal :=
  .next (s.issue k (encVec 4 0x0B f) (vecBody (encVec 4 0x0B f) f (vcvtFrombf16Op f)))
def execVrsum (k : Site) (f : VecF) (s : State) : Host.Outcome State Fault Refusal :=
  .next (s.issue k (encVec 4 0x10 f) (vecBody (encVec 4 0x10 f) f (vrsumOp f)))
def execVrmax (k : Site) (f : VecF) (s : State) : Host.Outcome State Fault Refusal :=
  .next (s.issue k (encVec 4 0x11 f) (vecBody (encVec 4 0x11 f) f (vrmaxOp f)))
def execMsetn (k : Site) (f : VecF) (s : State) : Host.Outcome State Fault Refusal :=
  .next (s.issue k (encVec 4 0x20 f) (vecBody (encVec 4 0x20 f) f (msetnOp f)))
def execMand (k : Site) (f : VecF) (s : State) : Host.Outcome State Fault Refusal :=
  .next (s.issue k (encVec 4 0x21 f) (vecBody (encVec 4 0x21 f) f (mandOp f)))
def execMor (k : Site) (f : VecF) (s : State) : Host.Outcome State Fault Refusal :=
  .next (s.issue k (encVec 4 0x22 f) (vecBody (encVec 4 0x22 f) f (morOp f)))
def execMnot (k : Site) (f : VecF) (s : State) : Host.Outcome State Fault Refusal :=
  .next (s.issue k (encVec 4 0x23 f) (vecBody (encVec 4 0x23 f) f (mnotOp f)))
def execMcount (k : Site) (f : VecF) (s : State) : Host.Outcome State Fault Refusal :=
  .next (s.issue k (encVec 4 0x24 f) (vecBody (encVec 4 0x24 f) f (mcountOp f)))
def execVadn (k : Site) (f : VecF) (s : State) : Host.Outcome State Fault Refusal :=
  .next (s.issue k (encVec 5 0x00 f) (vecBody (encVec 5 0x00 f) f (vadnOp s.coreNow f)))
def execVaup (k : Site) (f : VecF) (s : State) : Host.Outcome State Fault Refusal :=
  .next (s.issue k (encVec 5 0x01 f) (vecBody (encVec 5 0x01 f) f (vaupOp s.coreNow f)))

end Sys2Proof.Machine
end

