-- ==== Sys2Proof/Machine/Dispatch.lean ====
section
/-! DEFINITION. The dispatch of commands to their meanings: one arm per constructor of Instr. -/

namespace Sys2Proof.Machine

open Sys2Proof

def exec (i : Instr) (s : State) : Host.Outcome State Fault Refusal :=
  match i with
  | .add site f => Sys2Proof.Machine.execAdd site f s
  | .sub site f => Sys2Proof.Machine.execSub site f s
  | .and site f => Sys2Proof.Machine.execAnd site f s
  | .or site f => Sys2Proof.Machine.execOr site f s
  | .xor site f => Sys2Proof.Machine.execXor site f s
  | .shl site f => Sys2Proof.Machine.execShl site f s
  | .shr site f => Sys2Proof.Machine.execShr site f s
  | .sar site f => Sys2Proof.Machine.execSar site f s
  | .mul site f => Sys2Proof.Machine.execMul site f s
  | .slt site f => Sys2Proof.Machine.execSlt site f s
  | .sltu site f => Sys2Proof.Machine.execSltu site f s
  | .ldi site f => Sys2Proof.Machine.execLdi site f s
  | .ldih site f => Sys2Proof.Machine.execLdih site f s
  | .addi site f => Sys2Proof.Machine.execAddi site f s
  | .ld site f => Sys2Proof.Machine.execLd site f s
  | .st site f => Sys2Proof.Machine.execSt site f s
  | .srd site f => Sys2Proof.Machine.execSrd site f s
  | .ctlw site f => Sys2Proof.Machine.execCtlw site f s
  | .br site f => Sys2Proof.Machine.execBr site f s
  | .loop site f => Sys2Proof.Machine.execLoop site f s
  | .vadd site f => Sys2Proof.Machine.execVadd site f s
  | .vsub site f => Sys2Proof.Machine.execVsub site f s
  | .vadds site f => Sys2Proof.Machine.execVadds site f s
  | .vsubs site f => Sys2Proof.Machine.execVsubs site f s
  | .vaddu site f => Sys2Proof.Machine.execVaddu site f s
  | .vsubu site f => Sys2Proof.Machine.execVsubu site f s
  | .vand site f => Sys2Proof.Machine.execVand site f s
  | .vor site f => Sys2Proof.Machine.execVor site f s
  | .vxor site f => Sys2Proof.Machine.execVxor site f s
  | .vandn site f => Sys2Proof.Machine.execVandn site f s
  | .vshl site f => Sys2Proof.Machine.execVshl site f s
  | .vshr site f => Sys2Proof.Machine.execVshr site f s
  | .vsar site f => Sys2Proof.Machine.execVsar site f s
  | .vshli site f => Sys2Proof.Machine.execVshli site f s
  | .vshri site f => Sys2Proof.Machine.execVshri site f s
  | .vsari site f => Sys2Proof.Machine.execVsari site f s
  | .vcmpeq site f => Sys2Proof.Machine.execVcmpeq site f s
  | .vcmplt site f => Sys2Proof.Machine.execVcmplt site f s
  | .vcmpltu site f => Sys2Proof.Machine.execVcmpltu site f s
  | .vsel site f => Sys2Proof.Machine.execVsel site f s
  | .vmov site f => Sys2Proof.Machine.execVmov site f s
  | .vbcast site f => Sys2Proof.Machine.execVbcast site f s
  | .vld site f => Sys2Proof.Machine.execVld site f s
  | .vst site f => Sys2Proof.Machine.execVst site f s
  | .fadd site f => Sys2Proof.Machine.execFadd site f s
  | .fsub site f => Sys2Proof.Machine.execFsub site f s
  | .fmul site f => Sys2Proof.Machine.execFmul site f s
  | .ffma site f => Sys2Proof.Machine.execFfma site f s
  | .fmax site f => Sys2Proof.Machine.execFmax site f s
  | .fmin site f => Sys2Proof.Machine.execFmin site f s
  | .fcmpeq site f => Sys2Proof.Machine.execFcmpeq site f s
  | .fcmplt site f => Sys2Proof.Machine.execFcmplt site f s
  | .fcmple site f => Sys2Proof.Machine.execFcmple site f s
  | .fcmpun site f => Sys2Proof.Machine.execFcmpun site f s
  | .vexp2 site f => Sys2Proof.Machine.execVexp2 site f s
  | .vrsqrt site f => Sys2Proof.Machine.execVrsqrt site f s
  | .vcvtTomx site f => Sys2Proof.Machine.execVcvtTomx site f s
  | .vcvtFrommx site f => Sys2Proof.Machine.execVcvtFrommx site f s
  | .vcvtTobf16 site f => Sys2Proof.Machine.execVcvtTobf16 site f s
  | .vcvtFrombf16 site f => Sys2Proof.Machine.execVcvtFrombf16 site f s
  | .vrsum site f => Sys2Proof.Machine.execVrsum site f s
  | .vrmax site f => Sys2Proof.Machine.execVrmax site f s
  | .msetn site f => Sys2Proof.Machine.execMsetn site f s
  | .mand site f => Sys2Proof.Machine.execMand site f s
  | .mor site f => Sys2Proof.Machine.execMor site f s
  | .mnot site f => Sys2Proof.Machine.execMnot site f s
  | .mcount site f => Sys2Proof.Machine.execMcount site f s
  | .vadn site f => Sys2Proof.Machine.execVadn site f s
  | .vaup site f => Sys2Proof.Machine.execVaup site f s
  | .tload site f => Sys2Proof.Machine.execTload site f s
  | .pass site f upsets => Sys2Proof.Machine.execPass site f upsets s
  | .gopen site f => Sys2Proof.Machine.execGopen site f s
  | .gclose site f => Sys2Proof.Machine.execGclose site f s
  | .gdrainB site f => Sys2Proof.Machine.execGdrainB site f s
  | .gdrainV site f => Sys2Proof.Machine.execGdrainV site f s
  | .grel site f => Sys2Proof.Machine.execGrel site f s
  | .gside site f => Sys2Proof.Machine.execGside site f s
  | .stage site f => Sys2Proof.Machine.execStage site f s
  | .unstage site f => Sys2Proof.Machine.execUnstage site f s
  | .sempost site f => Sys2Proof.Machine.execSempost site f s
  | .semwait site f => Sys2Proof.Machine.execSemwait site f s
  | .endRun site f => Sys2Proof.Machine.execEndRun site f s
  | .arrive site f => Sys2Proof.Machine.execArrive site f s
  | .wait site f => Sys2Proof.Machine.execWait site f s
  | .arriveWait site f => Sys2Proof.Machine.execArriveWait site f s
  | .send site f => Sys2Proof.Machine.execSend site f s
  | .red site f => Sys2Proof.Machine.execRed site f s
  | .msg site f => Sys2Proof.Machine.execMsg site f s
  | .rxbind site f => Sys2Proof.Machine.execRxbind site f s
  | .rxfree site f => Sys2Proof.Machine.execRxfree site f s
  | .copy site f => Sys2Proof.Machine.execCopy site f s
  | .hrd site f => Sys2Proof.Machine.execHrd site f s
  | .hwr site f => Sys2Proof.Machine.execHwr site f s
  | .gwr site f => Sys2Proof.Machine.execGwr site f s
  | .tileReady site => Sys2Proof.Machine.execTileReady site s
  | .checkCompare site => Sys2Proof.Machine.execCheckCompare site s
  | .gcloseDone site g => Sys2Proof.Machine.execGcloseDone site g s
  | .drainDone site g => Sys2Proof.Machine.execDrainDone site g s
  | .grelDone site g => Sys2Proof.Machine.execGrelDone site g s
  | .stageBind site => Sys2Proof.Machine.execStageBind site s
  | .unstageDone site => Sys2Proof.Machine.execUnstageDone site s
  | .semwaitDone site => Sys2Proof.Machine.execSemwaitDone site s
  | .endRetire site => Sys2Proof.Machine.execEndRetire site s
  | .dmaComplete site => Sys2Proof.Machine.execDmaComplete site s
  | .netSendComplete site => Sys2Proof.Machine.execNetSendComplete site s
  | .sendLanding site => Sys2Proof.Machine.execSendLanding site s
  | .sumPacketEject site rid payload => Sys2Proof.Machine.execSumPacketEject site rid payload s
  | .bankWriteBack site word => Sys2Proof.Machine.execBankWriteBack site word s
  | .bnkOwnWrite who site hi value => Sys2Proof.Machine.execBnkOwnWrite who site hi value s
  | .bankHandoverDone site b => Sys2Proof.Machine.execBankHandoverDone site b s
  | .bnkSecureWrite site value => Sys2Proof.Machine.execBnkSecureWrite site value s
  | .wipeDone site b differs => Sys2Proof.Machine.execWipeDone site b differs s
  | .marchStart who site => Sys2Proof.Machine.execMarchStart who site s
  | .marchAbort who site element word fail => Sys2Proof.Machine.execMarchAbort who site element word fail s
  | .marchBankDone site fail => Sys2Proof.Machine.execMarchBankDone site fail s
  | .wakeZeroingDone site differs => Sys2Proof.Machine.execWakeZeroingDone site differs s
  | .chkInjArm who site => Sys2Proof.Machine.execChkInjArm who site s
  | .clrEvents who site same => Sys2Proof.Machine.execClrEvents who site same s
  | .clrSkips who site same => Sys2Proof.Machine.execClrSkips who site same s
  | .clrBlocks who site same => Sys2Proof.Machine.execClrBlocks who site same s
  | .chkRecordClear who site same => Sys2Proof.Machine.execChkRecordClear who site same s
  | .faultRecordClear who site same => Sys2Proof.Machine.execFaultRecordClear who site same s
  | .bankErrRecordClear who site same => Sys2Proof.Machine.execBankErrRecordClear who site same s
  | .redRecordClear who field quad same => Sys2Proof.Machine.execRedRecordClear who field quad same s
  | .upeFaultClear who field same => Sys2Proof.Machine.execUpeFaultClear who field same s
  | .fabFaultClear who same => Sys2Proof.Machine.execFabFaultClear who same s
  | .alarmRecordClear who same => Sys2Proof.Machine.execAlarmRecordClear who same s
  | .vminRestart who r => Sys2Proof.Machine.execVminRestart who r s
  | .clrHdr who site same => Sys2Proof.Machine.execClrHdr who site same s
  | .clrDense who site same => Sys2Proof.Machine.execClrDense who site same s
  | .clrSel who field slot same => Sys2Proof.Machine.execClrSel who field slot same s
  | .clrAud who field slot same => Sys2Proof.Machine.execClrAud who field slot same s
  | .clrMiss who field slot same => Sys2Proof.Machine.execClrMiss who field slot same s
  | .clrFalse who field slot same => Sys2Proof.Machine.execClrFalse who field slot same s
  | .clrFallbacks who field slot same => Sys2Proof.Machine.execClrFallbacks who field slot same s
  | .upeClrBlocks who field same => Sys2Proof.Machine.execUpeClrBlocks who field same s
  | .upeClrSkips who field same => Sys2Proof.Machine.execUpeClrSkips who field same s
  | .clrDiscard who field same => Sys2Proof.Machine.execClrDiscard who field same s
  | .clrRootLate who field same => Sys2Proof.Machine.execClrRootLate who field same s
  | .clrRun who site same => Sys2Proof.Machine.execClrRun who site same s
  | .clrIdle who site mask same => Sys2Proof.Machine.execClrIdle who site mask same s
  | .chkBlocksLoRead who site => Sys2Proof.Machine.execChkBlocksLoRead who site s
  | .idleLoRead who site c => Sys2Proof.Machine.execIdleLoRead who site c s
  | .tickLoRead who => Sys2Proof.Machine.execTickLoRead who s
  | .cycLoRead who => Sys2Proof.Machine.execCycLoRead who s
  | .tickPeriodWrite us => Sys2Proof.Machine.execTickPeriodWrite us s
  | .rckDivWrite n => Sys2Proof.Machine.execRckDivWrite n s
  | .dividerStep => Sys2Proof.Machine.execDividerStep s
  | .fmcStart who => Sys2Proof.Machine.execFmcStart who s
  | .fmcGateClose count => Sys2Proof.Machine.execFmcGateClose count s
  | .ringEnable on p => Sys2Proof.Machine.execRingEnable on p s
  | .imbalanceClear who balanced => Sys2Proof.Machine.execImbalanceClear who balanced s
  | .haltClear who => Sys2Proof.Machine.execHaltClear who s
  | .registerWrite who addr wide value => Sys2Proof.Machine.execRegisterWrite who addr wide value s
  | .tickEdge disagree => Sys2Proof.Machine.execTickEdge disagree s
  | .tickMessage site m edge => Sys2Proof.Machine.execTickMessage site m edge s
  | .meshCrcError field quad port => Sys2Proof.Machine.execMeshCrcError field quad port s
  | .reductionPacket field quad port id len payload => Sys2Proof.Machine.execReductionPacket field quad port id len payload s
  | .colArrival col => Sys2Proof.Machine.execColArrival col s
  | .colExpiry col => Sys2Proof.Machine.execColExpiry col s
  | .resolutionFlit site col => Sys2Proof.Machine.execResolutionFlit site col s
  | .streamEntryStart site => Sys2Proof.Machine.execStreamEntryStart site s
  | .streamTileSend site => Sys2Proof.Machine.execStreamTileSend site s
  | .wsSelection field slot mb sel => Sys2Proof.Machine.execWsSelection field slot mb sel s
  | .wsActivityReport field slot mb act => Sys2Proof.Machine.execWsActivityReport field slot mb act s
  | .gradientWrite field region unit add vals src => Sys2Proof.Machine.execGradientWrite field region unit add vals src s
  | .normMessage field part => Sys2Proof.Machine.execNormMessage field part s
  | .scalarBroadcast field part n2 => Sys2Proof.Machine.execScalarBroadcast field part n2 s
  | .applyDone field part => Sys2Proof.Machine.execApplyDone field part s
  | .stepBegin part => Sys2Proof.Machine.execStepBegin part s
  | .stepCommit part => Sys2Proof.Machine.execStepCommit part s
  | .portTrained p => Sys2Proof.Machine.execPortTrained p s
  | .initFlit p f => Sys2Proof.Machine.execInitFlit p f s
  | .initTimeout p => Sys2Proof.Machine.execInitTimeout p s
  | .portRetry p => Sys2Proof.Machine.execPortRetry p s
  | .fabricDataFlit p f => Sys2Proof.Machine.execFabricDataFlit p f s
  | .creditFlit p f => Sys2Proof.Machine.execCreditFlit p f s
  | .nakReceived p f => Sys2Proof.Machine.execNakReceived p f s
  | .ackTimeout p => Sys2Proof.Machine.execAckTimeout p s
  | .fabricPacket p => Sys2Proof.Machine.execFabricPacket p s
  | .contribTrailer p => Sys2Proof.Machine.execContribTrailer p s
  | .resultDigestExchange part coll digests => Sys2Proof.Machine.execResultDigestExchange part coll digests s
  | .linkStateEvent links => Sys2Proof.Machine.execLinkStateEvent links s
  | .fabricHeartbeatSend => Sys2Proof.Machine.execFabricHeartbeatSend s
  | .hbLost p => Sys2Proof.Machine.execHbLost p s
  | .membershipDecision part => Sys2Proof.Machine.execMembershipDecision part s
  | .join part m => Sys2Proof.Machine.execJoin part m s
  | .reshardDrain part => Sys2Proof.Machine.execReshardDrain part s
  | .fence part field src epoch => Sys2Proof.Machine.execFence part field src epoch s
  | .permuteUnitArrival part unit bytes sent => Sys2Proof.Machine.execPermuteUnitArrival part unit bytes sent s
  | .permuteDone part src => Sys2Proof.Machine.execPermuteDone part src s
  | .jobStop part => Sys2Proof.Machine.execJobStop part s
  | .memberReady part src => Sys2Proof.Machine.execMemberReady part src s
  | .restart part => Sys2Proof.Machine.execRestart part s
  | .pairingRequest src feed reserve force => Sys2Proof.Machine.execPairingRequest src feed reserve force s
  | .pairingReply feed status => Sys2Proof.Machine.execPairingReply feed status s
  | .holderLost => Sys2Proof.Machine.execHolderLost s
  | .intakeFetch part step => Sys2Proof.Machine.execIntakeFetch part step s
  | .shardLanded part step ix bytes readErr => Sys2Proof.Machine.execShardLanded part step ix bytes readErr s
  | .intakeRetry part => Sys2Proof.Machine.execIntakeRetry part s
  | .faultReport => Sys2Proof.Machine.execFaultReport s
  | .restoreDone part avail => Sys2Proof.Machine.execRestoreDone part avail s
  | .checkArbitration part => Sys2Proof.Machine.execCheckArbitration part s
  | .replayDone part site on upsets lane => Sys2Proof.Machine.execReplayDone part site on upsets lane s
  | .snapshotBegin part => Sys2Proof.Machine.execSnapshotBegin part s
  | .snapBegin src part id size pol => Sys2Proof.Machine.execSnapBegin src part id size pol s
  | .snapshotCopyDone part id regions => Sys2Proof.Machine.execSnapshotCopyDone part id regions s
  | .confirm part from_ id => Sys2Proof.Machine.execConfirm part from_ id s
  | .jobValid part id => Sys2Proof.Machine.execJobValid part id s
  | .shelfWriteDone notice => Sys2Proof.Machine.execShelfWriteDone notice s
  | .probeChunkCompare part chunk a b ea eb ec last => Sys2Proof.Machine.execProbeChunkCompare part chunk a b ea eb ec last s
  | .retraceTickCompare target => Sys2Proof.Machine.execRetraceTickCompare target s
  | .terraceLightStart t => Sys2Proof.Machine.execTerraceLightStart t s
  | .subswitchClose t => Sys2Proof.Machine.execSubswitchClose t s
  | .droopHold t => Sys2Proof.Machine.execDroopHold t s
  | .droopResume t => Sys2Proof.Machine.execDroopResume t s
  | .droopTimeout t => Sys2Proof.Machine.execDroopTimeout t s
  | .terraceReady t => Sys2Proof.Machine.execTerraceReady t s
  | .terraceOff t => Sys2Proof.Machine.execTerraceOff t s
  | .phaseFail p => Sys2Proof.Machine.execPhaseFail p s
  | .senseOpen t => Sys2Proof.Machine.execSenseOpen t s
  | .thermalSample rs => Sys2Proof.Machine.execThermalSample rs s
  | .sagDeclared => Sys2Proof.Machine.execSagDeclared s
  | .sagShort => Sys2Proof.Machine.execSagShort s
  | .sagSaveDone => Sys2Proof.Machine.execSagSaveDone s
  | .holdupLow => Sys2Proof.Machine.execHoldupLow s
  | .imbalanceHalt ia ib => Sys2Proof.Machine.execImbalanceHalt ia ib s
  | .envelopeDeadline => Sys2Proof.Machine.execEnvelopeDeadline s
  | .refJudge cand count => Sys2Proof.Machine.execRefJudge cand count s
  | .refLost => Sys2Proof.Machine.execRefLost s
  | .pllLock f => Sys2Proof.Machine.execPllLock f s
  | .pllLockTimeout f => Sys2Proof.Machine.execPllLockTimeout f s
  | .pllLockLost f => Sys2Proof.Machine.execPllLockLost f s
  | .powerOn => Sys2Proof.Machine.execPowerOn s
  | .perst p => Sys2Proof.Machine.execPerst p s
  | .hotReset p => Sys2Proof.Machine.execHotReset p s
  | .warmCmd => Sys2Proof.Machine.execWarmCmd s
  | .watchdog => Sys2Proof.Machine.execWatchdog s
  | .watchdogRefresh => Sys2Proof.Machine.execWatchdogRefresh s
  | .portReset p => Sys2Proof.Machine.execPortReset p s
  | .resetRelease => Sys2Proof.Machine.execResetRelease s
  | .warmResetReady => Sys2Proof.Machine.execWarmResetReady s
  | .trimCopyLoaded crcOk trim straps => Sys2Proof.Machine.execTrimCopyLoaded crcOk trim straps s
  | .trimCheck ok => Sys2Proof.Machine.execTrimCheck ok s
  | .bringupStageDone info => Sys2Proof.Machine.execBringupStageDone info s
  | .standbyTakeover => Sys2Proof.Machine.execStandbyTakeover s
  | .ringPoll p word pkts readErr => Sys2Proof.Machine.execRingPoll p word pkts readErr s
  | .claimWindowEnd => Sys2Proof.Machine.execClaimWindowEnd s
  | .ownerHbExpired => Sys2Proof.Machine.execOwnerHbExpired s
  | .devInfo k => Sys2Proof.Machine.execDevInfo k s
  | .claim k priority rsv => Sys2Proof.Machine.execClaim k priority rsv s
  | .release k successor force rsv => Sys2Proof.Machine.execRelease k successor force rsv s
  | .heartbeat k => Sys2Proof.Machine.execHeartbeat k s
  | .partCreate k part diag terraces ports rsv => Sys2Proof.Machine.execPartCreate k part diag terraces ports rsv s
  | .partDestroy k part => Sys2Proof.Machine.execPartDestroy k part s
  | .planLoad k part replace rsv addr length hash image => Sys2Proof.Machine.execPlanLoad k part replace rsv addr length hash image s
  | .planStart k part rsv seed step tick => Sys2Proof.Machine.execPlanStart k part rsv seed step tick s
  | .planStop k part mode => Sys2Proof.Machine.execPlanStop k part mode s
  | .snapPolicy k part pol rsv => Sys2Proof.Machine.execSnapPolicy k part pol rsv s
  | .snapNow k part => Sys2Proof.Machine.execSnapNow k part s
  | .partnerSet k holder force reserve rsv => Sys2Proof.Machine.execPartnerSet k holder force reserve rsv s
  | .recoverRestart k part => Sys2Proof.Machine.execRecoverRestart k part s
  | .recoverRestartFrom k part id => Sys2Proof.Machine.execRecoverRestartFrom k part id s
  | .recoverRetest k terrace bad laneOk => Sys2Proof.Machine.execRecoverRetest k terrace bad laneOk s
  | .recoverRebase k part => Sys2Proof.Machine.execRecoverRebase k part s
  | .retrace k part target dx dy step joint rsv => Sys2Proof.Machine.execRetrace k part target dx dy step joint rsv s
  | .envelopeSet k bound deadline clockOnly rsv => Sys2Proof.Machine.execEnvelopeSet k bound deadline clockOnly rsv s
  | .terraceSetDarken k mask rsv => Sys2Proof.Machine.execTerraceSetDarken k mask rsv s
  | .terraceSetLight k mask rsv => Sys2Proof.Machine.execTerraceSetLight k mask rsv s
  | .warmReset k => Sys2Proof.Machine.execWarmReset k s
  | .probeRun k part retire fields seed rsv => Sys2Proof.Machine.execProbeRun k part retire fields seed rsv s
  | .marchRun k field core mode mask rsv => Sys2Proof.Machine.execMarchRun k field core mode mask rsv s
  | .fwUpdateStage k addr length image => Sys2Proof.Machine.execFwUpdateStage k addr length image s
  | .fwUpdateSwitch k => Sys2Proof.Machine.execFwUpdateSwitch k s
  | .fwUpdateRevert k image => Sys2Proof.Machine.execFwUpdateRevert k image s
  | .fwUpdateCommitSvn k => Sys2Proof.Machine.execFwUpdateCommitSvn k s
  | .attest k code slot => Sys2Proof.Machine.execAttest k code slot s
  | .lifecycleNonce k rsv => Sys2Proof.Machine.execLifecycleNonce k rsv s
  | .lifecycleTransition k rsv target x y r sg mx my => Sys2Proof.Machine.execLifecycleTransition k rsv target x y r sg mx my s
  | .telemetry k part mask length start rsv => Sys2Proof.Machine.execTelemetry k part mask length start rsv s
  | .telemetryWindowEnd seq agent pmin pmax energy => Sys2Proof.Machine.execTelemetryWindowEnd seq agent pmin pmax energy s
  | .fabConfig k addr hb enable eth mac ip pfcEn pfcPri dscp targets rsv => Sys2Proof.Machine.execFabConfig k addr hb enable eth mac ip pfcEn pfcPri dscp targets rsv s
  | .mctpControl code arg => Sys2Proof.Machine.execMctpControl code arg s
  | .pldmRequest type code => Sys2Proof.Machine.execPldmRequest type code s
  | .mgmtJorlekRequest k => Sys2Proof.Machine.execMgmtJorlekRequest k s
  | .getVersion agent => Sys2Proof.Machine.execGetVersion agent s
  | .getCapabilities agent => Sys2Proof.Machine.execGetCapabilities agent s
  | .negotiateAlgorithms agent => Sys2Proof.Machine.execNegotiateAlgorithms agent s
  | .getDigests agent => Sys2Proof.Machine.execGetDigests agent s
  | .getCertificate agent slot => Sys2Proof.Machine.execGetCertificate agent slot s
  | .challenge agent slot => Sys2Proof.Machine.execChallenge agent slot s
  | .getMeasurements agent => Sys2Proof.Machine.execGetMeasurements agent s
  | .tamper => Sys2Proof.Machine.execTamper s
  | .vglitch => Sys2Proof.Machine.execVglitch s
  | .cglitch => Sys2Proof.Machine.execCglitch s
  | .debugAccess => Sys2Proof.Machine.execDebugAccess s
  | .alarmL3EraseDone => Sys2Proof.Machine.execAlarmL3EraseDone s
  | .debugToken x y r sg => Sys2Proof.Machine.execDebugToken x y r sg s
  | .cagePresence p assembly => Sys2Proof.Machine.execCagePresence p assembly s
  | .marchAbortDone site => Sys2Proof.Machine.execMarchAbortDone site s
  | .laneAlignmentLost p => Sys2Proof.Machine.execLaneAlignmentLost p s
  | .ethernetFrame p kind => Sys2Proof.Machine.execEthernetFrame p kind s
  | .bar2Access p size ofs len bytes => Sys2Proof.Machine.execBar2Access p size ofs len bytes s
  | .pcieLinkChange p up => Sys2Proof.Machine.execPcieLinkChange p up s
  | .inputVoltageChange mv => Sys2Proof.Machine.execInputVoltageChange mv s
  | .holdupRestored => Sys2Proof.Machine.execHoldupRestored s
  | .vddStep => Sys2Proof.Machine.execVddStep s
  | .railSample r reading => Sys2Proof.Machine.execRailSample r reading s
  | .refclkPresent src present => Sys2Proof.Machine.execRefclkPresent src present s
  | .hostDmaComplete p what err => Sys2Proof.Machine.execHostDmaComplete p what err s
  | .entdaa addr => Sys2Proof.Machine.execEntdaa addr s
  | .standbyReplayDone => Sys2Proof.Machine.execStandbyReplayDone s
  | .lifecycleEraseDone => Sys2Proof.Machine.execLifecycleEraseDone s
  | .snapshotAnnounce part step => Sys2Proof.Machine.execSnapshotAnnounce part step s
  | .generationLossNotice part ids room => Sys2Proof.Machine.execGenerationLossNotice part ids room s

end Sys2Proof.Machine
end

