-- ==== Sys2Proof/Machine/Network.lean ====
section
/-! DEFINITION. What the mesh does while nothing is commanded: one flit slot at every port (R167, R173), the reduction packets
that have arrived whole (R179), and what flits do at the units behind the ports (R157, R181, R182, R220, R250). -/

namespace Sys2Proof.Machine

open Sys2Proof

/-- A message reaches the controller of a field: a watershed message (Table 5.6), whose mask bits at NBLK and above the unit
ignores, or the NORM message of R220. A message of another form does nothing: the spec gives it no effect. -/
def State.controllerMessage (s : State) (f : Nat) (bs : List Byte) : State :=
  let slot := fieldLE bs 2 1 % 32
  let m := fieldLE bs 0 2
  if bs.length = 144 then
    match fieldLE bs 3 1 with
    | 0 => s.wsSelection f slot m (fieldLE bs 16 128)
    | 1 => s.updField f (fun x => x.setSlot slot ((x.slot slot).report m (fieldLE bs 16 128)))
    | _ => s
  else if bs.length = 16 && fieldLE bs 0 1 = 0x4E then s.normMessage f (fieldLE bs 1 1)
  else s

/-- The fabric port behind port X of a router (Table 8.1), or none. -/
def portAt (r : Nat) : Option Nat := (List.range 28).find? (fun p => passRouter p = (routerX (r / 16) (r % 16), routerY (r / 16) (r % 16)))

/-- The member that follows this module in the ring of ranks (R250). -/
def State.nextRank (s : State) (p : Nat) : Option Member :=
  let ms := (s.part p).members
  (ms.findIdx? (fun m => m.addr = s.fab.addr)).bind (fun i => ms[(i + 1) % ms.length]?)

/-- A sum leaves through port X as the partial of a reduce-scatter (R250): a VC1 packet for the same entry of the module of the
next rank (DESIGN CHOICE, log 77), with the partition's epoch (R260). -/
def State.sumToRing (s : State) (m : MeshPkt) : State :=
  let r := m.src - routerSrc 0
  let e : RedEntry := Tab.get {} (s.routerAt r).red m.id
  match portAt r, s.nextRank e.part with
  | some _, some n =>
    s.routePacket { vc := 1, dst := n.addr, part := n.part, src := s.fab.addr, epoch := (s.part e.part).epoch, coll := BitVec.ofNat 16 e.coll, tkind := 2
                    field := r / 16, core := siteAtPort (r / 16) (r % 16) 0 % 64, addr := m.id, payload := wordsLE m.bytes.length m.bytes }
  | _, _ => s.emit [.meshFlit 5 r (m.id :: m.bytes.map BitVec.toNat)]

/-- A packet from the fabric for a stack lands at the M port of its field (R242). -/
def State.stackWrite (s : State) (m : MeshPkt) : State :=
  match m.fab with
  | none => s
  | some k => s.updField m.dst (fun f => (f.hbmWrite (64 * k.addr) m.bytes).landBlocks (64 * k.addr) m.bytes.length)

/-- What the last flit of a packet does at the unit behind its port. -/
def State.unitTakes (s : State) (m : MeshPkt) : State :=
  if m.kind = 2 then s.controllerMessage m.dst m.bytes
  else if m.kind = 4 then (match m.fab with | some q => s.routePacket q | none => s)
  else if m.kind = 5 && m.oport = 9 then s.sumToRing m
  else if m.kind = 6 then s.stackWrite m
  else s.emit [.meshFlit m.kind m.dst (m.id :: m.bytes.map BitVec.toNat)]

/-- A flit that has left the mesh for a unit that takes it as it comes: every unit but a core. -/
def MeshPkt.taken (m : MeshPkt) : Bool := m.at_ = offMesh && (m.kind = 2 || m.kind = 3 || m.kind = 4 || m.kind = 6 || (m.kind = 5 && decide (8 ≤ m.oport)))

/-- One flit slot of the mesh, and what arrives at its end. -/
def State.netCycle (s : State) : State :=
  if s.mesh.isEmpty && s.arrivals.isEmpty then s
  else
    let t := s.takeReds.meshSlot
    let done := t.mesh.filter MeshPkt.taken
    (done.filter MeshPkt.tail).foldl State.unitTakes { t with mesh := t.mesh.filter (fun m => !m.taken) }

/-- The step of an empty queue (log entry 4): one wafer cycle, in which every port of the mesh has one flit slot and snapshot copies
may end. -/
def State.idleStep (s : State) : State :=
  let t := s.idleCycle.netCycle
  if t.parts.toList.any (fun x => x.snap.phase = .copying) then t.copiesEnd else t

end Sys2Proof.Machine
end

