-- ==== Sys2Proof/Safety.lean ====
section
/-! DEFINITION. The terms in which the statements speak: when a core issues a word, what a completed instruction leaves,
and what counts as a safe state of the module. -/

namespace Sys2Proof.Machine

open Sys2Proof

/-- The answer of a command. -/
abbrev Res := Host.Outcome State Fault Refusal

/-- The core at site k can fetch and its store holds the word `w`, which its code can read, at its program counter. -/
def State.ready (s : State) (k : Nat) (w : W64) : Bool :=
  (s.core k).fetches && (s.core k).fetch (s.core k).seq.pc == some w

/-- The core `c` goes back to site k behind its instruction: the program counter moves on, and the array goes on as far
as it can. -/
def State.advanced (s : State) (k : Nat) (c : Core) : State := s.putCore k { c with seq := c.seq.advance none }

/-- The core at site k stops on a fault of the instruction at its program counter. -/
def State.trap (s : State) (k kind detail : Nat) : State := s.failCore k kind detail (s.core k).seq.pc

/-- An instruction of the sequencer that reads the scalar registers `rs` and writes `ws` need not wait for a unit (R77). -/
def Core.freeS (c : Core) (rs ws : List (BitVec 5)) : Bool :=
  !c.depends ((rs ++ ws).map BitVec.toNat) && !c.overwrites (ws.map BitVec.toNat)

/-- A vector instruction that names these registers meets neither staging, nor the array's queue, nor an earlier vector
instruction that still waits. -/
def Core.freeV (c : Core) (vs ss : List (BitVec 5)) : Bool :=
  (c.regBusy (vs.map BitVec.toNat)).isNone && c.vq.isEmpty && !c.vecBlocked { vs := vs, rs := ss, run := fun d => (d, .ok {}) }

/-- Nothing is under way that a cycle without a command could move: no flit in the mesh, no arrival on its way, no snapshot copy,
and no deadline of an ARMED col. -/
def State.quiet (s : State) : Bool :=
  s.mesh.isEmpty && s.arrivals.isEmpty && s.parts.toList.all (fun x => decide (x.snap.phase ≠ .copying)) &&
    s.cols.all (fun c => decide (c.2.st = .armed → c.2.dl = none))

/-- Every word of bank data that the `n` bytes from `a` touch is admitted to a requester and carries no error. -/
def Bank.clear (b : Bank) (r : Req) (a n : Nat) : Bool :=
  (wordsOf a n).all (fun w => b.grant r w = .ok () && (b.errOf w).isEmpty)

/-- From `c` to `d` bank bytes have been stored at the addresses that `at_` names, and nothing else of the core has changed but
the tick digest (R304), and what the words written held of errors and of waiting write-backs (R118, R121). -/
def Core.stored (c d : Core) (at_ : Nat → Prop) : Prop :=
  (∀ x, ¬at_ x → Tab.get 0 d.bank.data x = Tab.get 0 c.bank.data x) ∧
  (∀ w, (∀ x, x / 64 = w → ¬at_ x) → d.bank.errOf w = c.bank.errOf w ∧ (w ∈ d.bank.writeBack ↔ w ∈ c.bank.writeBack)) ∧
  d = { c with bank := { c.bank with data := d.bank.data, err := d.bank.err, writeBack := d.bank.writeBack }, digest := d.digest }

/-- The addresses of `n` bytes of a window from position `p` on, and the bytes of a core there (R128, R129). -/
def Win.spots (w : Win) (p n : Nat) : List Nat := (List.range n).map (fun i => w.addr (w.advance p i))
def Core.bytesAt (c : Core) (l : List Nat) : List Byte := l.map (Tab.get 0 c.bank.data)

/-- Every word that `n` bytes of a window from position `p` on touch is admitted to a requester and carries no error. -/
def Core.windowClear (c : Core) (r : Req) (w : Win) (p n : Nat) : Bool := (w.pieces p n).all (fun q => c.bank.clear r q.1 q.2)

/-- The core once `n` bytes have been produced into its window `k`, or consumed from it. -/
def Core.headOn (c : Core) (k n : Nat) : Core := c.setWindow k { c.window k with head := (c.window k).advance (c.window k).head n }
def Core.tailOn (c : Core) (k n : Nat) : Core := c.setWindow k { c.window k with tail := (c.window k).advance (c.window k).tail n }

/-- The core once its semaphore `k` has been posted by 1 (R98). -/
def Core.posted (c : Core) (k : Nat) : Core := c.setL k (c.L k + 1)

/-- Change the part of the state that one core, one field or one partition is. -/
def State.withCore (s : State) (k : Nat) (g : Core → Core) : State := { s with cores := Tab.set {} s.cores k (g (s.core k)) }
def State.withField (s : State) (f : Nat) (g : Field → Field) : State := { s with fields := Tab.set {} s.fields f (g (s.field f)) }

/-- The tables of cores, fields and sites are in their canonical form: keys strictly rising, no entry at its default. -/
def State.wf (s : State) : Bool := Tab.wf {} s.cores && Tab.wf {} s.fields && Tab.wf .enabled s.sites

/-- The canonical form of a memory: keys strictly rising, and no entry equal to 0, what an unlisted byte reads as. -/
abbrev Memory.wf (m : Tab Byte) : Bool := Tab.wf 0 m

/-- The bank bytes of every core and the stack bytes of every field are in their canonical form. -/
def State.memWf (s : State) : Bool := s.cores.all (fun c => Memory.wf c.2.bank.data) && s.fields.all (fun f => Memory.wf f.2.hbm)

/-- Change the part of the state that one terrace, one partition or one port is. -/
def State.withTer (s : State) (t : Nat) (g : Ter → Ter) : State :=
  s.withField (t / 2) (fun f => { f with ter := if h : t % 2 < 2 then f.ter.set (t % 2) (g (s.ter t)) else f.ter })
def State.withPart (s : State) (p : PartIx) (g : Part → Part) : State := { s with parts := s.parts.set p.val (g (s.part p)) }
def State.withPort (s : State) (p : PortIx) (g : FabPort → FabPort) : State :=
  { s with fab := { s.fab with ports := s.fab.ports.set p.val (g (s.port p)) } }

/-- The command packet `k` of opcode `op` stands in front of firmware's inbox, fetched while its issuer was owner or not,
and recovery mode, where it holds, allows it (R411). -/
def State.front (s : State) (k : Pkt) (op : W16) (own : Bool) : Bool :=
  s.fw.inbox.head? == some { pkt := k, owner := own } && k.opcode == op && (!s.sec.recovery || recoveryOps.contains op)

/-- The state once firmware has taken the packet in front of its inbox. -/
def State.taken (s : State) : State := { s with fw := { s.fw with inbox := s.fw.inbox.tail } }

/-- The reply that a command gives, with a status, a result and the length of its data (R388, R390). -/
def State.answers (s : State) (k : Pkt) (own : Bool) (status : W16) (result : W64 := 0) (len : Nat := 0) : State :=
  s.taken.finish { pkt := k, owner := own } status result len

/-- No core of the module has stopped on a program fault, and no alarm halts the module. -/
def State.safe (s : State) : Prop := (∀ k < 3072, (s.core k).seq.st ≠ .faulted) ∧ s.sec.halt = false

end Sys2Proof.Machine
end

