-- ==== Sys2Proof/WellFormed.lean ====
section
/-! DEFINITION. What makes a command well-formed as a term: the operands that its rule reserves are zero, and its lists
and addresses have the lengths and the alignment of their rule. The machine answers the other terms too, as the rules say
(ILLEGAL_INSN for reserved bits of an instruction, BAD_PARAM for those of a command packet). -/

namespace Sys2Proof

open Sys2Proof.Machine

/-- The reserved bits of the instruction classes (R83). -/
def ScalarF.legal (f : ScalarF) : Bool := f.rsv == 0
def BranchF.legal (f : BranchF) : Bool := f.rsv == 0
def VecF.legal (f : VecF) : Bool := f.rsv == 0
def ArrF.legal (f : ArrF) : Bool := f.rsv == 0
def DmaF.legal (f : DmaF) : Bool := f.rsv == 0
def NetF.legal (f : NetF) : Bool := f.rsv == 0
def SyncF.legal (f : SyncF) : Bool := f.rsv == 0

/-- The command without what no instruction word carries: a PASS without the physical errors of its products. -/
def Instr.plain : Instr → Instr
  | .pass k f _ => .pass k f []
  | i => i

/-- The reserved operands of a row are zero. -/
def Instr.rsvZero : Instr → Bool
  | .add _ f | .sub _ f | .and _ f | .or _ f | .xor _ f | .shl _ f | .shr _ f | .sar _ f | .mul _ f | .slt _ f | .sltu _ f
  | .ldi _ f | .ldih _ f | .addi _ f | .ld _ f | .st _ f | .srd _ f | .ctlw _ f => f.legal
  | .br _ f | .loop _ f => f.legal
  | .vadd _ f | .vsub _ f | .vadds _ f | .vsubs _ f | .vaddu _ f | .vsubu _ f | .vand _ f | .vor _ f | .vxor _ f | .vandn _ f
  | .vshl _ f | .vshr _ f | .vsar _ f | .vshli _ f | .vshri _ f | .vsari _ f | .vcmpeq _ f | .vcmplt _ f | .vcmpltu _ f
  | .vsel _ f | .vmov _ f | .vbcast _ f | .vld _ f | .vst _ f | .fadd _ f | .fsub _ f | .fmul _ f | .ffma _ f | .fmax _ f
  | .fmin _ f | .fcmpeq _ f | .fcmplt _ f | .fcmple _ f | .fcmpun _ f | .vexp2 _ f | .vrsqrt _ f | .vcvtTomx _ f
  | .vcvtFrommx _ f | .vcvtTobf16 _ f | .vcvtFrombf16 _ f | .vrsum _ f | .vrmax _ f | .msetn _ f | .mand _ f | .mor _ f
  | .mnot _ f | .mcount _ f | .vadn _ f | .vaup _ f => f.legal
  | .tload _ f | .pass _ f _ | .gopen _ f | .gclose _ f | .gdrainB _ f | .gdrainV _ f | .grel _ f | .gside _ f | .stage _ f
  | .unstage _ f => f.legal
  | .sempost _ f | .semwait _ f | .endRun _ f | .arrive _ f | .wait _ f | .arriveWait _ f => f.legal
  | .send _ f | .red _ f | .msg _ f | .rxbind _ f | .rxfree _ f => f.legal
  | .copy _ f | .hrd _ f | .hwr _ f | .gwr _ f => f.legal
  | .claim _ _ rsv => rsv == 0
  | .release _ _ _ rsv => rsv == 0
  | .partCreate _ _ _ _ _ rsv => rsv == 0
  | .planLoad _ _ _ rsv _ _ _ _ => rsv == 0
  | .planStart _ _ rsv _ _ _ => rsv == 0
  | .snapPolicy _ _ _ rsv => rsv == 0
  | .partnerSet _ _ _ _ rsv => rsv == 0
  | .retrace _ _ _ _ _ _ _ rsv => rsv == 0
  | .envelopeSet _ _ _ _ rsv => rsv == 0
  | .terraceSetDarken _ _ rsv | .terraceSetLight _ _ rsv => rsv == 0
  | .probeRun _ _ _ _ _ rsv => rsv == 0
  | .marchRun _ _ _ _ _ rsv => rsv == 0
  | .telemetry _ _ _ _ _ rsv => rsv == 0
  | .lifecycleNonce _ rsv | .lifecycleTransition _ rsv _ _ _ _ _ _ _ => rsv == 0
  | .fabConfig _ _ _ _ _ _ _ _ _ _ _ rsv => rsv == 0
  | _ => true

/-- Lists and addresses of a row have the lengths and the alignment of their rule: a gradient unit is sixteen FP32 values
(R219), a fabric flit has 252 bytes before its CRC, a BAR0 access is 4 or 8 bytes at a multiple of its size, a reference candidate
is 1 to 3 and a BAR2 access is at most one 64-byte unit. -/
def Instr.shaped : Instr → Bool
  | .gradientWrite _ _ _ _ vals _ => vals.length == 16
  | .initFlit _ f | .creditFlit _ f | .nakReceived _ f | .fabricDataFlit _ f => f.bytes.length == 252
  | .registerWrite _ a wide _ => if wide then a % 8 == 0 else a % 4 == 0
  | .refJudge cand _ => cand != 0
  | .refclkPresent src _ => src != 0
  | .bar2Access _ _ ofs len bytes => decide (ofs % 64 + (match bytes with | some b => b.length | none => len) ≤ 64)
  | _ => true

def Instr.wellFormed (i : Instr) : Bool := i.rsvZero && i.shaped

end Sys2Proof
end

