-- ==== Sys2Proof/Certificates/Slice0/Obligations.lean ====
section
/-! DEFINITION. The statements about the machine, for the provers. -/

open Sys2Proof Sys2Proof.Machine

/-! ## The queue and a step -/

/-- A step takes the command at the front of the queue and answers what `exec` answers on the rest of the queue. -/
def Obligations.StepRunsFrontCommand : Prop :=
  ∀ (c : Instr) (r : List Instr) (s : State), step { s with pending := c :: r } = exec c { s with pending := r }

/-- MODEL'S CHOICE (log 4): with no command waiting a step is one wafer cycle. Where nothing is under way in the mesh, the
cols and the snapshots: while the tick generator stands, nothing changes; while it runs and the edge is not due, the
offset and the free-running counter each count one, the divider's phase moves on, every core counts the core cycles
that begin, a partition that runs counts its running time, and nothing else changes. -/
def Obligations.IdleStepIsOneCycle : Prop :=
  ∀ s : State, s.pending = [] → s.wf = true → s.quiet = true →
    (s.tg.running = false → step s = .next s) ∧
    (s.tg.running = true → s.tg.period ≠ 0 → 1 < s.toEdge → ∃ t, step s = .next t ∧
      t.tg = { s.tg with ofs := s.tg.ofs + 1, cyc := s.tg.cyc + 1 } ∧
      t.div = { s.div with phase := (s.div.phase + s.div.current) % 32 } ∧
      (∀ k, t.core k = (s.core k).tickIdle ((s.div.phase + s.div.current) / 32)) ∧
      (∀ p : PartIx, t.part p = { s.part p with snap := { (s.part p).snap with runCyc := (t.part p).snap.runCyc } } ∧
        ((s.part p).started = false → t.part p = s.part p) ∧
        ((s.part p).started = true → (s.part p).hold = [] → (t.part p).snap.runCyc = (s.part p).snap.runCyc + 1)) ∧
      t = { s with tg := t.tg, div := t.div, cores := t.cores, parts := t.parts })

/-- No command ends in a fault or a refusal of the model. No command changes the commands that wait behind it: `exec`
leaves the queue alone, whatever the command. -/
def Obligations.EveryCommandCompletes : Prop :=
  (
    ∀ (c : Instr) (s : State), ∃ t, exec c s = .next t) ∧
  (
    ∀ (c : Instr) (s t : State), exec c s = .next t → t.pending = s.pending)

/-- What a completed instruction leaves: every core but its own is as it was, and nothing but the cores and firmware's
reports changes; while the queues of the array and the vector engine of its core are empty, its own core is as the
instruction left it with the program counter moved on, and the reports are as they were. Where an instruction stops on
a program fault (R113, R114): the core stops with the first fault in its record, the instructions in its queues are
discarded but for the operation under way in the DMA engine and in the network port, every register, semaphore, bank
and counter keeps its value, the fault is reported for the partition that holds the terrace (of a stack read, with the
stack's address), every other core is as it was, and nothing else changes. -/
def Obligations.InstructionFrames : Prop :=
  (
    ∀ (s : State) (k : Nat) (c : Core),
      (∀ j, j ≠ k → (s.advanced k c).core j = s.core j) ∧
      s.advanced k c = { s with cores := (s.advanced k c).cores, fw := { s.fw with reports := (s.advanced k c).fw.reports } } ∧
      (c.arr.q = [] → c.vq = [] → (s.advanced k c).core k = { c with seq := c.seq.advance none } ∧ (s.advanced k c).fw = s.fw)) ∧
  (
    ∀ (s : State) (k kind detail : Nat),
      let c := s.core k
      let t := s.trap k kind detail
      let d := t.core k
      d = { c with seq := { c.seq with st := .faulted }, arr := { c.arr with q := [] }, vq := [], dma := c.dma.take 1, net := c.net.take 1, fault := d.fault } ∧
      (c.fault.valid = false → d.fault.valid = true ∧ d.fault.more = c.fault.more ∧
        d.fault.body = { kind := BitVec.ofNat 8 kind, pc := c.seq.pc, detail := BitVec.ofNat 32 detail, at_ := s.coreNow }) ∧
      (c.fault.valid = true → d.fault.valid = true ∧ d.fault.more = true ∧ (c.fault.cycle ≠ s.coreNow → d.fault.body = c.fault.body)) ∧
      t.fw = { s.fw with reports := s.fw.reports ++ t.fw.reports.drop s.fw.reports.length } ∧
      (∀ p, s.partOfSite k = some p → t.fw.reports = s.fw.reports ++ [{ part := p, what := .core (BitVec.ofNat 8 kind) k, addr := if kind = 0x51 then detail else k }]) ∧
      (s.partOfSite k = none → t.fw.reports = s.fw.reports) ∧
      (∀ j, j ≠ k → t.core j = s.core j) ∧
      t = { s with cores := t.cores, fw := t.fw })

/-! ## Instruction words -/

/-- Decode and encode agree, at every value of every field, reserved bits included: the word of every instruction row
reads back as that instruction (a PASS without the physical errors, which no word carries), and every word that reads
as an instruction is the word of that instruction. -/
def Obligations.DecodeOfEncode : Prop :=
  (∀ (i : Instr) (w : W64), encodeInsn i = some w → ∃ k, decodeInsn k w = some i.plain) ∧
  (∀ (k : Site) (w : W64) (i : Instr), decodeInsn k w = some i → encodeInsn i = some w)

/-- The two words of the softmax example (R94, Table 3.4), the no-operation of R83, and the classes that R83 reserves. -/
def Obligations.SpecWordsDecode : Prop :=
  ∀ k : Site,
    decodeInsn k 0x4200040000000024#64 = some (.msetn k { vd := 2, imm := 36 }) ∧
    decodeInsn k 0x303502131DC00000#64 = some (.ffma k { mask := 2, zm := 1, vd := 1, va := 1, vb := 6, vc := 7, fmt := 7 }) ∧
    decodeInsn k 0#64 = some (.add k {}) ∧
    (∀ w : W64, 0xA ≤ w.toNat / 2 ^ 60 → decodeInsn k w = none)

/-! ## Scalar and vector instructions -/

/-- The register files (R79, Table 3.2): S0 reads zero and a write to it is discarded; M0 reads all ones and cannot be
written; a write of any other register is what that register reads, and no other register changes. A masked vector
write (R86): an enabled lane takes the result, a lane whose mask bit is 0 keeps its value, or becomes zero with ZM;
under M0 every lane is enabled; no other vector register changes. -/
def Obligations.RegisterFilesAndMaskedWrites : Prop :=
  (
    (∀ (c : Core) (k j : BitVec 5) (v : W64), (c.setS k v).S j = if j = 0 then 0 else if j = k then v else c.S j) ∧
    (∀ (c : Core) (v : W64), c.setS 0 v = c) ∧
    (∀ (c : Core) (k j : BitVec 3) (v : W64), (c.setM k v).M j = if j = 0 then BitVec.allOnes 64 else if j = k then v else c.M j) ∧
    (∀ (c : Core) (v : W64), c.setM 0 v = c) ∧
    (∀ (c : Core) (k j : BitVec 5) (v : VReg), (c.setV k v).V j = if j = k then v else c.V j)) ∧
  (
    ∀ (c : Core) (f : VecF) (v : VReg) (l : Fin 64),
      ((c.putV f v).V f.vd)[l] = (if (c.M f.mask).getLsbD l.val then v[l] else if f.zm = 1 then 0 else (c.V f.vd)[l]) ∧
      (f.mask = 0 → ((c.putV f v).V f.vd)[l] = v[l]) ∧
      (∀ j, j ≠ f.vd → (c.putV f v).V j = c.V j))

/-- ADD to SLTU (Table 3.6): where the core is ready, SD takes SA op SB in 64 bits and the program counter moves on. -/
def Obligations.ScalarAluCompletes : Prop :=
  ∀ (k : Site) (f : ScalarF) (s : State), f.rsv = 0 → (s.core k).freeS [f.sa, f.sb] [f.sd] = true →
    let c := s.core k
    let a := c.S f.sa
    let b := c.S f.sb
    let n := b.toNat % 128
    let done : W64 → Res := fun v => .next (s.advanced k (c.setS f.sd v))
    (s.ready k (encScalar 0x00 f) = true → exec (.add k f) s = done (BitVec.ofNat 64 (a.toNat + b.toNat))) ∧
    (s.ready k (encScalar 0x01 f) = true → exec (.sub k f) s = done (BitVec.ofInt 64 ((a.toNat : Int) - b.toNat))) ∧
    (s.ready k (encScalar 0x02 f) = true → exec (.and k f) s = done (a &&& b)) ∧
    (s.ready k (encScalar 0x03 f) = true → exec (.or k f) s = done (a ||| b)) ∧
    (s.ready k (encScalar 0x04 f) = true → exec (.xor k f) s = done (a ^^^ b)) ∧
    (s.ready k (encScalar 0x05 f) = true → exec (.shl k f) s = done (if 64 ≤ n then 0 else BitVec.ofNat 64 (a.toNat * 2 ^ n))) ∧
    (s.ready k (encScalar 0x06 f) = true → exec (.shr k f) s = done (if 64 ≤ n then 0 else BitVec.ofNat 64 (a.toNat / 2 ^ n))) ∧
    (s.ready k (encScalar 0x07 f) = true → exec (.sar k f) s =
      done (if 64 ≤ n then (if a.msb then BitVec.allOnes 64 else 0) else BitVec.ofInt 64 (a.toInt / 2 ^ n))) ∧
    (s.ready k (encScalar 0x08 f) = true → exec (.mul k f) s = done (BitVec.ofNat 64 (a.toNat * b.toNat))) ∧
    (s.ready k (encScalar 0x09 f) = true → exec (.slt k f) s = done (if a.toInt < b.toInt then 1 else 0)) ∧
    (s.ready k (encScalar 0x0A f) = true → exec (.sltu k f) s = done (if a.toNat < b.toNat then 1 else 0))

/-- LDI, LDIH, ADDI, SRD and CTLW (Table 3.6, R102, R115). BR and LOOP (R96, Table 3.6): a branch whose condition holds
goes to its own index + OFFSET and closes the loops that it leaves; one whose condition fails goes on. A LOOP of count
0 goes on behind its body; any other opens its level. -/
def Obligations.ScalarMovesAndBranchesComplete : Prop :=
  (
    ∀ (k : Site) (f : ScalarF) (s : State), f.rsv = 0 →
      let c := s.core k
      let code := f.imm.toNat % 16
      let done : Core → Res := fun d => .next (s.advanced k d)
      (s.ready k (encScalar 0x10 f) = true → c.freeS [] [f.sd] = true → exec (.ldi k f) s = done (c.setS f.sd (BitVec.ofInt 64 f.imm.toInt))) ∧
      (s.ready k (encScalar 0x11 f) = true → c.freeS [] [f.sd] = true → exec (.ldih k f) s =
        done (c.setS f.sd (BitVec.ofNat 64 (f.imm.toNat * 2 ^ 32 + (c.S f.sd).toNat % 2 ^ 32)))) ∧
      (s.ready k (encScalar 0x12 f) = true → c.freeS [f.sa] [f.sd] = true → exec (.addi k f) s =
        done (c.setS f.sd (c.S f.sa + BitVec.ofInt 64 f.imm.toInt))) ∧
      (s.ready k (encScalar 0x30 f) = true → c.freeS [] [f.sd] = true → code ≤ 6 → exec (.srd k f) s = done (c.setS f.sd (
        if code = 0 then BitVec.ofNat 64 s.tg.tick.toNat
        else if code = 1 then BitVec.ofNat 64 s.tg.ofs
        else if code = 2 then s.tg.cyc
        else if code = 3 then BitVec.ofNat 64 (c.logical.getD 0)
        else if code = 4 then ((s.partOfSite k).map (fun p => (s.part p).step)).getD 0
        else if code = 5 then BitVec.ofNat 64 c.seq.entry
        else BitVec.ofNat 64 c.seq.rep))) ∧
      (s.ready k (encScalar 0x31 f) = true → c.freeS [f.sa] [] = true → code = 0 → exec (.ctlw k f) s =
        done { c with adpBase := (c.S f.sa).toNat / 16 % 2 ^ 19 * 16 }) ∧
      (s.ready k (encScalar 0x31 f) = true → c.freeS [f.sa] [] = true → code = 1 → exec (.ctlw k f) s =
        done { c with adpLen := min (c.S f.sa).toNat 1024 })) ∧
  (
    ∀ (k : Site) (f : BranchF) (s : State), f.rsv = 0 → (s.core k).freeS [f.sa] [] = true →
      let c := s.core k
      let a := c.S f.sa
      let t := (c.seq.pc : Int) + f.ofs.toInt
      let holds : Bool := match f.cond.toNat with
        | 0 => true
        | 1 => a = 0
        | 2 => a ≠ 0
        | 3 => a.toInt < 0
        | _ => 0 ≤ a.toInt
      (s.ready k (encBranch 0x00 f) = true → f.cond.toNat ≤ 4 → holds = true → 0 ≤ t → t ≤ 16383 →
        exec (.br k f) s = .next (s.putCore k { c with seq := { c.seq with st := .running, full := false, pc := t.toNat, loops := loopsAt t.toNat c.seq.loops } })) ∧
      (s.ready k (encBranch 0x00 f) = true → f.cond.toNat ≤ 4 → holds = false → exec (.br k f) s = .next (s.advanced k c)) ∧
      (s.ready k (encBranch 0x01 f) = true → 1 ≤ f.ofs.toInt → t ≤ 16383 → f.level.toNat = c.seq.loops.length → a.toNat % 2 ^ 32 = 0 →
        exec (.loop k f) s = .next (s.advanced k { c with seq := { c.seq with pc := t.toNat } })) ∧
      (s.ready k (encBranch 0x01 f) = true → 1 ≤ f.ofs.toInt → t ≤ 16383 → f.level.toNat = c.seq.loops.length → a.toNat % 2 ^ 32 ≠ 0 →
        exec (.loop k f) s = .next (s.advanced k { c with seq := { c.seq with
          loops := { level := f.level.toNat, start := c.seq.pc + 1, stop := t.toNat, left := a.toNat % 2 ^ 32 } :: c.seq.loops } })))

/-- LD and ST (Table 3.6): at an aligned address in range, in a bank of the core that no handover and no error touches, LD
reads the 8 bytes at SA + IMM32 and changes nothing but SD; ST writes them, every byte outside the eight reads as
before, the tick digest takes the CRC-64 of the word's address and its new content (R304), and no register changes.
VLD and VST (R86, R94): at an address that is a multiple of 64 and whose 256 bytes lie in range, where every word with
an enabled lane is in a bank of the core that no handover and no error touches, an enabled lane L of VLD takes bytes
4L to 4L + 3 and a disabled one keeps its value or becomes zero; VST writes the bytes of the enabled lanes, every
other byte of the banks reads as before, the tick digest takes every word that it wrote (R304), and no register
changes. -/
def Obligations.MemoryInstructionsComplete : Prop :=
  (
    ∀ (k : Site) (f : ScalarF) (s : State), f.rsv = 0 →
      let c := s.core k
      let w := (c.S f.sa + BitVec.ofInt 64 f.imm.toInt).toNat / 64
      let a := (c.S f.sa + BitVec.ofInt 64 f.imm.toInt).toNat
      a % 8 = 0 → a + 7 ≤ 0x7FFFFF → c.bank.clear .scalar a 8 = true →
      (s.ready k (encScalar 0x20 f) = true → c.freeS [f.sa] [f.sd] = true → exec (.ld k f) s =
        .next (s.advanced k (c.setS f.sd (BitVec.ofNat 64 (natLE (Tab.getRange 0 c.bank.data a 8)))))) ∧
      (s.ready k (encScalar 0x21 f) = true → c.freeS [f.sa, f.sb] [] = true → ∃ d, exec (.st k f) s = .next (s.advanced k d) ∧
        natLE (Tab.getRange 0 d.bank.data a 8) = (c.S f.sb).toNat ∧
        (∀ x, x < a ∨ a + 8 ≤ x → Tab.get 0 d.bank.data x = Tab.get 0 c.bank.data x) ∧
        d.digest = c.digest + crc64 (bytesLE w 8 ++ Tab.getRange 0 d.bank.data (64 * w) 64) ∧
        d = { c with bank := { c.bank with data := d.bank.data, err := c.bank.err.filter (fun p => p.1 / 68 ≠ w), writeBack := c.bank.writeBack.erase w }, digest := d.digest })) ∧
  (
    ∀ (k : Site) (f : VecF) (s : State), f.rsv = 0 → f.rnd = 0 →
      let c := s.core k
      let a := (c.S f.vc + BitVec.ofNat 64 (f.imm.toNat * 64)).toNat
      let on := fun i => decide ((c.M f.mask).toNat / 2 ^ (16 * i) % 65536 ≠ 0)
      let ws := ((List.range 4).filter on).map (fun i => a / 64 + i)
      a % 64 = 0 → a + 255 ≤ 0x7FFFFF → (∀ i < 4, on i = true → c.bank.clear .vector (a + 64 * i) 64 = true) →
      (s.ready k (encVec 2 0x30 f) = true → c.freeV [f.vd] [f.vc] = true → exec (.vld k f) s = .next (s.advanced k (c.putV f (Vector.ofFn (fun i =>
        BitVec.ofNat 32 (natLE (Tab.getRange 0 c.bank.data (a + 4 * i.val) 4))))))) ∧
      (s.ready k (encVec 2 0x31 f) = true → c.freeV [f.va] [f.vc] = true → ∃ d, exec (.vst k f) s = .next (s.advanced k d) ∧
        (∀ i : Fin 64, (c.M f.mask).getLsbD i.val = true → natLE (Tab.getRange 0 d.bank.data (a + 4 * i.val) 4) = ((c.V f.va)[i]).toNat) ∧
        (∀ x, (x < a ∨ a + 256 ≤ x ∨ (c.M f.mask).getLsbD ((x - a) / 4) = false) → Tab.get 0 d.bank.data x = Tab.get 0 c.bank.data x) ∧
        d.digest = ws.foldl (fun g w => g + crc64 (bytesLE w 8 ++ Tab.getRange 0 d.bank.data (64 * w) 64)) c.digest ∧
        d = { c with bank := { c.bank with data := d.bank.data, err := c.bank.err.filter (fun p => !ws.contains (p.1 / 68)), writeBack := d.bank.writeBack }, digest := d.digest } ∧
        d.bank.writeBack = ws.foldl List.erase c.bank.writeBack))

/-- VADD to VANDN (R87, Table 3.5): lane by lane under the mask, 32-bit sums modulo 2^32 or clamped to the signed or
unsigned range. The vector shifts (R87): the count of a lane is bits [5:0]; a count of 32 or more gives 0, or the sign
for VSAR and VSARI. -/
def Obligations.VectorIntegerAndShiftsComplete : Prop :=
  (
    ∀ (k : Site) (f : VecF) (s : State), f.rsv = 0 → f.rnd = 0 → (s.core k).freeV [f.vd, f.va, f.vb] [] = true →
      let c := s.core k
      let done : (Fin 64 → W32) → Res := fun g => .next (s.advanced k (c.putV f (Vector.ofFn g)))
      let a := fun i : Fin 64 => (c.V f.va)[i]
      let b := fun i : Fin 64 => (c.V f.vb)[i]
      (s.ready k (encVec 2 0x00 f) = true → exec (.vadd k f) s = done (fun i => BitVec.ofNat 32 ((a i).toNat + (b i).toNat))) ∧
      (s.ready k (encVec 2 0x01 f) = true → exec (.vsub k f) s = done (fun i => BitVec.ofInt 32 (((a i).toNat : Int) - (b i).toNat))) ∧
      (s.ready k (encVec 2 0x02 f) = true → exec (.vadds k f) s =
        done (fun i => BitVec.ofInt 32 (max (-2 ^ 31) (min (2 ^ 31 - 1) ((a i).toInt + (b i).toInt))))) ∧
      (s.ready k (encVec 2 0x03 f) = true → exec (.vsubs k f) s =
        done (fun i => BitVec.ofInt 32 (max (-2 ^ 31) (min (2 ^ 31 - 1) ((a i).toInt - (b i).toInt))))) ∧
      (s.ready k (encVec 2 0x04 f) = true → exec (.vaddu k f) s =
        done (fun i => BitVec.ofNat 32 (min (2 ^ 32 - 1) ((a i).toNat + (b i).toNat)))) ∧
      (s.ready k (encVec 2 0x05 f) = true → exec (.vsubu k f) s = done (fun i => BitVec.ofNat 32 ((a i).toNat - (b i).toNat))) ∧
      (s.ready k (encVec 2 0x08 f) = true → exec (.vand k f) s = done (fun i => a i &&& b i)) ∧
      (s.ready k (encVec 2 0x09 f) = true → exec (.vor k f) s = done (fun i => a i ||| b i)) ∧
      (s.ready k (encVec 2 0x0A f) = true → exec (.vxor k f) s = done (fun i => a i ^^^ b i)) ∧
      (s.ready k (encVec 2 0x0B f) = true → exec (.vandn k f) s = done (fun i => a i &&& ~~~(b i)))) ∧
  (
    ∀ (k : Site) (f : VecF) (s : State), f.rsv = 0 → f.rnd = 0 →
      let c := s.core k
      let done : (Fin 64 → W32) → Res := fun g => .next (s.advanced k (c.putV f (Vector.ofFn g)))
      let a := fun i : Fin 64 => (c.V f.va)[i]
      let n := fun i : Fin 64 => ((c.V f.vb)[i]).toNat % 64
      let m := f.imm.toNat % 64
      let shl := fun (x : W32) (n : Nat) => if 32 ≤ n then 0 else BitVec.ofNat 32 (x.toNat * 2 ^ n)
      let shr := fun (x : W32) (n : Nat) => BitVec.ofNat 32 (x.toNat / 2 ^ n)
      let sar := fun (x : W32) (n : Nat) => BitVec.ofInt 32 (x.toInt / 2 ^ n)
      (s.ready k (encVec 2 0x10 f) = true → c.freeV [f.vd, f.va, f.vb] [] = true → exec (.vshl k f) s = done (fun i => shl (a i) (n i))) ∧
      (s.ready k (encVec 2 0x11 f) = true → c.freeV [f.vd, f.va, f.vb] [] = true → exec (.vshr k f) s = done (fun i => shr (a i) (n i))) ∧
      (s.ready k (encVec 2 0x12 f) = true → c.freeV [f.vd, f.va, f.vb] [] = true → exec (.vsar k f) s = done (fun i => sar (a i) (n i))) ∧
      (s.ready k (encVec 2 0x14 f) = true → c.freeV [f.vd, f.va] [] = true → exec (.vshli k f) s = done (fun i => shl (a i) m)) ∧
      (s.ready k (encVec 2 0x15 f) = true → c.freeV [f.vd, f.va] [] = true → exec (.vshri k f) s = done (fun i => shr (a i) m)) ∧
      (s.ready k (encVec 2 0x16 f) = true → c.freeV [f.vd, f.va] [] = true → exec (.vsari k f) s = done (fun i => sar (a i) m)))

/-- The compares (R89): bit L of the mask that VD[2:0] names is 1 exactly where the relation holds and the instruction's
mask bit is 1; every FCMP but FCMPUN is false on a NaN; no vector register changes. VSEL, VMOV and VBCAST, the lane
reductions and the mask operations (R86, R90, Table 3.5). -/
def Obligations.ComparesMovesAndMasksComplete : Prop :=
  (
    ∀ (k : Site) (f : VecF) (s : State), f.rsv = 0 → f.rnd = 0 → 1 ≤ f.vd.toNat → f.vd.toNat < 8 → (s.core k).freeV [f.va, f.vb] [] = true →
      let c := s.core k
      let a := fun i : Fin 64 => (c.V f.va)[i]
      let b := fun i : Fin 64 => (c.V f.vb)[i]
      let sets : Res → (Fin 64 → Bool) → Prop := fun r p => ∃ m : W64, r = .next (s.advanced k (c.setM (f.vd.setWidth 3) m)) ∧
        ∀ i : Fin 64, m.getLsbD i.val = ((c.M f.mask).getLsbD i.val && p i)
      let nan := fun i : Fin 64 => dec32 (a i) = .nan ∨ dec32 (b i) = .nan
      (s.ready k (encVec 2 0x18 f) = true → sets (exec (.vcmpeq k f) s) (fun i => a i = b i)) ∧
      (s.ready k (encVec 2 0x19 f) = true → sets (exec (.vcmplt k f) s) (fun i => (a i).toInt < (b i).toInt)) ∧
      (s.ready k (encVec 2 0x1A f) = true → sets (exec (.vcmpltu k f) s) (fun i => (a i).toNat < (b i).toNat)) ∧
      (s.ready k (encVec 3 0x08 f) = true → sets (exec (.fcmpeq k f) s) (fun i => feq32 (a i) (b i)) ∧ ∀ i, nan i → feq32 (a i) (b i) = false) ∧
      (s.ready k (encVec 3 0x09 f) = true → sets (exec (.fcmplt k f) s) (fun i => flt32 (a i) (b i)) ∧ ∀ i, nan i → flt32 (a i) (b i) = false) ∧
      (s.ready k (encVec 3 0x0A f) = true → sets (exec (.fcmple k f) s) (fun i => flt32 (a i) (b i) || feq32 (a i) (b i))) ∧
      (s.ready k (encVec 3 0x0B f) = true → sets (exec (.fcmpun k f) s) (fun i => decide (nan i)))) ∧
  (
    ∀ (k : Site) (f : VecF) (s : State), f.rsv = 0 → f.rnd = 0 →
      let c := s.core k
      let m := c.M f.mask
      let on := fun i : Fin 64 => m.getLsbD i.val
      ((c.freeV [f.vd, f.va, f.vb] [] = true → s.ready k (encVec 2 0x20 f) = true → exec (.vsel k f) s =
          .next (s.advanced k (c.setV f.vd (Vector.ofFn (fun i => if on i then (c.V f.va)[i] else (c.V f.vb)[i]))))) ∧
       (c.freeV [f.vd, f.va] [] = true → s.ready k (encVec 2 0x21 f) = true → exec (.vmov k f) s = .next (s.advanced k (c.putV f (c.V f.va)))) ∧
       (c.freeV [f.vd] [f.va] = true → s.ready k (encVec 2 0x22 f) = true → exec (.vbcast k f) s =
          .next (s.advanced k (c.putV f (Vector.replicate 64 (BitVec.ofNat 32 (c.S f.va).toNat))))) ∧
       (c.freeV [f.va] [f.vd] = true → s.ready k (encVec 4 0x10 f) = true → exec (.vrsum k f) s =
          .next (s.advanced k (c.setS f.vd (BitVec.ofNat 64 (fixedTree 6 ((List.finRange 64).map (fun i => if on i then (c.V f.va)[i] else 0#32))).toNat)))) ∧
       (c.freeV [f.va] [f.vd] = true → s.ready k (encVec 4 0x11 f) = true → exec (.vrmax k f) s =
          .next (s.advanced k (c.setS f.vd (BitVec.ofNat 64 (((List.finRange 64).map (fun i => if on i then (c.V f.va)[i] else 0xFF800000#32)).foldl fmax32 0xFF800000#32).toNat)))) ∧
       (c.freeV [] [f.vd] = true → f.va.toNat < 8 → s.ready k (encVec 4 0x24 f) = true → exec (.mcount k f) s =
          .next (s.advanced k (c.setS f.vd (BitVec.ofNat 64 ((List.finRange 64).countP (fun i => (c.M (f.va.setWidth 3)).getLsbD i.val))))))) ∧
      (c.freeV [] [] = true → 1 ≤ f.vd.toNat → f.vd.toNat < 8 →
        let sets : W64 → Res := fun v => .next (s.advanced k (c.setM (f.vd.setWidth 3) v))
        (s.ready k (encVec 4 0x20 f) = true → exec (.msetn k f) s = sets (BitVec.ofNat 64 (2 ^ (min 64 f.imm.toNat) - 1))) ∧
        (s.ready k (encVec 4 0x21 f) = true → f.va.toNat < 8 → f.vb.toNat < 8 → exec (.mand k f) s =
          sets (c.M (f.va.setWidth 3) &&& c.M (f.vb.setWidth 3))) ∧
        (s.ready k (encVec 4 0x22 f) = true → f.va.toNat < 8 → f.vb.toNat < 8 → exec (.mor k f) s =
          sets (c.M (f.va.setWidth 3) ||| c.M (f.vb.setWidth 3))) ∧
        (s.ready k (encVec 4 0x23 f) = true → f.va.toNat < 8 → exec (.mnot k f) s = sets (~~~(c.M (f.va.setWidth 3))))))

/-- The FP32 operations (R88, R91, R92): the result of each enabled lane, and the quiet NaN 0x7FC0_0000 wherever an
operand is a NaN. The conversions (R66, R93): where they leave their results. TOBF16 writes half h of VD, lane by lane
under the mask; FROMBF16 and FROMMX widen; TOMX writes the element bytes and the two scale codes of half h and leaves
every other byte of VD. RND 0b01 draws for the two narrowing conversions, which then move the counter on by 16. -/
def Obligations.VectorFloatAndConversionsComplete : Prop :=
  (
    ∀ (k : Site) (f : VecF) (s : State), f.rsv = 0 → f.rnd = 0 →
      let c := s.core k
      let done : (Fin 64 → W32) → Res := fun g => .next (s.advanced k (c.putV f (Vector.ofFn g)))
      let a := fun i : Fin 64 => (c.V f.va)[i]
      let b := fun i : Fin 64 => (c.V f.vb)[i]
      let d := fun i : Fin 64 => (c.V f.vc)[i]
      let nan := fun x : W32 => dec32 x = .nan
      (s.ready k (encVec 3 0x00 f) = true → c.freeV [f.vd, f.va, f.vb] [] = true → exec (.fadd k f) s = done (fun i => fadd32 (a i) (b i))) ∧
      (s.ready k (encVec 3 0x01 f) = true → c.freeV [f.vd, f.va, f.vb] [] = true → exec (.fsub k f) s = done (fun i => fsub32 (a i) (b i))) ∧
      (s.ready k (encVec 3 0x02 f) = true → c.freeV [f.vd, f.va, f.vb] [] = true → exec (.fmul k f) s = done (fun i => fmul32 (a i) (b i))) ∧
      (s.ready k (encVec 3 0x03 f) = true → c.freeV [f.vd, f.va, f.vb, f.vc] [] = true → exec (.ffma k f) s = done (fun i => ffma32 (a i) (b i) (d i))) ∧
      (s.ready k (encVec 3 0x04 f) = true → c.freeV [f.vd, f.va, f.vb] [] = true → exec (.fmax k f) s = done (fun i => fmax32 (a i) (b i))) ∧
      (s.ready k (encVec 3 0x05 f) = true → c.freeV [f.vd, f.va, f.vb] [] = true → exec (.fmin k f) s = done (fun i => fmin32 (a i) (b i))) ∧
      (s.ready k (encVec 4 0x00 f) = true → c.freeV [f.vd, f.va] [] = true → exec (.vexp2 k f) s = done (fun i => exp2of (a i))) ∧
      (s.ready k (encVec 4 0x01 f) = true → c.freeV [f.vd, f.va] [] = true → exec (.vrsqrt k f) s = done (fun i => rsqrt32 (a i))) ∧
      (∀ x y z : W32, nan x ∨ nan y → fadd32 x y = 0x7FC00000#32 ∧ fsub32 x y = 0x7FC00000#32 ∧ fmul32 x y = 0x7FC00000#32 ∧
        fmax32 x y = 0x7FC00000#32 ∧ fmin32 x y = 0x7FC00000#32 ∧ ffma32 x y z = 0x7FC00000#32 ∧ ffma32 z x y = 0x7FC00000#32)) ∧
  (
    ∀ (k : Site) (f : VecF) (s : State), f.rsv = 0 → (s.core k).freeV [f.vd, f.va] [] = true →
      let c := s.core k
      let h := f.imm.toNat % 2
      let img := vregNat (c.V f.va)
      let rnd : Nat → Rnd := fun l => if f.rnd = 1 then .sr (laneDraw c.rnd.seed c.rnd.stream c.rnd.ctr l) else .rne
      let ctr : BitVec 48 := if f.rnd = 1 then c.rnd.ctr + 16 else c.rnd.ctr
      (s.ready k (encVec 4 0x08 f) = true → f.rnd.toNat ≤ 1 → f.mask = 0 → f.fmt.toNat ≤ 5 → ∃ d, exec (.vcvtTomx k f) s = .next (s.advanced k d) ∧
        (let e := rowElemBytes f.fmt.toNat
         let v := vregNat (d.V f.vd)
         let old := vregNat (c.V f.vd)
         (∀ (b : Fin 2) (r : Nat × List Nat), r = toMX f.fmt.toNat ((List.range 32).map (fun i => rnd (32 * b.val + i)))
              ((List.finRange 32).map (fun i => dec32 ((c.V f.va).toList.getD (32 * b.val + i.val) 0))) →
            v / 2 ^ (8 * (e + 2 * h + b.val)) % 256 = r.1 ∧
            ∀ i : Fin 32, packedAt v (elemBits f.fmt.toNat) (64 * h + 32 * b.val + i.val) = r.2.getD i.val 0) ∧
         (∀ x, x < 256 → (x < h * (e / 2) ∨ (h + 1) * (e / 2) ≤ x) → x ≠ e + 2 * h → x ≠ e + 2 * h + 1 →
            v / 2 ^ (8 * x) % 256 = old / 2 ^ (8 * x) % 256)) ∧
        d = { c.setV f.vd (d.V f.vd) with rnd := { c.rnd with ctr := ctr } }) ∧
      (s.ready k (encVec 4 0x09 f) = true → f.rnd = 0 → f.fmt.toNat ≤ 5 → exec (.vcvtFrommx k f) s =
        .next (s.advanced k (c.putV f (Vector.ofFn (fun i =>
          match scaleExp (recScale f.fmt.toNat img (2 * h + i.val / 32)) with
          | none => 0x7FC00000#32
          | some x => (fpScale (decodeElem f.fmt.toNat (packedAt img (elemBits f.fmt.toNat) (64 * h + i.val))) (x + intExp f.fmt.toNat)).rne32))))) ∧
      (s.ready k (encVec 4 0x0A f) = true → f.rnd.toNat ≤ 1 → ∃ d, exec (.vcvtTobf16 k f) s = .next (s.advanced k d) ∧
        (∀ l : Fin 64, vregNat (d.V f.vd) / 2 ^ (1024 * h + 16 * l.val) % 65536 =
          if (c.M f.mask).getLsbD l.val then toBF16 (rnd l.val) (c.V f.va)[l]
          else if f.zm = 1 then 0 else vregNat (c.V f.vd) / 2 ^ (1024 * h + 16 * l.val) % 65536) ∧
        (∀ l : Fin 64, vregNat (d.V f.vd) / 2 ^ (1024 * (1 - h) + 16 * l.val) % 65536 = vregNat (c.V f.vd) / 2 ^ (1024 * (1 - h) + 16 * l.val) % 65536) ∧
        d = { c.setV f.vd (d.V f.vd) with rnd := { c.rnd with ctr := ctr } }) ∧
      (s.ready k (encVec 4 0x0B f) = true → f.rnd = 0 → exec (.vcvtFrombf16 k f) s =
        .next (s.advanced k (c.putV f (Vector.ofFn (fun i => (decodeElem 6 (img / 2 ^ (1024 * h + 16 * i.val) % 65536)).rne32))))))

/-- VADN and VAUP (R101 to R104): with a valid descriptor under the row's tag and every byte they read in banks of the
core, VADN writes h[0] to h[rank − 1], each in its lane, and zero to the other lanes (the format of the row is a free
value, log 23); VAUP adds to each enabled lane the products of its column. No other register changes. -/
def Obligations.AdapterCompletes : Prop :=
  ∀ (k : Site) (f : VecF) (s : State), f.rsv = 0 → f.rnd = 0 →
    let c := s.core k
    let img := vregNat (c.V f.va)
    let fmt := Config.rowFormat img % 6
    let tag := recTag fmt img
    let at_ := c.adpBase + 16 * tag
    let d := adpDesc (Tab.getRange 0 c.bank.data at_ 16)
    let pa := d.a + (c.S f.vc).toNat
    let na := 16 * d.rank * elemBits d.afmt + 4 * d.rank
    let pb := d.b + (c.S f.vc).toNat
    let nb := if d.bfmt = 6 then 256 * d.rank else 128 * d.rank + 128 * ((d.rank + 31) / 32)
    tag < c.adpLen → at_ + 16 ≤ 0x800000 → c.bank.clear .adapter at_ 16 = true → d.valid = true → d.bad fmt = false →
    (f.mask = 0 → c.freeV [f.vd, f.va] [f.vc] = true → (na = 0 ∨ pa + na ≤ 0x800000) → c.bank.clear .adapter pa na = true → s.ready k (encVec 5 0x00 f) = true → exec (.vadn k f) s =
      .next (s.advanced k (c.setV f.vd (Vector.ofFn (fun i => if i.val < d.rank then
        adnLane fmt img d (natLE (Tab.getRange 0 c.bank.data pa na)) (if f.imm.toNat % 2 = 1 then (c.V f.vd)[i] else 0) i.val else 0))))) ∧
    (c.freeV [f.vd, f.va, f.vb] [f.vc] = true → (nb = 0 ∨ pb + nb ≤ 0x800000) → c.bank.clear .adapter pb nb = true → s.ready k (encVec 5 0x01 f) = true → exec (.vaup k f) s =
      .next (s.advanced k (c.putV f (Vector.ofFn (fun i =>
        aupLane d (natLE (Tab.getRange 0 c.bank.data pb nb)) (c.V f.vb) (c.V f.vd)[i] (64 * (f.imm.toNat % 2) + i.val))))))

/-- Where a core's instructions stop (R85, R106, Table 3.11), for ADD as the sequencer's example of the checks that come
before every instruction, and for the address and operand checks of LD, ST, SRD, CTLW, BR and LOOP: the core is left
as `trap` leaves it, with the kind and DETAIL that the table names. Where vector instructions stop (R82, R84, R85,
Table 3.13), lower kinds first: a non-zero reserved field, a reserved RND and a stochastic RND on an operation that
narrows nothing, a mask destination that is M0 or no mask, a MASK other than M0 for VCVT.TOMX and VADN, a format that
the conversions do not allow, and a register of the staging while STAGE was the last staging instruction. -/
def Obligations.InstructionTraps : Prop :=
  (
    ∀ (k : Site) (f : ScalarF) (b : BranchF) (s : State),
      let c := s.core k
      let a := (c.S f.sa + BitVec.ofInt 64 f.imm.toInt).toNat
      let hi : W64 → Nat := fun w => w.toNat / 2 ^ 32
      (c.fetches = false → exec (.add k f) s = .next s) ∧
      (c.fetches = true → c.fetch c.seq.pc = none → exec (.add k f) s = .next (s.trap k 0x02 c.seq.pc)) ∧
      (∀ v, c.fetches = true → c.fetch c.seq.pc = some v → knownWord v = false → exec (.add k f) s = .next (s.trap k 0x01 (hi v))) ∧
      (s.ready k (encScalar 0x00 f) = true → f.rsv ≠ 0 → exec (.add k f) s = .next (s.trap k 0x01 (hi (encScalar 0x00 f)))) ∧
      (s.ready k (encScalar 0x20 f) = true → f.rsv = 0 → c.freeS [f.sa] [f.sd] = true → a % 8 ≠ 0 → exec (.ld k f) s = .next (s.trap k 0x06 a)) ∧
      (s.ready k (encScalar 0x20 f) = true → f.rsv = 0 → c.freeS [f.sa] [f.sd] = true → a % 8 = 0 → 0x7FFFFF < a + 7 →
        exec (.ld k f) s = .next (s.trap k 0x07 a)) ∧
      (s.ready k (encScalar 0x21 f) = true → f.rsv = 0 → c.freeS [f.sa, f.sb] [] = true → a % 8 ≠ 0 → exec (.st k f) s = .next (s.trap k 0x06 a)) ∧
      (s.ready k (encScalar 0x30 f) = true → 7 ≤ f.imm.toNat % 16 → exec (.srd k f) s = .next (s.trap k 0x01 (hi (encScalar 0x30 f)))) ∧
      (s.ready k (encScalar 0x31 f) = true → 2 ≤ f.imm.toNat % 16 → exec (.ctlw k f) s = .next (s.trap k 0x01 (hi (encScalar 0x31 f)))) ∧
      (s.ready k (encBranch 0x00 b) = true → 5 ≤ b.cond.toNat → exec (.br k b) s = .next (s.trap k 0x01 (hi (encBranch 0x00 b)))) ∧
      (s.ready k (encBranch 0x01 b) = true → b.ofs.toInt < 1 → exec (.loop k b) s = .next (s.trap k 0x01 (hi (encBranch 0x01 b)))) ∧
      (s.ready k (encBranch 0x01 b) = true → b.rsv = 0 → 1 ≤ b.ofs.toInt → (c.seq.pc : Int) + b.ofs.toInt ≤ 16383 → c.freeS [b.sa] [] = true →
        b.level.toNat ≠ c.seq.loops.length → exec (.loop k b) s = .next (s.trap k 0x21 b.level.toNat))) ∧
  (
    ∀ (k : Site) (f : VecF) (s : State),
      let c := s.core k
      let ill : W64 → Res := fun w => .next (s.trap k 0x01 (w.toNat / 2 ^ 32))
      (s.ready k (encVec 2 0x00 f) = true → (f.rsv ≠ 0 ∨ 1 ≤ f.rnd.toNat) → exec (.vadd k f) s = ill (encVec 2 0x00 f)) ∧
      (s.ready k (encVec 3 0x00 f) = true → (f.rsv ≠ 0 ∨ 1 ≤ f.rnd.toNat) → exec (.fadd k f) s = ill (encVec 3 0x00 f)) ∧
      (s.ready k (encVec 4 0x0A f) = true → 2 ≤ f.rnd.toNat → exec (.vcvtTobf16 k f) s = ill (encVec 4 0x0A f)) ∧
      (s.ready k (encVec 2 0x18 f) = true → (f.vd = 0 ∨ 8 ≤ f.vd.toNat) → exec (.vcmpeq k f) s = ill (encVec 2 0x18 f)) ∧
      (s.ready k (encVec 4 0x21 f) = true → (f.vd = 0 ∨ 8 ≤ f.vd.toNat ∨ 8 ≤ f.va.toNat ∨ 8 ≤ f.vb.toNat) → exec (.mand k f) s = ill (encVec 4 0x21 f)) ∧
      (s.ready k (encVec 4 0x08 f) = true → f.mask ≠ 0 → exec (.vcvtTomx k f) s = ill (encVec 4 0x08 f)) ∧
      (s.ready k (encVec 5 0x00 f) = true → f.mask ≠ 0 → exec (.vadn k f) s = ill (encVec 5 0x00 f)) ∧
      (s.ready k (encVec 4 0x08 f) = true → f.rsv = 0 → f.rnd.toNat ≤ 1 → f.mask = 0 → 6 ≤ f.fmt.toNat →
        exec (.vcvtTomx k f) s = .next (s.trap k 0x03 f.fmt.toNat)) ∧
      (s.ready k (encVec 4 0x09 f) = true → f.rsv = 0 → f.rnd = 0 → 6 ≤ f.fmt.toNat → exec (.vcvtFrommx k f) s = .next (s.trap k 0x03 f.fmt.toNat)) ∧
      (s.ready k (encVec 2 0x21 f) = true → f.rsv = 0 → f.rnd = 0 → c.seq.ord = .stage → (24 ≤ f.vd.toNat ∨ 24 ≤ f.va.toNat) →
        ∃ r : BitVec 5, 24 ≤ r.toNat ∧ (r = f.vd ∨ r = f.va) ∧ exec (.vmov k f) s = .next (s.trap k 0x04 r.toNat)))

/-! ## The array, the queues and synchronisation -/

/-- The array instructions (R76, R97, Table 3.7): with room in the array's queue of 8 and its own checks met, each joins
the queue behind the others, with the operands its fields and scalar registers hold when it issues, and the program
goes on; STAGE and UNSTAGE also become the last staging instruction of the program (R82). A vector instruction that
meets no fault at issue and finds earlier ones waiting in the vector engine's queue of 8 joins it behind them (R76),
for VADD, FFMA, VLD and VST; with the queue full the sequencer stops behind it. -/
def Obligations.ArrayInstructionsQueue : Prop :=
  (
    ∀ (k : Site) (f : ArrF) (ups : List Upset) (s : State), f.rsv = 0 → (s.core k).arr.q.length < 8 →
      let c := s.core k
      let joins : ArrOp → Core := fun op => { c with arr := { c.arr with q := c.arr.q ++ [{ pc := c.seq.pc, op := op, before := c.vq.length }] } }
      let done : Core → Res := fun d => .next (s.advanced k d)
      (s.ready k (encArr 0x00 f) = true → f.fuse.toNat < 2 → f.wfmt.toNat ≤ 6 → c.seq.ord = .stage → exec (.tload k f) s =
        done (joins (.tload f.wfmt.toNat f.win.toNat (f.fuse.toNat = 1) 0 0))) ∧
      (s.ready k (encArr 0x01 f) = true → f.afmt.toNat ≤ 6 → c.seq.ord = .stage → exec (.pass k f ups) s =
        done (joins (.pass f.group.toNat f.afmt.toNat f.first.toNat f.n.toNat f.win.toNat ups))) ∧
      (s.ready k (encArr 0x08 f) = true → exec (.gopen k f) s =
        done (joins (.gopen f.group.toNat f.first.toNat f.n.toNat))) ∧
      (s.ready k (encArr 0x09 f) = true → exec (.gclose k f) s = done (joins (.gclose f.group.toNat))) ∧
      (s.ready k (encArr 0x0A f) = true → f.fuse.toNat ≤ 2 → c.freeS [f.sa] [] = true → (c.S f.sa).toNat % 64 = 0 →
        (c.groupCount f.group.toNat = 0 ∨ (c.S f.sa).toNat + 512 * c.groupCount f.group.toNat ≤ 0x800000) → exec (.gdrainB k f) s =
        done (joins (.gdrainB f.group.toNat f.fuse.toNat (c.S f.sa).toNat))) ∧
      (s.ready k (encArr 0x0B f) = true → f.fuse.toNat ≤ 2 → f.sa.toNat % 2 = 0 → (c.seq.ord = .stage → f.sa.toNat < 24) → exec (.gdrainV k f) s =
        done (joins (.gdrainV f.group.toNat f.fuse.toNat f.first.toNat f.sa.toNat))) ∧
      (s.ready k (encArr 0x0C f) = true → exec (.grel k f) s = done (joins (.grel f.group.toNat))) ∧
      (s.ready k (encArr 0x0D f) = true → exec (.gside k f) s = done (joins (.gside f.first.toNat f.sa.toNat))) ∧
      (s.ready k (encArr 0x10 f) = true → exec (.stage k f) s = done { joins .stage with seq := { c.seq with ord := .stage } }) ∧
      (s.ready k (encArr 0x11 f) = true → exec (.unstage k f) s = done { joins .unstage with seq := { c.seq with ord := .unstage } })) ∧
  (
    ∀ (k : Site) (f : VecF) (s : State), f.rsv = 0 → f.rnd = 0 → (s.core k).seq.ord ≠ .stage → (s.core k).vq ≠ [] →
      let c := s.core k
      let joins : W64 → Res := fun w =>
        if c.vq.length < 8 then .next (s.advanced k { c with vq := c.vq ++ [{ pc := c.seq.pc, word := w }] })
        else .next (s.putCore k { c with seq := { c.seq with st := .running, full := true } })
      (s.ready k (encVec 2 0x00 f) = true → exec (.vadd k f) s = joins (encVec 2 0x00 f)) ∧
      (s.ready k (encVec 3 0x03 f) = true → exec (.ffma k f) s = joins (encVec 3 0x03 f)) ∧
      (s.ready k (encVec 2 0x30 f) = true → exec (.vld k f) s = joins (encVec 2 0x30 f)) ∧
      (s.ready k (encVec 2 0x31 f) = true → exec (.vst k f) s = joins (encVec 2 0x31 f)))

/-- What the array does with the operation at the head of its queue (R37, R55, R58, R59, Table 2.6), in the states that
allow it: GOPEN opens a free group over rows that no other group holds and clears them; a PASS without a tile raises
NO_TILE; GDRAIN.V copies a store row of a closed group into two vector registers; GREL frees a closed group; GSIDE
reads the fused statistics of a row. Nothing else of the core changes. The events of the array (R41, R58, R70, R82,
R144, Table 2.6): a shadow tile without a code fault becomes ready with its check sums, and one with a code fault is
discarded and raises TILE_CODE; a closing group at the head of the queue closes when no row of it waits for its
compare; a drain ends; a release behind a drain frees its group; STAGE binds once no drain into V24 to V31 is under
way, and UNSTAGE unbinds; each leaves the head of the queue where it came from it, and the units go on. -/
def Obligations.ArrayOperationsComplete : Prop :=
  (
    ∀ (c : Core) (now : Stamp) (pc g : Nat), g < 8 →
      let tries : ArrOp → Core × ArrRes := fun op => c.stepArr now { pc := pc, op := op } Config.freeValue
      (∀ base count, (c.arr.group g).st = .free → 0 < count → base + count ≤ 1280 → c.arr.groups.toList.any (fun x => x.overlaps base count) = false →
        ∃ d, tries (.gopen g base count) = (d, .done) ∧
          d.arr.group g = { st := .opened, base := base, count := count } ∧ (∀ h, h ≠ g → d.arr.group h = c.arr.group h) ∧
          (∀ r, d.arr.row r = if base ≤ r ∧ r < base + count then zeroRow else c.arr.row r) ∧
          d = { c with arr := { c.arr with groups := d.arr.groups, store := d.arr.store } }) ∧
      (∀ afmt first n win, c.arr.active = none → c.arr.shadow = none → (c.arr.group g).st = .opened → 0 < n → first + n ≤ (c.arr.group g).count →
        tries (.pass g afmt first n win []) = (c, .fault 0x15 g)) ∧
      (∀ row vd, (c.arr.group g).st = .closed → (c.arr.group g).base ≤ row → row < (c.arr.group g).base + (c.arr.group g).count → vd + 1 < 32 →
        ∃ d, tries (.gdrainV g 0 row vd) = (d, .done) ∧
          (∀ i : Fin 64, (d.V (BitVec.ofNat 5 vd))[i] = (c.arr.row row)[i.val] ∧ (d.V (BitVec.ofNat 5 (vd + 1)))[i] = (c.arr.row row)[64 + i.val]) ∧
          (∀ v : BitVec 5, v.toNat ≠ vd → v.toNat ≠ vd + 1 → d.V v = c.V v) ∧
          d.arr.group g = { c.arr.group g with drains := (c.arr.group g).drains ++ [decide (24 ≤ vd)] } ∧ (∀ h, h ≠ g → d.arr.group h = c.arr.group h) ∧
          (∀ r, d.arr.row r = c.arr.row r ∧ d.arr.side r = c.arr.side r) ∧ d = { c with vr := d.vr, arr := d.arr }) ∧
      ((c.arr.group g).st = .closed → (c.arr.group g).drains = [] →
        ∃ d, tries (.grel g) = (d, .done) ∧ d.arr.group g = {} ∧ (∀ h, h ≠ g → d.arr.group h = c.arr.group h) ∧
          d = { c with arr := { c.arr with groups := d.arr.groups } }) ∧
      (∀ row sd, row < 1280 → 0 < sd → sd < 32 → ∃ d, tries (.gside row sd) = (d, .done) ∧
        (d.S (BitVec.ofNat 5 sd)).toNat = (c.arr.side row).rmax.toNat + 2 ^ 32 * (c.arr.side row).rsum.toNat ∧
        (∀ x : BitVec 5, x.toNat ≠ sd → d.S x = c.S x) ∧ d = { c with sr := d.sr })) ∧
  (
    ∀ (k : Site) (g : Fin 8) (s : State),
      let c := s.core k
      (∀ t, c.arr.shadow = some t → c.arr.shadowReady = false → t.codeFault = none → exec (.tileReady k) s =
        .next (s.putCore k { c with
          arr := { c.arr with shadow := some t.withSums, shadowReady := true }
          sprHdr := if t.headed then satAdd c.sprHdr 1 else c.sprHdr
          sprDense := if t.headed ∧ t.denseBit then satAdd c.sprDense 1 else c.sprDense })) ∧
      (∀ t d, c.arr.shadow = some t → c.arr.shadowReady = false → t.codeFault = some d → exec (.tileReady k) s =
        .next (s.raiseFault k { c with arr := { c.arr with shadow := none } } 0x14 d c.arr.loadPc)) ∧
      (∀ a q, c.arr.q = a :: q → a.op = .gclose g → (c.arr.group g).closing = true → (∀ r ∈ c.arr.pend, r.group ≠ g.val) → exec (.gcloseDone k g) s =
        .next (s.putCore k { c with arr := { c.arr.setGroup g { c.arr.group g with st := .closed, closing := false } with q := q } })) ∧
      (∀ d ds, (c.arr.group g).drains = d :: ds → exec (.drainDone k g) s =
        .next (s.putCore k { c with arr := c.arr.setGroup g { c.arr.group g with drains := ds } })) ∧
      (∀ a q, c.arr.q = a :: q → a.op = .grel g → (c.arr.group g).releasing = true → (c.arr.group g).drains = [] → exec (.grelDone k g) s =
        .next (s.putCore k { c with arr := { c.arr.setGroup g {} with q := q } })) ∧
      (∀ a q, c.arr.q = a :: q → a.op = .stage → c.seq.stageReq = true → (∀ h < 8, true ∉ (c.arr.group h).drains) → exec (.stageBind k) s =
        .next (s.putCore k { c with seq := { c.seq with staged := true, stageReq := false }, arr := { c.arr with q := q } })) ∧
      (∀ a q, c.arr.q = a :: q → a.op = .unstage → c.seq.unstageReq = true → exec (.unstageDone k) s =
        .next (s.putCore k { c with seq := { c.seq with staged := false, unstageReq := false }, arr := { c.arr with q := q } })))

/-- A compared row-block (R68 to R71, R73 to R75): with the lane in service and no special value every compared row-block
counts in BLOCKS; one that agrees changes nothing else of the lane; one that disagrees, or the one that an armed
injection makes disagree, sets its group's suspect bit, counts an event and disarms the injection, and the record
keeps what an earlier cycle wrote; a skipped block, or any block while the lane is off, counts in SKIPS and nothing
else. CHECK_COMPARE takes the oldest row whose compares are due; where one of its blocks disagrees, the check is noted
for the core's partition, and firmware is told. -/
def Obligations.CheckLaneCompares : Prop :=
  (∀ (now : Stamp) (r : RowChk) (c : Core) (i : Nat) (b : BlkChk),
    let d := compareBlock now r c (i, b)
    let bad := c.chk.inj || disagrees (decide (r.wfmt = 5)) b
    ((c.chk.off || b.skip) = true → d = { c with chk := { c.chk with skips := satAdd c.chk.skips 1 } }) ∧
    ((c.chk.off || b.skip) = false → bad = false → d = { c with chk := { c.chk with blocks := c.chk.blocks + 1 } }) ∧
    ((c.chk.off || b.skip) = false → bad = true →
      d = { c with chk := { c.chk with blocks := c.chk.blocks + 1, events := satAdd c.chk.events 1, inj := false, suspect := d.chk.suspect, record := d.chk.record, cap := d.chk.cap } } ∧
      (r.group < 8 → d.chk.suspect.getLsbD r.group = true) ∧ (∀ j, j ≠ r.group → d.chk.suspect.getLsbD j = c.chk.suspect.getLsbD j) ∧
      d.chk.record.valid = true ∧
      (c.chk.record.valid = false → d.chk.record.body = { injected := c.chk.inj, wfmt := r.wfmt, afmt := r.afmt, group := r.group, block := i, row := r.row, at_ := now, sOut := b.sOut, sChk := b.sChk, tau := tauOf (decide (r.wfmt = 5)) b.m } ∧ d.chk.cap.captured = true) ∧
      (c.chk.record.valid = true → d.chk.record.more = true ∧
        (c.chk.record.cycle ≠ now → d.chk.record.body = c.chk.record.body ∧ d.chk.cap = c.chk.cap)))) ∧
  (∀ (k : Site) (s : State) (r : RowChk) (rest : List RowChk), (s.core k).arr.pend = r :: rest →
    let c := s.core k
    let d := (r.blocks.mapIdx (fun i b => (i, b))).foldl (compareBlock s.coreNow r) { c with arr := { c.arr with pend := rest } }
    let hit := !c.chk.off && r.blocks.any (fun b => !b.skip && (c.chk.inj || disagrees (decide (r.wfmt = 5)) b))
    (hit = false ∨ s.partOfSite k = none → exec (.checkCompare k) s = .next (s.putCore k d)) ∧
    (hit = true → ∀ p, s.partOfSite k = some p → ∃ t, exec (.checkCompare k) s = .next t ∧
      t.part p = { s.part p with checkSites := (t.part p).checkSites } ∧ (∀ x, x ∈ (t.part p).checkSites ↔ x = k.val ∨ x ∈ (s.part p).checkSites) ∧
      (∀ q, q ≠ p → t.part q = s.part q) ∧ t = { s.putCore k d with parts := t.parts, out := .event 0xFF 0x70 [k.val] :: s.out })) ∧
  (∀ (k : Site) (s : State), (s.core k).arr.pend = [] → exec (.checkCompare k) s = .next s)

/-- Local semaphores, END and the col instructions (R98, R99, R109, R175, R191, R194): SEMPOST adds to a semaphore that
stays at 65,535 or less; SEMWAIT takes its count when the semaphore has it, and otherwise waits under its cause with
nothing taken; END issues and stops the program's fetch; ARRIVE sends its arrival from the core's router; WAIT and
ARRIVE_WAIT end with the status of a resolved col, ARRIVE_WAIT with its arrival sent. A SEMWAIT that waits completes
once its count is there (R98), and a run retires behind its END when nothing of it is under way in the array and the
vector engine (R109); until then END_RETIRE does nothing. -/
def Obligations.SyncCompletes : Prop :=
  (
    ∀ (k : Site) (f : SyncF) (s : State), f.rsv = 0 →
      let c := s.core k
      let n := f.imm.toNat
      let l := (c.L f.sem.toNat).toNat
      let copy := c.copyOf f.col.toNat
      let arr : Arrival := { col := f.col.toNat, count := f.imm.toNat / 32, dl := if c.S f.sa = 0 then none else some (c.S f.sa), router := routerOf k, from_ := lPort k }
      let stays : Core := { c with seq := { c.seq with st := .waiting, wcause := 1, full := false } }
      let done : Core → Res := fun d => .next (s.advanced k d)
      (s.ready k (encSync 0x00 f) = true → n ≠ 0 → f.cause = 0 → f.col = 0 → f.sa = 0 → l + n ≤ 65535 →
        exec (.sempost k f) s = done (c.setL f.sem.toNat (BitVec.ofNat 16 (l + n)))) ∧
      (s.ready k (encSync 0x00 f) = true → n ≠ 0 → f.cause = 0 → f.col = 0 → f.sa = 0 → 65535 < l + n →
        exec (.sempost k f) s = .next (s.trap k 0x20 f.sem.toNat)) ∧
      (s.ready k (encSync 0x01 f) = true → n ≠ 0 → f.cause ≠ 4 → f.cause ≠ 7 → f.col = 0 → f.sa = 0 → n ≤ l →
        exec (.semwait k f) s = done (c.setL f.sem.toNat (BitVec.ofNat 16 (l - n)))) ∧
      (s.ready k (encSync 0x01 f) = true → n ≠ 0 → f.cause ≠ 4 → f.cause ≠ 7 → f.col = 0 → f.sa = 0 → l < n →
        exec (.semwait k f) s = .next (s.putCore k { c with seq := { c.seq with st := .waiting, wcause := f.cause.toNat, full := false } })) ∧
      (s.ready k (encSync 0x02 f) = true → f.cause = 0 → f.sem = 0 → f.col = 0 → f.sa = 0 → n = 0 →
        exec (.endRun k f) s = done { c with seq := { c.seq with endIssued := true } }) ∧
      (s.ready k (encSync 0x10 f) = true → f.cause = 0 → f.sem = 0 → 0 < n / 32 → n % 32 = 0 → c.freeS [f.sa] [] = true →
        (copy.own = true → exec (.arrive k f) s = .next { s.advanced k c with arrivals := queueArrival s.arrivals arr }) ∧
        (copy.own = false → exec (.arrive k f) s = .next (s.trap k 0x41 f.col.toNat))) ∧
      (s.ready k (encSync 0x11 f) = true → f.cause = 0 → f.sem = 0 → n < 32 → c.freeS [] [colReg f] = true → copy.own = true →
        (copy.show_ = .ok → exec (.wait k f) s = done (c.setS (colReg f) 0)) ∧
        (copy.show_ = .okLate → exec (.wait k f) s = done (c.setS (colReg f) 1)) ∧
        (copy.show_ = .expired → exec (.wait k f) s = .next (s.trap k 0x40 f.col.toNat)) ∧
        (copy.show_ = .unresolved → exec (.wait k f) s = .next (s.putCore k stays))) ∧
      (s.ready k (encSync 0x12 f) = true → f.cause = 0 → f.sem = 0 → 0 < n / 32 → c.freeS [f.sa] [colReg f] = true → copy.own = true →
        let sends := if c.seq.st = .running then queueArrival s.arrivals arr else s.arrivals
        (copy.show_ = .ok → exec (.arriveWait k f) s = .next { s.advanced k (c.setS (colReg f) 0) with arrivals := sends }) ∧
        (copy.show_ = .okLate → exec (.arriveWait k f) s = .next { s.advanced k (c.setS (colReg f) 1) with arrivals := sends }) ∧
        (copy.show_ = .expired → exec (.arriveWait k f) s = .next { s.trap k 0x40 f.col.toNat with arrivals := sends }) ∧
        (copy.show_ = .unresolved → exec (.arriveWait k f) s = .next { s.putCore k stays with arrivals := sends }))) ∧
  (
    ∀ (k : Site) (s : State),
      let c := s.core k
      (∀ f : SyncF, c.seq.st = .waiting → c.seq.endIssued = false → c.fetch c.seq.pc = some (encSync 0x01 f) →
        f.rsv = 0 → f.imm ≠ 0 → f.cause ≠ 4 → f.cause ≠ 7 → f.col = 0 → f.sa = 0 → f.imm.toNat ≤ (c.L f.sem.toNat).toNat →
        exec (.semwaitDone k) s = .next (s.advanced k (c.setL f.sem.toNat (c.L f.sem.toNat - f.imm)))) ∧
      (c.seq.endIssued = true → c.seq.st = .running → c.arr.q = [] → c.vq = [] → c.arr.pend = [] → (∀ g < 8, (c.arr.group g).drains = []) →
        (c.arr.shadow = none ∨ c.arr.shadowReady = true) → exec (.endRetire k) s =
        .next (s.setCore k { c with seq := { c.seq with st := .ended, wcause := 4, endIssued := false } })) ∧
      ((c.seq.endIssued = false ∨ c.arr.q ≠ [] ∨ c.vq ≠ [] ∨ c.arr.pend ≠ [] ∨ (∃ g < 8, (c.arr.group g).drains ≠ [])) → exec (.endRetire k) s = .next s))

/-- The network instructions (R181): SEND, RED and MSG whose operands pass the checks of the port join its queue of 16
behind the others with the operands as they read at issue; RXBIND and RXFREE that find the queue empty bind and free
their RID at once, and join it behind an operation under way. A fault of the operands raises the lowest kind. No
register changes. The DMA instructions (R85, R207): one that finds operations in the engine's queue of 16 joins them;
one that finds the queue empty is judged at once, and joins it when the engine finds nothing wrong, or stops its core
with the lowest kind found. A reserved XP is no instruction. -/
def Obligations.QueuedInstructionsComplete : Prop :=
  (
    ∀ (k : Site) (f : NetF) (s : State), f.rsv = 0 → (s.core k).net.length < 16 → (s.core k).freeS [f.sa, f.sb, f.sc] [] = true →
      let c := s.core k
      let sa := (c.S f.sa).toNat
      let sc := (c.S f.sc).toNat
      let d := c.destOf ((c.S f.sb).toNat % 64)
      let e : Nat → NetOp := fun op => { pc := c.seq.pc, op := op, sa := c.S f.sa, sb := c.S f.sb, sc := c.S f.sc, sem := f.sem.toNat, win := f.win.toNat, w := f.w = 1, vc := f.vc.toNat, rid := f.rid.toNat }
      let done : Core → Res := fun x => .next (s.advanced k x)
      ((∀ h, c.net.head? = some h → h.op ≤ 2) → 64 ≤ sc → sc % 64 = 0 → sc ≤ 0x800000 → (f.w = 1 ∨ (sa % 64 = 0 ∧ sa + sc ≤ 0x800000)) →
        s.ready k (encNet 0x00 f) = true → (f.vc = 3 ∨ f.vc = 4) →
        (d.kind = 4 ∨ (d.kind = 1 ∧ s.validTarget k d = true) ∨ (d.kind = 0 ∧ s.validTarget k d = true ∧ (c.S f.sb).toNat / 2 ^ 32 % 64 = 0 ∧
          d.addr + (c.S f.sb).toNat / 2 ^ 32 + sc ≤ 0x800000)) →
        exec (.send k f) s = done { c with net := c.net ++ [e 0] }) ∧
      ((∀ h, c.net.head? = some h → h.op ≤ 2) → (f.w = 1 ∨ (sa % 64 = 0 ∧ sa + sc ≤ 0x800000)) → sc % (128 * s.redLen k f.rid.toNat) = 0 →
        s.ready k (encNet 0x01 f) = true → f.vc = 0 → exec (.red k f) s = done { c with net := c.net ++ [e 1] }) ∧
      ((∀ h, c.net.head? = some h → h.op ≤ 2) → 16 ≤ sc → sc % 16 = 0 → sc ≤ 256 → (f.w = 1 ∨ (sa % 16 = 0 ∧ sa + sc ≤ 0x800000)) → (d.kind = 2 ∨ d.kind = 3) →
        s.ready k (encNet 0x02 f) = true → f.vc = 0 → exec (.msg k f) s = done { c with net := c.net ++ [e 2] }) ∧
      (c.net = [] → s.ready k (encNet 0x03 f) = true → f.vc = 0 → f.w = 0 → exec (.rxbind k f) s =
        done { c with rx := Tab.set {} c.rx f.rid.toNat { on := true, win := f.win.toNat, sem := f.sem.toNat } }) ∧
      (c.net = [] → s.ready k (encNet 0x04 f) = true → f.vc = 0 → f.w = 0 → exec (.rxfree k f) s =
        done { c with rx := Tab.set {} c.rx f.rid.toNat {} }) ∧
      ((∃ h, c.net.head? = some h ∧ h.op ≤ 2) → f.vc = 0 → f.w = 0 →
        (s.ready k (encNet 0x03 f) = true → exec (.rxbind k f) s = done { c with net := c.net ++ [e 3] }) ∧
        (s.ready k (encNet 0x04 f) = true → exec (.rxfree k f) s = done { c with net := c.net ++ [e 4] })) ∧
      (16 ≤ sc → sc ≤ 256 → sc % 16 ≠ 0 → f.w = 1 → (d.kind = 2 ∨ d.kind = 3) → s.ready k (encNet 0x02 f) = true → f.vc = 0 →
        exec (.msg k f) s = .next (s.trap k 0x46 sc))) ∧
  (
    ∀ (k : Site) (f : DmaF) (s : State), f.rsv = 0 → (s.core k).dma.length < 16 → (s.core k).freeS [f.sa, f.sb, f.sc] [] = true →
      let c := s.core k
      let e : Nat → DmaOp := fun op => { pc := c.seq.pc, op := op, sa := c.S f.sa, sb := c.S f.sb, sc := c.S f.sc, sem := f.sem.toNat, win := f.win.toNat, w := f.w = 1, xp := f.xp.toNat, fmt := f.fmt.toNat, add := f.gmode = 1 }
      let joins : Nat → Res := fun op => .next (s.advanced k { c with dma := c.dma ++ [e op] })
      let fine : Nat → Prop := fun op => c.dma = [] → s.dmaJudge k (e op) = none
      (f.xp.toNat ≤ 3 →
        (s.ready k (encDma 0x00 f) = true → fine 0 → exec (.copy k f) s = joins 0) ∧
        (s.ready k (encDma 0x01 f) = true → fine 1 → (f.xp = 0 ∨ f.fmt.toNat ≤ 6) → exec (.hrd k f) s = joins 1) ∧
        (s.ready k (encDma 0x02 f) = true → fine 2 → exec (.hwr k f) s = joins 2) ∧
        (s.ready k (encDma 0x03 f) = true → fine 3 → exec (.gwr k f) s = joins 3) ∧
        (s.ready k (encDma 0x00 f) = true → c.dma = [] → (c.S f.sa).toNat % 64 ≠ 0 → exec (.copy k f) s = .next (s.trap k 0x06 (c.S f.sa).toNat))) ∧
      (s.ready k (encDma 0x00 f) = true → 4 ≤ f.xp.toNat → exec (.copy k f) s = .next (s.trap k 0x01 ((encDma 0x00 f).toNat / 2 ^ 32))) ∧
      (s.ready k (encDma 0x01 f) = true → f.xp.toNat ≤ 3 → f.xp ≠ 0 → 7 ≤ f.fmt.toNat → exec (.hrd k f) s = .next (s.trap k 0x03 f.fmt.toNat)))

/-- Transfers of the DMA engine (R78, R207, R218, R230): with the source readable and the target free, the operation at
the head of the queue moves the bytes it has still to move, posts its semaphore and leaves the queue. COPY and HRD
write the bytes of the source bank area or of the stack (through the transpose where XP is not 0) to the bank area or
the window, HWR writes those of a bank area or a window to the stack or to a binding (log entry on R230), GWR hands
each 64 bytes to the gradient areas; every other byte of the banks, of the stack and every register stays. Operations
of the network port (R78, R167, R181, R182): with its bytes readable and credit at the L port, what an operation has
still to send, when that is no more than a packet, leaves the port; the operation posts its semaphore and leaves the
queue. A SEND for a core goes as flits of 128 bytes for its bank addresses or its window, the last of them with the
remote semaphore; a RED and a MSG go as one packet for the reduction entry of the core's router, the controller of a
field or firmware; a SEND for another module goes as one fabric packet under the partition's epoch, behind which the
contribution's digest follows as a trailer (R252). What lands in a core of a running partition (R130, R181, R196): the
flits of a SEND write their bytes at bank addresses or at the head of a window, the last one posts the remote
semaphore, and each leaves the mesh; a sum packet of a bound RID goes into the RID's window and posts; one of an RID
that is not bound raises NET_UNBOUND. A core of a stopped partition discards what arrives (R277). A corrected word
goes back to its bank (R118). Every other byte of the banks and every register stays. -/
def Obligations.TransfersAndLandingsComplete : Prop :=
  (
    ∀ (k : Site) (s : State) (h : DmaOp) (q : List DmaOp),
      let c := s.core k
      let f := s.field (k / 64)
      let m := h.moved
      let n := h.dstBytes f - m
      let w := c.window h.win
      let ov : Core → Core := fun d => ({ d with dma := q } : Core).posted h.sem
      let keeps : Field → State → State := fun g t => { t with fields := Tab.set {} s.fields (k / 64) g }
      c.dma = h :: q → (∀ g, q.head? = some g → s.dmaJudge k g = none) → h.sem < 64 → h.win < 16 → (c.L h.sem).toNat < 65535 →
      (h.op = 0 → c.bank.clear .dma (h.sa.toNat + m) n = true →
        (h.w = false → c.bank.clear .dma (h.sb.toNat + m) n = true →
          ∃ d, c.stored d (fun x => h.sb.toNat + m ≤ x ∧ x < h.sb.toNat + m + n) ∧
            Tab.getRange 0 d.bank.data (h.sb.toNat + m) n = Tab.getRange 0 c.bank.data (h.sa.toNat + m) n ∧ exec (.dmaComplete k) s = .next (s.putCore k (ov d))) ∧
        (h.w = true → w.head < 2 * w.size → n ≤ w.space → c.windowClear .dma w w.head n = true →
          ∃ d, c.stored d (fun x => x ∈ w.spots w.head n) ∧ d.bytesAt (w.spots w.head n) = Tab.getRange 0 c.bank.data (h.sa.toNat + m) n ∧
            exec (.dmaComplete k) s = .next (s.putCore k (ov (d.headOn h.win n))))) ∧
      (h.op = 1 → (h.xp = 0 → hrdBytes h f n = f.hbmRead (64 * h.sa.toNat + m) n) ∧ (∀ bs, hrdBytes h f n = .ok bs → bs.length = n →
        (h.w = false → c.bank.clear .dma (h.sb.toNat + m) n = true →
          ∃ d, c.stored d (fun x => h.sb.toNat + m ≤ x ∧ x < h.sb.toNat + m + n) ∧
            Tab.getRange 0 d.bank.data (h.sb.toNat + m) n = bs ∧ exec (.dmaComplete k) s = .next (s.putCore k (ov d))) ∧
        (h.w = true → w.head < 2 * w.size → n ≤ w.space → c.windowClear .dma w w.head n = true →
          ∃ d, c.stored d (fun x => x ∈ w.spots w.head n) ∧ d.bytesAt (w.spots w.head n) = bs ∧
            exec (.dmaComplete k) s = .next (s.putCore k (ov (d.headOn h.win n)))))) ∧
      (h.op = 2 → n % 64 = 0 →
        let g : List Byte → Field := fun bs => if h.sb.toNat < bindingUnit then f.hbmWrite (64 * h.sb.toNat + m) bs else f.rootWrite (h.sb.toNat - bindingUnit) bs
        (h.w = false → c.bank.clear .dma (h.sa.toNat + m) n = true →
          exec (.dmaComplete k) s = .next (keeps (g (Tab.getRange 0 c.bank.data (h.sa.toNat + m) n)) (s.putCore k (ov c)))) ∧
        (h.w = true → w.tail < 2 * w.size → n ≤ w.fill → c.windowClear .dma w w.tail n = true →
          exec (.dmaComplete k) s = .next (keeps (g (c.bytesAt (w.spots w.tail n))) (s.putCore k (ov (c.tailOn h.win n)))))) ∧
      (h.op = 3 → n % 64 = 0 → f.upe.phase.toList.getD (f.region h.gradRegion).part .collect = .collect →
        let g : List Byte → Field := fun bs => (List.range (n / 64)).foldl (fun (x : Field) i => x.gradWrite (f.region h.gradRegion) (h.gradUnit + m / 64 + i) h.add
          ((List.range 16).map (fun j => BitVec.ofNat 32 (natLE ((bs.drop (64 * i + 4 * j)).take 4))))) f
        (h.w = false → c.bank.clear .dma (h.sa.toNat + m) n = true →
          exec (.dmaComplete k) s = .next (keeps (g (Tab.getRange 0 c.bank.data (h.sa.toNat + m) n)) (s.putCore k (ov c)))) ∧
        (h.w = true → w.tail < 2 * w.size → n ≤ w.fill → c.windowClear .dma w w.tail n = true →
          exec (.dmaComplete k) s = .next (keeps (g (c.bytesAt (w.spots w.tail n))) (s.putCore k (ov (c.tailOn h.win n))))))) ∧
  (
    ∀ (k : Site) (s : State) (h : NetOp) (q : List NetOp),
      let c := s.core k
      let e := c.destOf (h.sb.toNat % 64)
      let n := h.sc.toNat - h.moved
      let w := c.window h.win
      let m := (n + 127) / 128
      let ov : Core → Core := fun d => ({ d with net := q } : Core).posted h.sem
      let r := routerOf k
      let p := lPort k
      let base : MeshPkt := { src := k.val, kind := e.kind, dst := e.site, win := e.win, vc := h.vc, len := m, at_ := r, from_ := p }
      let idle : MeshPkt → MeshPkt := fun x => { x with bytes := [], tail := false, last := false }
      let packet : MeshPkt → List Byte → List MeshPkt := fun x bs => List.replicate (m - 1) (idle x) ++ [{ x with bytes := bs }]
      let toCore : List Byte → List MeshPkt := fun bs => (List.range m).map (fun i =>
        { base with to_ := routerOf e.site, oport := lPort e.site, bytes := (bs.drop (128 * i)).take 128, tail := i + 1 = m, last := i + 1 = m
                    addr := if e.kind = 0 then e.addr + h.sb.toNat / 2 ^ 32 + h.moved + 128 * i else 0
                    rsemEn := e.rsemEn && i + 1 = m, rsem := e.rsem })
      let pr := passRouter (Tab.get 0 s.fab.fwd e.dst)
      let away := 16 * fieldAt pr.1 pr.2 + quadAt pr.1 pr.2
      let fab : List Byte → FabPkt := fun bs =>
        { vc := h.vc, dst := e.dst, part := e.part, src := s.fab.addr, epoch := ((s.partOfSite k).map (fun x => (s.part x).epoch)).getD 0
          coll := BitVec.ofNat 16 e.coll, tkind := e.sop.toNat / 2 ^ 56, field := e.sop.toNat / 2 ^ 50 % 64, core := e.sop.toNat / 2 ^ 44 % 64
          addr := e.sop.toNat % 2 ^ 44 + (if e.sop.toNat / 2 ^ 56 = 0 then h.moved else 0)
          payload := wordsLE bs.length bs }
      let sends : (List Byte → List MeshPkt) → Prop := fun fl =>
        (h.w = false → c.bank.clear .net (h.sa.toNat + h.moved) n = true → exec (.netSendComplete k) s =
          .next { s.putCore k (ov c) with mesh := s.mesh ++ fl (Tab.getRange 0 c.bank.data (h.sa.toNat + h.moved) n) }) ∧
        (h.w = true → w.tail < 2 * w.size → n ≤ w.fill → c.windowClear .net w w.tail n = true → exec (.netSendComplete k) s =
          .next { s.putCore k (ov (c.tailOn h.win n)) with mesh := s.mesh ++ fl (c.bytesAt (w.spots w.tail n)) })
      c.net = h :: q → (∀ g, q.head? = some g → g.op ≤ 2) → 0 < n → h.sem < 64 → h.win < 16 → (c.L h.sem).toNat < 65535 →
      (h.op = 0 → n ≤ 2048 → s.buffered r p h.vc + m ≤ meshBuffer h.vc →
        (e.kind ≤ 1 → sends toCore) ∧
        (e.kind = 4 → e.sop.toNat / 2 ^ 56 ≠ 1 → e.coll = 0 → sends (fun bs => packet { base with dst := e.dst, to_ := away, oport := 9, fab := some (fab bs) } bs)) ∧
        (e.kind = 4 → e.sop.toNat / 2 ^ 56 ≠ 1 → e.coll ≠ 0 → sends (fun bs => packet { base with dst := e.dst, to_ := away, oport := 9, fab := some (fab bs) } bs ++
          [{ src := k.val, kind := 4, dst := e.dst, vc := h.vc, at_ := r, from_ := p, to_ := away, oport := 9
             fab := some { fab [] with payload := (List.range 2).map (fun j => BitVec.ofNat 32 ((crc64More h.digest bs).toNat / 2 ^ (32 * j))) } }]))) ∧
      (h.op = 1 → n ≤ 128 * s.redLen k h.rid → s.buffered r p 1 + m ≤ meshBuffer 1 →
        sends (packet { base with kind := 5, dst := k.val / 64, vc := 1, id := h.rid, len := s.redLen k h.rid, to_ := r })) ∧
      (h.op = 2 → s.buffered r p 3 + m ≤ meshBuffer 3 →
        (e.kind = 2 → sends (packet { base with dst := e.field, vc := 3, to_ := 16 * e.field + r % 16, oport := 8 })) ∧
        (e.kind = 3 → sends (packet { base with dst := e.field, vc := 3, to_ := 0, oport := 9 })))) ∧
  (
    ∀ (k : Site) (s : State),
      let c := s.core k
      let live := ∃ p, s.partOfSite k = some p ∧ (s.part p).started = true
      let mine : MeshPkt → Prop := fun m => m.kind ≤ 1 ∧ m.dst = k.val
      (∀ (pre rest : List MeshPkt) (p : MeshPkt), s.mesh = pre ++ p :: rest → (∀ m ∈ pre, ¬mine m) → mine p → (p.last = true ∨ ∀ m ∈ rest, ¬mine m) →
        let n := p.bytes.length
        let w := c.window p.win
        let ov : Core → Core := fun d => if p.rsemEn then d.posted p.rsem else d
        (¬live → exec (.sendLanding k) s = .next { s with mesh := pre ++ rest }) ∧
        (live → (p.rsemEn = true → p.rsem < 64 ∧ (c.L p.rsem).toNat < 65535) →
          (p.kind = 0 → c.bank.clear .net p.addr n = true →
            ∃ d, c.stored d (fun x => p.addr ≤ x ∧ x < p.addr + n) ∧ Tab.getRange 0 d.bank.data p.addr n = p.bytes ∧
              exec (.sendLanding k) s = .next { s.putCore k (ov d) with mesh := pre ++ rest }) ∧
          (p.kind = 1 → p.win < 16 → w.head < 2 * w.size → n ≤ w.space → c.windowClear .net w w.head n = true →
            ∃ d, c.stored d (fun x => x ∈ w.spots w.head n) ∧ d.bytesAt (w.spots w.head n) = p.bytes ∧
              exec (.sendLanding k) s = .next { s.putCore k (ov (d.headOn p.win n)) with mesh := pre ++ rest }))) ∧
      ((∀ m ∈ s.mesh, ¬mine m) → exec (.sendLanding k) s = .next s) ∧
      (∀ (rid : BitVec 10) (v : List W32),
        let b : RxBind := Tab.get {} c.rx rid.toNat
        let w := c.window b.win
        let n := 4 * v.length
        let left := dropSum k rid.toNat s.mesh
        ((∀ m ∈ s.mesh, m.kind = 5 → m.dst = k.val → m.id = rid.toNat → m.toEntry = true) → left = s.mesh) ∧
        (live → b.on = false → exec (.sumPacketEject k rid v) s = .next { s.failCore k 0x49 rid.toNat c.seq.pc with mesh := left }) ∧
        (¬live → (b.on = true → n ≤ w.space) → exec (.sumPacketEject k rid v) s = .next { s with mesh := left }) ∧
        (b.on = true → w.space < n → exec (.sumPacketEject k rid v) s = .next s) ∧
        (live → b.on = true → b.win < 16 → w.head < 2 * w.size → n ≤ w.space → b.sem < 64 → (c.L b.sem).toNat < 65535 → c.windowClear .net w w.head n = true →
          ∃ d, c.stored d (fun x => x ∈ w.spots w.head n) ∧ d.bytesAt (w.spots w.head n) = v.flatMap (fun x => bytesLE x.toNat 4) ∧
            exec (.sumPacketEject k rid v) s = .next { s.putCore k ((d.headOn b.win n).posted b.sem) with mesh := left })) ∧
      (∀ w : Nat,
        (w ∈ c.bank.writeBack → ∀ bs fixed, c.bank.decoded w = some (bs, fixed) → ∃ d, exec (.bankWriteBack k w) s = .next (s.putCore k d) ∧
          d.bank.decoded w = some (bs, false) ∧ (∀ v, v ≠ w → d.bank.word v = c.bank.word v ∧ d.bank.errOf v = c.bank.errOf v) ∧
          d = { c with bank := { c.bank with data := d.bank.data, err := d.bank.err, writeBack := c.bank.writeBack.erase w } }) ∧
        (w ∈ c.bank.writeBack → c.bank.decoded w = none → exec (.bankWriteBack k w) s =
          .next (s.putCore k { c with bank := { c.bank with writeBack := c.bank.writeBack.erase w } })) ∧
        (w ∉ c.bank.writeBack → exec (.bankWriteBack k w) s = .next s)))

/-! ## Banks -/

/-- R116: bank byte address A gives group A[22:21], word A[20:9] and bank 8G + A[8:6]; the word address is recovered from
bank and word; group G spans G × 0x20_0000 to G × 0x20_0000 + 0x1F_FFFF; a 512-byte drain row covers one word in each
of the eight banks of its group, and a 256-byte VLD four banks. -/
def Obligations.BankAddressDecomposition : Prop :=
  ∀ a : Nat, a < 2 ^ 23 →
    let g := a / 2 ^ 21
    (∀ x : BitVec 23, x.toNat = a → g = (x.extractLsb' 21 2).toNat ∧ wordInBank (a / 64) = (x.extractLsb' 9 12).toNat ∧ bankOf (a / 64) = 8 * g + (x.extractLsb' 6 3).toNat ∧ a % 64 = (x.extractLsb' 0 6).toNat) ∧
    wordOf (bankOf (a / 64)) (wordInBank (a / 64)) = a / 64 ∧ bankOf (a / 64) < 32 ∧ wordInBank (a / 64) < 4096 ∧
    g * 0x200000 ≤ a ∧ a ≤ g * 0x200000 + 0x1FFFFF ∧
    (a % 512 = 0 → (List.range 8).map (fun i => bankOf ((a + 64 * i) / 64)) = (List.range 8).map (fun i => 8 * g + i)) ∧
    (a % 256 = 0 → ((List.range 4).map (fun i => bankOf ((a + 64 * i) / 64))).Nodup)

/-- The memory of a core as every unit sees it (R116, R121): a word that is stored reads back whole and correct, and every
other word's bytes are as before. -/
def Obligations.BankReadAfterWrite : Prop :=
  ∀ (b : Bank) (w : Nat) (bs : List Byte), bs.length = 64 →
    (b.store w bs).decoded w = some (bs, false) ∧
    (∀ x, x / 64 ≠ w → Tab.get 0 (b.store w bs).data x = Tab.get 0 b.data x) ∧
    (∀ v, v ≠ w → (b.store w bs).errOf v = b.errOf v)

/-- A word with one wrong symbol, data or check, is delivered correct (R118): the read gives the 64 bytes that were
stored, counts one correction and leaves a write-back pending; a read that shares its access with another requester's
of the same cycle delivers them too and counts nothing (Table 4.3). -/
def Obligations.OneWrongSymbolCorrected : Prop :=
  ∀ (b : Bank) (r : Req) (now : Stamp) (a w i : Nat) (e : Byte), i < 68 → e ≠ 0 → b.errOf w = [(i, e)] → b.grant r w = .ok () →
    (b.shared r now w = false → ∃ c, b.readWord r now a w = (c, .ok (b.word w)) ∧ c.corr = satAdd b.corr 1 ∧
      (∀ v, v ∈ c.writeBack ↔ v = w ∨ v ∈ b.writeBack) ∧ c.shared r now w = false ∧
      c = { b with corr := c.corr, writeBack := c.writeBack, counted := c.counted }) ∧
    (b.shared r now w = true → b.readWord r now a w = (b, .ok (b.word w)))

/-- Who may reach a bank (R123 to R125, Table 4.4): the core's units reach it when its owner is CORE, the DMA engine and
the network port when it is CORE or DMA, host windows when it is HOST, the update engine when it is UPE; nobody else
does, and nobody while the bank is BUSY. -/
def Obligations.BankOwnerRule : Prop :=
  ∀ (b : Bank) (r : Req) (w : Nat),
    let o := ownOf b.own (bankOf w)
    let may := (o = 0 ∧ r ≠ .host ∧ r ≠ .upe) ∨ (o = 1 ∧ (r = .dma ∨ r = .net)) ∨ (o = 2 ∧ r = .host) ∨ (o = 3 ∧ r = .upe)
    (b.busy.getLsbD (bankOf w) = true → b.grant r w = .fault r.ownerKind 0) ∧
    (b.busy.getLsbD (bankOf w) = false → b.pend.getLsbD (bankOf w) = false → (b.grant r w = .ok () ↔ may)) ∧
    (b.busy.getLsbD (bankOf w) = false → b.pend.getLsbD (bankOf w) = false → ¬may → b.grant r w = .fault r.ownerKind 0)

/-- Handovers, SECURE bits, wipes and zeroing on wake (R123, R125, R126, R135, R136), as commands. A write of an ownership
register acts only for firmware and for the owner once the module is READY, bank by bank; the end of a handover, a
write of BNK_SECURE and the end of a wipe act on the banks as `BankOperations` says, while no march runs there; the
zeroing of a terrace's last core lights it, and a read-back that differs retires the core. Nothing else changes. What
those operations leave in a bank (R124 to R127, R135, R136): a handover that is requested leaves the old owner in
place and pends, or waits for BUSY to clear; a write that asks for nothing new changes nothing; its end makes the
target the owner; HOST is refused for a secure bank and counted; a rising SECURE bit sets, or waits for the handover
to CORE of a bank that HOST owns; a falling one wipes its bank first; a wipe's end leaves its bank zero and clean,
free and no longer secure where the wipe was for that, and no other bank's bytes change; zeroing on wake leaves every
bank zero and free, and a read-back that differs shows in ZFAIL and ZBANK. -/
def Obligations.BankControlCompletes : Prop :=
  (
    ∀ (k : Site) (s : State),
      let c := s.core k
      let b := c.bank
      let bank : Bank → State := fun d => s.setCore k { c with bank := d }
      (∀ who hi (v : W32), s.allows who = true → exec (.bnkOwnWrite who k hi v) s =
        .next (bank ((List.range 16).foldl (fun d i => d.writeOwn (if hi then 16 + i else i) (v.toNat / 4 ^ i % 4)) b))) ∧
      (∀ who hi v, s.allows who = false → exec (.bnkOwnWrite who k hi v) s = .next s) ∧
      (s.allows none = true ∧ ∀ a : Fin 3, s.allows (some a) = true ↔ (s.host.owner = a.val ∧ s.rck.ready = true)) ∧
      (∀ j : BankIx, exec (.bankHandoverDone k j) s = .next (s.putCore k { c with bank := b.handoverDone j })) ∧
      (∀ v : W32, b.march.running = false → exec (.bnkSecureWrite k v) s = .next (bank (b.writeSecure v (s.dark k)))) ∧
      (∀ (j : BankIx) (differs : Bool), b.march.running = false → exec (.wipeDone k j differs) s = .next (bank (b.wipeDone j differs))) ∧
      (b.waking = false → ∀ z, exec (.wakeZeroingDone k z) s = .next s) ∧
      (b.waking = true → s.pwr.env.pending = false → s.rck.stage ≠ 9 → s.fw.flight = [] → (∀ p < 16, (s.part p).rcv.spares = [] ∧ (s.part p).rcv.active = false) →
        let lights := (s.ter (k / 32)).st = .zeroing ∧ ∀ j ∈ s.enabledOn (k / 32), j ≠ k.val → (s.core j).bank.waking = false
        let u := bank (b.wakeDone none)
        (¬lights → exec (.wakeZeroingDone k none) s = .next u) ∧
        (lights → exec (.wakeZeroingDone k none) s = .next { u.withTer (k / 32) (fun x => { x with st := .lit }) with out := .event 0xFF 0x26 [k / 32] :: s.out }) ∧
        (∀ z : BankIx, (s.ter (k / 32)).st ≠ .zeroing → exec (.wakeZeroingDone k (some z)) s = .next { bank (b.wakeDone (some z)) with
          sites := if s.site k = .enabled ∨ s.site k = .spare then Tab.set .enabled s.sites k .retired else s.sites }))) ∧
  (
    ∀ (b : Bank) (j : Nat), j < 32 →
      (∀ code, code < 4 → (code = 2 → b.secure.getLsbD j = false ∧ b.secSet.getLsbD j = false) →
        let pends := b.pend.getLsbD j = true ∨ b.late.getLsbD j = true
        let d := b.writeOwn j code
        (pends → ownOf b.target j = code → d = b) ∧ (¬pends → ownOf b.own j = code → d = b) ∧
        ((pends ∧ ownOf b.target j ≠ code ∨ ¬pends ∧ ownOf b.own j ≠ code) →
          (∀ i, i < 32 → ownOf d.target i = (if i = j then code else ownOf b.target i) ∧
            d.pend.getLsbD i = (b.pend.getLsbD i || decide (i = j) && !b.busy.getLsbD j) ∧ d.late.getLsbD i = (b.late.getLsbD i || decide (i = j) && b.busy.getLsbD j)) ∧
          d = { b with target := d.target, pend := d.pend, late := d.late })) ∧
      ((b.secure.getLsbD j = true ∨ b.secSet.getLsbD j = true) → b.writeOwn j 2 = { b with rejects := satAdd b.rejects 1 }) ∧
      (b.pend.getLsbD j = true →
        let d := b.handoverDone j
        (∀ i, i < 32 → ownOf d.own i = (if i = j then ownOf b.target j else ownOf b.own i) ∧ d.pend.getLsbD i = (b.pend.getLsbD i && decide (i ≠ j)) ∧
          d.secure.getLsbD i = (b.secure.getLsbD i || decide (i = j) && b.secSet.getLsbD j) ∧ d.secSet.getLsbD i = (b.secSet.getLsbD i && decide (i ≠ j))) ∧
        d = { b with own := d.own, pend := d.pend, secure := d.secure, secSet := d.secSet }) ∧
      (b.pend.getLsbD j = false → b.handoverDone j = b) ∧
      (∀ v : W32, b.secure &&& ~~~v = 0 →
        let d := b.writeSecure v false
        let host := ownOf b.own j = 2 ∨ (b.pend.getLsbD j = true ∨ b.late.getLsbD j = true) ∧ ownOf b.target j = 2
        (d.secure.getLsbD j = true ↔ b.secure.getLsbD j = true ∨ v.getLsbD j = true ∧ ¬host) ∧
        (v.getLsbD j = true → b.secure.getLsbD j = false → host → d.secSet.getLsbD j = true ∧ ownOf d.target j = 0 ∧ ownOf d.own j = ownOf b.own j) ∧
        d.data = b.data ∧ d.wiping = b.wiping) ∧
      (∀ v : W32, v.getLsbD j = false → b.secure.getLsbD j = true →
        ((b.writeSecure v false).wiping.getLsbD j = true ∧ (b.writeSecure v false).busy.getLsbD j = true ∧ (b.writeSecure v false).secure.getLsbD j = true ∧
          (b.writeSecure v false).secClr.getLsbD j = true ∧ (b.writeSecure v true).secure.getLsbD j = false)) ∧
      (b.wiping.getLsbD j = true → (∀ i, i < j → b.wiping.getLsbD i = false) → b.waking = false → b.march.running = false → ∀ differs,
        let d := b.wipeDone j differs
        (∀ i, i < 32 → d.wiping.getLsbD i = (b.wiping.getLsbD i && decide (i ≠ j)) ∧ d.busy.getLsbD i = (b.busy.getLsbD i && decide (i ≠ j)) ∧
          d.secure.getLsbD i = (b.secure.getLsbD i && !(decide (i = j) && b.secClr.getLsbD j)) ∧ d.secClr.getLsbD i = (b.secClr.getLsbD i && decide (i ≠ j)) ∧
          d.late.getLsbD i = (b.late.getLsbD i && decide (i ≠ j)) ∧ d.pend.getLsbD i = (b.pend.getLsbD i || decide (i = j) && b.late.getLsbD j)) ∧
        (∀ x, Tab.get 0 d.data x = if bankOf (x / 64) = j then 0 else Tab.get 0 b.data x) ∧ (∀ w, d.errOf w = if bankOf w = j then [] else b.errOf w) ∧
        (∀ w, w ∈ d.writeBack ↔ w ∈ b.writeBack ∧ bankOf w ≠ j) ∧ d.zfail = (b.zfail || differs) ∧ d.zbank = (if differs = true ∧ b.zfail = false then j else b.zbank) ∧
        d = { b with data := d.data, err := d.err, writeBack := d.writeBack, wiping := d.wiping, busy := d.busy, secure := d.secure, secClr := d.secClr, late := d.late, pend := d.pend, zfail := d.zfail, zbank := d.zbank }) ∧
      (b.waking = true → b.march.running = false → ∀ differs,
        let d := b.wakeDone differs
        (∀ i, i < 32 → d.secure.getLsbD i = (b.secure.getLsbD i && !(b.secClr.getLsbD i && b.wiping.getLsbD i)) ∧ d.secClr.getLsbD i = (b.secClr.getLsbD i && !b.wiping.getLsbD i) ∧
          d.pend.getLsbD i = (b.pend.getLsbD i || b.late.getLsbD i)) ∧ d.zfail = (b.zfail || differs.isSome) ∧ d.zbank = (if b.zfail then b.zbank else differs.getD b.zbank) ∧
        d = { b with data := [], err := [], writeBack := [], waking := false, wiping := 0, busy := 0, late := 0, secure := d.secure, secClr := d.secClr, pend := d.pend, zfail := d.zfail, zbank := d.zbank }))

/-- The march engine's commands (R132 to R134) and the injection of R74. START runs the lowest bank of the mask and makes
it BUSY, and is ignored with a zero mask, while RUNNING and on a dark terrace. The end of a bank without a finding
goes to the next one or sets DONE; a failing compare ends the march with its element, bank, word and bit, and retires
the core; ABORT sets ABORTED and DONE when it ends, and a bank of a destructive march is then zero. CHK_INJ arms only
in a diagnosis partition. -/
def Obligations.MarchCompletes : Prop :=
  ∀ (k : Site) (s : State),
    let c := s.core k
    let b := c.bank
    let m := b.march
    let bank : Bank → State := fun d => s.setCore k { c with bank := d }
    let alone := (∀ p < 16, (s.part p).rcv.march = []) ∧ s.fw.flight = []
    let retired : Tab SiteSt := if s.site k = .enabled ∨ s.site k = .spare then Tab.set .enabled s.sites k .retired else s.sites
    let free : Bank → Bank := fun d => { d with busy := d.busy &&& ~~~bitOf m.bank, late := d.late &&& ~~~bitOf m.bank, pend := if b.late.getLsbD m.bank then d.pend ||| bitOf m.bank else d.pend }
    (∀ who j r, s.allows who = true → m.running = false → s.dark k = false → (List.range 32).filter m.maskReg.getLsbD = j :: r →
      exec (.marchStart who k) s = .next (bank { b with busy := b.busy ||| bitOf j, march := { m with
        running := true, fail := false, aborted := false, aborting := false, abortFail := none, element := 0, bank := j, todo := r, runMode := m.mode } })) ∧
    (∀ who, (s.allows who = false ∨ m.maskReg = 0 ∨ m.running = true ∨ s.dark k = true) → ∃ t, exec (.marchStart who k) s = .next t ∧ t.core k = c ∧
      (∀ j, t.core j = s.core j) ∧ t = { s with cores := t.cores }) ∧
    (∀ who e w fail, s.allows who = true → m.running = true → m.aborting = false → m.runMode = false → exec (.marchAbort who k e w fail) s =
      .next (bank { b with march := { m with aborting := true, element := e, abortFail := fail.map (fun x => (w.val, x.val)) } })) ∧
    (m.running = true → m.aborting = false → b.wiping.getLsbD m.bank = false → b.waking = false → m.runMode = false → m.bank < 32 →
      (∀ n r, m.todo = n :: r → exec (.marchBankDone k none) s = .next (bank
        { free (b.zeroBank m.bank) with busy := b.busy &&& ~~~bitOf m.bank ||| bitOf n, march := { m with element := 0, bank := n, todo := r } })) ∧
      (m.todo = [] → alone → m.fail = false → exec (.marchBankDone k none) s = .next (bank
        { free (b.zeroBank m.bank) with march := { m with running := false, done := true, element := 5 } })) ∧
      (∀ (e : Fin 6) (w : Fin 4096) (bit : Fin 544), alone → exec (.marchBankDone k (some (e, w, bit))) s = .next { bank
        { free (b.stoppedAt m.bank e w) with march := { m with running := false, done := true, fail := true, todo := [], element := e, failWord := w, failBank := m.bank, failBit := bit } }
        with sites := retired })) ∧
    (m.running = true → m.aborting = true → m.runMode = false → b.wiping.getLsbD m.bank = false → b.waking = false → alone → exec (.marchAbortDone k) s =
      .next { bank { free (b.zeroBank m.bank) with march := { m with running := false, aborting := false, aborted := true, done := true, todo := [], abortFail := none, fail := m.abortFail.isSome, failWord := (m.abortFail.map Prod.fst).getD m.failWord, failBank := if m.abortFail.isSome then m.bank else m.failBank, failBit := (m.abortFail.map Prod.snd).getD m.failBit } } with sites := if m.abortFail.isSome then retired else s.sites }) ∧
    (m.running = false → (∀ x, exec (.marchBankDone k x) s = .next (bank b)) ∧ exec (.marchAbortDone k) s = .next (bank b)) ∧
    (∀ who p, s.partOfSite k = some p → s.allows who = true → (s.part p).diag = true → exec (.chkInjArm who k) s =
      .next (s.setCore k { c with chk := { c.chk with inj := true } })) ∧
    (∀ who p, s.partOfSite k = some p → (s.part p).diag = false → exec (.chkInjArm who k) s = .next s) ∧
    (∀ who, s.partOfSite k = none → exec (.chkInjArm who k) s = .next s)

/-! ## Registers, time and reset -/

/-- Clearing writes (R20, R75, R155, R165, R233, R276): where the write acts, the counter takes the number of its events
of the same cycle (0 when there is none), and nothing else of its core or field changes; a TELEMETRY window that is
open over the core counts from the clear and is partial (R400). Clearing the records that keep the first event (R20,
R71, R114, R137, R199, R233, R275, R322, R421): where the write acts, VALID, MORE and the body clear; an event of the
same cycle fills the record again, of two the lower by the record's order, and a second one sets MORE. With the check
record the capture buffer empties, or takes the event that fills it. A write that does not act changes nothing. Reads
with an effect (R75, R197, R276): from READY on, a read of the low half latches the high half that belongs to it; the
agent of a PCIe port gets the register's value, before READY all ones, and nothing else changes. -/
def Obligations.ClearsAndLatchesComplete : Prop :=
  (
    ∀ (who : Option (Fin 3)) (s : State), s.allows who = true →
      (∀ (k : Site) (n : Nat),
        let c := s.core k
        let v : W32 := BitVec.ofNat 32 (min n 0xFFFFFFFF)
        let done : (State → State) → Core → Res := fun g d => .next ((g s).setCore k d)
        (exec (.clrEvents who k n) s = done (fun s => s.cutTele who k (fun x => { x with events := 0 })) { c with chk := { c.chk with events := v } }) ∧
        (exec (.clrSkips who k n) s = done (fun s => s.cutTele who k (fun x => { x with skips := 0 })) { c with chk := { c.chk with skips := v } }) ∧
        (exec (.clrBlocks who k n) s = done (fun s => s.cutTele who k (fun x => { x with blocks := 0 })) { c with chk := { c.chk with blocks := BitVec.ofNat 64 n } }) ∧
        (exec (.clrHdr who k n) s = done id { c with sprHdr := v }) ∧
        (exec (.clrDense who k n) s = done id { c with sprDense := v }) ∧
        (∀ same, exec (.clrRun who k same) s = done (fun s => s.cutTele who k (fun x => { x with run := 0 })) { c with idle := { c.idle with run := if same then 1 else 0 } }) ∧
        (∀ (mask : BitVec 8) same, exec (.clrIdle who k mask same) s =
          done (fun s => s.cutTele who k (fun x => { x with idle := (List.range 8).map (fun i => if mask.getLsbD i then 0 else x.idle.getD i 0) }))
            { c with idle := { c.idle with idle := Vector.ofFn (fun j : Fin 8 => if mask.getLsbD j.val then (if same = some j then 1 else 0) else c.idle.idle[j]) } })) ∧
      (∀ (f : FieldIx) (w : SlotIx) (n : Nat),
        let x := s.field f
        let v : W32 := BitVec.ofNat 32 (min n 0xFFFFFFFF)
        let slot : WsSlot → Res := fun y => .next (s.withField f (fun x => { x with ws := x.ws.set w.val y }))
        let upe : Upe → Res := fun u => .next (s.withField f (fun x => { x with upe := u }))
        (exec (.clrSel who f w n) s = slot { x.ws[w] with sel := v }) ∧
        (exec (.clrAud who f w n) s = slot { x.ws[w] with aud := v }) ∧
        (exec (.clrMiss who f w n) s = slot { x.ws[w] with miss := v }) ∧
        (exec (.clrFalse who f w n) s = slot { x.ws[w] with false_ := v }) ∧
        (exec (.clrFallbacks who f w n) s = slot { x.ws[w] with fallbacks := v }) ∧
        (exec (.upeClrBlocks who f n) s = upe { x.upe with blocks := v }) ∧
        (exec (.upeClrSkips who f n) s = upe { x.upe with skips := v }) ∧
        (exec (.clrDiscard who f n) s = upe { x.upe with discard := v }) ∧
        (exec (.clrRootLate who f n) s = upe { x.upe with rootLate := v }))) ∧
  (
    (∀ (α : Type) (lower : α → α → Bool) (now : Stamp) (d e1 e2 : α),
      FirstRec.clear lower now d [] = { valid := false, more := false, body := d } ∧
      FirstRec.clear lower now d [e1] = { valid := true, more := false, body := e1, cycle := now } ∧
      FirstRec.clear lower now d [e1, e2] = { valid := true, more := true, body := if lower e2 e1 then e2 else e1, cycle := now }) ∧
    (∀ (who : Option (Fin 3)) (s : State), s.allows who = true →
      (∀ (k : Site), let c := s.core k
        (∀ same, ∃ cap : Capture, exec (.chkRecordClear who k same) s = .next (s.setCore k { c with chk := { c.chk with
            record := FirstRec.clear ChkBody.lower s.coreNow {} (same.map Prod.fst), cap := cap } }) ∧
          (same = [] → cap = {}) ∧ (∀ x y, same = [(x, y)] → cap = { captured := true, src := y })) ∧
        (∀ same, exec (.faultRecordClear who k same) s = .next (s.setCore k { c with fault := FirstRec.clear FaultBody.lower s.coreNow {} same })) ∧
        (∀ same, exec (.bankErrRecordClear who k same) s = .next (s.setCore k { c with bank := { c.bank with record := FirstRec.clear BankErrBody.lower s.coreNow {} same } }))) ∧
      (∀ (f : FieldIx) (q : QuadIx) same, exec (.redRecordClear who f q same) s =
        .next (s.withField f (fun x => { x with routers := x.routers.set q.val { x.routers[q] with record := FirstRec.clear RedRecBody.lower s.now {} same } }))) ∧
      (∀ (f : FieldIx) same, exec (.upeFaultClear who f same) s =
        .next (s.withField f (fun x => { x with upe := { x.upe with fault := FirstRec.clear UpeFaultBody.lower s.now {} same } }))) ∧
      (∀ same, exec (.fabFaultClear who same) s = .next { s with fab := { s.fab with fault := FirstRec.clear FabFaultBody.lower s.now {} same } }) ∧
      (∀ same, exec (.alarmRecordClear who same) s = .next { s with sec := { s.sec with record := FirstRec.clear AlarmBody.lower s.now {} same } }) ∧
      (exec (.vminRestart who .input) s = .next { s with pwr := { s.pwr with inV := {} } }) ∧
      (∀ t : TerIx, exec (.vminRestart who (.terVdd t)) s = .next (s.withTer t (fun x => { x with vdd := {} })) ∧
        exec (.vminRestart who (.terVcs t)) s = .next (s.withTer t (fun x => { x with vcs := {} }))) ∧
      (∀ f : FieldIx, exec (.vminRestart who (.transit f)) s = .next (s.withField f (fun x => { x with pwr := { x.pwr with trnV := {} } })))) ∧
    (∀ (a : Fin 3) (k : Site) (f : FieldIx) (q : QuadIx) (r : VminIx) (s : State), s.allows (some a) = false →
      (∀ same, exec (.chkRecordClear (some a) k same) s = .next s) ∧ (∀ same, exec (.faultRecordClear (some a) k same) s = .next s) ∧
      (∀ same, exec (.bankErrRecordClear (some a) k same) s = .next s) ∧ (∀ same, exec (.redRecordClear (some a) f q same) s = .next s) ∧
      (∀ same, exec (.upeFaultClear (some a) f same) s = .next s) ∧ (∀ same, exec (.fabFaultClear (some a) same) s = .next s) ∧
      (∀ same, exec (.alarmRecordClear (some a) same) s = .next s) ∧ exec (.vminRestart (some a) r) s = .next s ∧
      (∀ n, exec (.clrEvents (some a) k n) s = .next s ∧ exec (.clrHdr (some a) k n) s = .next s))) ∧
  (
    ∀ (a : Fin 3) (k : Site) (s : State),
      let c := s.core k
      let reads : State → Nat → Res := fun t x => .next (if a.val = 2 then t else { t with out := .bar a.val (t.regRead a x false) :: t.out })
      let cor := 0x1000000 + k.val / 64 * 0x20000 + k.val % 64 * 0x400
      (s.rck.ready = true →
        exec (.chkBlocksLoRead a k) s = reads (s.setCore k { c with chk := { c.chk with blocksHi := BitVec.ofNat 32 (c.chk.blocks.toNat / 2 ^ 32) } }) (cor + 0x8C) ∧
        (∀ j : Fin 8, exec (.idleLoRead a k j.castSucc) s =
          reads (s.setCore k { c with idle := { c.idle with idleHi := c.idle.idleHi.set j.val (BitVec.ofNat 32 (c.idle.idle[j].toNat / 2 ^ 32)) } }) (cor + 0x240 + 8 * j.val)) ∧
        exec (.idleLoRead a k 8) s = reads (s.setCore k { c with idle := { c.idle with runHi := BitVec.ofNat 32 (c.idle.run.toNat / 2 ^ 32) } }) (cor + 0x280) ∧
        exec (.tickLoRead a) s = reads { s with tg := { s.tg with tickHi := BitVec.ofNat 16 (s.tg.tick.toNat / 2 ^ 32), tickOfs := s.tg.ofs } } 0x300004 ∧
        exec (.cycLoRead a) s = reads { s with tg := { s.tg with cycHi := BitVec.ofNat 32 (s.tg.cyc.toNat / 2 ^ 32) } } 0x300010 ∧
        s.regRead a 0x300004 false = BitVec.ofNat 64 (s.tg.tick.toNat % 2 ^ 32) ∧ s.regRead a 0x300010 false = BitVec.ofNat 64 (s.tg.cyc.toNat % 2 ^ 32) ∧
        s.regRead a (cor + 0x8C) false = BitVec.ofNat 64 (c.chk.blocks.toNat % 2 ^ 32)) ∧
      (s.rck.ready = false →
        let none_ : Res := .next (if a.val = 2 then s else { s with out := .bar a.val 0xFFFFFFFF :: s.out })
        exec (.chkBlocksLoRead a k) s = none_ ∧ (∀ j, exec (.idleLoRead a k j) s = none_) ∧ exec (.tickLoRead a) s = none_ ∧ exec (.cycLoRead a) s = none_))

/-- The tick period, the core-clock divider, the frequency counter and the tick edge (R183, R184, R358, R359). A period
outside 20 to 50,000 µs changes nothing (MODEL'S CHOICE, log 72); one written while a partition runs is refused; the
first one starts the generator, a later one waits for the next edge. A divider outside 16 to 32 sets BAD; a step moves
CURRENT by one towards TARGET, unless the envelope paces it and the change does not fit. The frequency counter starts
with a gate that is not 0 while it does not run, and ends with the count, or with 0 and NOCLK where the selected clock
(Table 11.1) is OFF. A tick edge passes the cycles that are left, counts TICK on and takes the period that waits. Tick
messages (R187): one that arrives before its edge waits at its core and changes nothing else; one that arrives at or
after its edge raises TICK_MSG_LATE with the low 32 bits of the edge's number. At its edge a stop discards the run,
which clears the registers that the program writes and keeps banks, stores, schedule, counters and records; a hold
sets the hold and a lift clears it. A start makes a stopped core with a schedule begin entry 0, with its windows empty
and its semaphores 0. -/
def Obligations.TimeCommandsComplete : Prop :=
  (
    ∀ s : State,
      (∀ us, us < 20 ∨ 50000 < us → exec (.tickPeriodWrite us) s = .next s) ∧
      (∀ us p, 20 ≤ us → us ≤ 50000 → p < 16 → (s.part p).started = true →
        exec (.tickPeriodWrite us) s = .next { s with tg := { s.tg with refused := true } }) ∧
      (∀ us, 20 ≤ us → us ≤ 50000 → (∀ p, p < 16 → (s.part p).started = false) →
        exec (.tickPeriodWrite us) s = .next { s with tg :=
          if s.tg.running then { s.tg with nextPeriod := some us } else { s.tg with running := true, period := us, ofs := 0 } }) ∧
      (∀ n : BitVec 6, exec (.rckDivWrite n) s = .next { s with div :=
        if 16 ≤ n.toNat ∧ n.toNat ≤ 32 then { s.div with target := n.toNat } else { s.div with bad := true } }) ∧
      (let one := if s.div.current < s.div.target then s.div.current + 1
          else if s.div.target < s.div.current then s.div.current - 1 else s.div.current;
        (s.pwr.env.pending = false → s.pwr.env.forced = false → exec .dividerStep s = .next { s with div := { s.div with current := one } }) ∧
        (s.pwr.env.pending = false → s.pwr.env.forced = true → s.pwr.env.tPoint < 5 → (s.div.current = s.div.target ∨ s.paceOk s.dividerDraw = true) →
          ∃ t, exec .dividerStep s = .next t ∧ t.div = { s.div with current := one, target := t.div.target } ∧
            (t.div.target = s.div.target ∨ t.div.target = 32 - 4 * s.pwr.env.tPoint) ∧
            t = { s with div := t.div, pwr := { s.pwr with vddTarget := t.pwr.vddTarget, paced := t.pwr.paced } }) ∧
        (s.pwr.env.pending = true → (s.div.current = s.div.target ∨ s.paceOk s.dividerDraw = true) →
          ∃ t, exec .dividerStep s = .next t ∧ t.div.current = one) ∧
        ((s.pwr.env.pending = true ∨ s.pwr.env.forced = true) → s.div.current ≠ s.div.target → s.paceOk s.dividerDraw = false →
          exec .dividerStep s = .next s)) ∧
      (∀ who, s.allowsRck who = true → exec (.fmcStart who) s = .next { s with rck := { s.rck with
        fmcRunning := s.rck.fmcRunning || decide (s.rck.fmcGate ≠ 0) } }) ∧
      (∀ who, s.allowsRck who = false → exec (.fmcStart who) s = .next s) ∧
      (let k := s.rck.fmcSel
        let on : Bool := (decide (k < 48) && (s.field k).pwr.pll) || (decide (k = 48) && s.rck.valePll) || (decide (k = 49) && s.rck.oscRun) ||
          (decide (k = 50) && s.rck.a3) || (decide (k = 51) && s.rck.h4) || decide (k = 52) || (decide (k = 53) && decide ((s.port s.rck.fmcPort).link = .on)) ||
          (decide (k = 54) && decide ((s.ring 0).pcie = .on)) || (decide (k = 55) && decide ((s.ring 1).pcie = .on))
        ∀ n : W32, let m : W32 := if on then n else 0
          (s.rck.fmcRunning = true → exec (.fmcGateClose n) s =
            .next { s with rck := { s.rck with fmcRunning := false, fmcDone := true, fmcCount := m, fmcNoclk := m = 0 } }) ∧
          (s.rck.fmcRunning = false → exec (.fmcGateClose n) s = .next s)) ∧
      (∀ d, s.tg.running = false ∨ s.tg.period = 0 → exec (.tickEdge d) s = .next s) ∧
      (∀ d, s.tg.running = true → s.tg.period ≠ 0 → ∃ t, exec (.tickEdge d) s = .next t ∧ t.tg.tick = s.tg.tick + 1 ∧ t.tg.ofs = 0 ∧
        t.tg.cyc = s.tg.cyc + BitVec.ofNat 64 s.toEdge ∧ t.tg.period = s.tg.nextPeriod.getD s.tg.period ∧ t.tg.nextPeriod = none ∧
        (∀ f ∈ d, t.tg.lost = true ∧ (s.tg.lost = false → d = [f] → t.tg.lostField = f.val))) ∧
      (s.tg.running = true → s.tg.period ≠ 0 → s.wf = true → s.quiet = true → (∀ k, (s.core k).msgs = []) → s.fw.flight = [] → (∀ c ∈ s.cols, c.2.rearm = none) →
        (∀ p, p < 16 → (s.part p).started = false ∧ (s.part p).startAt = none ∧ (s.part p).stopAt = none) →
        (∀ x, x < 96 → (s.ter x).st ≠ .ready ∧ (s.ter x).darkAt = none) →
        ∃ t, exec (.tickEdge []) s = .next t ∧ t.div = { s.div with phase := (s.div.phase + s.toEdge * s.div.current) % 32 } ∧
          (∀ k, t.core k = (s.core k).tickIdle ((s.div.phase + s.toEdge * s.div.current) / 32)) ∧
          t = { s with cores := t.cores, div := t.div, tg := { s.tg with
            tick := s.tg.tick + 1, ofs := 0, cyc := s.tg.cyc + BitVec.ofNat 64 s.toEdge, period := s.tg.nextPeriod.getD s.tg.period, nextPeriod := none } })) ∧
  (
    (∀ (k : Site) (m : TickMsg) (e : BitVec 48) (s : State), s.tg.tick.toNat < e.toNat →
      exec (.tickMessage k m e) s = .next (s.withCore k (fun c => { c with msgs := c.msgs ++ [(m, e)] }))) ∧
    (∀ (k : Site) (m : TickMsg) (e : BitVec 48) (s : State), e.toNat ≤ s.tg.tick.toNat →
      exec (.tickMessage k m e) s = .next (s.trap k 0x43 (e.toNat % 2 ^ 32))) ∧
    (∀ (c : Core) (e : BitVec 48),
      (c.msgs = [(.stop, e)] → let d := c.runMsgs e
        d = { c with msgs := [], seq := {}, sr := Vector.replicate 32 0, vr := Vector.replicate 32 (Vector.replicate 64 0), mr := Vector.replicate 8 0,
                     sem := Vector.replicate 64 0, adpBase := 0, adpLen := 0, arr := {}, vq := [], win := c.win.map (fun w => { w with head := 0, tail := 0 }),
                     rx := [], dma := [], net := [], col := [], stream := {}, held := false }) ∧
      (c.msgs = [(.hold, e)] → c.runMsgs e = { c with msgs := [], held := true }) ∧
      (c.msgs = [(.lift, e)] → c.runMsgs e = { c with msgs := [], held := false }) ∧
      (∀ m e', e' ≠ e → c.msgs = [(m, e')] → c.runMsgs e = c) ∧
      (∀ n, c.msgs = [(.start, e)] → c.seq.st = .stopped → c.sched ≠ [] → let d := c.startMsg e n
        d.seq.st = .running ∧ d.seq.entry = 0 ∧ d.seq.rep = 0 ∧ d.seq.pc = (c.sched.getD 0 {}).addr ∧ d.seq.spanLeft = (c.sched.getD 0 {}).span ∧ d.seq.mult = n ∧
        d = { c with seq := d.seq, win := d.win, sem := Vector.replicate 64 0 } ∧ (∀ j : Fin 16, d.win[j] = { c.win[j] with head := 0, tail := 0 }))))

/-- Register writes (R19, R20, R23, R365, R375, R387): an access that is not naturally aligned, one of an agent that is
not the owner outside its own ring, and one before READY to a block that answers from READY on change nothing; a
64-bit write is the low DW, then the high one; a write of 1 clears a W1C bit and a write of 0 keeps it; a field
outside its range takes the nearer end. HALT and IMBALANCE clear once no source holds them, and a ring is enabled with
the SEQ that its register names. -/
def Obligations.RegisterWritesComplete : Prop :=
  ∀ (who : Fin 3) (s : State),
    (∀ a v, a % 4 ≠ 0 → exec (.registerWrite who a false v) s = .next s) ∧
    (∀ a v, a % 8 ≠ 0 → exec (.registerWrite who a true v) s = .next s) ∧
    (∀ a wide v, s.host.owner ≠ who.val → (a + 4 < 0x400100 ∨ 0x400180 ≤ a) → exec (.registerWrite who a wide v) s = .next s) ∧
    (∀ a wide v, s.rck.ready = false → 0x200000 ≤ a → exec (.registerWrite who a wide v) s = .next s) ∧
    (∀ a (v : W64), a % 8 = 0 → ∃ t, exec (.registerWrite who a false v) s = .next t ∧
      exec (.registerWrite who a true v) s = exec (.registerWrite who (a + 4) false (v >>> 32)) t) ∧
    (∀ v : W64, who.val < 2 → s.allowsRck (some who) = true →
      exec (.registerWrite who 0x100000 false v) s = .next { s with rck := { s.rck with refSel := v.toNat % 4 } } ∧
      exec (.registerWrite who 0x100030 false v) s = .next { s with div := if v.getLsbD 30 then { s.div with bad := false } else s.div } ∧
      exec (.registerWrite who 0x100044 false v) s = .next { s with rck := if v.getLsbD 31 then { s.rck with fmcDone := false } else s.rck }) ∧
    (∀ v : W64, who.val < 2 → s.allows (some who) = true →
      exec (.registerWrite who 0x200010 false v) s = .next { s with pwr := { s.pwr with alarm := s.pwr.alarm &&& ~~~(v.setWidth 9 &&& 0x17E#9) } } ∧
      exec (.registerWrite who 0x200014 false v) s = .next { s with pwr := { s.pwr with mask := v.setWidth 9 &&& 0x1FE#9 } } ∧
      exec (.registerWrite who 0x200018 false v) s = .next { s with pwr := { s.pwr with
        warn := max 80 (min 100 (v.toNat / 2 ^ 24 % 256)), hot := max 90 (min 110 (v.toNat / 2 ^ 16 % 256)), droop := max 10 (min 60 (v.toNat % 64)) } } ∧
      exec (.registerWrite who 0x300000 false v) s = .next { s with tg := if v.getLsbD 31 then { s.tg with refused := false } else s.tg } ∧
      exec (.registerWrite who 0x30001C false v) s = .next { s with tg := if v.getLsbD 31 then { s.tg with lost := false, lostField := 0 } else s.tg } ∧
      exec (.registerWrite who 0x400004 false v) s = .next { s with host := { s.host with timeout := max 10 (min 60000 (v.toNat % 65536)) } } ∧
      (∀ p : PortIx, v.getLsbD 28 = true → exec (.registerWrite who (0x501004 + 0x40 * p.val) false v) s = .next (s.withPort p (fun q => { q with hbLost := false }))) ∧
      exec (.registerWrite who 0x600100 false v) s = .next { s with sec := if s.sec.cfgLock = 0 then { s.sec with cfg := v.setWidth 8, cfgLock := 0xF#4 } else s.sec }) ∧
    (s.allows (some who) = true → (∀ i, i < 4 → s.sec.src.getLsbD i = true → s.sec.levelOf (i + 1) < 2) →
      exec (.haltClear who) s = .next { s with sec := { s.sec with halt := false } }) ∧
    (s.allows (some who) = true → (∃ i, i < 4 ∧ s.sec.src.getLsbD i = true ∧ 2 ≤ s.sec.levelOf (i + 1)) → exec (.haltClear who) s = .next s) ∧
    (s.allows (some who) = true → exec (.imbalanceClear who true) s = .next { s with pwr := { s.pwr with
      alarm := s.pwr.alarm &&& ~~~0x80#9, pwrGood := decide (1140 ≤ s.pwr.vbus) && s.pwr.holdupOk } }) ∧
    exec (.imbalanceClear who false) s = .next s ∧
    (s.allows (some who) = false → exec (.haltClear who) s = .next s ∧ exec (.imbalanceClear who true) s = .next s) ∧
    (∀ p : Fin 2, s.rck.ready = true → (s.ring p).en = false → exec (.ringEnable p p) s = .next { s with
      host := { s.host with ring := s.host.ring.set p.val { s.ring p with en := true, entry := 0, phase := true, last := (s.ring p).startSeq - 1 } }
      fw := { s.fw with expSeq := s.fw.expSeq.set p.val (some (s.ring p).startSeq) } }) ∧
    (∀ on p : Fin 2, on ≠ p → exec (.ringEnable on p) s = .next s)

/-- The reference and the PLLs (R352 to R356): presence follows the pin; with REF_SEL naming a candidate that is present,
a window within its limits chooses it and one outside fails the stage, as the module's last candidate; with REF_SEL 0
the candidates are judged in their order. A lost reference (no edge, or a window outside ±500 ppm) leaves no terrace
lit, no domain ON and READY clear, stops every partition and the tick generator, loses the stacks, records the loss
and begins the reference stage again; a field PLL locks from the clock stage on; a timeout loses the field; a PLL lost
in service takes the field's domains OFF and its stack. -/
def Obligations.ReferenceCommandsComplete : Prop :=
  ∀ s : State,
    (∀ on, exec (.refclkPresent 1 on) s = .next { s with rck := { s.rck with oscRun := on } } ∧
      exec (.refclkPresent 2 on) s = .next { s with rck := { s.rck with a3 := on } } ∧
      exec (.refclkPresent 3 on) s = .next { s with rck := { s.rck with h4 := on } }) ∧
    (∀ (c : Fin 4) n, c ≠ 0 → s.rck.stage = 2 → s.rck.held = none → s.rck.failed = false → s.rck.stable = false → s.rck.present c = true →
      let second := if c = 1 then s.rck.a3 || s.rck.h4 else s.rck.oscRun
      let good : Bool := if second then decide (99990 ≤ n ∧ n ≤ 100010) else decide (98000 ≤ n ∧ n ≤ 102000)
      let chosen := { s with rck := { s.rck with active := c.val, stable := true, unchecked := !second } }
      (s.rck.refSel = c.val → exec (.refJudge c n) s = .next (if good then chosen else { s with rck := { s.rck with judgedBad := c.val :: s.rck.judgedBad, failed := true } })) ∧
      (s.rck.refSel = 0 → (∀ i, 1 ≤ i → i < c.val → s.rck.present i = false ∨ i ∈ s.rck.judgedBad) → exec (.refJudge c n) s = .next (if good then chosen else
        { s with rck := { s.rck with judgedBad := c.val :: s.rck.judgedBad, failed := [1, 2, 3].all (fun i => !s.rck.present i || i == c.val || s.rck.judgedBad.contains i) } })) ∧
      (s.rck.refSel = 0 → (∃ i, 1 ≤ i ∧ i < c.val ∧ s.rck.present i = true ∧ i ∉ s.rck.judgedBad) → exec (.refJudge c n) s = .next s)) ∧
    (∀ (c : Fin 4) n, s.rck.stable = true → s.rck.active = c.val → exec (.refJudge c n) s = if n < 99950 ∨ 100050 < n then exec .refLost s else .next s) ∧
    (s.rck.stable = true → s.wf = true → ∃ t, exec .refLost s = .next t ∧
      t.rck = { s.rck with refLost := true, active := 0, stable := false, unchecked := false, judgedBad := [], valePll := false, ready := false, stage := 2 } ∧
      t.tg.running = false ∧ t.tg.cyc = s.tg.cyc ∧ t.tg.tick = s.tg.tick ∧ (∀ x, x < 96 → t.lit x = false) ∧ t.pwr.pwrGood = false ∧ (∀ p, p < 16 → (t.part p).started = false) ∧
      (∀ f, (t.field f).hbm = [] ∧ (t.field f).pwr.trn ≠ .on ∧ (t.field f).pwr.mif ≠ .on ∧ (t.field f).pwr.pll = false) ∧
      (∀ p, p < 28 → (t.port p).link ≠ .on) ∧ (∀ p, p < 2 → (t.ring p).pcie ≠ .on ∧ (t.ring p).link = false) ∧
      t.sites = s.sites ∧ t.sec = s.sec) ∧
    (s.rck.stable = false → exec .refLost s = .next s) ∧
    (s.rck.stable = true → s.rck.held = none → 4 ≤ s.rck.stage → exec (.pllLock none) s = .next { s with rck := { s.rck with valePll := true } } ∧
      ∀ f : FieldIx, (s.field f).pwr.lost = false → exec (.pllLock (some f)) s = .next (s.withField f (fun x => { x with pwr := { x.pwr with pll := true } }))) ∧
    (∀ f : FieldIx, let off := fun (d : DomSt) => if d = .failed then DomSt.failed else .off
      s.rck.stage = 4 → s.rck.held = none → (s.field f).pwr.pll = false → (s.field f).pwr.lost = false →
      exec (.pllLockTimeout f) s = .next { s.withField f (fun x => { x with pwr := { x.pwr with lost := true, trn := off x.pwr.trn, mif := off x.pwr.mif } }) with
        rck := { s.rck with lost := min 48 (s.rck.lost + 1) } }) ∧
    (∀ f : FieldIx, (s.field f).pwr.pll = true ∨ (s.field f).pwr.lost = true ∨ s.rck.stage ≠ 4 → exec (.pllLockTimeout f) s = .next s) ∧
    (∀ f : FieldIx, (s.field f).pwr.pll = true → ∃ t, exec (.pllLockLost f) s = .next t ∧ (t.field f).pwr.pll = false ∧ (t.field f).pwr.lost = true ∧
      (t.field f).pwr.trn ≠ .on ∧ (t.field f).pwr.mif ≠ .on ∧ (t.field f).hbm = [] ∧ t.lit (2 * f.val) = false ∧ t.lit (2 * f.val + 1) = false ∧
      t.sites = s.sites ∧ t.rck = s.rck ∧ t.sec = s.sec ∧ (∀ g : FieldIx, g ≠ f → (t.field g).hbm = (s.field g).hbm ∧ (t.field g).pwr = (s.field g).pwr)) ∧
    (∀ f : FieldIx, (s.field f).pwr.pll = false → exec (.pllLockLost f) s = .next s)

/-- Resets (R360 to R369, Tables 11.2 to 11.4): each source leaves its code and the stage in progress in the cause record
and holds or releases the module; a cold reset keeps site states, fuses, keys, flash, counters that physics keeps and
the outputs, and every other field takes its reset value. A warm reset keeps the banks that are not secure, the
counters and the records, clears the cores' state, stores and schedules, and stops every partition, a spanning one
with QUORUM_LOST. PERST# and a hot reset on a port that is not the owner's reset that port alone; the trim load takes
copy A, then B, and stops with both bad. What a warm reset leaves of a core and its banks (R75, R112, R115, R123,
R126, R137, R138): from WARM_CMD with no partition started, the sequencer, the registers, the semaphores, the queues,
the store, the schedule, the windows, the streams and the tick digest under way are cleared; the fault and check
records, CHK_OFF, the counters, the draw counter and the latched tick digest stay; ownership is CORE, the march ends,
and the contents of a bank that is not secure stay. -/
def Obligations.ResetCommandsComplete : Prop :=
  (
    ∀ s : State,
      let cold : Nat → State := fun code =>
        { sites := s.sites
          pwr := { vbus := s.pwr.vbus, ibus := s.pwr.ibus, pairA := s.pwr.pairA, pairB := s.pwr.pairB, vbank := s.pwr.vbank, cap := s.pwr.cap }
          fab := { shelf := { s.fab.shelf with writing := none, waiting := [] }, ports := s.fab.ports.map (fun q => { present := q.present, powerClass := q.powerClass }) }
          fw := { log := s.fw.log }
          rck := { s.rck with
            refLost := false, unchecked := false, active := 0, stable := false, valePll := false, ready := false, failed := false, lost := 0,
            fmcSel := 0, fmcPort := 0, fmcGate := 100000, fmcDone := false, fmcRunning := false, fmcNoclk := false, fmcCount := 0, wdog := 0, warmAt := false,
            cause := code, causeStage := s.rck.stage, coldWanted := true, held := some code, wdogStage := 0, stage := 0, trimValid := false, trimFault := false }
          sec := { ident := s.sec.ident, otp := s.sec.otp, idKey := s.sec.idKey, idErased := s.sec.idErased, ownerKey := s.sec.ownerKey, revoke := s.sec.revoke,
                   minSvn := s.sec.minSvn, slotA := s.sec.slotA, slotB := s.sec.slotB, factory := s.sec.factory, activeB := s.sec.activeB,
                   mediaKey := s.sec.mediaKey, erasePending := s.sec.erasePending }
          out := s.out
          freeCtr := s.freeCtr
          pending := s.pending }
      let released : State → State := fun t => { t with rck := { t.rck with
        held := none, stage := 1, trimValid := false, trimFault := false, aBad := false, bBad := false, copy := 0, loadingB := false } }
      let warm : Nat → State → Prop := fun code t =>
        (t.rck.cause = code ∧ t.rck.causeStage = s.rck.stage ∧ t.rck.stage = 0x10 ∧ t.rck.ready = false ∧ t.rck.coldWanted = false ∧ t.rck.warmAt = false ∧ t.rck.trimValid = s.rck.trimValid) ∧
        t.sites = s.sites ∧ t.arrivals = [] ∧ t.res = [] ∧ t.mesh = [] ∧ t.div = { s.div with bad := false } ∧
        t.tg = { s.tg with refused := false, lost := false, lostField := 0 } ∧
        t.fw.inbox = [] ∧ t.fw.flight = [] ∧ t.fw.nonce = none ∧ t.fw.log = s.fw.log ∧ t.sec = { s.sec with src := 0, halt := false, lcTarget := none, spdm := Vector.replicate 3 0 } ∧
        (∀ p, p < 16 → (t.part p).started = false ∧ (t.part p).startAt = none ∧ (t.part p).stopAt = none ∧
          ((s.part p).started = true → 1 < (s.part p).members.length → (t.part p).quorumLost = true ∧ (t.part p).stopStatus = 0x0500)) ∧
        (∀ q : PortIx, (t.port q).st = .down ∧ (t.port q).en = false ∧ (t.port q).crc = (s.port q).crc ∧ (t.port q).replay = (s.port q).replay ∧ (t.port q).downs = (s.port q).downs)
      (exec .powerOn s = .next (cold 1)) ∧
      (∀ p : Fin 2,
        let alone := { s with host := { s.host with ring := s.host.ring.set p.val { pcie := (s.ring p).pcie, linkFail := (s.ring p).linkFail, inReset := true } } }
        (s.host.owner ≠ p.val → exec (.perst p) s = .next alone ∧ exec (.hotReset p) s = .next alone ∧ exec (.portReset p) s = .next alone) ∧
        (s.host.owner = p.val → exec (.portReset p) s = .next s)) ∧
      (∀ p : Fin 2, s.host.owner = p.val → s.sec.erasePending = false →
        (s.rck.ready = true → (∃ t, exec (.perst p) s = .next t ∧ warm 6 t ∧ t.rck.held = some 6 ∧ t.host.owner = 3 ∧ t.host.priority = 0 ∧ (t.ring p).inReset = true) ∧
          (∃ t, exec (.hotReset p) s = .next t ∧ warm 7 t ∧ t.rck.held = some 7 ∧ t.host.owner = 3 ∧ t.host.priority = 0 ∧ (t.ring p).inReset = true)) ∧
        (s.rck.ready = false → s.rck.stage ≠ 0x10 → exec (.perst p) s = .next { cold 6 with host := { (cold 6).host with ring := (cold 6).host.ring.set p.val { inReset := true } } } ∧
          exec (.hotReset p) s = .next { cold 7 with host := { (cold 7).host with ring := (cold 7).host.ring.set p.val { inReset := true } } })) ∧
      (s.rck.warmAt = true → s.rck.ready = true → s.sec.erasePending = false → ∃ t, exec .warmCmd s = .next t ∧ warm 8 t ∧ t.rck.held = none ∧ t.rck.wdogStage = 0 ∧ t.host.owner = s.host.owner ∧ t.host.timeout = 1000) ∧
      (s.rck.warmAt = false → exec .warmCmd s = .next s) ∧
      (s.rck.held = none → 3 ≤ s.rck.stage → s.sec.erasePending = false → (s.tg.running = false ∨ s.rck.wdog.toNat + 120000000 ≤ s.tg.cyc.toNat) →
        (s.rck.ready = true → ∃ t, exec .watchdog s = .next t ∧ warm 9 t ∧ t.rck.held = none) ∧
        (s.rck.ready = false → s.rck.stage ≠ 0x10 → exec .watchdog s = .next { released (cold 9) with
          rck := { (released (cold 9)).rck with wdogStage := if s.rck.stage = 3 then s.rck.wdogStage + 1 else 0 } })) ∧
      (s.tg.running = true → s.tg.cyc.toNat < s.rck.wdog.toNat + 120000000 → exec .watchdog s = .next s) ∧
      exec .watchdogRefresh s = .next { s with rck := { s.rck with wdog := s.tg.cyc } } ∧
      (∀ c, s.rck.held = some c → (c = 1 ∨ c = 2 → 1140 ≤ s.pwr.vbus) →
        exec .resetRelease s = .next (if s.rck.coldWanted then released s else { s with rck := { s.rck with held := none } })) ∧
      (∀ c, s.rck.held = some c → c = 1 ∨ c = 2 → s.pwr.vbus < 1140 → exec .resetRelease s = .next s) ∧
      (s.rck.held = none → exec .resetRelease s = .next s) ∧
      (s.rck.stage = 0x10 → s.rck.held = none → (∀ c ∈ s.cores, c.2.bank.wiping = 0) →
        (∃ t, exec .warmResetReady s = .next t ∧ t.rck = { s.rck with ready := true, stage := 0xFF, wdog := s.tg.cyc } ∧
          t = { s with cores := t.cores, rck := t.rck, pwr := { s.pwr with pwrGood := t.pwr.pwrGood } }) ∧
        ((∀ p, p < 16 → (s.part p).on = false ∨ (s.part p).plan = none) → exec .warmResetReady s = .next { s with
          rck := { s.rck with ready := true, stage := 0xFF, wdog := s.tg.cyc }
          pwr := { s.pwr with pwrGood := decide (1140 ≤ s.pwr.vbus) && s.pwr.holdupOk && !s.pwr.alarm.getLsbD 7 } })) ∧
      ((s.rck.stage ≠ 0x10 ∨ ∃ c ∈ s.cores, c.2.bank.wiping ≠ 0) → exec .warmResetReady s = .next s) ∧
      (∀ ok trim straps, s.rck.stage = 1 → s.rck.held = none → s.rck.trimFault = false → s.rck.trimValid = false →
        (ok = true → ∃ t, exec (.trimCopyLoaded ok trim straps) s = .next t ∧ (∀ k, t.site k = if k ∈ trim.fused then .fused else s.site k) ∧
          t = { s with
            sites := t.sites
            fab := { s.fab with feedId := straps.toNat }
            host := { s.host with ring := s.host.ring.map (fun r => { r with pcie := if r.pcie = .failed then .failed else .on }) }
            sec := if s.sec.erasePending then { s.sec with idKey := false, idErased := true, erasePending := false } else s.sec
            rck := { s.rck with trimValid := true, copy := if s.rck.loadingB then 2 else 1, startMarch := trim.startMarch, wires := trim.wires,
                                refSel := trim.refSel % 4, judgedBad := [], stage := 2 } }) ∧
        (ok = false → s.rck.loadingB = false → exec (.trimCopyLoaded ok trim straps) s = .next { s with rck := { s.rck with aBad := true, loadingB := true } }) ∧
        (ok = false → s.rck.loadingB = true → exec (.trimCopyLoaded ok trim straps) s = .next { s with rck := { s.rck with bBad := true, trimFault := true } })) ∧
      (∀ ok trim straps, s.rck.stage ≠ 1 ∨ s.rck.trimFault = true → exec (.trimCopyLoaded ok trim straps) s = .next s) ∧
      exec (.trimCheck true) s = .next s ∧
      (s.rck.trimValid = true → s.rck.held = none → exec (.trimCheck false) s = .next (released (cold 5)))) ∧
  (
    ∀ (s : State) (k : Nat), s.wf = true → s.rck.warmAt = true → s.rck.ready = true → s.sec.erasePending = false → (∀ p, p < 16 → (s.part p).started = false) →
      ∃ t, exec .warmCmd s = .next t ∧
        let c := s.core k
        let d := t.core k
        d = { bank := d.bank, fault := c.fault, chk := { c.chk with suspect := 0, inj := false }, rnd := { ctr := c.rnd.ctr }, logical := c.logical,
              sprHdr := c.sprHdr, sprDense := c.sprDense, idle := c.idle, tdig := c.tdig } ∧
        d.bank.own = 0 ∧ d.bank.target = 0 ∧ (s.dark k = false → d.bank.secure = c.bank.secure ||| c.bank.secSet) ∧ d.bank.march.running = false ∧
        d.bank.record = c.bank.record ∧ d.bank.corr = c.bank.corr ∧ d.bank.uncorr = c.bank.uncorr ∧
        (c.bank.secure ||| c.bank.secSet = 0 → d.bank.data = c.bank.data ∧ d.bank.err = c.bank.err ∧ d.bank.wiping = c.bank.wiping))

/-- Cold bring-up (R370, R371, R410 to R412, Tables 11.5, 11.6): the reference stage ends once a reference is stable; the
Vale stage elects the cores and starts the slot of the higher SVN and version that verifies, the factory image in
recovery mode when neither does, and fails with no passing core or no image; the clock stage starts the generator at
1,000 µs and full speed and fails without the module PLL; the memory and the transit stage bring up the fields that
are left, and a field named bad is lost; the phase stage latches what failed; the link stage enables the ports; the
light stage with HOLDUP_OK and nothing left to light sets READY and STAGE 0xFF, as it does without hold-up, with its
alarm. A standby core takes over as active and the lowest other passing core becomes standby. -/
def Obligations.BringupCompletes : Prop :=
  ∀ (i : StageInfo) (s : State),
    (s.rck.held = none → s.rck.failed = false → s.rck.ready = false → s.rck.trimFault = false →
      (s.rck.stage = 2 → exec (.bringupStageDone i) s = .next (if s.rck.stable then { s with rck := { s.rck with stage := if s.sec.coresOk = 0 then 3 else 4 } } else s)) ∧
      (s.rck.stage = 3 →
        let a := i.slotA.slot (s.imageOk i.slotA)
        let b := i.slotB.slot (s.imageOk i.slotB)
        (i.coresOk = 0 → exec (.bringupStageDone i) s = .next { s with sec := { s.sec with coresOk := 0, slotA := a, slotB := b }, rck := { s.rck with failed := true } }) ∧
        (i.coresOk ≠ 0 → (a.ok = true ∨ b.ok = true ∨ i.factoryOk = true) → ∃ t, exec (.bringupStageDone i) s = .next t ∧
          t = { s with sec := t.sec, pwr := { s.pwr with cap := i.capMf, holdupOk := i.holdupOk }, rck := { s.rck with stage := 4, wdog := s.tg.cyc, wdogStage := 0 } } ∧
          t.sec = { s.sec with coresOk := i.coresOk, active := t.sec.active, standby := t.sec.standby, noStandby := t.sec.noStandby, slotA := a, slotB := b,
                               activeB := t.sec.activeB, standbyB := t.sec.activeB, recovery := t.sec.recovery } ∧
          (i.coresOk.getLsbD t.sec.active = true ∧ ∀ j, j < t.sec.active → i.coresOk.getLsbD j = false) ∧
          (t.sec.noStandby = false → t.sec.active < t.sec.standby ∧ i.coresOk.getLsbD t.sec.standby = true ∧ ∀ j, t.sec.active < j → j < t.sec.standby → i.coresOk.getLsbD j = false) ∧
          (t.sec.noStandby = true → ∀ j, j < 4 → j ≠ t.sec.active → i.coresOk.getLsbD j = false) ∧
          (t.sec.recovery = true ↔ a.ok = false ∧ b.ok = false) ∧ (t.sec.recovery = true → t.sec.activeB = false) ∧
          (a.ok = true → b.ok = false → t.sec.activeB = false) ∧ (a.ok = false → b.ok = true → t.sec.activeB = true) ∧
          (a.ok = true → b.ok = true → s.rck.wdogStage < 2 → (t.sec.activeB = true ↔ a.svn < b.svn ∨ (a.svn = b.svn ∧ a.version.toNat < b.version.toNat))) ∧
          (a.ok = true → b.ok = true → s.rck.wdogStage = 2 → (t.sec.activeB = false ↔ a.svn < b.svn ∨ (a.svn = b.svn ∧ a.version.toNat < b.version.toNat)))) ∧
        (i.coresOk ≠ 0 → a.ok = false → b.ok = false → i.factoryOk = false → ∃ t, exec (.bringupStageDone i) s = .next t ∧ t = { s with sec := t.sec, rck := { s.rck with failed := true } })) ∧
      (s.rck.stage = 4 →
        (i.valeLocked = false ∨ s.rck.valePll = false → exec (.bringupStageDone i) s = .next { s with rck := { s.rck with failed := true } }) ∧
        (i.valeLocked = true → s.rck.valePll = true → i.disagree = [] → ∃ t, exec (.bringupStageDone i) s = .next t ∧
          t = { s with fields := t.fields
                       tg := { s.tg with running := true, period := 1000, nextPeriod := none, ofs := 0 }
                       div := { s.div with current := 32, target := 32 }
                       pwr := { s.pwr with vddMv := 700, vddTarget := 700, env := { s.pwr.env with point := 0 } }
                       rck := { s.rck with stage := 5, lost := t.rck.lost } } ∧
          (∀ f : FieldIx, (s.field f).pwr.lost = false → ((s.field f).pwr.pll = false ∨ f ∈ i.badFields) → (t.field f).pwr.lost = true ∧ (t.field f).pwr.trn ≠ .on ∧ (t.field f).pwr.mif ≠ .on) ∧
          (∀ f : FieldIx, (s.field f).pwr.pll = true → f ∉ i.badFields → t.field f = s.field f) ∧
          ((∀ f : FieldIx, (s.field f).pwr.pll = true) → i.badFields = [] → t.fields = s.fields ∧ t.rck.lost = s.rck.lost))) ∧
      (s.rck.stage = 5 → ∃ t, exec (.bringupStageDone i) s = .next t ∧
        (∀ f : FieldIx, (s.field f).pwr.lost = true → t.field f = s.field f) ∧
        (∀ f : FieldIx, (s.field f).pwr.lost = false → f ∉ i.badFields → (s.field f).pwr.mif ≠ .failed → t.field f = { s.field f with pwr := { (s.field f).pwr with mif := .on } }) ∧
        (∀ f : FieldIx, (s.field f).pwr.lost = false → (f ∈ i.badFields ∨ (s.field f).pwr.mif = .failed) → (t.field f).pwr.lost = true ∧ (t.field f).pwr.mif ≠ .on ∧ (t.field f).pwr.trn ≠ .on) ∧
        t = { s with fields := t.fields, rck := { s.rck with stage := 6, lost := t.rck.lost } }) ∧
      (s.rck.stage = 6 → ∃ t, exec (.bringupStageDone i) s = .next t ∧
        (∀ f : FieldIx, (s.field f).pwr.lost = false → f ∉ i.badFields → (s.field f).pwr.trn ≠ .failed → (t.field f).pwr = { (s.field f).pwr with trn := .on } ∧
          (s.rck.wires = [] → ∀ q : QuadIx,
            let x := 4 * (f.val % 8) + q.val % 4
            let y := 4 * (f.val / 8) + q.val / 4
            let pt := ((t.field f).routers[q]).port
            (pt[4] = if x = 0 then 0 else 1) ∧ (pt[5] = if x = 31 then 0 else 1) ∧ (pt[6] = if y = 0 then 0 else 1) ∧ (pt[7] = if y = 23 then 0 else 1))) ∧
        (∀ f : FieldIx, (s.field f).pwr.lost = false → (f ∈ i.badFields ∨ (s.field f).pwr.trn = .failed) → (t.field f).pwr.lost = true ∧ (t.field f).pwr.trn ≠ .on) ∧
        t.tg.routed = true ∧ t = { s with fields := t.fields, freeCtr := t.freeCtr, tg := t.tg, rck := { s.rck with stage := 7, lost := t.rck.lost } }) ∧
      (s.rck.stage = 7 → (i.badPhases = [] → exec (.bringupStageDone i) s = .next { s with rck := { s.rck with stage := 8 } }) ∧
        (∀ p, i.badPhases = [p] → ∃ t, exec (.phaseFail p) s = .next t ∧ exec (.bringupStageDone i) s = .next { t with rck := { t.rck with stage := 8 } })) ∧
      (s.rck.stage = 8 → ∃ t, exec (.bringupStageDone i) s = .next t ∧ t = { s with rck := { s.rck with stage := 9 }, fab := { s.fab with addr := 0xFFF, ports := t.fab.ports } } ∧
        ∀ p : PortIx, let low := !(s.port p).present || decide (1500 < (s.port p).powerClass)
          t.port p = { s.port p with en := true, eth := false, lowPower := low, link := if (s.port p).link = .failed then .failed else .on, st := if low = true ∨ (s.port p).link = .failed then .down else .training }) ∧
      (s.rck.stage = 9 → i.badSites = [] → s.rck.startMarch = false → (∀ t, t < 96 → (s.ter t).st = .lit ∨ (s.ter t).st = .failed) →
        let fin := fun (t : State) => { t with rck := { s.rck with ready := true, stage := 0xFF, wdog := s.tg.cyc }, pwr := { t.pwr with pwrGood := decide (1140 ≤ s.pwr.vbus) && s.pwr.holdupOk && !s.pwr.alarm.getLsbD 7 } }
        (s.pwr.holdupOk = true → exec (.bringupStageDone i) s = .next (fin s)) ∧
        (s.pwr.holdupOk = false → i.holdupOk = true → exec (.bringupStageDone i) s = .next s) ∧
        (s.pwr.holdupOk = false → i.holdupOk = false → exec (.bringupStageDone i) s =
          .next (fin { s with pwr := { s.pwr with alarm := s.pwr.alarm ||| 0x100#9 }, out := .pldm 2 0x0A [8] :: s.out })))) ∧
    (s.rck.held ≠ none ∨ s.rck.failed = true ∨ s.rck.ready = true ∨ s.rck.trimFault = true → exec (.bringupStageDone i) s = .next s) ∧
    (s.sec.coresOk ≠ 0 → s.sec.noStandby = false → ∃ t, exec .standbyTakeover s = .next t ∧
      (t.sec.noStandby = false → s.sec.coresOk.getLsbD t.sec.standby = true ∧ t.sec.standby ≠ s.sec.active ∧ t.sec.standby ≠ s.sec.standby ∧
        ∀ j, j < t.sec.standby → s.sec.coresOk.getLsbD j = true → j = s.sec.active ∨ j = s.sec.standby) ∧
      (t.sec.noStandby = true → ∀ j, j < 4 → s.sec.coresOk.getLsbD j = true → j = s.sec.active ∨ j = s.sec.standby) ∧
      t = { s with sec := { s.sec with active := s.sec.standby, activeB := s.sec.standbyB, standbyStaged := false, standby := t.sec.standby, noStandby := t.sec.noStandby } }) ∧
    (s.sec.coresOk = 0 ∨ s.sec.noStandby = true → exec .standbyTakeover s = .next s)

/-! ## Power -/

/-- Lighting and darkening (R326 to R330, R334, R345): a terrace that may be lit starts with one sub-switch, closes them
one by one, holds on droop, resumes within 2 ms and gives up after that; with 64 closed it is READY; STOPPING ends
OFF. In any other state the command changes nothing. A failed phase latches with its alarm and changes nothing while
its domain has no more failures than Table 10.4 allows; beyond that the domain goes dark: a terrace is FAILED, a
transit domain takes both terraces of its field with it, a memory interface loses its stack, a link goes down. An open
sense point is an alarm. Heat, sag, hold-up, imbalance, the rails and VDD (R322, R332 to R337, R339, R347): a reading
is kept, one from WARN on is an alarm, the third HOT one in a row orders the terrace dark for heat at a tick edge with
its lead, at once an alarm for a Vale core and a lost link for a link converter; a sensor at TRIP darkens every
terrace and applies reset code 3; a sample of several readings is one after the other. A declared sag darkens every
terrace and loses every stack, and its end is reset code 2; a short sag counts; the hold-up bank, the pair currents,
the input voltage and the lowest rail samples are recorded as the rules say, and PWR_GOOD follows; VDD moves 10 mV
towards its target. -/
def Obligations.PowerEventsComplete : Prop :=
  (
    ∀ s : State,
      let al : Nat → State → State := fun b u => { u with pwr := { u.pwr with alarm := u.pwr.alarm ||| BitVec.ofNat 9 (2 ^ b) }, out := .pldm 2 0x0A [b] :: u.out }
      (∀ t : TerIx, let x := s.ter t
        (s.mayLight t = true → (s.field (t.val / 2)).pwr.trn = .on → ∃ u, exec (.terraceLightStart t) s = .next u ∧
          u = { s.withTer t (fun x => { x with st := .switching, switches := 1, heldCyc := 0, hold := false, heat := false, litAt := some s.tg.tick, darkAt := none }) with
            pwr := { s.pwr with paced := (s.tg.cyc, s.terDraw t) :: s.pwr.paced.filter (fun p => (s.tg.cyc - p.1).toNat < 1200000) } }) ∧
        (s.mayLight t = true → ∃ u, exec (.terraceLightStart t) s = .next u ∧ (u.ter t).st = .switching ∧ (u.ter t).switches = 1 ∧ (u.ter t).heat = false ∧
          (u.ter t).litAt = some s.tg.tick ∧ (u.field (t.val / 2)).pwr.trn = .on ∧ u.cores = s.cores ∧ ∀ j, j < 96 → j ≠ t.val → u.ter j = s.ter j) ∧
        (s.mayLight t = false → exec (.terraceLightStart t) s = .next s) ∧
        (x.st = .switching → x.hold = false → x.switches < 64 →
          exec (.subswitchClose t) s = .next (s.withTer t (fun x => { x with switches := x.switches + 1 })) ∧
          exec (.droopHold t) s = .next (s.withTer t (fun x => { x with hold := true, holdSince := s.tg.cyc }))) ∧
        (x.st ≠ .switching ∨ x.hold = true ∨ 64 ≤ x.switches → exec (.subswitchClose t) s = .next s ∧ exec (.droopHold t) s = .next s) ∧
        (x.st = .switching → x.hold = true →
          let held := x.heldCyc + (s.tg.cyc - x.holdSince).toNat
          let given := s.withTer t (fun x => { x with st := .off, switches := 0, hold := false, heldCyc := held })
          (held ≤ 2400000 → exec (.droopResume t) s =
            .next (s.withTer t (fun x => { x with hold := false, heldCyc := held, switches := min 64 (x.switches + 1) }))) ∧
          (2400000 < held → exec (.droopResume t) s = .next s) ∧ (held < 2400000 → exec (.droopTimeout t) s = .next s) ∧
          (2400000 ≤ held → s.fw.flight = [] → exec (.droopTimeout t) s = .next (al 5 given)) ∧
          (∀ (f : Fetched) (m : BitVec 96), 2400000 ≤ held → m.getLsbD t.val = true → s.fw.flight = [{ f := f, kind := .terraces m true 0 }] →
            (m = 1#96 <<< t.val → exec (.droopTimeout t) s = .next ({ al 5 given with fw := { s.fw with flight := [] } }.finish f 0x0606 0 0)) ∧
            (m ≠ 1#96 <<< t.val → exec (.droopTimeout t) s =
              .next { al 5 given with fw := { s.fw with flight := [{ f := f, kind := .terraces (m &&& ~~~(1#96 <<< t.val)) true 0x0606 }] } }))) ∧
        (x.st ≠ .switching ∨ x.hold = false → exec (.droopResume t) s = .next s ∧ exec (.droopTimeout t) s = .next s) ∧
        (x.st = .switching → x.switches = 64 → x.hold = false → exec (.terraceReady t) s = .next (s.withTer t (fun x => { x with st := .ready }))) ∧
        (x.st ≠ .switching ∨ x.switches ≠ 64 ∨ x.hold = true → exec (.terraceReady t) s = .next s) ∧
        (x.st = .stopping → s.fw.flight = [] → (s.field (t.val / 2)).pwr.trnOffAt = none → exec (.terraceOff t) s = .next (s.withTer t (fun x => { x with st := .off, switches := 0 }))) ∧
        (x.st = .stopping → ∃ u, exec (.terraceOff t) s = .next u ∧ (u.ter t).st = .off ∧ (u.ter t).switches = 0) ∧
        (x.st ≠ .stopping → exec (.terraceOff t) s = .next s) ∧
        exec (.senseOpen t) s = .next (al 1 (s.withTer t (fun x => { x with senseFb := true }))) ∧
        (∀ i : Fin 48, x.vddFail.getLsbD i = false → let m := x.vddFail ||| (1#48 <<< i.val)
          (bvCount m ≤ 4 → exec (.phaseFail (.terVdd t i)) s = .next (al 2 (s.withTer t (fun x => { x with vddFail := m })))) ∧
          (4 < bvCount m → ∃ u, exec (.phaseFail (.terVdd t i)) s = .next u ∧ (u.ter t).st = .failed ∧ (u.ter t).vddFail = m ∧ u.pwr = (al 2 s).pwr)) ∧
        (∀ i : Fin 6, x.vcsFail.getLsbD i = false → let m := x.vcsFail ||| (1#6 <<< i.val)
          (bvCount m ≤ 2 → exec (.phaseFail (.terVcs t i)) s = .next (al 2 (s.withTer t (fun x => { x with vcsFail := m })))) ∧
          (2 < bvCount m → ∃ u, exec (.phaseFail (.terVcs t i)) s = .next u ∧ (u.ter t).st = .failed ∧ (u.ter t).vcsFail = m ∧ u.pwr = (al 2 s).pwr)) ∧
        (∀ i : Fin 48, x.vddFail.getLsbD i = true → exec (.phaseFail (.terVdd t i)) s = .next s) ∧
        (∀ i : Fin 6, x.vcsFail.getLsbD i = true → exec (.phaseFail (.terVcs t i)) s = .next s)) ∧
      (∀ f : FieldIx, let x := (s.field f).pwr
        let put : (FieldPwr → FieldPwr) → State := fun g => s.withField f (fun x => { x with pwr := g x.pwr })
        let dark : State → Prop := fun u => u.lit (2 * f.val) = false ∧ u.lit (2 * f.val + 1) = false
        (∀ i : Fin 12, x.trnFail.getLsbD i = false → let m := x.trnFail ||| (1#12 <<< i.val)
          (bvCount m ≤ 4 ∨ x.trn = .failed → exec (.phaseFail (.trn f i)) s = .next (al 2 (put (fun p => { p with trnFail := m })))) ∧
          (4 < bvCount m → x.trn ≠ .failed → ∃ u, exec (.phaseFail (.trn f i)) s = .next u ∧ dark u ∧ (u.field f).pwr.trn = .failed ∧ (u.field f).pwr.trnFail = m ∧ u.pwr = (al 2 s).pwr)) ∧
        (∀ i : Fin 4, x.mifVddFail.getLsbD i = false → let m := x.mifVddFail ||| (1#4 <<< i.val)
          (bvCount m ≤ 2 ∨ x.mif = .failed → exec (.phaseFail (.mifVdd f i)) s = .next (al 2 (put (fun p => { p with mifVddFail := m })))) ∧
          (2 < bvCount m → x.mif ≠ .failed → ∃ u, exec (.phaseFail (.mifVdd f i)) s = .next u ∧ dark u ∧ (u.field f).pwr.mif = .failed ∧ (u.field f).hbm = [] ∧ u.pwr = (al 2 s).pwr)) ∧
        (∀ i : Fin 4, x.mifFail.getLsbD i = false → let m := x.mifFail ||| (1#4 <<< i.val)
          (bvCount m ≤ 2 ∨ x.mif = .failed → exec (.phaseFail (.mifVmif f i)) s = .next (al 2 (put (fun p => { p with mifFail := m })))) ∧
          (2 < bvCount m → x.mif ≠ .failed → ∃ u, exec (.phaseFail (.mifVmif f i)) s = .next u ∧ dark u ∧ (u.field f).pwr.mif = .failed ∧ (u.field f).hbm = [] ∧ u.pwr = (al 2 s).pwr)) ∧
        (∀ i : Fin 12, x.trnFail.getLsbD i = true → exec (.phaseFail (.trn f i)) s = .next s) ∧
        (∀ i : Fin 4, (x.mifVddFail.getLsbD i = true → exec (.phaseFail (.mifVdd f i)) s = .next s) ∧ (x.mifFail.getLsbD i = true → exec (.phaseFail (.mifVmif f i)) s = .next s))) ∧
      (∀ (p : PortIx) (i : Fin 8), (s.port p).linkFail.getLsbD i = false → let m := (s.port p).linkFail ||| (1#8 <<< i.val)
        (bvCount (m.extractLsb' 0 4) ≤ 2 → bvCount (m.extractLsb' 4 4) ≤ 2 → exec (.phaseFail (.link p i)) s = .next (al 2 (s.withPort p (fun q => { q with linkFail := m })))) ∧
        (2 < bvCount (m.extractLsb' 0 4) ∨ 2 < bvCount (m.extractLsb' 4 4) → ∃ u, exec (.phaseFail (.link p i)) s = .next u ∧ (u.port p).link = .failed ∧ (u.port p).st ≠ .up ∧ u.pwr = (al 2 s).pwr)) ∧
      (∀ (p : Fin 2) (i : Fin 8), (s.ring p).linkFail.getLsbD i = false → let m := (s.ring p).linkFail ||| (1#8 <<< i.val)
        let put : Ring → Res := fun r => .next (al 2 { s with host := { s.host with ring := s.host.ring.set p.val r } })
        (bvCount (m.extractLsb' 0 4) ≤ 2 → bvCount (m.extractLsb' 4 4) ≤ 2 → exec (.phaseFail (.pcie p i)) s = put { s.ring p with linkFail := m }) ∧
        (2 < bvCount (m.extractLsb' 0 4) ∨ 2 < bvCount (m.extractLsb' 4 4) → exec (.phaseFail (.pcie p i)) s = put { s.ring p with linkFail := m, pcie := .failed, link := false })) ∧
      (∀ (p : PortIx) (i : Fin 8), (s.port p).linkFail.getLsbD i = true → exec (.phaseFail (.link p i)) s = .next s) ∧
      (∀ (p : Fin 2) (i : Fin 8), (s.ring p).linkFail.getLsbD i = true → exec (.phaseFail (.pcie p i)) s = .next s)) ∧
  (
    ∀ s : State,
      let al : Nat → State → State := fun b u => { u with pwr := { u.pwr with alarm := u.pwr.alarm ||| BitVec.ofNat 9 (2 ^ b) }, out := .pldm 2 0x0A [b] :: u.out }
      let good : State → State := fun u => { u with pwr := { u.pwr with
        pwrGood := u.rck.ready && decide (1140 ≤ u.pwr.vbus) && u.pwr.holdupOk && !u.pwr.alarm.getLsbD 7 } }
      let th : Sensor → Nat × Nat × Nat := fun x => match x with
        | .terrace _ _ => (s.pwr.warn, s.pwr.hot, 115)
        | .transit _ _ => (s.pwr.warn, s.pwr.hot, 115)
        | .stack _ => (s.pwr.stkWarn, s.pwr.stkHot, 105)
        | .vale _ => (90, 100, 110)
        | _ => (100, 115, 125)
      let pw : State → FieldIx → (FieldPwr → FieldPwr) → State := fun u f g => u.withField f (fun x => { x with pwr := g x.pwr })
      let put : Sensor → Nat → Bool → State → State := fun x v hot u => match x with
        | .terrace t q => u.withTer t (fun y => { y with temp := y.temp.set q.val v, hotRun := y.hotRun.set q.val (if hot then y.hotRun[q] + 1 else 0) })
        | .terConv t => u.withTer t (fun y => { y with convTemp := v, convRun := if hot then y.convRun + 1 else 0 })
        | .transit f i => pw u f (fun p => { p with trnTemp := Tab.set 0 p.trnTemp i v, trnHot := Tab.set 0 p.trnHot i (if hot then Tab.get 0 p.trnHot i + 1 else 0) })
        | .fieldConv f => pw u f (fun p => { p with convTemp := v, convRun := if hot then p.convRun + 1 else 0 })
        | .stack f => pw u f (fun p => { p with stackT := v, stackHalf := if hot then true else if v < s.pwr.stkWarn then false else p.stackHalf })
        | .linkConv i => { u with pwr := { u.pwr with linkTemp := u.pwr.linkTemp.set i.val v } }
        | .vale i => { u with pwr := { u.pwr with valeTemp := if i.val = 0 then [v, u.pwr.valeTemp.getD 1 0] else [u.pwr.valeTemp.getD 0 0, v] } }
      let runs : Sensor → Nat := fun x => match x with
        | .terrace t q => (s.ter t).hotRun[q]
        | .terConv t => (s.ter t).convRun
        | .transit f i => Tab.get 0 (s.field f).pwr.trnHot i
        | .fieldConv f => (s.field f).pwr.convRun
        | .stack _ => 0
        | _ => 2
      let order : TerIx → State → State := fun t u => if (s.ter t).st = .off ∨ (s.ter t).st = .failed ∨ (s.ter t).st = .stopping then u
        else u.withTer t (fun y => { y with heat := true, darkAt := some (y.darkAt.getD (s.tg.tick + if 4096 ≤ s.toEdge then 1 else 2)) })
      exec (.thermalSample []) s = .next s ∧
      (∀ x v, v < (th x).2.2 →
        let seen := if (th x).1 ≤ v then al 3 s else s
        (v < (th x).2.1 → exec (.thermalSample [(x, v)]) s = .next (put x v false seen)) ∧
        ((th x).2.1 ≤ v → runs x < 2 → exec (.thermalSample [(x, v)]) s = .next (put x v true seen)) ∧
        ((th x).2.1 ≤ v → 2 ≤ runs x →
          (∀ t q, x = .terrace t q → exec (.thermalSample [(x, v)]) s = .next (al 4 (order t (put x v true seen)))) ∧
          (∀ t, x = .terConv t → exec (.thermalSample [(x, v)]) s = .next (al 4 (order t (put x v true seen)))) ∧
          (∀ i, x = .vale i → exec (.thermalSample [(x, v)]) s = .next (al 4 (put x v true seen))) ∧
          (∀ i : Fin 10, x = .linkConv i → ∃ t, exec (.thermalSample [(x, v)]) s = .next t ∧ t.pwr = (put x v true seen).pwr ∧
            (∀ p : PortIx, p.val / 3 = i.val → (t.port p).st ≠ .up) ∧ (i.val = 9 → (t.ring 0).link = false ∧ (t.ring 1).link = false)) ∧
          (∀ f : FieldIx, ((∃ i, x = .transit f i) ∨ x = .fieldConv f) → ((s.field f).pwr.trn ≠ .on ∨ (s.field f).pwr.trnOffAt.isSome) →
            exec (.thermalSample [(x, v)]) s = .next (put x v true seen)) ∧
          (∀ f : FieldIx, ((∃ i, x = .transit f i) ∨ x = .fieldConv f) → (s.field f).pwr.trn = .on → (s.field f).pwr.trnOffAt = none → s.lit (2 * f.val) = true → (s.ter (2 * f.val)).darkAt = none →
            ∃ t, exec (.thermalSample [(x, v)]) s = .next t ∧ (t.field f).pwr.trnHeat = true ∧ (t.field f).pwr.trn = .on ∧
              (t.ter (2 * f.val)).heat = true ∧ (t.ter (2 * f.val)).darkAt = some (s.tg.tick + if 4096 ≤ s.toEdge then 1 else 2) ∧ (t.field f).pwr.trnOffAt = (t.ter (2 * f.val)).darkAt))) ∧
      (∀ x v rs, v < (th x).2.2 → (∀ p ∈ rs, p.2 < (th p.1).2.2) → ∃ t, exec (.thermalSample [(x, v)]) s = .next t ∧ exec (.thermalSample ((x, v) :: rs)) s = exec (.thermalSample rs) t) ∧
      (∀ rs, (∃ p ∈ rs, (th p.1).2.2 ≤ p.2) → ∃ t, exec (.thermalSample rs) s = .next t ∧ t.rck.cause = 3 ∧ t.rck.held = some 3 ∧ t.rck.stage = 0 ∧ t.cores = [] ∧ t.fields = [] ∧ t.sites = s.sites) ∧
      (s.rck.held = none → (4 ≤ s.rck.stage ∨ s.rck.stage = 0) → s.wf = true → ∃ t, exec .sagDeclared s = .next t ∧ t.pwr = { s.pwr with sagging := true, pwrGood := false } ∧
        (∀ x, x < 96 → t.lit x = false) ∧ (∀ f, (t.field f).hbm = [] ∧ (t.field f).pwr.trn ≠ .on ∧ (t.field f).pwr.mif ≠ .on) ∧
        (∀ p, p < 28 → (t.port p).link ≠ .on) ∧ (∀ p, p < 2 → (t.ring p).link = false ∧ (t.ring p).pcie ≠ .on) ∧ t.sites = s.sites ∧ t.rck = s.rck ∧ t.sec = s.sec) ∧
      (s.rck.held = none → 1 ≤ s.rck.stage → s.rck.stage < 4 → ∃ t, exec .sagDeclared s = .next t ∧ t.rck.cause = 2 ∧ t.rck.held = some 2 ∧ t.rck.stage = 0 ∧ t.cores = [] ∧ t.fields = [] ∧ t.sites = s.sites) ∧
      (s.rck.held ≠ none → exec .sagDeclared s = .next s) ∧
      (s.pwr.sagging = true → ∃ t, exec .sagSaveDone s = .next t ∧ t.rck.cause = 2 ∧ t.rck.held = some 2 ∧ t.rck.stage = 0 ∧ t.cores = [] ∧ t.fields = [] ∧ t.sites = s.sites) ∧
      (s.pwr.sagging = false → exec .sagSaveDone s = .next s) ∧
      (exec .sagShort s = .next { al 6 s with pwr := { (al 6 s).pwr with sagShort := satAdd s.pwr.sagShort 1 } }) ∧
      (∀ mv, exec (.inputVoltageChange mv) s = .next (good { s with pwr := { s.pwr with vbus := mv / 10 } })) ∧
      (exec .holdupRestored s = .next (good { s with pwr := { s.pwr with holdupOk := true } })) ∧
      (s.pwr.holdupOk = true → exec .holdupLow s = .next (good (al 8 { s with pwr := { s.pwr with holdupOk := false } }))) ∧
      (s.pwr.holdupOk = false → exec .holdupLow s = .next s) ∧
      (∀ ia ib : W16, let seen := { s with pwr := { s.pwr with pairA := ia.toNat, pairB := ib.toNat, ibus := ia.toNat + ib.toNat } }
        (200 < ia.toNat + ib.toNat → ia.toNat + ib.toNat < 4 * (max ia.toNat ib.toNat - min ia.toNat ib.toNat) →
          ∃ t, exec (.imbalanceHalt ia ib) s = .next t ∧ t.pwr = { (al 7 seen).pwr with pwrGood := false } ∧ (∀ x, x < 96 → t.lit x = false) ∧ t.rck = s.rck ∧ t.sites = s.sites) ∧
        (ia.toNat + ib.toNat ≤ 200 ∨ 4 * (max ia.toNat ib.toNat - min ia.toNat ib.toNat) ≤ ia.toNat + ib.toNat → exec (.imbalanceHalt ia ib) s = .next seen)) ∧
      (∀ v : W16, let low : Vmin → Vmin := fun m => if m.valid = true ∧ m.mv ≤ v.toNat then m else { valid := true, mv := v.toNat, at_ := s.now }
        exec (.railSample .input v) s = .next { s with pwr := { s.pwr with inV := low s.pwr.inV } } ∧
        (∀ t : TerIx, exec (.railSample (.terVdd t) v) s = .next (s.withTer t (fun x => { x with vdd := low x.vdd })) ∧
          exec (.railSample (.terVcs t) v) s = .next (s.withTer t (fun x => { x with vcs := low x.vcs }))) ∧
        (∀ f : FieldIx, exec (.railSample (.transit f) v) s = .next (pw s f (fun p => { p with trnV := low p.trnV })))) ∧
      (let v := if s.pwr.vddMv < s.pwr.vddTarget then min s.pwr.vddTarget (s.pwr.vddMv + 10)
          else if s.pwr.vddTarget < s.pwr.vddMv ∧ s.div.current = s.div.target then max s.pwr.vddTarget (s.pwr.vddMv - 10) else s.pwr.vddMv;
        (s.pwr.env.pending = false → s.pwr.env.forced = false → exec .vddStep s = .next { s with pwr := { s.pwr with vddMv := v } }) ∧
        ((s.pwr.env.pending = true ∨ s.pwr.env.forced = true) → (v = s.pwr.vddMv ∨ s.paceOk (s.vddDraw v) = true) → ∃ t, exec .vddStep s = .next t ∧ t.pwr.vddMv = v) ∧
        ((s.pwr.env.pending = true ∨ s.pwr.env.forced = true) → v ≠ s.pwr.vddMv → s.paceOk (s.vddDraw v) = false → exec .vddStep s = .next s)))

/-- R340: with n Enabled cores in lit terraces and w the worst-case core power of the clock point (Table 10.6, in units of
10 mW), B = (n × w + 4,200 W) ÷ 0.88; PWT_EST reports B of the configuration in force in whole watts; a bound is met
when B does not exceed it; with every terrace lit at P0, B is 29,973 W. -/
def Obligations.DrawBound : Prop :=
  ∀ s : State, s.pwr.env.point < 5 →
    let n := ((List.range 3072).filter (fun k => decide (s.site k = .enabled) && s.lit (k / 32))).length
    let b88 := n * [770, 617, 498, 390, 302].getD s.pwr.env.point 0 + 420000
    (∀ bound, drawFits (s.coresOf s.litTers) s.pwr.env.point bound = true ↔ b88 ≤ 88 * bound) ∧
    88 * s.estimate < b88 + 88 ∧ b88 < 88 * s.estimate + 88 ∧
    (n = 2880 → s.pwr.env.point = 0 → s.estimate = 29973)

/-- The envelope and TERRACE_SET (R342 to R346): the pair chosen fits the bound and no fitting pair has more cores ×
clock; a command that is not the owner's, meets another long command of the module, has parameters out of range, meets
an alarm halt, or names a bound that no pair fits is refused with its status and changes nothing else; an accepted one
sets the target, and completes at once where the target is in force. A deadline that has not come changes nothing; one
that comes while B exceeds the bound forces it. A darken of terraces that are dark completes with OK; one of lit
terraces orders them dark and flies; a light of dark terraces that may be lit flies. -/
def Obligations.EnvelopeCompletes : Prop :=
  (∀ (bound : Nat) (l : List (Nat × Nat × Nat)),
    (∀ c, pickPair bound l = some c → c ∈ l ∧ drawFits c.2.2 c.2.1 bound = true ∧
      ∀ d ∈ l, drawFits d.2.2 d.2.1 bound = true → d.2.2 * pointDiv d.2.1 ≤ c.2.2 * pointDiv c.2.1) ∧
    (pickPair bound l = none → ∀ d ∈ l, drawFits d.2.2 d.2.1 bound = false)) ∧
  (∀ (k : Pkt) (own : Bool) (bound deadline : W32) (keep : Bool) (rsv : Nat) (s : State), s.front k 0x0601#16 own = true →
    let run := exec (.envelopeSet k bound deadline keep rsv) s
    let b := if bound = 0 then 30000 else bound.toNat
    let bad := rsv ≠ 0 ∨ 30000 < bound.toNat ∨ deadline = 0 ∨ 60000 < deadline.toNat ∨ k.part ≠ 0xFF
    let free := ∀ l ∈ s.fw.flight, l.kind.target = .module_ → l.kind = .envelope
    (own = false → run = .next (s.answers k own stNotOwner)) ∧
    (own = true → ¬free → run = .next (s.answers k own stBusy)) ∧
    (own = true → free → bad → run = .next (s.answers k own stBadParam)) ∧
    (own = true → free → ¬bad → s.sec.halt = true → run = .next (s.answers k own stAlarmHalt)) ∧
    (own = true → free → ¬bad → s.sec.halt = false → pickPair b (s.envPairs keep) = none → run = .next (s.answers k own stEnvInfeasible)) ∧
    (∀ c, own = true → free → ¬bad → s.sec.halt = false → pickPair b (s.envPairs keep) = some c →
      ∃ t, run = .next t ∧ t.pwr.env.bound = b ∧ t.pwr.env.tLevel = c.1 ∧ t.pwr.env.tPoint = c.2.1 ∧ t.pwr.env.deadline = s.tg.cyc + BitVec.ofNat 64 (deadline.toNat * 1200000) ∧
        (t.pwr.env.pending = true ∨ t.pwr.env.pending = false ∧ t.pwr.env.level = c.1 ∧ t.pwr.env.point = c.2.1 ∧ t.div.current = pointDiv c.2.1 ∧ t.pwr.vddMv = pointMv c.2.1) ∧
        t.div.current = s.div.current ∧ t.pwr.vddMv = s.pwr.vddMv ∧ t.cores = s.cores ∧ t.sites = s.sites ∧ t.sec = s.sec ∧
        (s.div.current ≠ pointDiv c.2.1 → s.fw.flight = [] → t.pwr.env.pending = true ∧ t.fw.flight = [⟨⟨k, own⟩, .envelope⟩]) ∧
        (∀ f, s.div.current ≠ pointDiv c.2.1 → s.fw.flight = [⟨f, .envelope⟩] → t.fw.flight = [⟨⟨k, own⟩, .envelope⟩] ∧ t.fw.stored = ({ s.taken with fw := { s.taken.fw with flight := [] } }.finish f stEnvSuperseded 0 0).fw.stored) ∧
        (b = 30000 → s.fw.flight = [] → (∀ p, p < 16 → (s.part p).started = false) → s.div.current = pointDiv c.2.1 → s.pwr.vddMv = pointMv c.2.1 →
          t.pwr.env.pending = false ∧ t.fw.flight = [] ∧ t.fw.stored = (s.answers k own stOk).fw.stored))) ∧
  (∀ s : State, (s.pwr.env.pending = false ∨ s.tg.cyc.toNat < s.pwr.env.deadline.toNat) → exec .envelopeDeadline s = .next s) ∧
  (∀ s : State, s.pwr.env.pending = true → s.pwr.env.deadline.toNat ≤ s.tg.cyc.toNat → drawFits (s.coresOf s.litTers) s.pwr.env.point s.pwr.env.bound = false →
    ∃ t, exec .envelopeDeadline s = .next t ∧ t.pwr.env.pending = false ∧ t.pwr.env.forced = true ∧ t.pwr.env.point = t.pwr.env.tPoint ∧
      (∀ p, bestPoint (s.coresOf s.litTers) s.pwr.env.bound = some p → t.pwr.env.tPoint = p ∧ drawFits (s.coresOf s.litTers) p s.pwr.env.bound = true) ∧
      (∀ p, p < 16 → (t.part p).nextLevel = none) ∧ t.cores = s.cores) ∧
  (∀ s : State, s.pwr.env.pending = true → drawFits (s.coresOf s.litTers) s.pwr.env.point s.pwr.env.bound = true → s.atPoint = false → exec .envelopeDeadline s = .next s) ∧
  (∀ (k : Pkt) (own : Bool) (m : BitVec 96) (rsv : Nat) (s : State), s.front k 0x0602#16 own = true →
    let dark := exec (.terraceSetDarken k m rsv) s
    let light := exec (.terraceSetLight k m rsv) s
    let free := ∀ l ∈ s.fw.flight, l.kind.target ≠ .module_
    let bad := m = 0 ∨ rsv ≠ 0 ∨ k.part ≠ 0xFF
    let busy := ∃ t, t < 96 ∧ m.getLsbD t = true ∧ s.terBusy t = true
    (own = false → dark = .next (s.answers k own stNotOwner) ∧ light = .next (s.answers k own stNotOwner)) ∧
    (own = true → ¬free → dark = .next (s.answers k own stBusy) ∧ light = .next (s.answers k own stBusy)) ∧
    (own = true → free → bad → dark = .next (s.answers k own stBadParam) ∧ light = .next (s.answers k own stBadParam)) ∧
    (own = true → free → ¬bad → busy → dark = .next (s.answers k own stTerraceBusy) ∧ (s.sec.halt = false → light = .next (s.answers k own stTerraceBusy))) ∧
    (own = true → free → ¬bad → ¬busy → (∀ t, t < 96 → m.getLsbD t = true → (s.ter t).st = .off ∨ (s.ter t).st = .failed) → dark = .next (s.answers k own stOk)) ∧
    (∀ t : TerIx, own = true → free → ¬bad → ¬busy → m = 1#96 <<< t.val → s.lit t = true → (s.ter t).darkAt = none → ∃ u, dark = .next u ∧
      (u.ter t).darkAt.isSome ∧ u.fw.flight = s.fw.flight ++ [⟨⟨k, own⟩, .terraces m false 0⟩] ∧ u = { s.taken.withTer t (fun x => { x with darkAt := (u.ter t).darkAt }) with fw := { s.taken.fw with flight := u.fw.flight } }) ∧
    (own = true → free → ¬bad → s.sec.halt = true → light = .next (s.answers k own stAlarmHalt)) ∧
    (own = true → free → ¬bad → s.sec.halt = false → ¬busy →
      ((∃ t, t < 96 ∧ m.getLsbD t = true ∧ (s.ter t).st = .failed) → light = .next (s.answers k own stTerraceFailed)) ∧
      ((∀ t, t < 96 → m.getLsbD t = true → (s.ter t).st ≠ .failed) → (∃ t, t < 96 ∧ m.getLsbD t = true ∧ s.coolTer t = false) → light = .next (s.answers k own stThermalHold)) ∧
      ((∀ t, t < 96 → m.getLsbD t = true → (s.ter t).st ≠ .failed ∧ s.coolTer t = true) →
        (s.pwr.holdupOk = false ∨ s.pwr.alarm.getLsbD 7 = true → light = .next (s.answers k own stPowerHalted)) ∧
        (s.pwr.holdupOk = true → s.pwr.alarm.getLsbD 7 = false → s.setFits m = false → light = .next (s.answers k own stEnvInfeasible)) ∧
        (s.pwr.holdupOk = true → s.pwr.alarm.getLsbD 7 = false → s.setFits m = true → (∀ t, t < 96 → m.getLsbD t = true → s.lit t = true) → light = .next (s.answers k own stOk)) ∧
        (s.pwr.holdupOk = true → s.pwr.alarm.getLsbD 7 = false → s.setFits m = true → (∀ t, t < 96 → m.getLsbD t = true → s.lit t = false) →
          light = .next { s.taken with fw := { s.taken.fw with flight := s.fw.flight ++ [⟨⟨k, own⟩, .terraces m true 0⟩] } }))))

/-! ## The mesh, the cols, streams and watershed units -/

/-- Routers (R169 to R171, R178 to R180): a check failure counts and lengthens the port's run of failures; the sixteenth
in a row ends the run; a link then moves to the free spare link of its edge, at both ends, or goes down, and a port
that leads to no router goes down; the partitions whose routes used it fault. A reduction packet leaves the buffer in
which it waits; one that its entry does not allow is discarded and recorded with the reason, and its partition faults;
one of an entry with a single input leaves on OUT as it came; with two inputs the first packet waits and the second
completes the sum, lane by lane from the lowest port, which leaves on OUT as a packet of LEN flits. Cols (R190 to
R194, R263): an arrival at an ARMED col adds its count and the first deadline; with the target reached it is DONE, or
DONE_LATE once the deadline has come, and EXPIRED when that comes first; a second deadline that differs sets MISMATCH;
too many arrivals set EXCESS. A resolution names an edge and goes to every lit core of the partition; EXPIRED and
EXCESS are the partition's faults. A flit shows the status in a core's copy before that edge and raises COL_STALE
after it. An idle or expired col discards an arrival, a DONE one takes it as EXCESS. A fence col moves the re-shard
on, or fails it. -/
def Obligations.RoutersAndColsComplete : Prop :=
  (
    ∀ (f : FieldIx) (q : QuadIx) (p : Fin 10) (s : State),
      let r := (s.field f).routers[q]
      let put : Router → State := fun r => s.withField f (fun x => { x with routers := x.routers.set q.val r })
      let worn := { r with crc := satAdd r.crc 1, streak := r.streak.set p.val 0 };
      (r.streak[p] ≠ 15 → exec (.meshCrcError f q p) s =
        .next (put { r with crc := satAdd r.crc 1, streak := r.streak.set p.val (r.streak[p] + 1) })) ∧
      (r.streak[p] = 15 → 4 ≤ p.val → p.val ≤ 7 → neighbour (routerX f q) (routerY f q) p = none → exec (.meshCrcError f q p) s = .next (put worn)) ∧
      (∀ x y o, r.streak[p] = 15 → 4 ≤ p.val → p.val ≤ 7 → neighbour (routerX f q) (routerY f q) p = some (x, y, o) →
        let st := if s.canSpare f q p then 2 else 3
        ∃ t, exec (.meshCrcError f q p) s = .next t ∧ (t.field f).routers[q].port = r.port.set p.val st ∧ (t.router (fieldAt x y) (quadAt x y)).port.toList.getD o 0 = st ∧
          (t.field f).routers[q].crc = worn.crc ∧ (t.field f).routers[q].streak = worn.streak ∧
          t.fw.reports = s.fw.reports ++ (s.usersOfLink f q p).map (fun i => { part := i, what := .meshLink f q, addr := f.val * 256 + q.val * 16 + p.val }) ∧
          t = { s with fields := t.fields, tg := t.tg, freeCtr := t.freeCtr, fw := { s.fw with reports := t.fw.reports } }) ∧
      (r.streak[p] = 15 → p.val < 4 ∨ 7 < p.val → r.port[p] = 1 → exec (.meshCrcError f q p) s = .next { put { worn with port := r.port.set p.val 3 } with
        fw := { s.fw with reports := s.fw.reports ++ (s.usersOfRouterPort f q p).map (fun i => { part := i, what := .meshLink f q, addr := f.val * 256 + q.val * 16 + p.val }) } }) ∧
      (r.streak[p] = 15 → p.val < 4 ∨ 7 < p.val → r.port[p] ≠ 1 → exec (.meshCrcError f q p) s = .next (put worn)) ∧
      (∀ (id : BitVec 10) (len : Nat) (payload : List W32) (left : List MeshPkt),
        let mine : MeshPkt → Prop := fun m => m.at_ = 16 * f.val + q.val ∧ m.from_ = p.val ∧ m.id = id.toNat
        (left = s.mesh ∧ (∀ m ∈ s.mesh, ¬mine m)) ∨ (∃ m, s.mesh = m :: left ∧ mine m ∧ m.toEntry = true ∧ m.tail = true) →
        let r0 := { r with streak := r.streak.set p.val 0 }
        let e := Tab.get {} r.red id.toNat
        let run := exec (.reductionPacket f q p id len payload) s
        let leaves : List W32 → List MeshPkt := fun v =>
          let m : MeshPkt := { src := 8192 + 16 * f.val + q.val, kind := 5, dst := if e.out < 4 then siteAtPort f q e.out else f.val, vc := 1, bytes := v.flatMap (fun w => bytesLE w.toNat 4),
                               id := id.toNat, len := e.len, at_ := 16 * f.val + q.val, from_ := 10, to_ := 16 * f.val + q.val, oport := e.out, outp := some e.out }
          List.replicate (e.len - 1) { m with bytes := [], tail := false, last := false, rsemEn := false } ++ [m]
        (∀ reason, (reason = 1 ∧ e.en = false ∨ reason = 2 ∧ e.en = true ∧ e.inMask.testBit p = false ∨ reason = 3 ∧ e.en = true ∧ e.inMask.testBit p = true ∧ e.len ≠ len) →
          ∃ t, run = .next t ∧ t.fw.reports = s.fw.reports ++ (match s.redOwner e id.toNat with | some i => [{ part := i, what := .reduction id.toNat, addr := f.val * 16 + q.val }] | none => []) ∧
            (e.en = true → s.redOwner e id.toNat = some e.part) ∧
            t = { put { r0 with record := (t.field f).routers[q].record } with mesh := left, fw := { s.fw with reports := t.fw.reports } } ∧
            (r.record.valid = false → (t.field f).routers[q].record.valid = true ∧ (t.field f).routers[q].record.body = { reason := reason, port := p.val, id := id.toNat }) ∧
            (r.record.valid = true → (t.field f).routers[q].record.more = true)) ∧
        (e.en = true → e.inMask = 2 ^ p.val → e.len = len → run = .next { put r0 with mesh := left ++ leaves payload }) ∧
        (∀ o : Fin 10, o ≠ p → e.en = true → e.inMask = 2 ^ o.val + 2 ^ p.val → e.len = len →
          (e.waiting = Vector.replicate 10 [] → run = .next { put { r0 with red := Tab.set {} r.red id.toNat { e with waiting := e.waiting.set p.val [payload] } } with mesh := left }) ∧
          (∀ first : List W32, e.waiting = (Vector.replicate 10 []).set o.val [first] → run =
            .next { put { r0 with red := Tab.set {} r.red id.toNat { e with waiting := Vector.replicate 10 [] } } with
              mesh := left ++ leaves (if o.val < p.val then first.zipWith fadd32 payload else payload.zipWith fadd32 first) })))) ∧
  (
    (∀ (k : ColIx) (a : Arrival) (pre post : List Arrival) (s : State), s.arrivals = pre ++ a :: post → (∀ x ∈ pre, x.col ≠ k.val) → a.col = k.val →
      let c := s.col k
      let gone := { s with arrivals := pre ++ post }
      let fault : FaultReport := { part := c.part, what := .colFault k, addr := k }
      let n := c.count + a.count
      let dl := if c.dl.isSome then c.dl else a.dl.map (dlStamp s.tg.tick)
      let c1 := { c with count := n, dl := dl, mismatch := c.mismatch || (c.dl.isSome && a.dl.isSome && decide (c.dl ≠ a.dl.map (dlStamp s.tg.tick))) }
      let due := dl.any (fun d => d.le s.now)
      let e := s.edgeAfter c.part 512
      let put : Col → State := fun x => { gone with cols := Tab.set {} s.cols k x }
      (c.st = .idle ∨ c.st = .expired → exec (.colArrival k) s = .next gone) ∧
      (c.st = .armed → n < c.target → due = false → exec (.colArrival k) s = .next (put c1)) ∧
      (c.st = .armed → (c.target ≤ n ∨ due = true) → k.val ≠ 8176 + c.part →
        let st : ColSt := if n < c.target then .expired else if due then .doneLate else .done
        let show_ : ColShow := if n < c.target then .expired else if due then .okLate else .ok
        exec (.colArrival k) s = .next { put { c1 with st := st, excess := c.excess || decide (c.target < n), rearm := if n < c.target then none else some e } with
          res := s.res ++ [{ col := k, status := show_, edge := e, todo := s.colCores c.part }]
          fw := { s.fw with reports := s.fw.reports ++ (if n = c.target then [] else [fault]) } }) ∧
      (∀ p : PartIx, c.st = .armed → c.target ≤ n → k.val = 8176 + c.part → c.part = p.val → (s.part p).rs.stage = 2 → ∃ t, exec (.colArrival k) s = .next t ∧
        ((t.col k).st = .done ∨ (t.col k).st = .doneLate) ∧ t.part p = { s.part p with resharding := true, rs := { (s.part p).rs with stage := 4, advanceAt := true } }) ∧
      (c.st = .done ∨ c.st = .doneLate → exec (.colArrival k) s = .next { put { c with excess := true } with fw := { s.fw with reports := s.fw.reports ++ [fault] } })) ∧
    (∀ (k : ColIx) (s : State), (∀ a ∈ s.arrivals, a.col ≠ k.val) → exec (.colArrival k) s = .next s) ∧
    (∀ (k : ColIx) (s : State),
      let c := s.col k
      (c.st = .armed → c.count < c.target → c.due s.now = true → k.val ≠ 8176 + c.part → exec (.colExpiry k) s = .next { s with
        cols := Tab.set {} s.cols k { c with st := .expired, rearm := none }
        res := s.res ++ [{ col := k, status := .expired, edge := s.edgeAfter c.part 512, todo := s.colCores c.part }]
        fw := { s.fw with reports := s.fw.reports ++ [{ part := c.part, what := .colFault k, addr := k }] } }) ∧
      (c.st ≠ .armed ∨ c.due s.now = false ∨ c.target ≤ c.count → exec (.colExpiry k) s = .next s)) ∧
    (∀ (j : Site) (k : ColIx) (r : ResFlit) (rest : List ResFlit) (s : State), s.res = r :: rest → r.col = k.val → j.val ∈ r.todo → r ∉ rest →
      let t := { s with res := if r.todo.erase j.val = [] then rest else { r with todo := r.todo.erase j.val } :: rest }
      (s.tg.tick.toNat < r.edge.toNat → exec (.resolutionFlit j k) s =
        .next (t.withCore j (fun c => { c with col := Tab.upd {} c.col k (fun x => { x with show_ := r.status }) }))) ∧
      (r.edge.toNat ≤ s.tg.tick.toNat → exec (.resolutionFlit j k) s = .next (t.trap j 0x42 k))) ∧
    (∀ (j : Site) (k : ColIx) (s : State), (∀ r ∈ s.res, r.col ≠ k.val ∨ j.val ∉ r.todo) → exec (.resolutionFlit j k) s = .next s))

/-- R192: the first arrival of a round that carries a deadline sets D and DLSET; once DLSET is 1 an arrival of another
deadline sets DL_MISMATCH and leaves D, and so of ARRIVE and ARRIVE_WAIT, merged or not. -/
def Obligations.ColDeadlineRule : Prop :=
  (∀ (c : Col) (d : Stamp),
    (c.dl = none → c.takeDl (some d) = { c with dl := some d }) ∧
    (∀ y, c.dl = some y → y ≠ d → c.takeDl (some d) = { c with mismatch := true }) ∧
    (c.dl = some d → c.takeDl (some d) = c) ∧ c.takeDl none = c) ∧
  (∀ (k : ColIx) (a : Arrival) (r : List Arrival) (s : State), s.arrivals = a :: r → a.col = k.val → k.val < 8176 → (s.col k).st = .armed →
    ∃ t, exec (.colArrival k) s = .next t ∧ t.arrivals = r ∧ (t.col k).count = (s.col k).count + a.count ∧
      (a.dl = none → (t.col k).dl = (s.col k).dl ∧ (t.col k).mismatch = (s.col k).mismatch) ∧
      (∀ w, a.dl = some w → (s.col k).dl = none → (t.col k).dl = some (dlStamp s.tg.tick w) ∧ (t.col k).mismatch = (s.col k).mismatch) ∧
      (∀ w y, a.dl = some w → (s.col k).dl = some y → (t.col k).dl = some y ∧ (t.col k).mismatch = ((s.col k).mismatch || decide (y ≠ dlStamp s.tg.tick w))))

/-- Stream lists (R163, R203 to R206, R232): an entry that is not watershed-controlled starts with all of its tiles to
send, one that is with the tiles of the blocks of its micro-batch's list, or, transposed, of the mask in the stack,
with a fetch record on its way to the core; a STEP entry begins the next step and does not start while its partition
is held. A tile waits while a block of it is PENDING, while a fetch record is on its way and while its window has no
space, goes into the window as far as that has space, and after the last of a pass posts the entry's semaphore and
moves the list on. A transpose that the format does not have and an uncorrectable read stop the core. Watershed slots
(R156 to R162): a selection that is new to an enabled slot audits one unselected block in 16, rounded up, writes the
final mask to the stack, counts the selected blocks, and sends a fetch record to every core of the layer, which posts
the slot's semaphore; in a dense period every block is fetched and the period runs down; a repeated one, or one for a
slot that is off, sets BADMSG. A report is kept with the others of its micro-batch; the last one compares the audited
blocks with the activity, and a fourth exceedance in a row starts a dense period. -/
def Obligations.StreamsAndWatershedComplete : Prop :=
  (
    ∀ (k : Site) (s : State),
      let c := s.core k
      let e := c.streamEntry
      let f := s.field (k.val / 64)
      let off := s.withCore k (fun c => { c with stream := { c.stream with active := false } })
      (s.runsOn k = none → exec (.streamEntryStart k) s = .next s ∧ exec (.streamTileSend k) s = .next s) ∧
      (∀ p, s.runsOn k = some p →
        (c.stream.active = true ∨ c.streams = [] ∨ c.seq.st = .faulted → exec (.streamEntryStart k) s = .next s) ∧
        (e.step = true → (s.part p).hold ≠ [] ∨ c.held = true → exec (.streamEntryStart k) s = .next s) ∧
        (c.stream.active = false → c.streams ≠ [] → c.seq.st ≠ .faulted → (e.step = false ∨ (s.part p).hold = [] ∧ c.held = false) →
          let step := if e.step || c.stream.step.isNone then some ((c.stream.step.map (· + 1)).getD (s.part p).step) else c.stream.step
          let w := f.slot e.wslot
          let go : Bool → List Nat → State := fun ready l => s.withCore k (fun c => { c with
            stream := { c.stream with step := step, active := true, pass := 0, ready := ready, todo := l, moved := 0 } })
          let tiles : Nat → List Nat := fun mask => (maskBits w.nblk mask).flatMap (fun i => (List.range (e.ntile / w.nblk)).map (· + e.ntile / w.nblk * i))
          let b := w.batches.find? (fun b => b.mb = e.mb0 && b.step = step.getD 0)
          (e.wsen = false → exec (.streamEntryStart k) s = .next (go true (List.range e.ntile))) ∧
          (e.wsen = true → e.xp = 0 → b = none → exec (.streamEntryStart k) s = .next (go false [])) ∧
          (∀ x, e.wsen = true → e.xp = 0 → b = some x → exec (.streamEntryStart k) s = .next (go true (tiles (if x.dense then 2 ^ w.nblk - 1 else x.sel ||| x.audited)))) ∧
          (∀ bytes, e.wsen = true → e.xp ≠ 0 → f.hbmRead (w.maskAddr e.mb0) 128 = .ok bytes →
            let mask := natLE bytes % 2 ^ w.nblk
            let dense := ((w.batches.find? (fun b => b.mb = e.mb0)).map WsBatch.dense).getD false
            exec (.streamEntryStart k) s = .next { go true (tiles mask) with mesh := s.mesh ++ [{ src := 4096 + k.val / 64, kind := 0, dst := k, addr := w.frecAddr, rsemEn := true, rsem := w.frecSem, bytes := bytesLE e.mb0 2 ++ bytesLE e.wslot 1 ++ [2] ++ bytesLE (maskBits w.nblk mask).length 2 ++ [if dense then 1 else 0] ++ List.replicate 9 0 ++ bytesLE mask 128 }] }) ∧
          (∀ u, e.wsen = true → e.xp ≠ 0 → f.hbmRead (w.maskAddr e.mb0) 128 = .error u → exec (.streamEntryStart k) s = .next ((go false []).trap k 0x51 u))) ∧
        (c.stream.active = false → exec (.streamTileSend k) s = .next s) ∧
        (c.stream.active = true → c.stream.ready = true → e.wsen = true → (∃ m ∈ s.mesh, m.dst = k.val ∧ m.src = 4096 + k.val / 64) → exec (.streamTileSend k) s = .next s) ∧
        (c.stream.active = true → c.stream.ready = true → (e.wsen = true → ∀ m ∈ s.mesh, m.dst ≠ k.val ∨ m.src ≠ 4096 + k.val / 64) →
          ∀ x r, c.stream.todo = x :: r →
            let u := e.unitAt f x
            let w := c.window e.win
            (u.bad = true → exec (.streamTileSend k) s = .next (off.trap k 0x52 (256 * c.stream.entry + e.xp))) ∧
            (u.bad = false → c.stream.moved = 0 → u.addrs.any f.tilePending = true → exec (.streamTileSend k) s = .next s) ∧
            (u.bad = false → (0 < c.stream.moved ∨ u.addrs.any f.tilePending = false) →
              (∀ a, f.readAll u.len u.addrs = .error a → exec (.streamTileSend k) s = .next (off.trap k 0x51 a)) ∧
              (∀ raws, f.readAll u.len u.addrs = .ok raws →
                let bytes := (u.out raws).drop c.stream.moved
                let n := min bytes.length w.space
                (n = 0 → bytes ≠ [] → exec (.streamTileSend k) s = .next s) ∧
                (0 < n → e.win < 16 → w.head < 2 * w.size → c.windowClear .dma w w.head n = true →
                  ∃ d, c.stored d (fun x => x ∈ w.spots w.head n) ∧ d.bytesAt (w.spots w.head n) = bytes.take n ∧
                    (n < bytes.length → exec (.streamTileSend k) s = .next (s.putCore k { d.headOn e.win n with stream := { c.stream with moved := c.stream.moved + n } })) ∧
                    (n = bytes.length → r.drop (u.count - 1) ≠ [] → 1 ≤ u.count →
                      exec (.streamTileSend k) s = .next (s.putCore k { d.headOn e.win n with stream := { c.stream with todo := r.drop (u.count - 1), moved := 0 } })) ∧
                    (n = bytes.length → r.drop (u.count - 1) = [] → 1 ≤ u.count → e.sem < 64 → (c.L e.sem).toNat < 65535 →
                      exec (.streamTileSend k) s = .next (s.putCore k (({ d.headOn e.win n with
                        stream := if c.stream.pass + 1 < e.rep then { c.stream with pass := c.stream.pass + 1, ready := false, todo := [], moved := 0 }
                          else { step := c.stream.step, entry := if e.last || c.streams.length ≤ c.stream.entry + 1 then 0 else c.stream.entry + 1 } } : Core).posted e.sem))))))))) ∧
  (
    ∀ (f : FieldIx) (n : SlotIx) (m : W16) (s : State),
      let w := (s.field f).ws[n]
      let put : WsSlot → State := fun w => s.withField f (fun x => { x with ws := x.ws.set n.val w })
      let part := s.part w.part
      let record : Nat → Nat → Nat → List Byte := fun mask len dense => bytesLE m.toNat 2 ++ bytesLE n.val 1 ++ [2] ++ bytesLE len 2 ++ bytesLE dense 1 ++ List.replicate 9 0 ++ bytesLE mask 128
      let sends : Nat → Nat → Nat → List MeshPkt := fun mask len dense => (w.cores.filterMap (fun l => part.siteOf part.placement l)).map (fun k =>
        { src := 4096 + f.val, kind := 0, dst := k, addr := w.frecAddr, bytes := record mask len dense, rsemEn := true, rsem := w.frecSem })
      let stack : State → Nat → Prop := fun t mask => Tab.getRange 0 (t.field f).hbm (w.maskAddr m.toNat) 128 = bytesLE mask 128 ∧
        (∀ x, x < w.maskAddr m.toNat ∨ w.maskAddr m.toNat + 128 ≤ x → Tab.get 0 (t.field f).hbm x = Tab.get 0 (s.field f).hbm x) ∧
        t = { put (t.field f).ws[n] with fields := t.fields, mesh := t.mesh } ∧ (∀ g, g ≠ f.val → t.field g = s.field g) ∧
        t.field f = { s.field f with hbm := (t.field f).hbm, hbmBad := (t.field f).hbmBad, ws := (s.field f).ws.set n.val (t.field f).ws[n] }
      (∀ sel, (w.en = false ∨ m.toNat ∈ w.formed) → exec (.wsSelection f n m sel) s = .next (put { w with badmsg := true })) ∧
      (∀ sel, w.en = true → m.toNat ∉ w.formed → w.nblk ≤ 1024 → w.fallback = false → ∃ t b, exec (.wsSelection f n m sel) s = .next t ∧
        (let un := (List.range w.nblk).filter (fun i => !sel.getLsbD i)
         let a := (un.length + 15) / 16
         (t.field f).ws[n] = { w with batches := w.batches ++ [b], formed := w.formed ++ [m.toNat], sel := satAdd w.sel (w.nblk - un.length), ctr := w.ctr + BitVec.ofNat 48 ((a + 3) / 4) } ∧
         b = { step := part.nextStep - 1, mb := m.toNat, sel := sel.toNat % 2 ^ w.nblk, audited := b.audited, aCount := a } ∧
         b.audited &&& b.sel = 0 ∧ b.audited < 2 ^ w.nblk ∧ (maskBits w.nblk b.audited).length = a ∧
         stack t (b.sel ||| b.audited) ∧ t.mesh = s.mesh ++ sends (b.sel ||| b.audited) (w.nblk - un.length + a) 0)) ∧
      (∀ sel, w.en = true → m.toNat ∉ w.formed → w.fallback = true → ∃ t, exec (.wsSelection f n m sel) s = .next t ∧
        (t.field f).ws[n] = { w with batches := w.batches ++ [{ step := part.nextStep - 1, mb := m.toNat, sel := sel.toNat % 2 ^ w.nblk, dense := true }], formed := w.formed ++ [m.toNat], remain := w.remain - 1, fallback := decide (1 < w.remain) } ∧
        stack t (2 ^ w.nblk - 1) ∧ t.mesh = s.mesh ++ sends (2 ^ w.nblk - 1) w.nblk 1) ∧
      (∀ act, (∀ b ∈ w.batches, b.mb ≠ m.toNat) → exec (.wsActivityReport f n m act) s = .next (put { w with badmsg := true })) ∧
      (∀ act b, w.batches = [b] → b.mb = m.toNat → (w.en = false ∨ w.reports ≤ b.reports) → exec (.wsActivityReport f n m act) s = .next (put { w with badmsg := true })) ∧
      (∀ act b, w.en = true → w.batches = [b] → b.mb = m.toNat → b.reports < w.reports →
        let y := b.y ||| act.toNat % 2 ^ w.nblk
        let misses := (maskBits w.nblk (y &&& b.audited)).length
        let idle := ((List.range w.nblk).filter (fun i => b.sel.testBit i && !y.testBit i)).length
        let w1 := { w with batches := [{ b with reports := b.reports + 1, y := y }] }
        let w2 := { w1 with lastA := b.aCount, lastMiss := misses, aud := satAdd w.aud b.aCount, miss := satAdd w.miss misses, false_ := satAdd w.false_ idle }
        (b.reports + 1 < w.reports ∨ b.dense = true → exec (.wsActivityReport f n m act) s = .next (put w1)) ∧
        (b.reports + 1 = w.reports → b.dense = false →
          (w.fallback = true → exec (.wsActivityReport f n m act) s = .next (put w2)) ∧
          (w.fallback = false → 256 * misses ≤ w.missBound * b.aCount → exec (.wsActivityReport f n m act) s = .next (put { w2 with run := 0 })) ∧
          (w.fallback = false → w.missBound * b.aCount < 256 * misses → w.run ≠ 3 → exec (.wsActivityReport f n m act) s = .next (put { w2 with run := w.run + 1 })) ∧
          (w.fallback = false → w.missBound * b.aCount < 256 * misses → w.run = 3 → exec (.wsActivityReport f n m act) s =
            .next (put { w2 with run := 0, fallback := true, remain := w.denseSlots, fallbacks := satAdd w.fallbacks 1 })))))

/-! ## The update engine and steps -/

/-- Gradient writes (R206, R214, R218, R219, R254): an accepted unit of 16 values goes to the stack value by value, stored
or added to what a touched block holds, and marks every block it meets TOUCHED and PENDING; values of masked blocks
are discarded and the unit counts once. The range, a frozen region and a late one are the writing core's faults 0x50,
0x53 and 0x54, and the engine's for a frozen or late tree write; a unit that the engine needs and cannot read is its
fault 3. A core that runs nothing and a partition that is not started write nothing. The update engine (R206, R220,
R225, R230, R231): a norm message moves COLLECT to NORM and sends the engine's sum of squares as a VC1 packet; a
scalar that is not finite skips the update and clears the MAP areas; another one sets the clip scale, toggles new
roots, advances the powers of the rules in use and begins APPLY; APPLY_DONE returns to COLLECT and tells firmware; a
message out of its phase is engine fault 6 and halts the engine for the partition; a halted engine and a stopped
partition do nothing. -/
def Obligations.UpdateEngineCompletes : Prop :=
  (
    ∀ (f : FieldIx) (n : Fin 256) (u : Nat) (add : Bool) (vals : List W32) (s : State),
      let x := s.field f
      let r := x.region n
      let engine : Nat → Nat → State := fun kind a => { s.withField f (fun x => { x with upe := { x.upe with
          fault := x.upe.fault.note UpeFaultBody.lower s.now { part := r.part, kind := kind, region := n, addr := BitVec.ofNat 32 a }, halted := x.upe.halted ||| BitVec.ofNat 16 (2 ^ r.part) } }) with
        fw := { s.fw with reports := s.fw.reports ++ [{ part := r.part, what := .engine kind f, addr := a }] } }
      let written : State → Prop := fun t => t = { s with fields := t.fields } ∧ (∀ g, g ≠ f.val → t.field g = s.field g) ∧
        t.field f = { x with hbm := (t.field f).hbm, upe := { x.upe with discard := if (r.unitBlocks u).any (x.masked r) then satAdd x.upe.discard 1 else x.upe.discard } } ∧
        (∀ i, i < 16 → let b := (r.unitBlocks u).getD i 0
          let old := x.f32 (64 * (r.grad + u) + 4 * i)
          (t.field f).f32 (64 * (r.grad + u) + 4 * i) =
            if x.masked r b then old else if add then fadd32 (if x.touched r b then old else 0) (vals.getD i 0) else vals.getD i 0) ∧
        (∀ b ∈ r.unitBlocks u, x.masked r b = false → (t.field f).touched r b = true ∧ (t.field f).pendingBit r b = true) ∧
        (∀ b, b ∉ r.unitBlocks u ∨ x.masked r b = true → (t.field f).touched r b = x.touched r b ∧ (t.field f).pendingBit r b = x.pendingBit r b) ∧
        (∀ a, (a < 64 * (r.grad + u) ∨ 64 * (r.grad + u) + 64 ≤ a) → (a < 64 * r.map ∨ 64 * r.map + (r.blocks + 3) / 4 ≤ a) → Tab.get 0 (t.field f).hbm a = Tab.get 0 x.hbm a)
      let apart := 16 ≤ vals.length ∧ r.grad + u < r.map ∧ (r.fmen = true → r.map + (r.blocks + 255) / 256 ≤ r.fmask)
      let bad := x.gradBad n u;
      (bad = none ↔ r.en = true ∧ r.kind = 1 ∧ u < 1024 * r.g * r.len ∧ r.frozen = false ∧ x.phase r.part = .collect) ∧
      (∀ k : Site, let run := exec (.gradientWrite f n u add vals (.core k)) s
        (s.runsOn k = none → run = .next s) ∧
        (∀ p, s.runsOn k = some p → p ≠ r.part → run = .next (s.trap k 0x50 (r.grad + u))) ∧
        (s.runsOn k = some r.part →
          (bad = some .range → run = .next (s.trap k 0x50 (r.grad + u))) ∧
          (bad = some .frozen → run = .next (s.trap k 0x53 n)) ∧
          (bad = some .late → run = .next (s.trap k 0x54 n)) ∧
          (∀ a, bad = none → x.gradUnread r u add = some a → run = .next (engine 3 a)) ∧
          (bad = none → x.gradUnread r u add = none → apart → ∃ t, run = .next t ∧ written t))) ∧
      (let run := exec (.gradientWrite f n u add vals .tree) s;
        ((s.part r.part).started = false → run = .next s) ∧
        ((s.part r.part).started = true →
          (bad = some .range → run = .next s) ∧
          (bad = some .frozen → run = .next (engine 2 (r.grad + u))) ∧
          (bad = some .late → run = .next (engine 1 (r.grad + u))) ∧
          (∀ a, bad = none → x.gradUnread r u add = some a → run = .next (engine 3 a)) ∧
          (bad = none → x.gradUnread r u add = none → apart → ∃ t, run = .next t ∧ written t))) ∧
      (∀ (port : PortIx) (src : BitVec 12) (e : W16), let run := exec (.gradientWrite f n u add vals (.fabric port src.toNat e)) s
        (r.part < 16 → (s.part r.part).started = true → e = (s.part r.part).epoch →
          (bad = some .range → run = .next s) ∧ (bad = some .frozen → run = .next (engine 2 (r.grad + u))) ∧ (bad = some .late → run = .next (engine 1 (r.grad + u))) ∧
          (bad = none → x.gradUnread r u add = none → apart → ∃ t, run = .next t ∧ written t)) ∧
        ((s.part r.part).started = true → e ≠ (s.part r.part).epoch → e + 1 ≠ (s.part r.part).epoch → run = .next (s.fabFault r.part port fkStale src.toNat e 0 .none)) ∧
        ((s.part r.part).started = false → run = .next (s.fabFault r.part port fkClosed src.toNat e 0 .none)))) ∧
  (
    ∀ (f : FieldIx) (p : PartIx) (s : State),
      let x := s.field f
      let fault : Nat → Nat → Nat → State → State := fun kind n u t => { t.withField f (fun y => { y with upe := { y.upe with
          fault := y.upe.fault.note UpeFaultBody.lower s.now { part := p, kind := kind, region := n, addr := BitVec.ofNat 32 u }, halted := y.upe.halted ||| BitVec.ofNat 16 (2 ^ p.val) } }) with
        fw := { s.fw with reports := s.fw.reports ++ [{ part := p, what := .engine kind f, addr := u }] } }
      let phase : UpePhase → Field → Field := fun y x => { x with upe := { x.upe with phase := x.upe.phase.set p.val y } }
      let idle := (s.part p).started = false ∨ x.halted p = true
      let live := (s.part p).started = true ∧ x.halted p = false;
      (idle → exec (.normMessage f p) s = .next s ∧ ∀ v, exec (.scalarBroadcast f p v) s = .next s) ∧
      (live → x.phase p ≠ .collect → exec (.normMessage f p) s = .next (fault 6 0 0 s)) ∧
      (live → x.phase p = .collect → ∀ v, x.normRegions (x.trained p) 0#32 = .ok v → exec (.normMessage f p) s =
        .next { s.withField f (fun x => { phase .norm x with upe := { (phase .norm x).upe with ssq := v } }) with
          mesh := s.mesh ++ [{ src := 4096 + f.val, kind := 5, dst := f, vc := 1, bytes := bytesLE v.toNat 128, id := x.upe.redId, at_ := 16 * f.val, from_ := 8, to_ := 16 * f.val }] }) ∧
      (live → x.phase p = .collect → ∀ n u, x.normRegions (x.trained p) 0#32 = .error (n, u) → exec (.normMessage f p) s = .next (fault 3 n u (s.withField f (phase .norm)))) ∧
      (x.trained p = [] → x.normRegions (x.trained p) 0#32 = .ok 0) ∧
      (live → ∀ v, x.phase p ≠ .norm → exec (.scalarBroadcast f p v) s = .next (fault 6 0 0 s)) ∧
      (live → ∀ v, x.phase p = .norm → ∃ t, exec (.scalarBroadcast f p v) s = .next t ∧
        (t.field f).upe.total = v ∧ (t.field f).phase p = .apply ∧ (t.field f).upe.part = p.val ∧ (∀ q : PartIx, q ≠ p → (t.field f).phase q = x.phase q) ∧
        (∀ i, Tab.get {} (t.field f).bindings i = let b : Binding := Tab.get {} x.bindings i
          if b.en = true ∧ b.part = p.val ∧ b.newroot = true then { b with active := !b.active, newroot := false } else b) ∧
        (∀ j, j ≠ f.val → t.field j = s.field j) ∧ t = { s with fields := t.fields, fw := { s.fw with reports := t.fw.reports } } ∧
        (isFin32 v = false → (t.field f).upe.nonfinite = true ∧ (t.field f).upe.skips = satAdd x.upe.skips 1 ∧ (t.field f).upe.powers = x.upe.powers ∧ t.fw = s.fw ∧
          (∀ r ∈ x.trained p, ∀ a, 64 * r.2.map ≤ a → a < 64 * r.2.map + (r.2.blocks + 3) / 4 → Tab.get 0 (t.field f).hbm a = 0)) ∧
        (isFin32 v = true →
          (let c := x.upe.clip[p]
           (t.field f).upe.scale = (if flt32 (fmul32 c c) v = false ∧ isNan32 (fmul32 c c) = false then 0x3F800000#32 else fmul32 c (rsqrt32 v))) ∧
          (t.field f).upe.nonfinite = x.upe.nonfinite ∧ (t.field f).upe.skips = x.upe.skips ∧
          (∀ i, Tab.get onePowers (t.field f).upe.powers i =
            if (∃ r ∈ x.trained p, r.2.rule = i) then (x.rule i).advance (Tab.get onePowers x.upe.powers i) else Tab.get onePowers x.upe.powers i) ∧
          ((x.trained p).flatMap (fun r => x.liveBlocks r.2) = [] → (∀ r ∈ x.trained p, r.2.pcen = false ∧ x.badUnit (x.mapUnits r.2) = none) →
            (t.field f).hbm = x.hbm ∧ (t.field f).upe.blocks = x.upe.blocks ∧ t.fw = s.fw))) ∧
      (x.phase p = .apply → x.halted p = false → exec (.applyDone f p) s = .next ((s.withField f (phase .collect)).withPart p (fun y => { y with
        enginesDone := if y.enginesDone.contains f.val then y.enginesDone else f.val :: y.enginesDone }))) ∧
      (x.phase p ≠ .apply ∨ x.halted p = true → exec (.applyDone f p) s = .next s))

/-- R222: a term word holds FUNC in [7:6], operand B in [5:3] and operand A in [2:0], with bits [31:8] of no effect; codes
0 to 3 name slots and code 4 the gradient; the value is that of Table 7.9. -/
def Obligations.TermFunctions : Prop :=
  ∀ (func ca cb rest : Nat) (eps g : W32) (slot : Nat → W32), func < 4 → ca ≤ 4 → cb ≤ 4 →
    let x := termOf (256 * rest + 64 * func + 8 * cb + ca) eps slot g
    let a := if ca = 4 then g else slot ca
    let b := if cb = 4 then g else slot cb
    (func = 0 → x = a) ∧
    (func = 1 → x = fmul32 a a) ∧
    (func = 2 → (isNan32 a = true → x = 0x7FC00000) ∧ (flt32 0 a = true → x = 0x3F800000) ∧ (flt32 a 0 = true → x = 0xBF800000) ∧ ((a = 0 ∨ a = 0x80000000) → x = 0)) ∧
    (func = 3 → x = fmul32 a (rsqrt32 (fadd32 b eps)))

/-- The recurrence (R222, R224, R225), in FP32 with one rounding an operation: a slot takes β × term + α × slot, the
update value gathers the terms in order, and the parameter takes −η × u + (1 − λ) × p; a power takes P × α. -/
def Obligations.RecurrenceRule : Prop :=
  ∀ (rule : Rule) (g p : W32) (old : List W32) (d : Draws) (x : Nat),
    (∀ sl, rule.slots = [sl] → rule.nslot = 1 → rule.sbf16 = 0 → old.length = 1 →
      rule.newSlots d x g old = [ffma32 sl.beta (termOf sl.term sl.eps (fun i => old.getD i 0) g) (fmul32 sl.alpha (old.getD 0 0))]) ∧
    (∀ a b bc, rule.terms = [a, b] → rule.nterm = 2 → rule.bca = 0 → rule.updateOf bc g old =
      ffma32 b.gamma (termOf b.term b.eps (fun i => old.getD i 0) g) (ffma32 a.gamma (termOf a.term a.eps (fun i => old.getD i 0) g) 0)) ∧
    (∀ u, rule.newParam u p = ffma32 (rule.eta ^^^ 0x80000000#32) u (fmul32 (fsub32 0x3F800000#32 rule.lambda) p)) ∧
    (∀ (ps : Vector W32 4) (i : Fin 4), (rule.advance ps)[i] = if i.val < rule.nslot then fmul32 ps[i] ((rule.slots.getD i.val {}).alpha) else ps[i])

/-- Steps (R28, R30, R32, R65, R219, R253, R291, R300, R310): a step begins at a partition edge once its shards are in and
nothing holds it: every core of the placement runs, with the step's seed; it commits, in order, at a partition edge
after its first, once every engine is done, every result digest has matched, no check waits and no fault of the
partition is open; a step that may not begin or commit changes nothing. A replayed step keeps no record and no count.
The announcement of a snapshot's step reaches a running job that spans modules. -/
def Obligations.StepsComplete : Prop :=
  ∀ (p : PartIx) (s : State),
    let x := s.part p
    let ks := (s.placed p).map Prod.snd
    let edge := x.started = true ∧ s.tg.ofs = 0 ∧ x.edgeIn = (x.plan.map Plan.mult).getD 1
    let quiet := (∀ r ∈ s.fw.reports, r.part ≠ p.val) ∧ (∀ k ∈ ks, (s.core k).seq.st ≠ .faulted) ∧ (∀ f ∈ s.fields, f.2.trained p = [] ∨ f.1 ∈ x.enginesDone) ∧
      x.checkSites = [] ∧ x.arb = [] ∧ x.digestBad = false ∧ x.digestsMatched = true ∧ x.rollBack = false ∧ x.rcv.active = false;
    (edge → ks ≠ [] → ks.Nodup → (∀ k ∈ ks, (s.core k).seq.st = .held ∧ (s.core k).held = false) →
      (∀ h ∈ x.hold, h = .input) → x.replay = none → x.shardsIn x.nextStep = true → ∃ t, exec (.stepBegin p) s = .next t ∧
        t.part p = { x with nextStep := x.nextStep + 1, stepOpen := true, hold := [], begun := x.begun ++ [{ step := x.nextStep, tick := s.tg.tick, cyc := s.tg.cyc }] } ∧
        (∀ k ∈ ks, let e := (s.core k).sched.getD (s.core k).seq.entry {}
          (t.core k).seq.st = .running ∧ (t.core k).seq.entry = (s.core k).seq.entry ∧ (t.core k).seq.pc = e.addr ∧ (t.core k).seq.spanLeft = e.span ∧
          (e.stepFirst = true → (t.core k).rnd.ctr = 0) ∧ (k ∈ s.sitesOf p → (t.core k).rnd.seed = stepSeed x.seed x.nextStep)) ∧
        (∀ q, q < 16 → q ≠ p.val → t.part q = s.part q) ∧ t = { s with cores := t.cores, fields := t.fields, parts := t.parts, freeCtr := t.freeCtr }) ∧
    (¬edge ∨ ks = [] ∨ x.shardsIn x.nextStep = false ∨ (∃ h ∈ x.hold, h ≠ .input) ∨ (∃ k ∈ ks, (s.core k).seq.st ≠ .held ∨ (s.core k).held = true) → exec (.stepBegin p) s = .next s) ∧
    (∀ b r, x.begun = b :: r → b.tick ≠ s.tg.tick → x.stepOpen = true → edge → quiet → ∃ t, exec (.stepCommit p) s = .next t ∧ (t.part p).committed = some b.step ∧ (t.part p).step = b.step + 1 ∧
      (t.part p).begun = r ∧ (t.part p).stepOpen = !r.isEmpty ∧ (t.part p).enginesDone = [] ∧ (t.part p).digests = [] ∧ (t.part p).intake = x.intakeNext b.step ∧ t.tg = s.tg ∧ t.sites = s.sites ∧ t.sec = s.sec ∧
      (x.replay = none → (t.part p).snap.since = x.snap.since + 1 ∧ (t.part p).snap.stepCyc.head? = some (s.tg.cyc - b.cyc).toNat ∧
        (∃ y, (t.part p).retraces.head? = some y ∧ y.step = b.step ∧ y.seed = x.seed ∧ y.firstTick = b.tick ∧ y.epoch = x.epoch)) ∧
      (x.replay ≠ none → t.part p = { x with step := b.step + 1, committed := some b.step, begun := r, stepOpen := !r.isEmpty, enginesDone := [], digests := [], intake := x.intakeNext b.step })) ∧
    ((x.begun = [] ∨ (∃ b r, x.begun = b :: r ∧ b.tick = s.tg.tick) ∨ x.stepOpen = false ∨ ¬edge ∨ ¬quiet) → exec (.stepCommit p) s = .next s) ∧
    (∀ n : W64, x.started = true → 1 < x.members.length → x.step.toNat ≤ n.toNat → exec (.snapshotAnnounce p n) s =
      .next (s.withPart p (fun y => { y with snap := { y.snap with announced := some n } }))) ∧
    (∀ n : W64, x.started = false ∨ x.members.length ≤ 1 ∨ n.toNat < x.step.toNat → exec (.snapshotAnnounce p n) s = .next s)

/-! ## The fabric -/

/-- Ports (R236 to R243, R270, R424): a port that stands DOWN or trains sends its INIT flit, full credits with its
address, index, link version and module ID, or is up at once in Ethernet mode; INIT of version 1 makes the port UP
with the credits it brings, another version fails it, and so does 10 ms without one; a failed port trains again. A
flit whose CRC is wrong is counted and, like one out of sequence, answered by one NAK; a good one enters the receive
buffers with the credits and the acknowledgement it carries; a control flit returns credits; a NAK sends every
unacknowledged flit again, and the 32nd in a row of one SEQ loses the link. The codewords of each flit are counted. A
flit of another kind, or in another state of the port, changes nothing. A link that is lost (R236, R237, R241, R266,
R270, R424): the port goes DOWN with one more loss counted and its sequence, buffers and credits cleared, the error
counters kept; every started partition whose collectives or routes use it faults with LINK_DOWN and its re-shard
fails; the view follows and the change goes to every other port. A port that is not UP has no link to lose. 50 µs
without an acknowledgement of a sent flit does the same, and so does an assembly that is removed or fitted, which sets
the port's power class: above 1.5 W it stays in low power. Ethernet frames are answered in kind; PFC holds the RoCE
traffic of the port back or lets it go, and a mark of congestion lowers its rate, by an amount the manual does not
give. -/
def Obligations.PortCommandsComplete : Prop :=
  (
    ∀ (p : PortIx) (s : State),
      let q := s.port p
      let train := q.en = true ∧ q.link = .on ∧ q.lowPower = false ∧ (q.st = .down ∨ q.st = .training)
      let init := s.initFlitOf p
      (train → q.eth = true → exec (.portTrained p) s = .next (s.withPort p (fun q => { q with st := .up }))) ∧
      (train → q.eth = false → exec (.portTrained p) s = .next { s.withPort p (fun q => { q with st := .init }) with out := .flit p (.data init) :: s.out }) ∧
      (init.kind = 1 ∧ init.ctype = 1 ∧ init.nak = false ∧ init.counts = [16, 384, 384, 384, 384, 384] ∧ init.initAddr = s.fab.addr % 4096 ∧ init.initPort = p.val ∧
        init.initVersion = 1 ∧ (init.bytes.drop 24).take 8 = bytesLE s.sec.ident.moduleId.toNat 8 ∧ crc32 init.bytes = init.crc) ∧
      (¬train → exec (.portTrained p) s = .next s) ∧
      (q.st = .init → exec (.initTimeout p) s = .next (s.withPort p (fun q => { q with st := .failed }))) ∧ (q.st ≠ .init → exec (.initTimeout p) s = .next s) ∧
      (q.st = .failed → q.en = true → exec (.portRetry p) s = .next (s.withPort p (fun q => { q with st := .training }))) ∧
      (q.st ≠ .failed ∨ q.en = false → exec (.portRetry p) s = .next s) ∧
      (∀ f : FabFlit,
        let c := s.withPort p (fun q => { q with
          fecCorr := BitVec.ofNat 32 (min (2 ^ 32 - 1) (q.fecCorr.toNat + f.corr))
          fecUncorr := BitVec.ofNat 32 (min (2 ^ 32 - 1) (q.fecUncorr.toNat + f.uncorr)) })
        let bad := c.withPort p (fun q => { q with crc := satAdd q.crc 1 })
        let nakOf : State → State := fun u => { u.withPort p (fun q => { q with ret := Vector.replicate 6 0, ackDue := false, nakSent := true }) with
          out := .flit p (.data (q.control 0 true q.ret.toList [])) :: s.out }
        let add : List Nat → FabPort → FabPort := fun l q => { q with credit := Vector.ofFn (fun i => q.credit[i] + l.getD i.val 0) }
        let acks : State → Res := fun u =>
          if f.nak = false then .next ((u.withPort p (fun q => q.acked f.ack)).pumpPort p)
          else
            let a := (u.port p).acked f.ack
            let run := if a.nakSeq = some (f.ack + 1) then a.nakRun + 1 else 1
            let v := u.withPort p (fun _ => { a with replay := satAdd a.replay 1, nakSeq := some (f.ack + 1), nakRun := run })
            if run = 32 then exec (.laneAlignmentLost p) v else .next ({ v with out := (a.buffer.map (fun f => Output.flit p (.data f))).reverse ++ s.out }.pumpPort p)
        (q.st = .init → f.kind = 1 → f.ctype = 1 →
          let u := c.withPort p (fun q => { q with
            st := .up, peer := f.initAddr, peerPort := f.initPort, credit := Vector.ofFn (fun i => f.counts.getD i.val 0), txSeq := 0, txAck := 0, buffer := [], txq := [], rxExp := 0
            rxb := [], ret := Vector.replicate 6 0, ackDue := false, nakSent := false, nakSeq := none, nakRun := 0, memberDown := false, lastHb := s.tg.cyc })
          (crc32 f.bytes ≠ f.crc → exec (.initFlit p f) s = .next bad) ∧
          (crc32 f.bytes = f.crc → f.initVersion ≠ 1 → exec (.initFlit p f) s = .next (c.withPort p (fun q => { q with st := .failed }))) ∧
          (crc32 f.bytes = f.crc → f.initVersion = 1 → q.eth = false → exec (.initFlit p f) s = .next (u.review s.fab.view s.upPorts).floodLinks) ∧
          (crc32 f.bytes = f.crc → f.initVersion = 1 → q.eth = true → exec (.initFlit p f) s = .next u)) ∧
        (q.st ≠ .init ∨ f.kind ≠ 1 ∨ f.ctype ≠ 1 → exec (.initFlit p f) s = .next s) ∧
        (q.st = .up → q.eth = false → f.kind = 0 →
          (crc32 f.bytes ≠ f.crc → exec (.fabricDataFlit p f) s = .next (if q.nakSent = true ∧ f.seq ≠ q.rxExp then bad else nakOf bad)) ∧
          (crc32 f.bytes = f.crc → f.seq ≠ q.rxExp → exec (.fabricDataFlit p f) s = .next (if q.nakSent = true then c else nakOf c)) ∧
          (crc32 f.bytes = f.crc → f.seq = q.rxExp → exec (.fabricDataFlit p f) s =
            acks (c.withPort p (fun q => add f.credits { q with rxExp := q.rxExp + 1, rxb := q.rxb ++ [f], ackDue := true, nakSent := false })))) ∧
        (q.st ≠ .up ∨ q.eth = true ∨ f.kind ≠ 0 → exec (.fabricDataFlit p f) s = .next s) ∧
        (∀ cmd ∈ [Instr.creditFlit p f, Instr.nakReceived p f],
          (q.st = .up → q.eth = false → f.kind = 1 → f.ctype = 0 →
            (crc32 f.bytes ≠ f.crc → exec cmd s = .next (if q.nakSent = true ∧ f.seq ≠ q.rxExp then bad else nakOf bad)) ∧
            (crc32 f.bytes = f.crc → exec cmd s = acks (c.withPort p (add f.counts)))) ∧
          (q.st ≠ .up ∨ q.eth = true ∨ f.kind ≠ 1 ∨ f.ctype ≠ 0 → exec cmd s = .next s)))) ∧
  (
    ∀ (p : PortIx) (s : State),
      let q := s.port p
      let off : FabPort → FabPort := fun q => { q with
        st := .down, downs := satAdd q.downs 1, memberDown := true, txSeq := 0, txAck := 0, buffer := [], txq := [], rxExp := 0,
        rxb := [], ret := Vector.replicate 6 0, ackDue := false, nakSent := false, nakSeq := none, nakRun := 0, credit := Vector.replicate 6 0, roceq := [] }
      let fit : Option Nat → FabPort → FabPort := fun a q => match a with
        | none => { q with present := false, powerClass := 0, lowPower := true, st := .down }
        | some mw => { q with present := true, powerClass := mw, lowPower := decide (1500 < mw), st := if q.en = true ∧ q.link = .on ∧ mw ≤ 1500 then .training else .down }
      (q.st = .up → q.eth = true → exec (.laneAlignmentLost p) s = .next (s.withPort p off)) ∧
      (q.st = .up → q.eth = false → q.memberDown = true → s.usersOfPort p = [] → exec (.laneAlignmentLost p) s = .next (s.withPort p off)) ∧
      (q.st = .up → q.eth = false → q.memberDown = false → s.usersOfPort p = [] →
        exec (.laneAlignmentLost p) s = .next ((s.withPort p off).review s.fab.view s.upPorts).floodLinks) ∧
      (q.st = .up → ∃ t more, exec (.laneAlignmentLost p) s = .next t ∧ t.port p = off q ∧ (∀ j, j < 28 → j ≠ p.val → t.port j = s.port j) ∧ t.cores = s.cores ∧ t.fields = s.fields ∧
        t.fw.reports = s.fw.reports ++ (if q.eth then [] else (s.usersOfPort p).map (fun x => { part := x, what := .fabric fkLink p, addr := p })) ++ more ∧
        (q.eth = false → ∀ x ∈ s.usersOfPort p, (t.part x).rs = {} ∧ (t.part x).resharding = false)) ∧
      (q.st = .training ∨ q.st = .init → exec (.laneAlignmentLost p) s = .next (s.withPort p (fun q => { q with st := .down }))) ∧
      (q.st = .down ∨ q.st = .failed → exec (.laneAlignmentLost p) s = .next s) ∧
      (q.st = .up → q.buffer ≠ [] → exec (.ackTimeout p) s = exec (.laneAlignmentLost p) s) ∧ (q.st ≠ .up ∨ q.buffer = [] → exec (.ackTimeout p) s = .next s) ∧
      (∀ a, (q.st ≠ .up → exec (.cagePresence p a) s = .next (s.withPort p (fit a))) ∧
        (q.st = .up → ∃ u, exec (.laneAlignmentLost p) s = .next u ∧ exec (.cagePresence p a) s = .next (u.withPort p (fit a)))) ∧
      (q.eth = true → q.st = .up →
        exec (.ethernetFrame p .arp) s = .next { s with out := .eth p 1 :: s.out } ∧ exec (.ethernetFrame p .neighbour) s = .next { s with out := .eth p 2 :: s.out } ∧
        exec (.ethernetFrame p .roceRequest) s = .next { s with out := .eth p 3 :: s.out } ∧ exec (.ethernetFrame p .other) s = .next s ∧
        (∀ pr, s.fab.pfcEn = true → pr = s.fab.pfcPri →
          exec (.ethernetFrame p (.pfc pr true)) s = .next (s.withPort p (fun q => { q with pfcPaused := true })) ∧
          exec (.ethernetFrame p (.pfc pr false)) s =
            .next { s.withPort p (fun q => { q with pfcPaused := false, roceq := [] }) with out := (q.roceq.map (fun o => Output.roce p o)).reverse ++ s.out }) ∧
        (∀ pr b, s.fab.pfcEn = false ∨ pr ≠ s.fab.pfcPri → exec (.ethernetFrame p (.pfc pr b)) s = .next s) ∧
        (∃ r, (r < q.ethRate ∨ q.ethRate = 0 ∧ r = 0) ∧ exec (.ethernetFrame p .ecnMarked) s = .next { s.withPort p (fun q => { q with ethRate := r }) with freeCtr := s.freeCtr + 1 })) ∧
      (q.eth = false ∨ q.st ≠ .up → ∀ k, exec (.ethernetFrame p k) s = .next s))

/-- Packets and digests between modules (R240, R242, R252 to R254, R266, R270): the first whole packet of a port's receive
buffers leaves them, and its buffer is owed as credit. A packet for another module, and one for this module that
passes, enters the mesh at the port's pass router, on its own channel; one of a partition that runs nothing, of
another epoch or of an unknown collective is discarded with its kind, and one of epoch E − 1 fails a re-shard. The
payloads of a contribution form its digest, which its trailer must name. The digest of a collective's result goes to
the other members, and one of theirs that differs is a fault. A heartbeat goes out on every fabric port that is UP and
marks the port it comes in on; a port that has heard none for 4H is lost for membership; a link event sets the view. -/
def Obligations.FabricCommandsComplete : Prop :=
  (∀ (p : PortIx) (s : State),
    let q := s.port p
    (q.st ≠ .up ∨ q.firstPacket = none → exec (.fabricPacket p) s = .next s ∧ exec (.contribTrailer p) s = .next s) ∧
    (∀ k n rest, q.st = .up → q.firstPacket = some (k, n, rest) →
      let u := s.withPort p (fun q => { q with rxb := rest, ret := Vector.ofFn (fun i => if i.val = k.vc then q.ret[i] + n else q.ret[i]) })
      let x := s.part k.part
      let key := (p.val, k.src, k.coll)
      let bs := k.payload.flatMap (fun w => bytesLE w.toNat 4)
      let formed := (x.contribs.lookup key).getD 0
      let fault : State → Nat → State := fun u kind => { u with
        fab := { u.fab with fault := s.fab.fault.note FabFaultBody.lower s.now { part := k.part, port := p, kind := kind, src := k.src, epoch := k.epoch, coll := k.coll, at_ := s.now } }
        fw := { s.fw with reports := if x.started then s.fw.reports ++ [{ part := k.part, what := .fabric kind p, addr := p }] else s.fw.reports } }
      let meshed : State → State := fun u => { u with mesh := s.mesh ++ s.flitsIn p k }
      let lost : State → State := fun u => if x.resharding = true ∧ k.epoch + 1 = x.epoch then u.withPart (.ofNat 16 k.part) (fun x => { x with resharding := false, rs := {} }) else u
      let old := (k.vc = 1 ∨ k.vc = 4) ∧ k.epoch ≠ x.epoch ∧ ¬(k.epoch = x.epoch + 1 ∧ k.vc = 4 ∧ x.inStaging k = true ∧ x.resharding = true ∧ x.rs.sentFence = true)
      let known := k.coll = 0 ∨ ∃ pl c, x.plan = some pl ∧ c ∈ pl.colls ∧ c.coll = k.coll.toNat
      (∀ m ∈ s.flitsIn p k, m.at_ = 16 * fieldAt (passRouter p).1 (passRouter p).2 + quadAt (passRouter p).1 (passRouter p).2 ∧ m.from_ = 9 ∧ m.vc = k.vc) ∧
      (k.dst ≠ s.fab.addr → exec (.fabricPacket p) s = .next ((meshed u).pumpPort p) ∧ exec (.contribTrailer p) s = .next ((meshed u).pumpPort p)) ∧
      (k.dst = s.fab.addr → k.tkind ≠ 3 → x.started = false →
        exec (.fabricPacket p) s = .next ((fault u fkClosed).pumpPort p) ∧ exec (.contribTrailer p) s = .next ((fault u fkClosed).pumpPort p)) ∧
      (k.dst = s.fab.addr → k.tkind ≠ 3 → x.started = true → old →
        exec (.fabricPacket p) s = .next ((lost (fault u fkStale)).pumpPort p) ∧ exec (.contribTrailer p) s = .next ((lost (fault u fkStale)).pumpPort p)) ∧
      (k.dst = s.fab.addr → k.tkind ≠ 3 → x.started = true → ¬old → ¬known →
        exec (.fabricPacket p) s = .next ((fault u fkColl).pumpPort p) ∧ exec (.contribTrailer p) s = .next ((fault u fkColl).pumpPort p)) ∧
      (k.dst = s.fab.addr → k.tkind ≠ 3 → x.started = true → ¬old → known →
        (k.coll = 0 → exec (.fabricPacket p) s = .next ((meshed u).pumpPort p)) ∧
        (k.coll ≠ 0 → exec (.fabricPacket p) s = .next ((meshed (u.withPart (.ofNat 16 k.part) (fun x => { x with
          contribs := (key, crc64More formed bs) :: x.contribs.filter (fun c => c.1 ≠ key) }))).pumpPort p))) ∧
      (k.dst = s.fab.addr → (k.tkind = 3 ∨ x.started = true ∧ ¬old ∧ known) →
        let clear := u.withPart (.ofNat 16 k.part) (fun x => { x with contribs := x.contribs.filter (fun c => c.1 ≠ key) })
        exec (.contribTrailer p) s = .next ((if BitVec.ofNat 64 (fieldLE bs 0 8) = formed then clear else fault clear fkContrib).pumpPort p)) ∧
      (k.dst = s.fab.addr → k.tkind = 3 → k.vc ≠ 0 → exec (.fabricPacket p) s = .next (u.pumpPort p)) ∧
      (k.dst = s.fab.addr → k.tkind = 3 → k.vc = 0 →
        let heard := u.withPort p (fun q => { q with lastHb := s.tg.cyc, memberDown := false })
        exec (.fabricPacket p) s = .next ((if q.eth = false ∧ q.memberDown = true then (heard.review s.fab.view s.upPorts).floodLinks else heard).pumpPort p)))) ∧
  (∀ (p : PartIx) (coll : W16) (ds : List (Nat × W64)) (s : State),
    let x := s.part p
    let fault : State → Nat → State := fun u kind => { u with
      fab := { s.fab with fault := s.fab.fault.note FabFaultBody.lower s.now { part := p, kind := kind, src := s.fab.addr, epoch := x.epoch, coll := coll, at_ := s.now } }
      fw := { s.fw with reports := if x.started then s.fw.reports ++ [{ part := p, what := .fabric kind 0, addr := 0 }] else s.fw.reports } }
    (x.started = false → exec (.resultDigestExchange p coll ds) s = .next (fault s fkClosed)) ∧
    (x.started = true → x.compares.find? (fun c => c.coll = coll.toNat) = none → exec (.resultDigestExchange p coll ds) s = .next (fault s fkColl)) ∧
    (∀ c, x.started = true → x.compares.find? (fun c => c.coll = coll.toNat) = some c →
      let d := s.resultDigest c
      let told := { s with out := ((s.others x.members).map (fun a => Output.module_ a (.resultDigest p coll d))).reverse ++ s.out }
      ((∀ e ∈ ds, e.2 = d) → exec (.resultDigestExchange p coll ds) s =
        .next (told.withPart p (fun y => { y with digests := (coll.toNat, d) :: y.digests.filter (fun e => e.1 ≠ coll.toNat) }))) ∧
      ((∃ e ∈ ds, e.2 ≠ d) → exec (.resultDigestExchange p coll ds) s = .next ((fault told fkResult).withPart p (fun y => { y with digestBad := true }))))) ∧
  (∀ s : State,
    exec .fabricHeartbeatSend s = .next { s with
      out := (((List.range 28).filter (fun p => decide ((s.port p).st = .up ∧ (s.port p).eth = false))).map (fun p => Output.flit p .heartbeat)).reverse ++ s.out } ∧
    (∀ p : PortIx, let q := s.port p
      let late := q.st = .up ∧ q.eth = false ∧ q.memberDown = false ∧ q.lastHb.toNat + 4 * (s.fab.hb * 120000) ≤ s.tg.cyc.toNat
      (late → exec (.hbLost p) s = .next ((s.withPort p (fun q => { q with hbLost := true, memberDown := true })).review s.fab.view s.upPorts).floodLinks) ∧
      (¬late → exec (.hbLost p) s = .next s)) ∧
    (∀ links, exec (.linkStateEvent links) s = .next (s.review links s.upPorts)) ∧
    (∀ links, (∀ p, p < 16 → (s.part p).started = false ∨ (s.part p).members.length < 2) → (∀ p, p < 16 → (s.part p).rejoin = []) →
      exec (.linkStateEvent links) s = .next { s with fab := { s.fab with
        view := links, viewAt := if links = s.fab.view then s.fab.viewAt else s.tg.cyc, fwd := forwarding s.fab.addr s.upPorts links } }))

/-- Membership and re-sharding (R261 to R266, R271 to R273): a component that Table 8.10 lets continue adopts its list and
begins the re-shard, or holds and asks the host where the plan does not carry it; one without a majority stops with
QUORUM_LOST and discards what it holds of the job; a view that is not yet stable for 8H decides nothing. A joiner
waits for a commit boundary, at which the lowest-ranked member sends it the parameters or refuses it. With no step
open and its ports drained the drain sends FENCE to every other member and arms the fence col with a deadline of 1 s;
a controller that holds every FENCE arrives there; FENCE of another epoch, or for a partition that runs nothing, is a
fault; a unit with a good digest is staged, one whose digest differs fails the re-shard; the last PERMUTE_DONE puts
the new list in force. -/
def Obligations.MembershipCommandsComplete : Prop :=
  ∀ (p : PartIx) (s : State),
    let x := s.part p
    let comp := s.component x.members
    let own := s.fab.addr
    let stable := s.fab.viewAt.toNat + 8 * (s.fab.hb * 120000) ≤ s.tg.cyc.toNat
    let fault : State → Nat → Nat → W16 → State := fun u kind src e => { u with
      fab := { u.fab with fault := s.fab.fault.note FabFaultBody.lower s.now { part := p, kind := kind, src := src, epoch := e, at_ := s.now } }
      fw := { u.fw with reports := if x.started then s.fw.reports ++ [{ part := p, what := .fabric kind 0, addr := 0 }] else s.fw.reports } }
    let begin_ : List Member → Part → Part := fun l y => { y with
      resharding := false
      rs := { stage := 1, fences := if x.rs.stage = 0 then x.rs.fences else [], newList := l, oldList := x.members, expected := x.arriving own x.members l }
      hold := if x.hold.contains .reshard then x.hold else .reshard :: x.hold }
    let fits : List Member → Bool := fun l => decide ((((x.plan.bind Plan.job).map JobList.dmin).getD 1) ≤ l.length) && (x.sizeOf l.length).isSome && s.stagingFits x l
    let beyond : List Output → State := fun o => { s.withPart p (fun y => { y with
      rs := {}, resharding := false, stopStatus := 0x0504#16, hold := if x.hold.contains .reshard then x.hold else .reshard :: x.hold }) with out := .event s.host.owner 0x0504 [p.val] :: (o ++ s.out) }
    (x.on = false ∨ x.members.length < 2 ∨ comp = x.members ∨ ¬stable → exec (.membershipDecision p) s = .next s) ∧
    (x.on = true → 1 < x.members.length → comp ≠ x.members → stable →
      (continues x.members comp = true → fits comp = true → exec (.membershipDecision p) s = .next (s.withPart p (begin_ comp))) ∧
      (continues x.members comp = true → fits comp = false → exec (.membershipDecision p) s = .next (beyond [])) ∧
      (continues x.members comp = false → exec (.membershipDecision p) s = .next (s.withPart p (fun y => { y with
        stopAt := if x.started = true ∧ x.stopAt = none then some (s.edgeAfter p 4096) else x.stopAt
        quorumLost := true, stopStatus := 0x0500#16, rs := {}, resharding := false, rcv := {}, retraces := [], past := [], suspects := [], committed := none
        intake := {}, snap := { x.snap with gens := [], taking := none, announced := none, wanted := false }
        rejoin := x.members.filter (fun m => !comp.contains m) })))) ∧
    (∀ m : Member,
      let low : Bool := x.members.head?.map Member.addr = some own
      let fresh := x.started = true ∧ ∀ y ∈ x.members ++ x.joins, y.addr ≠ m.addr
      let ps := (s.captureRegions p).filter (fun g => g.kind = 1)
      let tell : List Output := if low then (Output.module_ m.addr (.params m.part ps) :: (s.others x.members).map (fun a => .module_ a (.join p m))).reverse else []
      (¬fresh → exec (.join p m) s = .next s) ∧
      (fresh → x.stepOpen = true ∨ x.rs.stage ≠ 0 → exec (.join p m) s = .next (s.withPart p (fun y => { y with joins := m :: y.joins }))) ∧
      (fresh → x.joins = [] → x.stepOpen = false → x.rs.stage = 0 →
        (x.carries (x.members.length + 1) = false → exec (.join p m) s = .next { s with out := (if low then [.module_ m.addr (.joinRefused m.part)] else []) ++ s.out }) ∧
        (x.carries (x.members.length + 1) = true → fits (x.members ++ [m]) = true →
          exec (.join p m) s = .next { s.withPart p (begin_ (x.members ++ [m])) with out := tell ++ s.out }) ∧
        (x.carries (x.members.length + 1) = true → fits (x.members ++ [m]) = false → exec (.join p m) s = .next (beyond tell)))) ∧
    (let quiet := x.started = true ∧ x.rs.stage = 1 ∧ x.stepOpen = false ∧ x.rcv.active = false ∧ s.undrained x.epoch = false
      let t := { s.withPart p (fun y => { y with rs := { y.rs with stage := 2, sentFence := true } }) with
        out := ((s.others x.rs.newList).map (fun a => Output.module_ a (.fence x.epoch))).reverse ++ s.out
        cols := Tab.set {} s.cols (fenceCol p) { en := true, part := p, target := (s.paramFields p).length, st := .armed, dl := some (s.stampIn 1200000000) } }
      (quiet → exec (.reshardDrain p) s = .next ((s.paramFields p).foldl (fun u f => u.fenceArrive p f) t)) ∧
      (quiet → s.paramFields p = [] → exec (.reshardDrain p) s = .next t) ∧ (¬quiet → exec (.reshardDrain p) s = .next s)) ∧
    (∀ (f : FieldIx) (src : BitVec 12) (e : W16),
      let noted := s.withPart p (fun y => { y with rs := { y.rs with fences := (f.val, src.toNat) :: y.rs.fences } })
      let ready := x.rs.stage = 2 ∧ (f.val, 0xFFFF) ∉ x.rs.fences ∧ (∀ a ∈ s.others x.rs.newList, a = src.toNat ∨ (f.val, a) ∈ x.rs.fences) ∧ (s.field f).upe.phase[p] = .collect
      (x.started = false → exec (.fence p f src e) s = .next (fault s fkClosed src.toNat e)) ∧
      (x.started = true → e ≠ x.epoch → exec (.fence p f src e) s = .next (fault (if x.resharding = true ∧ e + 1 = x.epoch then s.withPart p (fun y => { y with resharding := false, rs := {} }) else s) fkStale src.toNat e)) ∧
      (x.started = true → e = x.epoch → ¬ready → exec (.fence p f src e) s = .next noted) ∧
      (x.started = true → e = x.epoch → ready → exec (.fence p f src e) s = .next { s.withPart p (fun y => { y with
          rs := { y.rs with fences := (f.val, 0xFFFF) :: (f.val, src.toNat) :: y.rs.fences } }) with
        arrivals := queueArrival s.arrivals { col := fenceCol p, count := 1, router := 16 * f.val, from_ := 8 } })) ∧
    (∀ (u : Nat) (bs : List Byte) (sent : W64),
      let due := (x.rs.stage = 4 ∨ x.rs.stage = 5) ∧ u ∈ x.rs.expected ∧ ∀ e ∈ x.rs.arrived, e.1 ≠ u
      let put : State := match s.stageAt x u with
        | some a => s.withField a.1 (fun f => f.hbmWrite a.2 bs)
        | none => s
      let t := put.withPart p (fun y => { y with rs := { y.rs with arrived := (u, bs.length) :: y.rs.arrived } })
      (¬due → exec (.permuteUnitArrival p u bs sent) s = .next s) ∧
      (due → sent ≠ crc64 bs → exec (.permuteUnitArrival p u bs sent) s =
        .next ((fault s fkContrib 0 (x.epoch + (if x.rs.stage = 4 then 1 else 0))).withPart p (fun y => { y with resharding := false, rs := {} }))) ∧
      (due → sent = crc64 bs → x.rs.stage = 4 → exec (.permuteUnitArrival p u bs sent) s = .next t) ∧
      (due → sent = crc64 bs → x.rs.stage = 5 → (∃ v ∈ x.rs.expected, v ≠ u ∧ ∀ e ∈ x.rs.arrived, e.1 ≠ v) → exec (.permuteUnitArrival p u bs sent) s = .next t) ∧
      (due → sent = crc64 bs → x.rs.stage = 5 → (∀ v ∈ x.rs.expected, v = u ∨ ∃ e ∈ x.rs.arrived, e.1 = v) → exec (.permuteUnitArrival p u bs sent) s =
        .next (({ (t.settleUnits p).withPart p (fun y => { y with rs := { y.rs with stage := 6 } }) with
          out := ((s.others x.rs.newList).map (fun a => Output.module_ a .permuteDone)).reverse ++ s.out }).tryResume p))) ∧
    (∀ src : BitVec 12,
      let noted := s.withPart p (fun y => { y with rs := { y.rs with doneFrom := src.toNat :: y.rs.doneFrom } })
      let all := ∀ a ∈ s.others x.rs.newList, a = src.toNat ∨ a ∈ x.rs.doneFrom
      let t := s.withPart p (fun y => { y with
        members := y.rs.newList, plan := y.plan.map (fun pl => pl.sized y.rs.newList.length), memberGen := y.memberGen + 1, resharding := false, rs := {}, lift := .reshard :: y.lift })
      (x.rs.stage < 2 → exec (.permuteDone p src) s = .next s) ∧
      (2 ≤ x.rs.stage → (x.rs.stage ≠ 6 ∨ ¬all) → exec (.permuteDone p src) s = .next noted) ∧
      (x.rs.stage = 6 → all → exec (.permuteDone p src) s = .next (t.loadPlacement p (t.part p).placement)))

/-! ## Jobs, snapshots and recovery -/

/-- The intake (R246, R247): a fetch asks for the shards of a step that are neither in nor under way, each by an RDMA READ
over the port of its storage target, or queued there while PFC pauses it; the bytes that a read brings land in the
step's slot of the stack; with the length and the CRC-64 of its entry a shard counts as in; a read that failed, and
one whose bytes differ, is asked for again, and the third failure stalls the partition and alerts the hosts; a retry
asks for the stalled shards again; of a plan without an intake nothing is asked. Pairing (R267, R269, R287, Table
8.9): a holder that keeps slots for another is busy, one whose plans leave no room refuses, a co-fed pair needs FORCE,
and an accepted request reserves; the reply of OK pairs, and the copies of another holder are out of reach; any other
reply ends the command with its status; a lost holder leaves the module unprotected and ends the snapshots on their
way to it. PARTNER_SET checks its parameters, its route and its own reserve before the request leaves; holder 0xFFF
clears the pairing. -/
def Obligations.IntakeAndPairingComplete : Prop :=
  (
    ∀ (p : PartIx) (n : W64) (s : State),
      let x := s.part p
      let read : State → IntakeEntry → State := fun u e =>
        let port := (s.fab.targets.toList.getD e.target {}).port
        let op : RoceOp := { target := e.target, addr := e.remote, len := e.len, packets := (e.len + 4095) / 4096 }
        if (s.port port).pfcPaused = true then u.withPort (.ofNat 28 port) (fun q => { q with roceq := q.roceq ++ [op] }) else { u with out := .roce port op :: u.out }
      (x.plan.bind Plan.intake = none → exec (.intakeFetch p n) s = .next s ∧ exec (.intakeRetry p) s = .next s ∧ ∀ i bs e, exec (.shardLanded p n i bs e) s = .next s) ∧
      (∀ it, x.plan.bind Plan.intake = some it →
        let e := fun m i => (it.entries[x.entryIx it m i]?).getD {}
        let todo := (List.range it.shards).filter (fun i => !x.intake.landed.contains (n, i) && !x.intake.fetching.any (fun f => f.1 = n && f.2.1 = i))
        (it.slots ≤ (n - x.step).toNat → exec (.intakeFetch p n) s = .next s) ∧
        ((n - x.step).toNat < it.slots → exec (.intakeFetch p n) s = .next (todo.foldl (fun t i => read t (e n i))
          (s.withPart p (fun x => { x with intake := { x.intake with fetching := x.intake.fetching ++ todo.map (fun i => (n, i, 0)) } })))) ∧
        (x.intake.stalled = false → exec (.intakeRetry p) s = .next s) ∧
        (x.intake.stalled = true → exec (.intakeRetry p) s = .next ((x.intake.fetching.filter (fun f => 3 ≤ f.2.2)).foldl (fun t f => read t (e f.1 f.2.1)) s)) ∧
        (∀ (i : Nat) (bs : List Byte), x.intake.fetching.find? (fun f => f.1 = n && f.2.1 = i) = none → ∀ err, exec (.shardLanded p n i bs err) s = .next s) ∧
        (∀ (i : Nat) (bs : List Byte) (f : W64 × Nat × Nat), x.intake.fetching.find? (fun f => f.1 = n && f.2.1 = i) = some f →
          let rest := x.intake.fetching.filter (· ≠ f)
          let put := s.withField (e n i).field (fun y => y.hbmWrite (64 * (((s.field (e n i).field).region it.region).base + n.toNat % max 1 it.slots * it.slotSize + (e n i).ofs)) (bs.take (e n i).len))
          let again : Bool → State → State := fun crc u =>
            let t := u.withPart p (fun x => { x with intake := { x.intake with
              fetching := rest ++ [(n, i, f.2.2 + 1)], crcBad := x.intake.crcBad || crc, stalled := x.intake.stalled || decide (2 ≤ f.2.2)
              entry := if 2 ≤ f.2.2 then x.entryIx it n i else x.intake.entry } })
            if f.2.2 = 2 then { t with out := .msix 0 1 :: .msix 1 1 :: s.out } else if f.2.2 < 2 then read t (e n i) else t
          (bs.length = (e n i).len → crc64 bs = (e n i).crc → exec (.shardLanded p n i bs false) s = .next (put.withPart p (fun x => { x with intake := { x.intake with
            landed := (n, i) :: x.intake.landed, fetching := rest, stalled := x.intake.stalled && rest.any (fun g => 3 ≤ g.2.2) } }))) ∧
          (bs.length ≠ (e n i).len ∨ crc64 bs ≠ (e n i).crc → exec (.shardLanded p n i bs false) s = .next (again true put)) ∧
          exec (.shardLanded p n i bs true) s = .next (again false s)))) ∧
  (
    ∀ s : State,
      let cofed : Nat → Bool := fun feed => feed = s.fab.feedId || feed = 0xFF || s.fab.feedId = 0xFF
      let away : State → State := fun u => { u with
        parts := u.parts.map (fun x => { x with snap := { x.snap with gens := x.snap.gens.map (fun (g : Gen) => { g with near := false, shelf := false }) } }) }
      (∀ (src : BitVec 12) (feed : Byte) (r : Nat) (force : Bool),
        let answer : W16 → State := fun st => { s with out := .module_ src.toNat (.pairingReply s.fab.feedId st) :: s.out }
        let ours := s.fab.held = 0xFFF ∨ s.fab.held = src.toNat
        (¬ours → exec (.pairingRequest src feed r force) s = .next (answer stPartnerBusy)) ∧
        (ours → s.reserveOk r = false → exec (.pairingRequest src feed r force) s = .next (answer stPartnerReserve)) ∧
        (ours → s.reserveOk r = true → cofed feed.toNat = true → force = false → exec (.pairingRequest src feed r force) s = .next (answer stPartnerCofed)) ∧
        (ours → s.reserveOk r = true → cofed feed.toNat = false ∨ force = true → exec (.pairingRequest src feed r force) s =
          .next { answer stOk with fab := { s.fab with held := src.toNat, reserve := r, cofed := cofed feed.toNat, forced := cofed feed.toNat } })) ∧
      (∀ (feed : Byte) (st : W16),
        ((∀ l ∈ s.fw.flight, ∀ h r b, l.kind ≠ .partner h r b) → exec (.pairingReply feed st) s = .next s) ∧
        (∀ (f : Fetched) (h r : Nat) (force : Bool) rest, s.fw.flight = ⟨f, .partner h r force⟩ :: rest →
          let landed : State → State := fun u => { u with fw := { s.fw with flight := rest } }
          let kept := s.fab.holder = h ∧ s.fab.unprotected = false
          (st ≠ stOk → exec (.pairingReply feed st) s = .next ((landed s).finish f st 0 0)) ∧
          (st = stOk → exec (.pairingReply feed st) s = .next ((landed { (if kept then s else away s) with
            fab := { s.fab with holder := h, reserve := r, holderFeed := feed.toNat, unprotected := false, room := none, cofed := cofed feed.toNat, forced := cofed feed.toNat } }).finish f st 0 0)))) ∧
      (s.fab.holder = 0xFFF ∨ s.fab.unprotected = true → exec .holderLost s = .next s) ∧
      (s.fab.holder ≠ 0xFFF → s.fab.unprotected = false →
        let t := { s with fab := { s.fab with unprotected := true }, out := .event s.host.owner 0x0503 [s.fab.holder] :: s.out }
        ((∀ p, p < 16 → ¬((s.part p).snap.phase = .copying ∨ (s.part p).snap.phase = .confirming) ∨ (s.part p).snap.ownFlash = true) → exec .holderLost s = .next t) ∧
        (∃ u, exec .holderLost s = .next u ∧ u.fab = t.fab ∧ u.cores = s.cores ∧ u.fields = s.fields ∧ ∀ p : PartIx,
          let x := s.part p
          (((x.snap.phase = .copying ∨ x.snap.phase = .confirming) ∧ x.snap.ownFlash = false) → u.part p = { x with
            lift := .snapshot :: x.lift, snap := { x.snap with phase := .idle, taking := none, rebase := false, nowIn := false, rebaseIn := false } }) ∧
          (¬((x.snap.phase = .copying ∨ x.snap.phase = .confirming) ∧ x.snap.ownFlash = false) → u.part p = x))) ∧
      (∀ (k : Pkt) (h : BitVec 12) (force : Bool) (r : W32) (rsv : Nat), s.front k 0x0503#16 true = true → s.busyOn .module_ = false →
        let good := rsv = 0 ∧ r.toNat ≤ 64 ∧ k.part = 0xFF
        let routed := Tab.get 28 s.fab.fwd h.toNat < 28
        (¬good → exec (.partnerSet k h force r rsv) s = .next (s.answers k true stBadParam)) ∧
        (good → h = 0xFFF → exec (.partnerSet k h force r rsv) s = .next ({ away s.taken with
          fab := { s.fab with holder := 0xFFF, reserve := 0, holderFeed := 0, cofed := false, forced := false, unprotected := false, room := none } }.finish ⟨k, true⟩ stOk 0 0)) ∧
        (good → h ≠ 0xFFF → ¬routed → exec (.partnerSet k h force r rsv) s = .next (s.answers k true stFabUnreachable)) ∧
        (good → h ≠ 0xFFF → routed → s.reserveOk r.toNat = false → exec (.partnerSet k h force r rsv) s = .next (s.answers k true stPartnerReserve)) ∧
        (good → h ≠ 0xFFF → routed → s.reserveOk r.toNat = true → exec (.partnerSet k h force r rsv) s = .next { s.taken with
          fw := { s.taken.fw with flight := s.fw.flight ++ [⟨⟨k, true⟩, .partner h.toNat r.toNat force⟩] }
          out := .module_ h.toNat (.pairing s.fab.feedId r.toNat force) :: s.out })))

/-- Snapshots at the protected module (R280 to R287, R291, R312 to R314): a held partition whose engines are quiet begins
to copy the generation of its last commit, each region with its digest to the holder, or to its own flash without one,
and otherwise tries again at the next boundary; the confirmation of the copy keeps the generation, lifts the hold, and
serves the SNAP_NOW or the REBASE that it was taken for; the lowest-ranked DESIGNATED member announces a generation
that every member has confirmed, and JOB_VALID marks it; a loss drops near copies and ends a copy of the lost
generation; a policy that is in range waits for the next commit boundary, and a SNAP_NOW asks for a snapshot there.
Snapshots at the holder (R283, R285 to R288): a slot is taken for the module that this one holds for, and the slot of
its newest valid generation stays; with good digests the slot holds the regions, CONFIRM leaves and the shelf write
begins or waits; a digest that differs leaves the slot invalid, and the protected module is told with the room left. A
finished shelf write is told, copied to the policy's storage target every STORE_EVERY-th time where that target's port
serves, and the next one begins; at the protected module the notice marks the generation, of which the shelf keeps the
two newest. -/
def Obligations.SnapshotCommandsComplete : Prop :=
  (
    ∀ s : State,
      (∀ p : PartIx,
        let x := s.part p
        let go := x.started = true ∧ x.snap.phase = .held ∧ x.stepOpen = false ∧ x.rcv.active = false ∧
          ¬(s.fab.forced = true ∧ s.holderUp = true ∧ ∃ g r, x.snap.gens = g :: r ∧ g.near = true ∧ g.shelf = false)
        let quiet := ∀ f ∈ s.fields, f.2.quiet p = true
        let near := s.holderUp && !s.tooLarge p
        let g : Gen := { id := x.committed.getD (x.step - 1), near := near, own := !near, regions := s.captureRegions p, rec_ := s.captureRecord p }
        (¬go → exec (.snapshotBegin p) s = .next s) ∧
        (go → ¬quiet → exec (.snapshotBegin p) s = .next (s.withPart p (fun x => { x with lift := .snapshot :: x.lift, snap := { x.snap with phase := .idle, wanted := true } }))) ∧
        (go → quiet → exec (.snapshotBegin p) s = .next { s.withPart p (fun x => { x with snap := { x.snap with
            phase := .copying, ownFlash := !near, taking := some g, gens := (freeSlot (!near) x.snap.gens).filter Gen.kept } }) with
          out := (if near then (Output.module_ s.fab.holder (.snapBegin p g.id x.snap.size x.snap.policy) :: .module_ s.fab.holder (.snapRecord p g.id g.rec_) ::
            g.regions.map (fun r => .module_ s.fab.holder (.region p g.id r r.digest))).reverse else []) ++ s.out })) ∧
      (∀ (p : PartIx) (id : W64),
        let x := s.part p
        let mine := ∃ g, x.snap.taking = some g ∧ g.id = id ∧ (x.snap.phase = .copying ∨ x.snap.phase = .confirming)
        (¬mine → exec (.confirm p none id) s = .next s) ∧
        (∀ g, x.snap.taking = some g → g.id = id → (x.snap.phase = .copying ∨ x.snap.phase = .confirming) →
          let cyc := (s.tg.cyc - x.snap.beganCyc).toNat
          let kept := s.withPart p (fun y => { y with
            lift := if x.snap.rebaseIn then y.lift else .snapshot :: y.lift
            snap := { y.snap with
              phase := .idle, taking := none, gens := { g with confirmed := true, jobValid := decide (x.members.length < 2) } :: y.snap.gens, since := 0, stopMs := min 0xFFFF (cyc / 1200000)
              rebase := y.snap.rebase && !x.snap.rebaseIn, rebaseIn := false, nowIn := false
              rateB := if g.near = true ∧ 18000000 < cyc then max 1 (x.snap.size * 1200 / (cyc - 18000000)) else y.snap.rateB } })
          let told : State := if x.members.length < 2 then kept else match State.leader x.members with
            | none => kept
            | some a => if a = s.fab.addr then kept.memberConfirms p a id else { kept with out := .module_ a (.confirm p id) :: s.out }
          let served : State := if x.snap.nowIn = true then told.endLong (fun k => k = .snapNow p) stOk 0 0 else told
          (x.snap.rebaseIn = false → exec (.confirm p none id) s = .next served) ∧
          (x.snap.rebaseIn = true → exec (.confirm p none id) s = .next (served.withPart p (fun y => { y with
            rcv := { y.rcv with active := true, path := 8, gen := some id, detour := some (0, 0), startCyc := s.tg.cyc }
            stopAt := if x.started = true ∧ x.stopAt = none then some (s.edgeAfter p 4096) else x.stopAt }))))) ∧
      (∀ (p : PartIx) (a : BitVec 12) (id : W64),
        let x := s.part p
        let heard := 1 < x.members.length ∧ s.leads x.members = true ∧ ∃ m ∈ x.members, m.addr = a.toNat
        let cs := (id, a.toNat) :: x.snap.confirms.filter (· ≠ (id, a.toNat))
        (¬heard → exec (.confirm p (some a) id) s = .next s) ∧
        (heard → (∃ m ∈ x.members, (id, m.addr) ∉ cs) → exec (.confirm p (some a) id) s = .next (s.withPart p (fun y => { y with snap := { y.snap with confirms := cs } }))) ∧
        (heard → (∀ m ∈ x.members, (id, m.addr) ∈ cs) → exec (.confirm p (some a) id) s = .next { s.withPart p (fun y => { y with snap := { y.snap with
            confirms := cs.filter (fun c => c.1 ≠ id), gens := y.snap.gens.map (fun (g : Gen) => if g.id = id then { g with jobValid := true } else g) } }) with
          out := ((s.others x.members).map (fun b => Output.module_ b (.jobValid p id))).reverse ++ s.out })) ∧
      (∀ (p : PartIx) (id : W64),
        let x := s.part p
        let fresh := ∃ g ∈ x.snap.gens, g.id = id ∧ g.confirmed = true ∧ g.jobValid = false
        (¬fresh → exec (.jobValid p id) s = .next s) ∧
        (fresh → x.members.length < 2 ∨ s.leads x.members = false → exec (.jobValid p id) s =
          .next (s.withPart p (fun y => { y with snap := { y.snap with gens := y.snap.gens.map (fun (g : Gen) => if g.id = id then { g with jobValid := true } else g) } }))) ∧
        (fresh → 1 < x.members.length → s.leads x.members = true → (∃ m ∈ x.members, (id, m.addr) ∉ x.snap.confirms) → exec (.jobValid p id) s = .next s) ∧
        (fresh → 1 < x.members.length → s.leads x.members = true → (∀ m ∈ x.members, (id, m.addr) ∈ x.snap.confirms) → exec (.jobValid p id) s =
          .next { s.withPart p (fun y => { y with snap := { y.snap with
            confirms := y.snap.confirms.filter (fun c => c.1 ≠ id), gens := y.snap.gens.map (fun (g : Gen) => if g.id = id then { g with jobValid := true } else g) } }) with
          out := ((s.others x.members).map (fun b => Output.module_ b (.jobValid p id))).reverse ++ s.out })) ∧
      (∀ (p : PartIx) (ids : List W64) (room : Nat),
        let x := s.part p
        let t := { s.withPart p (fun y => { y with snap := { y.snap with
          gens := (y.snap.gens.map (fun (g : Gen) => if ids.contains g.id then { g with near := false } else g)).filter (fun g => g.near || g.shelf || g.store || g.own) } }) with
          fab := { s.fab with room := some room } }
        ((∀ g, x.snap.taking = some g → g.id ∉ ids) → exec (.generationLossNotice p ids room) s = .next t) ∧
        (∀ g, x.snap.taking = some g → g.id ∈ ids →
          let u := t.withPart p (fun y => { y with lift := .snapshot :: y.lift, snap := { y.snap with phase := .idle, taking := none, rebase := false, nowIn := false, rebaseIn := false } })
          ((∀ l ∈ s.fw.flight, l.kind ≠ .snapNow p) → exec (.generationLossNotice p ids room) s = .next u) ∧
          (∀ f rest, s.fw.flight = ⟨f, .snapNow p⟩ :: rest → exec (.generationLossNotice p ids room) s = .next ({ u with fw := { s.fw with flight := rest } }.finish f stNoSnapshot 0 0)))) ∧
      (∀ (k : Pkt) (p : Byte) (q : SnapPolicy) (rsv : Nat), s.front k 0x0501#16 true = true →
        let good := rsv = 0 ∧ p.toNat < 16 ∧ k.part = p.toNat ∧ q.mode < 3 ∧ 1 ≤ q.k ∧ q.k ≤ 8 ∧ 1 ≤ q.m0 ∧ 1 ≤ q.n ∧ (q.mode = 1 → q.n ≤ q.nMax) ∧ (q.target < 16 ∨ q.target = 0xFF) ∧ 1 ≤ q.storeEvery ∧ q.storeEvery ≤ 255
        (¬good → exec (.snapPolicy k p q rsv) s = .next (s.answers k true stBadParam)) ∧
        (good → (s.part p.toNat).on = false → exec (.snapPolicy k p q rsv) s = .next (s.answers k true stPartUnknown)) ∧
        (good → (s.part p.toNat).on = true → s.tooLarge p.toNat = true → exec (.snapPolicy k p q rsv) s = .next (s.answers k true stSnapTooLarge)) ∧
        (good → (s.part p.toNat).on = true → s.tooLarge p.toNat = false → exec (.snapPolicy k p q rsv) s =
          .next ((s.withPart (.ofNat 16 p.toNat) (fun x => { x with snap := { x.snap with nextPolicy := some q } })).answers k true stOk))) ∧
      (∀ (k : Pkt) (p : Byte), s.front k 0x0502#16 true = true → s.busyOn (.part p.toNat) = false →
        let good := p.toNat < 16 ∧ k.part = p.toNat
        (¬good → exec (.snapNow k p) s = .next (s.answers k true stBadParam)) ∧
        (good → (s.part p.toNat).on = false → exec (.snapNow k p) s = .next (s.answers k true stPartUnknown)) ∧
        (good → (s.part p.toNat).on = true → s.tooLarge p.toNat = true → exec (.snapNow k p) s = .next (s.answers k true stSnapTooLarge)) ∧
        (good → (s.part p.toNat).on = true → s.tooLarge p.toNat = false →
          let t := s.taken.withPart (.ofNat 16 p.toNat) (fun x => { x with snap := { x.snap with wanted := true } })
          exec (.snapNow k p) s = .next { t with fw := { t.fw with flight := s.fw.flight ++ [⟨⟨k, true⟩, .snapNow p.toNat⟩] } }))) ∧
  (
    ∀ s : State,
      let h := s.fab.shelf
      (∀ (src : BitVec 12) (p : PartIx) (id : W64) (size : Nat) (pol : SnapPolicy),
        let mine := s.fab.slots.filter (fun h => h.part = p.val)
        (src.toNat ≠ s.fab.held ∨ src = 0xFFF → exec (.snapBegin src p id size pol) s = .next s) ∧
        (src.toNat = s.fab.held → src ≠ 0xFFF → exec (.snapBegin src p id size pol) s = .next { s with fab := { s.fab with
          slots := { part := p, id := id, size := size, pol := pol } :: ((mine.find? HeldSlot.valid).toList ++ s.fab.slots.filter (fun h => h.part ≠ p.val)) } })) ∧
      (∀ (p : PartIx) (id : W64) (rs : List (GenRegion × W64)),
        let waits := ∃ h ∈ s.fab.slots, h.part = p.val ∧ h.id = id ∧ h.valid = false
        (¬waits → exec (.snapshotCopyDone p id rs) s = .next s) ∧
        (waits → (∃ r ∈ rs, r.1.digest ≠ r.2) → exec (.snapshotCopyDone p id rs) s =
          .next { s with out := .module_ s.fab.held (.generationLoss p [id] s.heldRoom) :: s.out }) ∧
        (waits → (∀ r ∈ rs, r.1.digest = r.2) → exec (.snapshotCopyDone p id rs) s = .next { s with
          out := .module_ s.fab.held (.confirm p id) :: s.out
          fab := { s.fab with
            slots := s.fab.slots.map (fun (h : HeldSlot) => if h.part = p.val ∧ h.id = id then { h with valid := true, regions := rs.map Prod.fst } else h)
            shelf := if h.writing = none then { h with writing := some (p.val, id) } else { h with waiting := h.waiting ++ [(p.val, id)] } } })) ∧
      (h.writing = none → exec (.shelfWriteDone none) s = .next s) ∧
      (∀ g, h.writing = some g →
        let n := Tab.get 0 h.count g.1 + 1
        let slot := (s.fab.slots.find? (fun x => x.part = g.1 && x.id = g.2)).getD {}
        let port := (s.fab.targets.toList.getD slot.pol.target {}).port
        let copy : Bool := slot.pol.rate ≠ 0 ∧ slot.pol.target < 16 ∧ n % max 1 slot.pol.storeEvery = 0 ∧ (s.port port).eth = true ∧ (s.port port).st = .up
        let t := { s with
          out := .module_ s.fab.held (.shelfDone g.1 g.2 copy) :: s.out
          fab := { s.fab with
            slots := s.fab.slots.map (fun (x : HeldSlot) => if x.part = g.1 ∧ x.id = g.2 then { x with shelf := true } else x)
            shelf := { h with complete := Shelf.keep (g :: h.complete), count := Tab.set 0 h.count g.1 n, stored := if copy then g :: h.stored else h.stored
                              writing := if s.fab.forced then h.waiting.head? else h.waiting.getLast?, waiting := if s.fab.forced then h.waiting.tail else [] } } }
        let op : RoceOp := { target := slot.pol.target, len := slot.size, store := some g, rate := slot.pol.rate, packets := (slot.size + 4095) / 4096 }
        (copy = false → exec (.shelfWriteDone none) s = .next t) ∧
        (copy = true → (s.port port).pfcPaused = false → exec (.shelfWriteDone none) s = .next { t with out := .roce port op :: t.out }) ∧
        (copy = true → (s.port port).pfcPaused = true → exec (.shelfWriteDone none) s = .next (t.withPort (.ofNat 28 port) (fun q => { q with roceq := q.roceq ++ [op] })))) ∧
      (∀ (p : PartIx) (id : W64) (stored : Bool),
        let gs := (s.part p).snap.gens.map (fun (y : Gen) => if y.id = id then { y with shelf := true, store := y.store || stored } else y)
        let newest := ((gs.filter Gen.shelf).take 2).map Gen.id
        (s.holderUp = false → exec (.shelfWriteDone (some (p, id, stored))) s = .next s) ∧
        (s.holderUp = true → exec (.shelfWriteDone (some (p, id, stored))) s = .next (s.withPart p (fun x => { x with snap := { x.snap with
          gens := (gs.map (fun (y : Gen) => if y.id ∈ newest then y else { y with shelf := false })).filter (fun g => g.near || g.shelf || g.store || g.own) } })))))

/-- Recovery (R277 to R279, R289, R292, R293, R297): the oldest report is taken up; one for a partition that does not
exist, or that stays stopped, starts nothing; one of a running partition starts its recovery and its stop, and tells
the other members; a fault of the plan that comes back in the same step leaves it stopped with PLAN_FAULT. A restore
waits until the partition may be restored; without a common generation it stays stopped with NO_SNAPSHOT; else the
generation's state is in place and the job goes on after its step. JOB_STOP of a member starts the recovery here and
takes back a start edge; READY of every member and RESTART lead to one. Arbitration (R299 to R302): at the boundary of
a step with a check event, or in a recovery, the replay of one captured event begins on its core and on a peer, whose
tiles are invalid from then on; an event of a dark core, or without its capture, can be replayed no more. A replay
that ends leaves the values that the captured tile and row record form, with the physical errors of its products and
of its check lane, and its own check verdict; the second one lets the verdict of Table 9.6 fall: an array is retired,
a failed lane's core checks no more, and a suspect is noted. -/
def Obligations.RecoveryCommandsComplete : Prop :=
  (
    ∀ s : State,
      (s.fw.reports = [] → exec .faultReport s = .next s) ∧
      (∀ (r : FaultReport) (rest : List FaultReport), s.fw.reports = r :: rest → r.part < 16 →
        let x := s.part r.part
        let taken := { s with fw := { s.fw with reports := rest } }
        let dead := x.on = false ∨ staysStopped x.stopStatus = true ∨ (x.started = false ∧ x.rcv.active = false ∧ r.loss = .none ∧ r.what ≠ .lost)
        let stop := if x.started = true ∧ x.stopAt = none then some (s.edgeAfter r.part 4096) else x.stopAt
        let told : List Output := if 1 < x.members.length ∧ x.rcv.active = false then ((s.others x.members).map (fun a => Output.module_ a .jobStop)).reverse else []
        (dead → exec .faultReport s = .next taken) ∧
        (¬dead → s.recurs r = false → s.tg.detourDraw = none → r.loss = .none → x.rcv.losses = [] → x.rcv.march = [] → (∃ c, r.what = .colFault c) →
          (∀ c ∈ x.coreSites x.placement, s.site c.2 = .enabled) → (∀ c ∈ s.placed r.part, s.portLost c.2 = false) →
          exec .faultReport s = .next { taken.withPart (.ofNat 16 r.part) (fun y => { y with
              startAt := if y.rcv.active then none else y.startAt, ready := [], stopAtCommit := false, stopAt := stop
              rcv := { y.rcv with active := true, reports := r :: y.rcv.reports, ready := false, startCyc := if y.rcv.active then y.rcv.startCyc else s.tg.cyc
                                  path := 0, spares := [], detour := if y.rcv.path = 8 then y.rcv.detour else none } }) with out := told ++ s.out }) ∧
        (¬dead → s.recurs r = true → (∃ c, r.what = .colFault c) → ∃ t, exec .faultReport s = .next t ∧ (t.part r.part).stopStatus = stPlanFault ∧ (t.part r.part).stopAt = stop ∧
          (t.part r.part).rcv = {} ∧ (t.part r.part).snap.rcvPath = 5 ∧ t.fw.reports = rest ∧ t.cores = s.cores ∧ t.fields = s.fields) ∧
        (¬dead → ∃ t more, exec .faultReport s = .next t ∧ t.fw.reports = rest ++ more ∧ (t.part r.part).stopAt = stop ∧ (t.part r.part).ready = [] ∧
          (∀ f, (s.field f).hbm = (t.field f).hbm) ∧ ((t.part r.part).rcv.active = true ∨ staysStopped (t.part r.part).stopStatus = true))) ∧
      (∀ (p : PartIx) (avail : List (BitVec 12 × List W64)),
        let x := s.part p
        let common := fun id => (s.others x.listNow).all (fun a => avail.any (fun e => e.1.toNat = a && e.2.contains id))
        let pl := match x.rcv.detour with | some d => x.placementOf d | none => x.placement
        (s.mayRestore p = false → exec (.restoreDone p avail) s = .next s) ∧
        (s.mayRestore p = true → s.chosenGen p common = none → ∃ t, exec (.restoreDone p avail) s = .next t ∧ (t.part p).stopStatus = stNoSnapshot ∧ (t.part p).rcv = {} ∧ (t.part p).startAt = none ∧
          (t.part p).snap.rcvPath = 7 ∧ (t.part p).snap.rcvCount = satAdd x.snap.rcvCount 1 ∧ t.cores = s.cores ∧ t.fields = s.fields) ∧
        (∀ g plan, s.mayRestore p = true → s.chosenGen p common = some g → x.plan = some plan →
          (g.fits plan pl = false → exec (.restoreDone p avail) s = .next s) ∧
          (g.fits plan pl = true → ∃ t, exec (.restoreDone p avail) s = .next t ∧ (t.part p).committed = some g.id ∧ (t.part p).step = g.id + 1 ∧ (t.part p).nextStep = g.id + 1 ∧
            (t.part p).seed = g.rec_.seed ∧ (t.part p).epoch = g.rec_.epoch ∧ (t.part p).intake.pos = g.rec_.intakePos ∧ (t.part p).snap.phase = .restoring ∧
            (t.part p).detour = x.rcv.detour.getD x.detour ∧ (t.part p).rcv.source = (s.genSource g).getD 0 ∧
            (t.part p).startAt = (if x.listNow.length ≤ 1 then some (s.waferEdgeAfter 4096) else if s.leads x.listNow = true ∧ (∀ a ∈ s.others x.listNow, a ∈ x.ready) then some (s.waferEdgeAfter 4096) else none)))) ∧
      (∀ (p : PartIx),
        let x := s.part p
        let joins := x.started = true ∨ x.rcv.active = true ∨ (1 < x.members.length ∧ x.startAt.isSome = true)
        let stop := if x.started = true ∧ x.stopAt = none then some (s.edgeAfter p 4096) else x.stopAt
        (staysStopped x.stopStatus = true ∨ ¬joins → exec (.jobStop p) s = .next s) ∧
        (staysStopped x.stopStatus = false → joins → exec (.jobStop p) s = .next (s.withPart p (fun x => { x with
          startAt := none, ready := [], stopAt := stop
          rcv := { x.rcv with active := true, ready := false, startCyc := if x.rcv.active then x.rcv.startCyc else s.tg.cyc } }))) ∧
        (∀ src : BitVec 12,
          let waits := x.started = false ∧ (x.rcv.active = true ∨ x.restartWanted = true) ∧ s.leads x.listNow = true ∧ ∃ m ∈ x.listNow, m.addr = src.toNat
          let rs := if src.toNat ∈ x.ready then x.ready else src.toNat :: x.ready
          let all := x.rcv.ready = true ∧ ∀ a ∈ s.others x.listNow, a ∈ rs
          (¬waits → exec (.memberReady p src) s = .next s) ∧
          (waits → ¬all → exec (.memberReady p src) s = .next (s.withPart p (fun x => { x with ready := rs }))) ∧
          (waits → all → exec (.memberReady p src) s = .next { s.withPart p (fun x => { x with ready := [], startAt := some (s.waferEdgeAfter 4096) }) with
            out := ((s.others x.listNow).map (fun a => Output.module_ a .restart)).reverse ++ s.out })) ∧
        (x.started = false → x.startAt = none → x.rcv.ready = true → exec (.restart p) s = .next (s.withPart p (fun x => { x with startAt := some (s.waferEdgeAfter 4096) }))) ∧
        (x.started = true ∨ x.startAt ≠ none ∨ x.rcv.ready = false → exec (.restart p) s = .next s))) ∧
  (
    ∀ (p : PartIx) (s : State),
      let x := s.part p
      let ready := x.arb = [] ∧ (if x.started = true then x.stepOpen = true ∧ s.tg.ofs = 0 ∧ s.enginesIn p = true else x.rcv.active = true)
      let began : Capture → Core → Core := fun src c => { c with
        chk := { c.chk with cap := { c.chk.cap with replaying := true, rdone := false, rchk := false, replay := [], src := src.src } }
        arr := { c.arr with active := none, shadow := none, shadowReady := false } }
      (¬ready ∨ x.checkSites = [] → exec (.checkArbitration p) s = .next s) ∧
      (∀ k rest, ready → x.checkSites = k :: rest →
        (s.lit (k / 32) = false ∨ (s.core k).chk.cap.captured = false → exec (.checkArbitration p) s =
          .next (s.withPart p (fun y => { y with checkSites := rest, rollBack := y.rollBack || y.started }))) ∧
        (s.lit (k / 32) = true → (s.core k).chk.cap.captured = true →
          let peer := s.peerOf p k
          let t := s.withPart p (fun y => { y with
            arb := [(k, peer.getD k)], hold := if y.hold.contains .arbitration then y.hold else .arbitration :: y.hold
            rollBack := y.rollBack || !rest.isEmpty || (s.core k).chk.record.more })
          (peer = none → exec (.checkArbitration p) s = .next (t.withCore k (began (s.core k).chk.cap))) ∧
          (∀ j, peer = some j → j ≠ k → exec (.checkArbitration p) s = .next ((t.withCore k (began (s.core k).chk.cap)).withCore j (began (s.core k).chk.cap))))) ∧
      (∀ (k on : Site) (ups : List Upset) (lane : W32),
        let due := ∃ a ∈ x.arb, a.1 = k.val ∧ (on = k ∨ on.val = a.2) ∧ (s.core on).chk.cap.replaying = true
        (x.arb.length ≤ 1 → ¬due → exec (.replayDone p k on ups lane) s = .next s) ∧
        (∀ peer, x.arb = [(k.val, peer)] → (on = k ∨ on.val = peer) → (s.core on).chk.cap.replaying = true →
          let src := (s.core on).chk.cap.src
          let r := src.run ups lane
          let cap := { (s.core on).chk.cap with replaying := false, rdone := true, rchk := !r.skip && disagrees src.isInt r, replay := r.vals }
          let t := s.withCore on (fun c => { c with chk := { c.chk with cap := cap } })
          let other := if on = k then peer else k.val
          let v := verdictOf (t.core k).chk.cap (t.core k).chk.cap.rchk (if peer = k.val then none else some (t.core peer).chk.cap)
          (other ≠ on.val → (s.core other).chk.cap.replaying = true → exec (.replayDone p k on ups lane) s = .next t) ∧
          (other = on.val ∨ (s.core other).chk.cap.replaying = false → ∃ u, exec (.replayDone p k on ups lane) s = .next u ∧ u.fields = s.fields ∧
            (u.part p).arb = [] ∧ (u.part p).checkSites = x.checkSites.filter (· ≠ k.val) ∧ (u.part p).rollBack = (x.rollBack || v = .array || v = .arrayTransient || v = .suspect) ∧
            (u.part p).suspects = (if v = .suspect then (k.val, x.step) :: x.suspects else x.suspects) ∧
            (v = .array ∨ (v = .suspect ∧ ∃ e ∈ x.suspects, e.1 = k.val) → u.site k = .retired ∨ s.site k = .fused) ∧
            (v ≠ .array → v ≠ .suspect → u.sites = s.sites) ∧ ((u.core k).chk.off = ((s.core k).chk.off || v = .lane))))))

/-! ## The host interface -/

/-- Commands (R384, R388, R391, R392, R411, Table 12.7): a packet that passes is the state it leaves with its reply, which
changes nothing but the ring, the kept replies and the outputs; in recovery mode most are refused; a command of an
agent that was not owner as it was fetched is refused and changes nothing else; a long command for a busy target is
BUSY; a packet seen before is answered again and not executed. Ownership (R379 to R384, R401): CLAIM of the owner
renews its priority, of another agent while there is an owner is OWNED, and with none it opens the window, where an
earlier claim of the agent is lost; the window's end makes the lowest priority, then the lowest agent, owner, and the
others lose; RELEASE passes ownership on to a port in L0 with its ring enabled, or to no one, and the management
interface may force it once the owner has expired; HEARTBEAT answers; an owner that let its deadline pass is expired
and both ports are alerted; DEV_INFO returns its record to anyone; WARM_RESET answers before the reset; a packet of
the management interface that passes the checks waits in the inbox. -/
def Obligations.CommandsAndOwnershipComplete : Prop :=
  (
    (∀ (f : Fetched) (st : W16) (r : W64) (n : Nat) (s : State),
      let t := s.finish f st r n
      t = { s with fw := t.fw, host := t.host, out := t.out } ∧ t.fw = { s.fw with stored := t.fw.stored } ∧ t.host = { s.host with ring := t.host.ring } ∧
      (∀ q : Fin 2, q.val ≠ f.pkt.agent.val → t.ring q = s.ring q) ∧
      (s.ring f.pkt.agent.val).en = (t.ring f.pkt.agent.val).en) ∧
    (∀ (k : Pkt) (s : State), s.fw.inbox = [⟨k, false⟩] → s.sec.recovery = false →
      (k.opcode = 0x0103#16 → exec (.heartbeat k) s = .next (s.answers k false stNotOwner)) ∧
      (k.opcode = 0x0603#16 → exec (.warmReset k) s = .next (s.answers k false stNotOwner)) ∧
      (∀ p m, k.opcode = 0x0402#16 → exec (.planStop k p m) s = .next (s.answers k false stNotOwner)) ∧
      (∀ p, k.opcode = 0x0202#16 → exec (.partDestroy k p) s = .next (s.answers k false stNotOwner)) ∧
      (k.opcode = 0x0801#16 → exec (.fwUpdateCommitSvn k) s = .next (s.answers k false stNotOwner))) ∧
    (∀ (k : Pkt) (p m : Byte) (s : State), s.fw.inbox = [⟨k, true⟩] → k.opcode = 0x0402#16 →
      (s.sec.recovery = true → exec (.planStop k p m) s = .next (s.answers k true stRecoveryMode)) ∧
      (s.sec.recovery = false → s.busyOn (.part p.toNat) = true → exec (.planStop k p m) s = .next (s.answers k true stBusy))) ∧
    (∀ (k : Pkt) (r : Reply) (s : State), s.listens 2 = true → k.agent = 2 → s.host.owner ≠ 2 → k.headerOk = true → s.fw.stored = (Vector.replicate 3 []).set 2 [r] → r.seq = k.seq → r.agent = 2 →
      exec (.mgmtJorlekRequest k) s = .next { s with out := .reply { r with replayed := true, phase := false } :: s.out })) ∧
  (
    ∀ s : State,
      let alert : List Output → List Output := fun o => .msix 0 1 :: .msix 1 1 :: o
      let own : Nat → State → State := fun a u => { u with
        host := { u.host with owner := a, changes := u.host.changes + 1, hbExpired := false, hbDeadline := s.tg.cyc + BitVec.ofNat 64 (s.host.timeout * 1200000) }, out := alert u.out }
      (∀ (k : Pkt) (o : Bool) (pr : Byte) (rsv : BitVec 24), s.front k 0x0101#16 o = true →
        let good := rsv = 0 ∧ k.part = 0xFF
        let claim : State → State := fun u => { u with
          host := { u.host with claimOpen := true }, fw := { u.fw with flight := u.fw.flight ++ [⟨⟨k, o⟩, .claim pr.toNat⟩] } }
        (¬good → exec (.claim k pr rsv) s = .next (s.answers k o stBadParam)) ∧
        (good → s.host.owner = k.agent.val → exec (.claim k pr rsv) s = .next ({ s with host := { s.host with priority := pr.toNat } }.answers k o stOk)) ∧
        (good → s.host.owner ≠ k.agent.val → s.host.owner ≠ 3 → exec (.claim k pr rsv) s = .next (s.answers k o stOwned)) ∧
        (good → s.host.owner = 3 → k.agent.val ≠ 3 → (∀ l ∈ s.fw.flight, ∀ q, l.kind = .claim q → l.f.pkt.agent ≠ k.agent) → exec (.claim k pr rsv) s = .next (claim s.taken)) ∧
        (∀ (f : Fetched) (q : Nat) rest, good → s.host.owner = 3 → s.fw.flight = ⟨f, .claim q⟩ :: rest → f.pkt.agent = k.agent → (∀ l ∈ rest, ∀ q, l.kind = .claim q → l.f.pkt.agent ≠ k.agent) →
          exec (.claim k pr rsv) s = .next (claim ({ s.taken with fw := { s.taken.fw with flight := rest } }.finish f stClaimLost 0 0)))) ∧
      (let idle := { s with host := { s.host with claimOpen := false }, fw := { s.fw with flight := s.fw.flight.filter (fun l => match l.kind with | .claim _ => false | _ => true) } };
        (s.host.claimOpen = false → exec .claimWindowEnd s = .next s) ∧
        (s.host.claimOpen = true → s.claims = [] → exec .claimWindowEnd s = .next idle) ∧
        (∀ c, s.host.claimOpen = true → s.claims = [c] → exec .claimWindowEnd s = .next ((own c.2.1 { idle with host := { idle.host with priority := c.1 } }).finish c.2.2.f stOk 0 0)) ∧
        (∀ c d, s.host.claimOpen = true → (s.claims = [c, d] ∨ s.claims = [d, c]) → (c.1 < d.1 ∨ c.1 = d.1 ∧ c.2.1 < d.2.1) → exec .claimWindowEnd s =
          .next (((own c.2.1 { idle with host := { idle.host with priority := c.1 } }).finish c.2.2.f stOk 0 0).finish d.2.2.f stClaimLost 0 0)) ∧
        (s.host.claimOpen = true → s.claims ≠ [] → ∃ c t, c ∈ s.claims ∧ (∀ d ∈ s.claims, c.1 < d.1 ∨ (c.1 = d.1 ∧ c.2.1 ≤ d.2.1)) ∧ exec .claimWindowEnd s = .next t ∧
          t.host.owner = c.2.1 ∧ t.host.priority = c.1 ∧ t.host.changes = s.host.changes + 1 ∧ t.host.claimOpen = false ∧ t.fw.flight = idle.fw.flight)) ∧
      (∀ (k : Pkt) (o : Bool) (succ : Byte) (force : Bool) (rsv : BitVec 7), s.front k 0x0102#16 o = true →
        let may := if force then k.agent = 2 else o
        let good := rsv = 0 ∧ (succ.toNat < 3 ∨ succ = 0xFF) ∧ k.part = 0xFF
        let here := 2 ≤ succ.toNat ∨ ((s.ring succ.toNat).link = true ∧ (s.ring succ.toNat).en = true)
        let run := exec (.release k succ force rsv) s
        (¬may → run = .next (s.answers k o stNotOwner)) ∧
        (may → force = true → s.host.hbExpired = false → run = .next (s.answers k o stOwnerAlive)) ∧
        (may → (force = false ∨ s.host.hbExpired = true) → ¬good → run = .next (s.answers k o stBadParam)) ∧
        (may → (force = false ∨ s.host.hbExpired = true) → good → ¬here → run = .next (s.answers k o stAgentAbsent)) ∧
        (may → (force = false ∨ s.host.hbExpired = true) → good → here → succ.toNat = k.agent.val → run = .next (s.answers k o stOk)) ∧
        (may → (force = false ∨ s.host.hbExpired = true) → good → here → succ.toNat ≠ k.agent.val → ∀ t, t = s.answers k o stOk →
          run = .next (own (if succ = 0xFF then 3 else succ.toNat) { t with host := { t.host with priority := 0 } }))) ∧
      (∀ k : Pkt, s.front k 0x0103#16 true = true →
        (k.part = 0xFF ∧ k.plen = 0 → exec (.heartbeat k) s = .next (s.answers k true stOk)) ∧ (¬(k.part = 0xFF ∧ k.plen = 0) → exec (.heartbeat k) s = .next (s.answers k true stBadParam))) ∧
      (let late := s.host.owner ≠ 3 ∧ s.host.hbExpired = false ∧ s.host.hbDeadline.toNat ≤ s.tg.cyc.toNat;
        (late → exec .ownerHbExpired s = .next { s with host := { s.host with hbExpired := true }, out := alert s.out }) ∧ (¬late → exec .ownerHbExpired s = .next s)) ∧
      (∀ (k : Pkt) (o : Bool), s.front k 0x0100#16 o = true →
        let rec_ := s.taken.devInfo
        (k.part ≠ 0xFF ∨ k.plen ≠ 0 → exec (.devInfo k) s = .next (s.answers k o stBadParam)) ∧
        (k.part = 0xFF → k.plen = 0 → exec (.devInfo k) s = .next (s.taken.finishData ⟨k, o⟩ stOk rec_)) ∧
        (k.part = 0xFF → k.plen = 0 → k.agent.val < 2 → k.data ≠ 0 → rec_.length ≤ k.dlen.toNat → exec (.devInfo k) s =
          .next ({ s.taken with out := .event k.agent.val 0x0100 (rec_.map BitVec.toNat) :: s.out }.finish ⟨k, o⟩ stOk 0 rec_.length))) ∧
      (∀ k : Pkt, s.front k 0x0603#16 true = true →
        (k.part = 0xFF → k.plen = 0 → exec (.warmReset k) s = .next { s.answers k true stOk with rck := { s.rck with warmAt := true } }) ∧
        (k.part ≠ 0xFF ∨ k.plen ≠ 0 → exec (.warmReset k) s = .next (s.answers k true stBadParam))) ∧
      (∀ k : Pkt,
        (k.agent ≠ 2 ∨ s.listens 2 = false → exec (.mgmtJorlekRequest k) s = .next s) ∧
        (s.listens 2 = true → k.agent = 2 → s.host.owner ≠ 2 → k.headerOk = true → s.fw.stored = Vector.replicate 3 [] → s.fw.expSeq = Vector.replicate 3 none →
          k.opcode ∈ opcodes → s.rck.ready = true → exec (.mgmtJorlekRequest k) s =
            .next { s with fw := { s.fw with expSeq := (Vector.replicate 3 none).set 2 (some (k.seq + 1)), inbox := s.fw.inbox ++ [⟨k, false⟩] } })))

/-- The host ports (R373, R377, R378, R385, R386, R393): a poll with more than a ring's packets outstanding stops the ring
with OVERRUN, one whose read failed sets FETCH_ERR, one with nothing new changes nothing, and else the packets are
fetched in order from the bytes of their slots; a link up or down shows in the port; a failed read of a command's
buffer answers HOST_ACCESS; BAR2 answers an agent that is not the owner with all ones and leaves the state, and reads
and writes a stack or a core's banks through the aperture that the address names. -/
def Obligations.HostPortCommandsComplete : Prop :=
  ∀ (p : Fin 2) (s : State),
    let r := s.ring p
    let put : Ring → State := fun r => { s with host := { s.host with ring := s.host.ring.set p.val r } }
    let ap := fun (i : Fin 64) => s.host.ap[i]
    (s.rck.ready = true → r.en = true →
      (∀ w ks, exec (.ringPoll p w ks true) s = .next (put { r with fetchErr := true })) ∧
      (∀ w ks, r.slots < ((w.setWidth 32 : W32) - r.last).toNat → exec (.ringPoll p w ks false) s =
        .next { put { r with overrun := true, en := false } with out := .msix p 1 :: s.out }) ∧
      (∀ w ks, (w.setWidth 32 : W32) = r.last → exec (.ringPoll p w ks false) s = .next s) ∧
      (∀ w ks, ((w.setWidth 32 : W32) - r.last).toNat ≤ r.slots →
        let got := (ks.map (Pkt.ofBytes (p.castLE (by decide)))).take ((w.setWidth 32 : W32) - r.last).toNat
        let t := got.foldl State.fetchOne s
        exec (.ringPoll p w ks false) s = .next { t with host := { t.host with ring := t.host.ring.set p.val { t.ring p with last := r.last + BitVec.ofNat 32 got.length } } }) ∧
      (∀ w bs, let k := Pkt.ofBytes (p.castLE (by decide)) bs
        (w.setWidth 32 : W32) = r.last + 1 → s.host.owner = p.val → k.headerOk = true → s.fw.stored = Vector.replicate 3 [] →
        s.fw.expSeq = Vector.replicate 3 (some k.seq) → k.opcode ∈ opcodes → s.lifeCycle ≠ 4 → exec (.ringPoll p w [bs] false) s =
          .next { put { r with last := r.last + 1 } with
            host := { s.host with
              ring := s.host.ring.set p.val { r with last := r.last + 1 }, hbExpired := false, hbDeadline := s.tg.cyc + BitVec.ofNat 64 (s.host.timeout * 1200000) }
            fw := { s.fw with inbox := s.fw.inbox ++ [⟨k, true⟩], expSeq := s.fw.expSeq.set p.val (some (k.seq + 1)) } })) ∧
    ((s.rck.ready = false ∨ r.en = false) → ∀ w ks e, exec (.ringPoll p w ks e) s = .next s) ∧
    (r.pcie = .on → s.rck.held = none → exec (.pcieLinkChange p true) s = .next (put { r with link := true, inReset := false })) ∧
    (r.pcie ≠ .on ∨ s.rck.held ≠ none → exec (.pcieLinkChange p true) s = .next s) ∧
    (exec (.pcieLinkChange p false) s = .next (put { r with link := false })) ∧
    (∀ w, exec (.hostDmaComplete p w false) s = .next s) ∧
    (∀ w ∈ [HostDma.seqWord, .packet], exec (.hostDmaComplete p w true) s = .next (put { r with fetchErr := true })) ∧
    (∀ q, ∀ w ∈ [HostDma.buffer q, .image q],
      let mine : Fetched → Prop := fun f => f.pkt.agent.val = p.val ∧ f.pkt.seq = q
      (∀ k own rest, s.fw.inbox = ⟨k, own⟩ :: rest → mine ⟨k, own⟩ → exec (.hostDmaComplete p w true) s = .next (s.answers k own stHostAccess)) ∧
      (∀ l rest, (∀ f ∈ s.fw.inbox, ¬mine f) → s.fw.flight = l :: rest → mine l.f → exec (.hostDmaComplete p w true) s = .next ({ s with fw := { s.fw with flight := rest } }.finish l.f stHostAccess 0 0)) ∧
      ((∀ f ∈ s.fw.inbox, ¬mine f) → (∀ l ∈ s.fw.flight, ¬mine l.f) → exec (.hostDmaComplete p w true) s = .next s)) ∧
    (∀ size ofs n bs, s.rck.ready = false ∨ s.host.owner ≠ p.val → exec (.bar2Access p size ofs n (some bs)) s = .next s ∧
      exec (.bar2Access p size ofs 4 none) s = .next { s with out := .bar p 0xFFFFFFFF :: s.out }) ∧
    (∀ (i : Fin 64) (o : Nat) (bs : List Byte), s.rck.ready = true → s.host.owner = p.val → o < 2 ^ 25 →
      let shut := apEn (ap i) = false ∨ apKind (ap i) = 0 ∨ apKind (ap i) = 3
      let a := 64 * apBase (ap i) / 2 ^ 25 * 2 ^ 25 + o
      let f := s.field (apField (ap i))
      let stack := apEn (ap i) = true ∧ apKind (ap i) = 1 ∧ apField (ap i) < 48 ∧ a < (96 - s.fab.reserve) * 2 ^ 30 ∧ f.pwr.mif = .on ∧ a / 64 ∉ f.hbmBad
      let k := 64 * apField (ap i) + apCore (ap i)
      let banks := apEn (ap i) = true ∧ apKind (ap i) = 2 ∧ apField (ap i) < 48 ∧ o < 0x800000 ∧ s.dark k = false ∧ (s.core k).bank.clear .host o 4 = true
      let read := exec (.bar2Access p 0x80000000 (2 ^ 25 * i + o) 4 none) s
      let write := exec (.bar2Access p 0x80000000 (2 ^ 25 * i + o) 4 (some bs)) s
      let gives : List Byte → Res := fun l => .next { s with out := .bar p (BitVec.ofNat 64 (natLE l)) :: s.out }
      o % 64 + 4 ≤ 64 → bs.length = 4 →
        (shut → read = gives (List.replicate 4 0xFF) ∧ write = .next s) ∧
        (stack → read = gives (Tab.getRange 0 f.hbm a 4) ∧ write = .next (s.withField (apField (ap i)) (fun f => f.hbmWrite a bs))) ∧
        (banks → read = .next { s.withCore k id with out := .bar p (BitVec.ofNat 64 (natLE ((s.core k).bytesAt [o, o + 1, o + 2, o + 3]))) :: s.out } ∧
          (s.core k).stored (((s.core k).writeBytes .host s.coreNow o bs).1) (fun x => o ≤ x ∧ x < o + 4) ∧
          write = .next (s.withCore k (fun c => (c.writeBytes .host s.coreNow o bs).1))))

/-- PART_CREATE, PART_DESTROY, PLAN_LOAD, PLAN_START and PLAN_STOP (R257, R258, R395, R397, R398): in the order of their
checks, a request out of range or with a reserved field set, for a partition that exists or does not, that overlaps,
or whose plan fails a check is refused with its status and changes nothing else; one that passes takes effect: the
partition exists, or is gone with what was loaded for it and its commands in flight, the plan stands loaded with its
hash, the start edge is named (a member of a job waits for the others as in a restart), the stop edge is named at once
or at the next commit. -/
def Obligations.PartitionCommandsComplete : Prop :=
  ∀ (k : Pkt) (p : Byte) (rsv : Nat) (s : State),
    let x := s.part p.toNat
    let ix : PartIx := .ofNat 16 p.toNat
    let named := p.toNat < 16 ∧ k.part = p.toNat
    let free := s.busyOn (.part p.toNat) = false
    (s.front k 0x0201#16 true = true → ∀ (diag : Bool) (ts : BitVec 96) (ps : W32),
      let run := exec (.partCreate k p diag ts ps rsv) s
      let good := named ∧ rsv = 0 ∧ ts ≠ 0 ∧ ps.toNat < 2 ^ 28
      let taken := (∃ q, q < 16 ∧ (s.part q).on = true ∧ ((s.part q).terraces &&& ts ≠ 0 ∨ (s.part q).ports &&& ps.setWidth 28 ≠ 0)) ∨ ∃ i, i < 28 ∧ ps.getLsbD i = true ∧ (s.port i).eth = true
      (¬good → run = .next (s.answers k true stBadParam)) ∧
      (good → x.on = true → run = .next (s.answers k true stPartExists)) ∧
      (good → x.on = false → taken → run = .next (s.answers k true stPartOverlap)) ∧
      (good → x.on = false → ¬taken → run = .next ((s.withPart ix (fun _ => { on := true, diag := diag, terraces := ts, ports := ps.setWidth 28 })).answers k true stOk))) ∧
    (s.front k 0x0202#16 true = true →
      let run := exec (.partDestroy k p) s
      (¬named → run = .next (s.answers k true stBadParam)) ∧
      (named → x.on = false → run = .next (s.answers k true stPartUnknown)) ∧
      (named → x.on = true → (x.started = true ∨ x.startAt ≠ none) → run = .next (s.answers k true stPartRunning)) ∧
      (named → x.on = true → x.started = false → x.startAt = none → ∃ t, run = .next t ∧ t.part p.toNat = {} ∧
        (∀ q, q < 16 → q ≠ p.toNat → t.part q = s.part q) ∧ t.tg = s.tg ∧ t.sites = s.sites ∧ t.fw.flight = s.fw.flight.filter (fun l => l.kind.target ≠ .part p.toNat) ∧
        (∀ c, c ∈ t.cols ↔ c ∈ s.cols ∧ ¬(c.2.en = true ∧ c.2.part = p.toNat)) ∧ (∀ f r, f ∈ t.fields → r ∈ f.2.regions → ¬(r.2.en = true ∧ r.2.part = p.toNat)))) ∧
    (s.front k 0x0301#16 true = true → free → ∀ (rep : Bool) (a : W64) (len : W32) (hash : Nat) (i : PlanImage),
      let run := exec (.planLoad k p rep rsv a len hash i) s
      let good := named ∧ rsv = 0 ∧ a.toNat % 64 = 0
      let st := s.planStatus p.toNat rep len.toNat hash i
      (k.agent = 2 → run = .next (s.answers k true stPortUnsuited)) ∧
      (k.agent ≠ 2 → ¬good → run = .next (s.answers k true stBadParam)) ∧
      (k.agent ≠ 2 → good → st ≠ stOk → run = .next (s.answers k true st)) ∧
      (k.agent ≠ 2 → good → st = stOk → ∃ t u : State, run = .next t ∧ t = u.finish ⟨k, true⟩ stOk (BitVec.ofNat 64 i.content.snapSize) 0 ∧ u.fw = s.taken.fw ∧
        u.part p.toNat = { x with
          plan := some { i.content with hash := i.sha }, fresh := true, seed := 0, step := 0, nextStep := 0, committed := none, detour := (0, 0), level := 0, nextLevel := none, remap := []
          members := (i.content.job.map JobList.members).getD [], memberGen := 0, digests := [], intake := {}, past := [], stopStatus := 0
          rcv := { x.rcv with detour := none, spares := [] }, snap := { x.snap with size := i.content.snapSize } } ∧
        (∀ q, q < 16 → q ≠ p.toNat → t.part q = s.part q))) ∧
    (s.front k 0x0401#16 true = true → free → ∀ seed step tick : W64,
      let run := exec (.planStart k p rsv seed step tick) s
      let good := named ∧ rsv = 0 ∧ tick.toNat < 2 ^ 48
      let st := s.startStatus p.toNat tick.toNat
      (¬good → run = .next (s.answers k true stBadParam)) ∧
      (good → st ≠ stOk → run = .next (s.answers k true st)) ∧
      (good → st = stOk → ∃ t, run = .next t ∧ t.fw.flight = s.fw.flight ++ [⟨⟨k, true⟩, .planStart p.toNat⟩] ∧ t.cores = s.cores ∧ t.fields = s.fields ∧
        (∀ q, q < 16 → q ≠ p.toNat → t.part q = s.part q) ∧
        (x.members.length ≤ 1 → t.part p.toNat = { x with
          seed := seed, step := step, nextStep := step, fresh := true, committed := none, begun := [], rcv := {}, stopStatus := 0, restartWanted := false
          startAt := some (if tick = 0 then (if (List.range 16).any (fun q => (s.part q).started) then s else s.tickPeriod ((x.plan.map Plan.period).getD 0)).waferEdgeAfter 4096 else tick.setWidth 48) }) ∧
        (1 < x.members.length → (t.part p.toNat).seed = seed ∧ (t.part p.toNat).step = step ∧ (t.part p.toNat).restartWanted = true ∧ (t.part p.toNat).rcv.ready = true))) ∧
    (s.front k 0x0402#16 true = true → free → ∀ m : Byte,
      let run := exec (.planStop k p m) s
      let good := named ∧ m.toNat ≤ 1
      let fly : State → State := fun t => { t with fw := { t.fw with flight := s.fw.flight ++ [⟨⟨k, true⟩, .planStop p.toNat⟩] } }
      let told : List Output := if 1 < x.members.length then ((s.others x.members).map (fun a => Output.module_ a .jobStop)).reverse else []
      let stop := if x.stopAt = none then some (s.edgeAfter p.toNat 4096) else x.stopAt
      (¬good → run = .next (s.answers k true stBadParam)) ∧
      (good → x.on = false → run = .next (s.answers k true stPartUnknown)) ∧
      (good → x.on = true → x.plan = none → run = .next (s.answers k true stPlanAbsent)) ∧
      (good → x.on = true → x.plan.isSome = true → x.started = false → run = .next (s.answers k true stPlanStopped)) ∧
      (good → x.on = true → x.plan.isSome = true → x.started = true →
        (m = 1 → run = .next { fly (s.taken.withPart ix (fun x => { x with stopAt := stop })) with out := told ++ s.out }) ∧
        (m = 0 → x.stepOpen = true → run = .next (fly (s.taken.withPart ix (fun x => { x with hold := .stop :: x.hold, stopAtCommit := true })))) ∧
        (m = 0 → x.stepOpen = false → run = .next { fly (s.taken.withPart ix (fun x => { x with hold := .stop :: x.hold, stopAtCommit := true, stopAt := stop })) with out := told ++ s.out })))

/-- RECOVER and MARCH_RUN (R314, R315, R399): each is refused with the status of its first failed check; a restart begins
a recovery of the newest job-valid generation that can be read, or of the one named, where it fits the placement; a
re-test marches every site of a lit terrace that is not Fused, destructively, and runs until the marches have ended; a
re-base asks for a snapshot at the next commit boundary; a march starts on a lit core of no running partition.
PROBE_RUN and RETRACE (R306, R307, R309, R310, R317): each is refused with the status of its first failed check. A
probe pairs the lit Enabled cores of each field by site number; the digests of a pair's chunk, which physical errors
change, are compared, and on a difference with that of a third core: the odd one out is named, or both where a field
has a single pair. MODEL'S CHOICE (log 86): both where no two of the three agree. The last chunk ends the probe, and
RETIRE retires the sites named. A retrace restores the generation of the recorded step into its target and starts it
there; the tick that has just ended is compared with the log; the first difference, or the last tick of the step, ends
it and puts back what stood loaded. -/
def Obligations.DiagnosisCommandsComplete : Prop :=
  (
    ∀ (k : Pkt) (s : State),
      (∀ p : Byte, s.front k 0x0504#16 true = true → s.busyOn (.part p.toNat) = false →
        let x := s.part p.toNat
        let ix : PartIx := .ofNat 16 p.toNat
        let named := p.toNat < 16 ∧ k.part = p.toNat
        (∀ (id : Option W64) (cmd : Instr), (id = none ∧ cmd = .recoverRestart k p) ∨ (∃ j, id = some j ∧ cmd = .recoverRestartFrom k p j) →
          let pick := x.snap.gens.find? (fun g => (id = none || id = some g.id) && g.jobValid && (s.genSource g).isSome)
          (¬named → exec cmd s = .next (s.answers k true stBadParam)) ∧
          (named → x.on = false → exec cmd s = .next (s.answers k true stPartUnknown)) ∧
          (named → x.on = true → x.plan = none → exec cmd s = .next (s.answers k true stPlanAbsent)) ∧
          (∀ plan, named → x.on = true → x.plan = some plan →
            (x.started = true → exec cmd s = .next (s.answers k true stPartRunning)) ∧
            (x.started = false → pick = none → exec cmd s = .next (s.answers k true stNoSnapshot)) ∧
            (∀ g, x.started = false → pick = some g →
              (g.fits plan x.placement = false → exec cmd s = .next (s.answers k true stBadParam)) ∧
              (g.fits plan x.placement = true →
                let t := s.taken.withPart ix (fun x => { x with rcv := { active := true, startCyc := s.tg.cyc, gen := id }, stopStatus := 0, startAt := none, ready := [] })
                exec cmd s = .next { t with fw := { t.fw with flight := s.fw.flight ++ [⟨⟨k, true⟩, .recover p.toNat⟩] } })))) ∧
        (let run := exec (.recoverRebase k p) s;
          (¬named → run = .next (s.answers k true stBadParam)) ∧
          (named → x.on = false → run = .next (s.answers k true stPartUnknown)) ∧
          (named → x.on = true → x.plan = none → run = .next (s.answers k true stPlanAbsent)) ∧
          (∀ plan, named → x.on = true → x.plan = some plan →
            let whole := (∀ c ∈ x.coreSites plan.base, s.lit (c.2 / 32) = true) ∧ ∀ r ∈ plan.base.regions, (s.field r.field).pwr.lost = false ∧ (s.field r.field).pwr.mif = .on
            let t := s.taken.withPart ix (fun x => { x with snap := { x.snap with wanted := true, rebase := true } })
            (¬whole → run = .next (s.answers k true stBadParam)) ∧
            (whole → run = .next { t with fw := { t.fw with flight := s.fw.flight ++ [⟨⟨k, true⟩, .rebase p.toNat⟩] } })))) ∧
      (∀ (w : W16) (bad ok : List Site), s.front k 0x0504#16 true = true → s.busyOn (.ter w.toNat) = false →
        let run := exec (.recoverRetest k w bad ok) s
        let named := w.toNat < 96 ∧ k.part = 0xFF
        (¬named → run = .next (s.answers k true stBadParam)) ∧
        (∀ q, named → s.partOfTer w.toNat = some q → (s.part q).diag = false → run = .next (s.answers k true stDiagRequired)) ∧
        (∀ q, named → s.partOfTer w.toNat = some q → (s.part q).diag = true → s.running q = true → run = .next (s.answers k true stPartRunning)) ∧
        (named → (∀ q, s.partOfTer w.toNat = some q → (s.part q).diag = true ∧ s.running q = false) →
          (s.lit w.toNat = false → run = .next (s.answers k true stSiteDark)) ∧
          (s.lit w.toNat = true → s.fw.flight = [] →
            (s.testSites w.toNat ≠ [] → ∃ u, run = .next u ∧ u.fw.flight = [⟨⟨k, true⟩, .retest w.toNat (bad.map Fin.val) (ok.map Fin.val)⟩] ∧ u.sites = s.sites ∧ u.parts = s.parts ∧ u.fields = s.fields ∧
              (∀ j ∈ s.testSites w.toNat, (u.core j).bank.march.running = true ∧ ((s.core j).bank.march.running = false →
                (u.core j).bank.march.runMode = false ∧ (u.core j).bank.march.bank = 0 ∧ (u.core j).bank.march.todo = (List.range 32).tail)) ∧
              (∀ j, j / 32 ≠ w.toNat → u.core j = s.core j)) ∧
            (s.testSites w.toNat = [] → run = .next (s.answers k true stOk))))) ∧
      (∀ (f c : Byte) (mode : Bool) (m : W32) (rsv : Nat), s.front k 0x0702#16 true = true →
        let j := 64 * f.toNat + c.toNat
        let run := exec (.marchRun k f c mode m rsv) s
        let good := rsv = 0 ∧ f.toNat < 48 ∧ c.toNat < 64 ∧ m ≠ 0 ∧ k.part = 0xFF
        let runs := ∃ q, s.partOfSite j = some q ∧ (s.part q).started = true
        (s.busyOn (.site j) = true → run = .next (s.answers k true stBusy)) ∧
        (s.busyOn (.site j) = false →
          (¬good → run = .next (s.answers k true stBadParam)) ∧
          (good → s.lit (j / 32) = false → run = .next (s.answers k true stSiteDark)) ∧
          (good → s.lit (j / 32) = true → runs → run = .next (s.answers k true stPartRunning)) ∧
          (good → s.lit (j / 32) = true → ¬runs → (s.core j).bank.march.running = true → run = .next (s.answers k true stBusy)) ∧
          (good → s.lit (j / 32) = true → ¬runs → (s.core j).bank.march.running = false → ∃ t, run = .next t ∧ (t.core j).bank.march.running = true ∧ (t.core j).bank.march.maskReg = m ∧
            (t.core j).bank.march.runMode = mode ∧ ((t.core j).bank.march.bank :: (t.core j).bank.march.todo) = (List.range 32).filter m.getLsbD ∧
            t.fw.flight = s.fw.flight ++ [⟨⟨k, true⟩, .march j⟩] ∧ t.fields = s.fields ∧ t.parts = s.parts ∧ t.sites = s.sites)))) ∧
  (
    ∀ s : State,
      (∀ (k : Pkt) (p : Byte) (ret : Bool) (fs : BitVec 48) (seed : W64) (rsv : Nat), s.front k 0x0701#16 true = true → s.busyOn (.part p.toNat) = false →
        let x := s.part p.toNat
        let run := exec (.probeRun k p ret fs seed rsv) s
        let named := rsv = 0 ∧ p.toNat < 16 ∧ k.part = p.toNat
        let held := ∀ i, i < 48 → fs.getLsbD i = true → i ∈ s.fieldsOf p.toNat
        let t := s.taken.withPart (.ofNat 16 p.toNat) (fun x => { x with checkSites := [] })
        (¬named → run = .next (s.answers k true stBadParam)) ∧
        (named → x.on = false → run = .next (s.answers k true stPartUnknown)) ∧
        (named → x.on = true → x.diag = false → run = .next (s.answers k true stDiagRequired)) ∧
        (named → x.on = true → x.diag = true → x.started = true → run = .next (s.answers k true stPartRunning)) ∧
        (named → x.on = true → x.diag = true → x.started = false → ¬held → run = .next (s.answers k true stBadParam)) ∧
        (named → x.on = true → x.diag = true → x.started = false → held → run = .next { t with
          fw := { t.fw with regs := { s.fw.regs with prbSites := [] }, flight := s.fw.flight ++ [⟨⟨k, true⟩, .probe p.toNat fs ret seed⟩] } })) ∧
      (∀ (p : PartIx) (chunk : Nat) (a b : Site) (ea eb ec : W64) (last : Bool),
        let run := exec (.probeChunkCompare p chunk a b ea eb ec last) s
        let pairs := s.probePairs p (a.val / 64)
        let named : List Nat := if ea = eb then [] else if pairs.length ≤ 1 then [a.val, b.val] else if ec = ea then [b.val] else if ec = eb then [a.val] else [a.val, b.val]
        ((∀ l ∈ s.fw.flight, ∀ fs ret seed, l.kind ≠ .probe p fs ret seed) → run = .next s) ∧
        (∀ (f : Fetched) (fs : BitVec 48) (ret : Bool) (seed : W64) rest, s.fw.flight = ⟨f, .probe p fs ret seed⟩ :: rest →
          let all := (s.fw.regs.prbSites ++ named ++ (if last then (s.part p).checkSites else [])).dedup
          let noted := { s with fw := { s.fw with regs := { s.fw.regs with prbSites := all } } }
          ((a.val, b.val) ∉ pairs ∨ fs.getLsbD (a.val / 64) = false → run = .next s) ∧
          ((a.val, b.val) ∈ pairs → fs.getLsbD (a.val / 64) = true → last = false → run = .next noted) ∧
          ((a.val, b.val) ∈ pairs → fs.getLsbD (a.val / 64) = true → last = true →
            let ended := { noted.withPart p (fun y => { y with checkSites := [] }) with
              sites := if ret then all.foldl (fun (t : Tab SiteSt) k => if Tab.get SiteSt.enabled t k = SiteSt.enabled ∨ Tab.get SiteSt.enabled t k = SiteSt.spare then Tab.set SiteSt.enabled t k .retired else t) s.sites else s.sites
              fw := { s.fw with flight := rest, regs := { s.fw.regs with prbSites := all, prbDone := true, prbMismatch := !all.isEmpty } } }
            run = .next (ended.finish f (if all = [] then stOk else stProbeMismatch) 0 0)))) ∧
      (∀ (k : Pkt) (p target : Byte) (dx dy : Int) (step : W64) (joint : Bool) (rsv : Nat),
        let tp := if target = 0xFF then p.toNat else target.toNat
        s.front k 0x0505#16 true = true → s.busyOn (.part tp) = false →
        let x := s.part p.toNat
        let run := exec (.retrace k p target dx dy step joint rsv) s
        let named := rsv = 0 ∧ p.toNat < 16 ∧ (target.toNat < 16 ∨ target = 0xFF) ∧ k.part = p.toNat
        let rec_ := (x.retraces.take 64).find? (fun r => r.step = step)
        let gone := State.answers { s with fw := { s.fw with regs := { s.fw.regs with
          rtrDone := true, rtrResult := 2, rtrN := 0, rtrTick := 0, rtrStep := 0, rtrSite := 0, rtrLogical := 0 } } } k true stRetraceGone
        let gen := fun (r : Retrace) => x.snap.gens.find? (fun g => g.id = r.snapId && g.jobValid && (s.genSource g).isSome)
        let may := if target = 0xFF then s.running p.toNat = false else (s.part tp).diag = true ∧ s.running tp = false
        let fits := fun (r : Retrace) => ∀ c ∈ x.recorded r, ∃ m, moveSite c.2 dx dy = some m ∧ (s.site m = .enabled ∨ s.site m = .spare) ∧ (s.part tp).terraces.getLsbD (m / 32) = true
        (¬named → run = .next (s.answers k true stBadParam)) ∧
        (named → (x.on = false ∨ (s.part tp).on = false) → run = .next (s.answers k true stPartUnknown)) ∧
        (named → x.on = true → (s.part tp).on = true → (rec_ = none ∨ x.plan = none ∨ ∃ r, rec_ = some r ∧ gen r = none) → run = .next gone) ∧
        (∀ r g plan, named → x.on = true → (s.part tp).on = true → rec_ = some r → x.plan = some plan → gen r = some g →
          (¬may → run = .next (s.answers k true stDiagRequired)) ∧
          (may → ¬fits r → run = .next (s.answers k true stBadParam)) ∧
          (may → fits r → ∃ t, run = .next t ∧ t.fw.flight = s.fw.flight ++ [⟨⟨k, true⟩, .retrace tp p.toNat step⟩] ∧ (t.part tp).plan = some (plan.moved (x.recordedPl r) dx dy) ∧
            (t.part tp).committed = some g.id ∧ (t.part tp).step = g.id + 1 ∧ (t.part tp).seed = g.rec_.seed ∧ (t.part tp).startAt = some (s.waferEdgeAfter 4096) ∧
            (t.part tp).members = (if joint then x.members.map (fun m => { m with part := tp }) else []) ∧
            (t.part tp).replay = some {
              plan := (s.part tp).plan, detour := (s.part tp).detour, level := (s.part tp).level, remap := (s.part tp).remap, members := (s.part tp).members, gen := g.id, src := p.toNat, last := r.step } ∧ ∀ q, q < 16 → q ≠ tp → t.part q = s.part q))) ∧
      (∀ (tp : PartIx),
        let run := exec (.retraceTickCompare tp) s
        let y := s.part tp
        let mult := max 1 ((y.plan.map Plan.mult).getD 1)
        let now := (s.placed tp).map (fun c => (c.1, (s.core c.2).tdig))
        ((∀ l ∈ s.fw.flight, ∀ q n, l.kind ≠ .retrace tp q n) → run = .next s) ∧ (s.replayedTick tp = none → run = .next s) ∧
        (∀ (f : Fetched) (p : PartIx) (n0 step : W64) (n : Nat) (r : Retrace) rest, s.fw.flight = ⟨f, .retrace tp p n0⟩ :: rest → s.replayedTick tp = some (step, n) →
          (s.part p).retraces.find? (fun r => r.step = step) = some r →
          let at_ := r.firstTick + BitVec.ofNat 48 ((n + 1) * mult)
          let last := (∃ q, y.replay = some q ∧ q.last = step) ∧ r.ticks ≤ n + 1
          let none_ := ∀ e, s.fw.log.find? (fun e => e.part = p.val && e.tick = at_) = some e → diffs e.digests now = []
          (none_ → ¬last → run = .next s) ∧
          (none_ → last → run = .next (((s.retraceEnds 0 0 0 0 0 0).endReplay tp).endLong (fun k => k = .retrace tp p n0) stOk 0 0)) ∧
          (∀ e d ds, s.fw.log.find? (fun e => e.part = p.val && e.tick = at_) = some e → diffs e.digests now = d :: ds → ∃ t, run = .next t ∧ t.fw.regs.rtrDone = true ∧ t.fw.regs.rtrResult = 1 ∧
            t.fw.regs.rtrN = ds.length + 1 ∧ t.fw.regs.rtrTick = n % 65536 ∧ t.fw.regs.rtrStep = step.setWidth 32 ∧ t.fw.regs.rtrLogical ∈ d :: ds ∧ (∀ l ∈ d :: ds, t.fw.regs.rtrLogical ≤ l) ∧
            (t.part tp).replay = none))))

/-- TELEMETRY, TELEMETRY_WINDOW_END (R400) and FAB_CONFIG (R244): a window of an agent that has 16 open is BUSY,
parameters out of range are BAD_PARAM, a partition that does not exist is PART_UNKNOWN, a start that has passed
START_PASSED, and one that passes waits; at the end of a window that its end edge has closed its command completes
with its record. FAB_CONFIG refuses a change of a port that a partition holds, and a new address while a partition
runs, and else writes what it names; a port whose mode or enable changes loses its link and trains again. -/
def Obligations.TelemetryAndFabConfigComplete : Prop :=
  (∀ (k : Pkt) (own : Bool) (p mask : Byte) (len : W32) (start : W64) (rsv : Nat) (s : State), s.front k 0x0901#16 own = true →
    let run := exec (.telemetry k p mask len start rsv) s
    let w := if start = 0 then s.tg.tick.toNat + 1 else start.toNat
    let fits := rsv = 0 ∧ k.part = p.toNat ∧ mask.toNat < 32 ∧ len ≠ 0 ∧ len.toNat ≤ 1000000 ∧ (p.toNat < 16 ∨ p = 0xFF) ∧ w < 2 ^ 48
    (16 ≤ s.windowsOf k.agent → run = .next (s.answers k own stBusy)) ∧
    (s.windowsOf k.agent < 16 →
      (¬fits → run = .next (s.answers k own stBadParam)) ∧
      (fits → p.toNat < 16 → (s.part p.toNat).on = false → run = .next (s.answers k own stPartUnknown)) ∧
      (fits → (p = 0xFF ∨ (s.part p.toNat).on = true) → w ≤ s.tg.tick.toNat → run = .next (s.answers k own stStartPassed)) ∧
      (fits → (p = 0xFF ∨ (s.part p.toNat).on = true) → s.tg.tick.toNat < w → run = .next { s.taken with fw := { s.taken.fw with
        flight := s.fw.flight ++ [⟨⟨k, own⟩, .telemetry { part := p.toNat, mask := mask.toNat, start := BitVec.ofNat 48 w, len := len.toNat }⟩] } }))) ∧
  (∀ (seq : W32) (agent : Fin 3) (a b c : Nat) (s : State),
    let run := exec (.telemetryWindowEnd seq agent a b c) s
    let due : Long → Prop := fun l => l.f.pkt.seq = seq ∧ l.f.pkt.agent = agent ∧ ∃ w, l.kind = .telemetry w ∧ w.closed = true
    ((∀ l ∈ s.fw.flight, ¬due l) → run = .next s) ∧
    (∀ (f : Fetched) (w : TeleWin) rest, s.fw.flight = ⟨f, .telemetry w⟩ :: rest → f.pkt.seq = seq → f.pkt.agent = agent → w.closed = true → run =
      .next (({ s with freeCtr := s.freeCtr + 28, fw := { s.fw with flight := rest } } : State).finishData f stOk (s.teleRecord w a b c))) ∧
    (∀ w : TeleWin, w.mask = 4 → s.teleRecord w a b c = bytesLE w.start.toNat 8 ++ bytesLE (w.start.toNat + w.len) 8 ++ bytesLE w.part 1 ++ bytesLE 4 1 ++ bytesLE (if w.partial_ then 1 else 0) 1 ++
      bytesLE 0 13 ++ bytesLE a 4 ++ bytesLE b 4 ++ bytesLE c 8)) ∧
  (∀ (k : Pkt) (addr : BitVec 12) (hb : W16) (en eth : BitVec 28) (mac ip : Nat) (pfc : Bool) (pri : BitVec 3) (dscp : BitVec 6) (ts : List StoreTarget) (rsv : Nat) (s : State),
    s.front k 0x0A01#16 true = true → s.busyOn .module_ = false →
    let run := exec (.fabConfig k addr hb en eth mac ip pfc pri dscp ts rsv) s
    let same : Nat → Prop := fun i => (s.port i).en = en.getLsbD i ∧ (s.port i).eth = eth.getLsbD i
    let good := rsv = 0 ∧ hb.toNat ≤ 1000 ∧ k.part = 0xFF ∧ ∀ t ∈ ts, t.port < 28 ∨ t.port = 0xFF
    let held := ∃ (i : PortIx) (p : PartIx), ¬same i ∧ (s.part p).on = true ∧ (s.part p).ports.getLsbD i = true
    let moved := addr ≠ 0xFFF ∧ addr.toNat ≠ s.fab.addr ∧ ∃ p : PartIx, (s.part p).started = true
    let put := { s with fab := { s.fab with
      addr := if addr = 0xFFF then s.fab.addr else addr.toNat, hb := if hb = 0 then s.fab.hb else hb.toNat
      mac := mac, ip := ip, pfcEn := pfc, pfcPri := pri.toNat, dscp := dscp.toNat, targets := Vector.ofFn (fun i => ts.getD i.val {}) } }
    let put2 : FabPort → Nat → FabPort := fun q i => { q with
      en := en.getLsbD i, eth := eth.getLsbD i, link := if q.link = .failed then .failed else if en.getLsbD i then .on else .off
      st := if en.getLsbD i = true ∧ q.link ≠ .failed ∧ q.lowPower = false then .training else .down }
    (¬good → run = .next (s.answers k true stBadParam)) ∧
    (good → held ∨ moved → run = .next (s.answers k true stFabPortBusy)) ∧
    (good → ¬held → ¬moved → (∀ i < 28, same i) → run = .next (put.answers k true stOk)) ∧
    (good → ¬held → ¬moved → ∃ t, run = .next t ∧ (∀ i < 28, (t.port i).en = en.getLsbD i ∧ (t.port i).eth = eth.getLsbD i) ∧ (∀ i < 28, same i → t.port i = s.port i) ∧
      (∀ i < 28, ¬same i → (s.port i).st ≠ .up → t.port i = put2 (s.port i) i) ∧ t.fab.addr = put.fab.addr ∧ t.fab.hb = put.fab.hb ∧ t.fab.targets = put.fab.targets ∧ t.cores = s.cores ∧ t.fields = s.fields))

/-! ## Security -/

/-- Firmware updates (R411, R413): STAGE and REVERT write the slot that the active core does not run and leave it invalid
until the standby has replayed; an image that does not verify is FW_SIGNATURE, one with a lower SVN than MIN_SVN
FW_ROLLBACK; the management interface gets PORT_UNSUITED; SWITCH exchanges the cores once a standby is staged and
nothing is in flight, and both then run the new image, which ends recovery mode; COMMIT_SVN raises MIN_SVN to the
active image's. The life cycle (R406 to R409, Table 13.2): a nonce is given while no partition runs; the transitions
that may be asked for are those of the table; one that fails a check voids the nonce and changes nothing else; one
that passes destroys every partition; when the reserve is erased the OTP entry stands, the reserve reads zero, and the
identity key is generated on the way to PROVISIONED and erased on the way to SCRAPPED. -/
def Obligations.FirmwareAndLifeCycleComplete : Prop :=
  (
    ∀ s : State,
      let switch : Sec → Sec := fun c => { c with
        active := s.sec.standby, standby := s.sec.active, activeB := c.standbyB, standbyB := c.standbyB, standbyStaged := false, recovery := false }
      let slot : Bool → FwSlot → Sec → Sec := fun b x c => if b then { c with slotB := x } else { c with slotA := x }
      (∀ k : Pkt, s.front k 0x0801#16 true = true → s.busyOn .module_ = false →
        (∀ cmd, (cmd = .fwUpdateSwitch k ∨ cmd = .fwUpdateCommitSvn k ∨ (∃ i, cmd = .fwUpdateRevert k i) ∨ ∃ a len i, cmd = .fwUpdateStage k a len i) →
          (k.agent = 2 → exec cmd s = .next (s.answers k true stPortUnsuited)) ∧ (k.agent ≠ 2 → k.part ≠ 0xFF → exec cmd s = .next (s.answers k true stBadParam))) ∧
        (k.agent ≠ 2 → k.part = 0xFF →
          (∀ (a : W64) (len : W32) (i : FwImage) (rev : Bool),
            let run := if rev then exec (.fwUpdateRevert k i) s else exec (.fwUpdateStage k a len i) s
            let b := !s.sec.activeB
            let bad : State := { s with sec := { slot b (i.slot false) s.sec with standbyStaged := false } }
            let whole := (rev = true ∨ 384 + i.bodyLen ≤ len.toNat) ∧ s.imageSigned i = true
            (¬whole → run = .next (bad.answers k true stFwSignature)) ∧
            (whole → i.svn < s.sec.minSvn → run = .next (bad.answers k true stFwRollback)) ∧
            (whole → s.sec.minSvn ≤ i.svn → run = .next { bad.taken with fw := { bad.taken.fw with flight := s.fw.flight ++ [⟨⟨k, true⟩, .fwStage b rev⟩] } })) ∧
          (s.fw.flight ≠ [] → exec (.fwUpdateSwitch k) s = .next (s.answers k true stBusy)) ∧
          (s.fw.flight = [] → (s.sec.standbyStaged = false ∨ s.sec.noStandby = true) → exec (.fwUpdateSwitch k) s = .next (s.answers k true stFwNotStaged)) ∧
          (s.fw.flight = [] → s.sec.standbyStaged = true → s.sec.noStandby = false → exec (.fwUpdateSwitch k) s = .next (State.answers { s with sec := switch s.sec } k true stOk)) ∧
          exec (.fwUpdateCommitSvn k) s = .next (State.answers { s with sec := { s.sec with
            minSvn := max s.sec.minSvn (if s.sec.recovery then s.sec.factory.svn else if s.sec.activeB then s.sec.slotB.svn else s.sec.slotA.svn) } } k true stOk))) ∧
      (((∀ l ∈ s.fw.flight, ∀ b r, l.kind ≠ .fwStage b r) ∨ s.sec.erasePending = true) → exec .standbyReplayDone s = .next s) ∧
      (∀ (f : Fetched) (b rev : Bool) rest, s.fw.flight = ⟨f, .fwStage b rev⟩ :: rest → s.sec.erasePending = false →
        let staged := { slot b { (if b then s.sec.slotB else s.sec.slotA) with ok := true } s.sec with standbyB := b, standbyStaged := true }
        let t : State := { s with fw := { s.fw with flight := rest } }
        (rev = false → exec .standbyReplayDone s = .next ({ t with sec := staged }.finish f stOk 0 0)) ∧
        (rev = true → exec .standbyReplayDone s = .next ({ t with sec := switch staged }.finish f stOk 0 0)))) ∧
  (
    (∀ (k : Pkt) (rsv : Nat) (s : State), s.front k 0x0803#16 true = true → s.busyOn .module_ = false →
      let void := { s with fw := { s.fw with nonce := none } }
      let good := rsv = 0 ∧ k.part = 0xFF
      let runs := ∃ p, p < 16 ∧ (s.part p).started = true
      let n := Config.freeBytes s.freeCtr % 2 ^ 384
      (runs → exec (.lifecycleNonce k rsv) s = .next (void.answers k true stPartRunning)) ∧
      (¬runs → ¬good → exec (.lifecycleNonce k rsv) s = .next (void.answers k true stBadParam)) ∧
      (¬runs → good → exec (.lifecycleNonce k rsv) s =
        .next ({ void.taken with freeCtr := s.freeCtr + 1, fw := { void.taken.fw with nonce := some n } }.finishData ⟨k, true⟩ stOk (bytesBE n 48))) ∧
      (∀ (g : Byte) (x y r sg mx my : Nat),
        let run := exec (.lifecycleTransition k rsv g x y r sg mx my) s
        let st := s.lcStatus g.toNat x y r sg mx my
        (¬good → run = .next (void.answers k true stBadParam)) ∧
        (good → st ≠ stOk → run = .next (void.answers k true st)) ∧
        (good → st = stOk → ∃ t, run = .next t ∧ (∀ p < 16, (s.part p).on = true → t.part p = {}) ∧ (∀ p < 16, (s.part p).on = false → t.part p = s.part p) ∧ t.fw.nonce = none ∧
          t.fw.flight = s.fw.flight.filter (fun l => match l.kind.target with | .part p => !(decide (p < 16) && (s.part p).on) | _ => true) ++ [⟨⟨k, true⟩, .lifecycle g.toNat⟩] ∧
          t.sec = { s.sec with lcTarget := some (g.toNat, if g = 2 then keyHash x y else s.sec.ownerKey) }))) ∧
    (∀ a b : Nat, lcAuth a b ≠ .refused ↔ (a, b) ∈ [(0, 1), (1, 2), (2, 3), (3, 1), (1, 4), (3, 4), (2, 4)]) ∧
    (∀ s : State, s.sec.lcTarget = none → exec .lifecycleEraseDone s = .next s) ∧
    (∀ (f : Fetched) (g key : Nat) (s : State), s.sec.lcTarget = some (g, key) → s.fw.flight = [⟨f, .lifecycle g⟩] → ∃ t, exec .lifecycleEraseDone s = .next t ∧
      t.sec.otp = s.sec.otp ++ [(g, true)] ∧ t.lifeCycle = g ∧ t.sec.lcTarget = none ∧ t.sec.ownerKey = key ∧ t.fw.flight = [] ∧ t.fab.slots = [] ∧
      (∀ f a, belowReserve s.fab.reserve ≤ a → Tab.get 0 (t.field f).hbm a = 0) ∧ (g ≠ 4 → s.wf = true → ∀ f a, a < belowReserve s.fab.reserve → Tab.get 0 (t.field f).hbm a = Tab.get 0 (s.field f).hbm a) ∧
      (g = 1 → t.sec.idKey = true ∧ t.sec.idErased = false ∧ t.sec.keyDraw = some s.freeCtr) ∧ (g = 4 → t.sec.idKey = false ∧ t.sec.idErased = true) ∧
      (g ≠ 1 → g ≠ 4 → t.sec.idKey = s.sec.idKey ∧ t.sec.idErased = s.sec.idErased) ∧
      (s.lifeCycle = 2 → t.sec.mediaKey = s.sec.mediaKey + 1 ∧ t.fw.log = [] ∧ t.fab.shelf = {}) ∧ (s.lifeCycle ≠ 2 → t.sec.mediaKey = s.sec.mediaKey ∧ t.fab.shelf = s.fab.shelf)))

/-- Alarms and the debug port (R416 to R419): a source that is not armed, and any while a reset is held, does nothing; an
alarm shows in SRC and in the record and sends an event; at level 2 and above the module halts and every partition
that ran is told; at level 3 the identity key goes first and the erasure runs, whose end is the ALARM_L3 reset; the
debug port opens on a token signed over the nonce, and an access to the closed port is an alarm. -/
def Obligations.AlarmsAndDebugComplete : Prop :=
  (∀ (c : Instr) (n : Nat) (s : State), (c = .tamper ∧ n = 1 ∧ s.lifeCycle = 2 ∨ c = .vglitch ∧ n = 2 ∨ c = .cglitch ∧ n = 3 ∨ c = .debugAccess ∧ n = 4 ∧ s.sec.debugOpen = false) →
    let level := s.sec.levelOf n
    (s.rck.held.isSome = true → exec c s = .next s) ∧
    (s.rck.held = none → level < 2 → exec c s = .next { s with
      sec := { s.sec with src := s.sec.src ||| BitVec.ofNat 4 (2 ^ (n - 1)), record := s.noteAlarm n level }, out := .pldm 2 0 [n, level] :: s.out }) ∧
    (s.rck.held = none → 2 ≤ level → ∃ t more, exec c s = .next t ∧ t.sec.halt = true ∧ t.sec.src = s.sec.src ||| BitVec.ofNat 4 (2 ^ (n - 1)) ∧ t.sec.record = s.noteAlarm n level ∧
      t.fw.reports = s.fw.reports ++ more ∧ (∀ p, p < 16 → (s.part p).started = true → { part := p, what := .alarm } ∈ more) ∧
      (level = 2 → t.sec.idKey = s.sec.idKey ∧ t.sec.erasePending = s.sec.erasePending) ∧ (3 ≤ level → t.sec.idKey = false ∧ t.sec.erasePending = true) ∧
      (∀ i : TerIx, (s.ter i).st ≠ .failed → (t.ter i).st = .off))) ∧
  (∀ s : State, (s.lifeCycle ≠ 2 → exec .tamper s = .next s) ∧ (s.sec.debugOpen = true → exec .debugAccess s = .next s)) ∧
  (∀ (n level : Nat) (s : State), s.sec.record.valid = false →
    s.noteAlarm n level = { valid := true, more := s.sec.record.more, cycle := s.now, body := { level := level, source := n, at_ := s.now } }) ∧
  (∀ s : State, (s.sec.erasePending = false ∨ s.rck.held.isSome = true → exec .alarmL3EraseDone s = .next s) ∧
    (s.sec.erasePending = true → s.rck.held = none → ∃ t, exec .alarmL3EraseDone s = .next t ∧ t.sec.erasePending = false ∧ t.rck.cause = 4 ∧ t.rck.held = none ∧ t.rck.stage = 1 ∧
      t.fields = [] ∧ t.cores = [] ∧ t.sites = s.sites ∧ t.sec.otp = s.sec.otp ∧ t.sec.idKey = s.sec.idKey ∧ t.sec.minSvn = s.sec.minSvn)) ∧
  (∀ (x y r sg : Nat) (s : State), (s.fw.nonce = none → exec (.debugToken x y r sg) s = .next s) ∧
    (∀ n, s.fw.nonce = some n →
      let ok := signedBy (if s.lifeCycle = 2 then s.sec.ownerKey else s.sec.ident.mfgKey) (sha384 (bytesLE s.sec.ident.moduleId.toNat 8 ++ bytesBE n 48)) x y r sg
      (ok = false → exec (.debugToken x y r sg) s = .next s) ∧
      (ok = true → exec (.debugToken x y r sg) s = .next { s with sec := { s.sec with debugOpen := true }, fw := { s.fw with nonce := none } })))

/-- Attestation and the management interface (R403, R404, R414, R415). MODEL'S CHOICE for the message codes and their
order: log 60. From READY on, a connection is set up by GET_VERSION, GET_CAPABILITIES and NEGOTIATE_ALGORITHMS; then
digests and chain of slot 0 are read, and CHALLENGE and GET_MEASUREMENTS sign while the module holds its identity key;
another slot or order is an error. ATTEST carries the same; MCTP takes a unit of 64 to 256 bytes; PLDM types 0, 2 and
4 are answered; ENTDAA sets the dynamic address. -/
def Obligations.AttestationCompletes : Prop :=
  (∀ (a : Fin 3) (n : Nat) (s : State), s.rck.ready = true →
    let say : Nat → List Nat → State := fun code args => { s with out := .spdm a code args :: s.out }
    let at_ : Nat → State → State := fun m u => { u with sec := { u.sec with spdm := s.sec.spdm.set a.val m } }
    exec (.getVersion a) s = .next (at_ 1 (say 0x04 [0x12])) ∧
    (s.spdmAt a = 0 → exec (.getCapabilities a) s = .next (say 0x7F [4])) ∧
    (s.spdmAt a ≠ 0 → exec (.getCapabilities a) s = .next (at_ 2 (say 0x61 []))) ∧
    (s.spdmAt a < 2 → exec (.negotiateAlgorithms a) s = .next (say 0x7F [4])) ∧
    (2 ≤ s.spdmAt a → exec (.negotiateAlgorithms a) s = .next (at_ 3 (say 0x63 []))) ∧
    (s.spdmAt a < 3 → ∀ c ∈ [Instr.getDigests a, .getCertificate a n, .challenge a n, .getMeasurements a], exec c s = .next (say 0x7F [4])) ∧
    (3 ≤ s.spdmAt a →
      exec (.getDigests a) s = .next (say 0x01 [sha384 (bytesBE Config.certChain 4096)]) ∧
      (n ≠ 0 → exec (.getCertificate a n) s = .next (say 0x7F [1]) ∧ exec (.challenge a n) s = .next (say 0x7F [1])) ∧
      exec (.getCertificate a 0) s = .next (say 0x02 [Config.certChain]) ∧
      (s.canSign = false → exec (.challenge a 0) s = .next (say 0x7F [5]) ∧ exec (.getMeasurements a) s = .next (say 0x7F [5])) ∧
      (s.canSign = true → exec (.challenge a 0) s = .next { say 0x03 [Config.freeBytes s.freeCtr] with freeCtr := s.freeCtr + 1 } ∧
        exec (.getMeasurements a) s = .next { say 0x60 (s.measurements ++ [Config.freeBytes s.freeCtr]) with freeCtr := s.freeCtr + 1 }))) ∧
  (∀ (a : Fin 3) (n : Nat) (s : State), s.rck.ready = false →
    ∀ c ∈ [Instr.getVersion a, .getCapabilities a, .negotiateAlgorithms a, .getDigests a, .getCertificate a n, .challenge a n, .getMeasurements a], exec c s = .next s) ∧
  (∀ s : State, s.measurements.length = 22 ∧ s.measurements.head? = some Config.romHash ∧ (s.sec.noStandby = true → s.measurements.getD 2 1 = 0)) ∧
  (∀ (k : Pkt) (own : Bool) (code : Byte) (n : Nat) (s : State), s.front k 0x0802#16 own = true →
    let run := exec (.attest k code n) s
    let r := s.taken.spdmAnswer k.agent code.toNat n
    let len := (Config.freeValue r.1.freeCtr).toNat % 2 ^ 16
    let signs := code = 0x83 ∨ code = 0xE0
    (k.part ≠ 0xFF → run = .next (s.answers k own stBadParam)) ∧
    (k.part = 0xFF → signs → s.canSign = false → run = .next (s.answers k own stAttestUnavailable)) ∧
    (k.part = 0xFF → ¬signs ∨ s.canSign = true → run = .next ({ r.1 with freeCtr := r.1.freeCtr + 1, out := .spdm k.agent r.2.1 r.2.2 :: s.out }.finish ⟨k, own⟩ stOk
      (if k.dlen.toNat < len then BitVec.ofNat 64 len else 0) (dataLenOf k len))) ∧
    (k.part = 0xFF → code = 0x84 → ∃ t, run = .next t ∧ t.spdmAt k.agent = 1 ∧ t.freeCtr = s.freeCtr + 1 ∧ t.cores = s.cores ∧ t.parts = s.parts)) ∧
  (∀ (code : Byte) (n : Nat) (s : State), exec (.mctpControl code n) s = .next { s with
    out := .mctp code.toNat [n] :: s.out, host := { s.host with mtu := if n = 0 then s.host.mtu else if n < 64 then 64 else if 256 < n then 256 else n } }) ∧
  (∀ (type code : Byte) (s : State),
    ((type = 0 ∨ type = 4) → exec (.pldmRequest type code) s = .next { s with out := .pldm type.toNat code.toNat [] :: s.out }) ∧
    (type = 2 → ∃ vs, vs.length = 102 ∧ exec (.pldmRequest type code) s = .next { s with out := .pldm 2 code.toNat vs :: s.out }) ∧
    (type ≠ 0 → type ≠ 2 → type ≠ 4 → exec (.pldmRequest type code) s = .next { s with out := .pldm type.toNat 0xFF [] :: s.out })) ∧
  (∀ (a : BitVec 7) (s : State), exec (.entdaa a) s = .next { s with host := { s.host with dynAddr := some a.toNat } })

/-! ## Reset and invariants -/

/-- What power-on reset leaves, and that the first cold reset's release begins the trim load (R364 to R368, Table 11.3 and
the register tables' reset values). The tables of cores, fields and sites have their canonical form after reset. -/
def Obligations.ResetValues : Prop :=
  (
    let s := State.reset
    s.rck.held = some 1 ∧ s.rck.ready = false ∧ s.host.owner = 3 ∧ s.host.priority = 0 ∧ s.host.timeout = 1000 ∧ s.fab.addr = 0xFFF ∧ s.fab.hb = 20 ∧ s.fab.feedId = 0xFF ∧ s.fab.holder = 0xFFF ∧
    s.pwr.warn = 95 ∧ s.pwr.hot = 105 ∧ s.pwr.droop = 25 ∧ s.pwr.stkWarn = 85 ∧ s.pwr.stkHot = 95 ∧ s.pwr.env.bound = 30000 ∧ s.div.current = 32 ∧ s.rck.fmcGate = 100000 ∧ s.sec.cfg = 0xAB ∧
    s.lifeCycle = 0 ∧ s.tg.running = false ∧ s.tg.tick = 0 ∧ s.pending = [] ∧ s.out = [] ∧
    (∀ k, s.core k = {}) ∧ (∀ f, s.field f = {}) ∧ (∀ p, s.part p = {}) ∧ (∀ p, s.port p = {}) ∧ (∀ c, s.col c = {}) ∧ (∀ t : TerIx, (s.ter t).st = .off) ∧
    (∀ k : Site, s.site k = if 60 ≤ k.val % 64 then .spare else .enabled) ∧
    exec .resetRelease s = .next s ∧
    (∀ v, 1140 ≤ v → ∃ t, exec .resetRelease { s with pwr := { s.pwr with vbus := v } } = .next t ∧ t.rck.held = none ∧ t.rck.stage = 1)) ∧
  (
   State.reset.wf = true)

/-- Every step keeps the canonical form of the tables of cores, fields and sites: whatever a command, a message or a cycle
does, equal modules are equal data. -/
def Obligations.WellFormedKept : Prop :=
   ∀ s t : State, s.wf = true → step s = .next t → t.wf = true

/-- Nothing the module does takes back a security floor (R406, R413): no step lowers MIN_SVN, and the OTP life-cycle
entries of before stand in front of those of after. -/
def Obligations.FloorNeverFalls : Prop :=
   ∀ s t : State, step s = .next t → s.sec.minSvn ≤ t.sec.minSvn ∧ s.sec.otp <+: t.sec.otp
end

