-- ==== Sys2Proof/Laws/Tab.lean ====
section
/-! SUPPORT. Sparse tables: what is read after a write, and that every operation keeps the canonical form. -/

namespace Sys2Proof

variable {α : Type}

theorem Tab.get_del (d : α) (t : Tab α) (x y : Nat) : Tab.get d (Tab.del t x) y = if y = x then d else Tab.get d t y := by
  induction t with
  | nil => simp [Tab.del, Tab.get]
  | cons p t ih =>
    obtain ⟨k, v⟩ := p
    simp only [Tab.del] at ih
    by_cases hk : k = x
    · subst hk
      simp only [Tab.del, List.filter_cons, ne_eq, not_true_eq_false, decide_false, Bool.false_eq_true, if_false, ih, Tab.get]
      split <;> rfl
    · simp only [Tab.del, List.filter_cons, ne_eq, hk, not_false_eq_true, decide_true, if_true, Tab.get, ih]
      by_cases hy : y = k
      · simp [hy, hk]
      · simp [hy]

theorem Tab.get_ins (d : α) (t : Tab α) (x y : Nat) (v : α) (h : ∀ p ∈ t, p.1 ≠ x) :
    Tab.get d (Tab.ins t x v) y = if y = x then v else Tab.get d t y := by
  induction t with
  | nil => simp [Tab.ins, Tab.get]
  | cons p t ih =>
    obtain ⟨k, w⟩ := p
    have hk : k ≠ x := h (k, w) (by simp)
    have ih := ih (fun p hp => h p (by simp [hp]))
    simp only [Tab.ins]
    split
    · simp [Tab.get]
    · simp only [Tab.get, ih]
      by_cases hy : y = k
      · simp [hy, hk]
      · simp [hy]

/-- Read after write: the key written reads the value, every other key reads as before. -/
theorem Tab.get_set [DecidableEq α] (d : α) (t : Tab α) (x y : Nat) (v : α) :
    Tab.get d (Tab.set d t x v) y = if y = x then v else Tab.get d t y := by
  unfold Tab.set
  split
  · next h => rw [Tab.get_del, h]
  · rw [Tab.get_ins, Tab.get_del]
    · by_cases hy : y = x <;> simp [hy]
    · intro p hp
      simp only [Tab.del, List.mem_filter] at hp
      simpa using hp.2

theorem Tab.get_upd [DecidableEq α] (d : α) (t : Tab α) (x y : Nat) (f : α → α) :
    Tab.get d (Tab.upd d t x f) y = if y = x then f (Tab.get d t x) else Tab.get d t y := by
  rw [Tab.upd, Tab.get_set]

theorem Tab.get_updAll_other [DecidableEq α] (d : α) (xs : List Nat) (f : Nat → α → α) (y : Nat) (h : y ∉ xs) (t : Tab α) :
    Tab.get d (Tab.updAll d t xs f) y = Tab.get d t y := by
  induction xs generalizing t with
  | nil => rfl
  | cons x xs ih =>
    simp only [List.mem_cons, not_or] at h
    simp only [Tab.updAll, List.foldl_cons] at ih ⊢
    rw [ih h.2, Tab.get_upd, if_neg h.1]

theorem Tab.get_setRange_other [DecidableEq α] (d : α) (vs : List α) (x y : Nat) (h : y < x ∨ x + vs.length ≤ y) (t : Tab α) :
    Tab.get d (Tab.setRange d t x vs) y = Tab.get d t y := by
  induction vs generalizing t x with
  | nil => rfl
  | cons v vs ih =>
    simp only [List.length_cons] at h
    rw [Tab.setRange, ih (x + 1) (by omega), Tab.get_set, if_neg (by omega)]

theorem Tab.get_setRange_at [DecidableEq α] (d : α) (vs : List α) (x i : Nat) (h : i < vs.length) (t : Tab α) :
    Tab.get d (Tab.setRange d t x vs) (x + i) = vs[i] := by
  induction vs generalizing t x i with
  | nil => simp at h
  | cons v vs ih =>
    rw [Tab.setRange]
    cases i with
    | zero => rw [Tab.get_setRange_other d vs (x + 1) (x + 0) (by omega), Tab.get_set]; simp
    | succ i =>
      have := ih (x + 1) i (by simpa using h) (Tab.set d t x v)
      rw [show x + (i + 1) = x + 1 + i by omega, this]
      simp

theorem Tab.getRange_setRange [DecidableEq α] (d : α) (vs : List α) (x : Nat) (t : Tab α) :
    Tab.getRange d (Tab.setRange d t x vs) x vs.length = vs := by
  apply List.ext_getElem
  · simp [Tab.getRange]
  · intro i h1 h2
    simp [Tab.getRange, Tab.get_setRange_at d vs x i h2]

/-! ## The canonical form -/

theorem Tab.wf_iff [DecidableEq α] (d : α) (t : Tab α) : Tab.wf d t = true ↔ t.Pairwise (fun a b => a.1 < b.1) ∧ ∀ p ∈ t, p.2 ≠ d := by
  simp [Tab.wf]

@[simp] theorem Tab.wf_nil [DecidableEq α] (d : α) : Tab.wf d ([] : Tab α) = true := by simp [Tab.wf_iff]

theorem Tab.wf_filter [DecidableEq α] (d : α) (t : Tab α) (p : Nat × α → Bool) (h : Tab.wf d t = true) : Tab.wf d (t.filter p) = true := by
  rw [Tab.wf_iff] at h ⊢
  exact ⟨h.1.filter p, fun q hq => h.2 q (List.mem_filter.1 hq).1⟩

theorem Tab.mem_ins (t : Tab α) (x : Nat) (v : α) (p : Nat × α) : p ∈ Tab.ins t x v ↔ p = (x, v) ∨ p ∈ t := by
  induction t with
  | nil => simp [Tab.ins]
  | cons q t ih =>
    obtain ⟨k, w⟩ := q
    simp only [Tab.ins]
    split
    · simp
    · simp only [List.mem_cons, ih]
      tauto

theorem Tab.wf_ins [DecidableEq α] (d : α) (t : Tab α) (x : Nat) (v : α) (hv : v ≠ d) (hx : ∀ p ∈ t, p.1 ≠ x) (h : Tab.wf d t = true) :
    Tab.wf d (Tab.ins t x v) = true := by
  rw [Tab.wf_iff] at h ⊢
  refine ⟨?_, fun p hp => ?_⟩
  · induction t with
    | nil => simp [Tab.ins]
    | cons q t ih =>
      obtain ⟨k, w⟩ := q
      obtain ⟨h1, h2⟩ := h
      rw [List.pairwise_cons] at h1
      have hk : k ≠ x := hx (k, w) (by simp)
      simp only [Tab.ins]
      split
      · rename_i hlt
        refine List.pairwise_cons.2 ⟨fun p hp => ?_, List.pairwise_cons.2 h1⟩
        rcases List.mem_cons.1 hp with rfl | hp
        · exact hlt
        · exact lt_trans hlt (h1.1 p hp)
      · refine List.pairwise_cons.2 ⟨fun p hp => ?_, ih (fun p hp => hx p (by simp [hp])) ⟨h1.2, fun p hp => h2 p (by simp [hp])⟩⟩
        rcases (Tab.mem_ins t x v p).1 hp with rfl | hp
        · show k < x
          omega
        · exact h1.1 p hp
  · rcases (Tab.mem_ins t x v p).1 hp with rfl | hp
    · exact hv
    · exact h.2 p hp

/-- A write keeps the canonical form. -/
theorem Tab.wf_set [DecidableEq α] (d : α) (t : Tab α) (x : Nat) (v : α) (h : Tab.wf d t = true) : Tab.wf d (Tab.set d t x v) = true := by
  unfold Tab.set
  split
  · exact Tab.wf_filter d t _ h
  · next hv =>
    refine Tab.wf_ins d _ x v hv (fun p hp => ?_) (Tab.wf_filter d t _ h)
    simp only [Tab.del, List.mem_filter] at hp
    simpa using hp.2

theorem Tab.wf_upd [DecidableEq α] (d : α) (t : Tab α) (x : Nat) (f : α → α) (h : Tab.wf d t = true) : Tab.wf d (Tab.upd d t x f) = true :=
  Tab.wf_set d t x _ h

theorem Tab.wf_updAll [DecidableEq α] (d : α) (xs : List Nat) (f : Nat → α → α) (t : Tab α) (h : Tab.wf d t = true) :
    Tab.wf d (Tab.updAll d t xs f) = true := by
  induction xs generalizing t with
  | nil => exact h
  | cons x xs ih => exact ih _ (Tab.wf_upd d t x _ h)

theorem Tab.wf_mapV [DecidableEq α] (d : α) (t : Tab α) (f : Nat → α → α) (h : Tab.wf d t = true) : Tab.wf d (Tab.mapV d t f) = true := by
  rw [Tab.wf_iff] at h ⊢
  refine ⟨?_, fun p hp => by simpa using (List.mem_filter.1 hp).2⟩
  have hm : (t.map (fun p => (p.1, f p.1 p.2))).Pairwise (fun a b => a.1 < b.1) := List.pairwise_map.2 h.1
  exact hm.filter _

theorem Tab.wf_setRange [DecidableEq α] (d : α) (vs : List α) (x : Nat) (t : Tab α) (h : Tab.wf d t = true) :
    Tab.wf d (Tab.setRange d t x vs) = true := by
  induction vs generalizing t x with
  | nil => exact h
  | cons v vs ih => exact ih (x + 1) _ (Tab.wf_set d t x v h)

end Sys2Proof
end

