-- ==== Sys2Proof/Laws/Memory.lean ====
section
/-! SUPPORT. The memories of the module (bank bytes of a core, stack bytes of a field): what is read after a write, and
that each memory operation keeps the canonical form; reset lists nothing. -/

namespace Sys2Proof.Machine

open Sys2Proof

/-! ## Banks -/

theorem Bank.store_wf (b : Bank) (w : Nat) (bs : List Byte) (h : Memory.wf b.data = true) : Memory.wf (b.store w bs).data = true :=
  Tab.wf_setRange 0 bs (64 * w) b.data h

theorem Bank.store_other (b : Bank) (w : Nat) (bs : List Byte) (x : Nat) (hx : x < 64 * w ∨ 64 * w + bs.length ≤ x) :
    Tab.get 0 (b.store w bs).data x = Tab.get 0 b.data x :=
  Tab.get_setRange_other 0 bs (64 * w) x hx b.data

theorem Bank.zeroBank_wf (b : Bank) (k : Nat) (h : Memory.wf b.data = true) : Memory.wf (b.zeroBank k).data = true :=
  Tab.wf_filter 0 b.data _ h

theorem Bank.correct_wf (b : Bank) (w : Nat) (h : Memory.wf b.data = true) : Memory.wf (b.correct w).data = true := by
  unfold Bank.correct
  split
  · exact Bank.store_wf b w _ h
  · exact h

theorem Bank.ones_wf (b : Bank) (w : Nat) (h : Memory.wf b.data = true) : Memory.wf (b.ones w).data = true := by
  simp only [Bank.ones]
  exact Bank.store_wf b w _ h

theorem Bank.foldl_wf {β : Type} (g : Bank → β → Bank) (hg : ∀ b x, Memory.wf b.data = true → Memory.wf (g b x).data = true) (l : List β) (b : Bank)
    (h : Memory.wf b.data = true) : Memory.wf (l.foldl g b).data = true := by
  induction l generalizing b with
  | nil => exact h
  | cons x l ih => exact ih _ (hg b x h)

theorem Bank.correctBelow_wf (b : Bank) (k lim : Nat) (h : Memory.wf b.data = true) : Memory.wf (b.correctBelow k lim).data = true :=
  Bank.foldl_wf _ (fun b w => Bank.correct_wf b w) _ b h

theorem Bank.fillOnes_wf (b : Bank) (k : Nat) (p : Nat → Bool) (h : Memory.wf b.data = true) : Memory.wf (b.fillOnes k p).data = true :=
  Bank.foldl_wf _ (fun b _ => Bank.ones_wf b _) _ _ (Bank.zeroBank_wf b k h)

/-- Admission, reading and preparing leave the bytes of the banks alone. -/
theorem Bank.admitAll_data (r : Req) (l : List (Nat × Nat)) (b : Bank) : (Bank.admitAll r l b).1.data = b.data := by
  induction l with
  | nil => rfl
  | cons x l ih =>
    obtain ⟨a, w⟩ := x
    simp only [Bank.admitAll]
    split
    · exact ih
    · rfl
    · rfl

theorem Bank.noteCorr_data (b : Bank) (r : Req) (now : Stamp) (w : Nat) : (b.noteCorr r now w).data = b.data := by
  unfold Bank.noteCorr
  split <;> rfl

theorem Bank.noteUncorr_data (b : Bank) (r : Req) (now : Stamp) (w : Nat) : (b.noteUncorr r now w).data = b.data := by
  unfold Bank.noteUncorr
  split <;> rfl

theorem Bank.readWord_data (b : Bank) (r : Req) (now : Stamp) (a w : Nat) : (b.readWord r now a w).1.data = b.data := by
  unfold Bank.readWord
  split
  · rfl
  · rfl
  · split
    · rfl
    · exact Bank.noteCorr_data b r now w
    · exact Bank.noteUncorr_data b r now w

/-- The bank that one word's preparation leaves has the bytes of before. -/
theorem Bank.prepareOne_data (b : Bank) (r : Req) (now : Stamp) (w first : Nat) (ls : List (Option Byte)) (whole : Bool) :
    (if whole then
        match b.grant r w with
        | .ok _ => (b, Out.ok (ls.map (fun (x : Option Byte) => x.getD 0)))
        | .wait c => (b, .wait c)
        | .fault k _ => ({ b with rejects := satAdd b.rejects 1 }, .fault k first)
      else
        match b.readWord r now first w with
        | (b1, .ok bs) => (b1, .ok (mergeLanes ls bs))
        | (b1, .wait c) => (b1, .wait c)
        | (b1, .fault k d) => (b1, .fault k d)).1.data = b.data := by
  have hr := Bank.readWord_data b r now first w
  split
  · split <;> rfl
  · split <;> rename_i h <;> rw [h] at hr <;> exact hr

theorem Bank.prepare_data (r : Req) (now : Stamp) (l : List WordWrite) (b : Bank) : (Bank.prepare r now l b).1.data = b.data := by
  induction l generalizing b with
  | nil => rfl
  | cons x l ih =>
    obtain ⟨w, ls⟩ := x
    have hd := Bank.prepareOne_data b r now w (64 * w + ls.findIdx Option.isSome) ls (ls.all Option.isSome)
    simp only [Bank.prepare]
    split
    · exact ih b
    · split <;> rename_i heq
      · exact (congrArg (fun x => x.1.data) heq.symm).trans hd
      · have h1 := (congrArg (fun x => x.1.data) heq.symm).trans hd
        by_cases hc : r.perCycle = 1
        · rw [if_pos hc]; exact h1
        · rw [if_neg hc]; exact (ih _).trans h1
      · have h1 := (congrArg (fun x => x.1.data) heq.symm).trans hd
        split <;> rename_i h2 <;> exact (congrArg (fun x => x.1.data) h2.symm).trans ((ih _).trans h1)

theorem Core.storeWord_foldl_wf (l : List (Nat × List Byte)) (c : Core) (h : Memory.wf c.bank.data = true) :
    Memory.wf (l.foldl Core.storeWord c).bank.data = true := by
  induction l generalizing c with
  | nil => exact h
  | cons p l ih => exact ih _ (Bank.store_wf c.bank p.1 p.2 h)

/-- A write of byte lanes keeps the canonical form of a core's banks. -/
theorem Core.writeLanes_wf (c : Core) (r : Req) (now : Stamp) (a : Nat) (lanes : List (Option Byte)) (h : Memory.wf c.bank.data = true) :
    Memory.wf (c.writeLanes r now a lanes).1.bank.data = true := by
  unfold Core.writeLanes
  simp only
  generalize ha : Bank.admitAll r _ c.bank = x
  have hx : x.1.data = c.bank.data := by rw [← ha]; exact Bank.admitAll_data _ _ _
  obtain ⟨b, o⟩ := x
  cases o with
  | wait w => exact (congrArg Memory.wf hx).trans h
  | fault k d => exact (congrArg Memory.wf hx).trans h
  | ok u =>
    simp only
    generalize hp : Bank.prepare r now _ b = y
    have hy : y.1.data = b.data := by rw [← hp]; exact Bank.prepare_data _ _ _ _
    obtain ⟨b1, o1⟩ := y
    have hb : Memory.wf b1.data = true := by rw [hy, hx]; exact h
    cases o1 with
    | ok ws => exact Core.storeWord_foldl_wf ws _ hb
    | wait w => exact hb
    | fault k d => exact hb

theorem Core.writeBytes_wf (c : Core) (r : Req) (now : Stamp) (a : Nat) (bs : List Byte) (h : Memory.wf c.bank.data = true) :
    Memory.wf (c.writeBytes r now a bs).1.bank.data = true :=
  Core.writeLanes_wf c r now a _ h

/-! ## Stacks -/

theorem Field.hbmWrite_wf (f : Field) (a : Nat) (bs : List Byte) (h : Memory.wf f.hbm = true) : Memory.wf (f.hbmWrite a bs).hbm = true :=
  Tab.wf_setRange 0 bs a f.hbm h

theorem Field.hbmWrite_other (f : Field) (a : Nat) (bs : List Byte) (x : Nat) (hx : x < a ∨ a + bs.length ≤ x) :
    Tab.get 0 (f.hbmWrite a bs).hbm x = Tab.get 0 f.hbm x :=
  Tab.get_setRange_other 0 bs a x hx f.hbm

theorem Field.hbmWrite_same (f : Field) (a : Nat) (bs : List Byte) : Tab.getRange 0 (f.hbmWrite a bs).hbm a bs.length = bs :=
  Tab.getRange_setRange 0 bs a f.hbm

theorem Field.setBit_wf (f : Field) (a i : Nat) (v : Bool) (h : Memory.wf f.hbm = true) : Memory.wf (f.setBit a i v).hbm = true :=
  Tab.wf_set 0 f.hbm _ _ h

theorem sliceTab_wf (t : Tab Byte) (a n : Nat) (h : Memory.wf t = true) : Memory.wf (sliceTab t a n) = true := by
  have hf := Tab.wf_filter 0 t (fun p => a ≤ p.1 && p.1 < a + n) h
  unfold Memory.wf at *
  rw [Tab.wf_iff] at hf ⊢
  refine ⟨?_, fun p hp => ?_⟩
  · refine List.pairwise_map.2 (hf.1.imp_of_mem (fun {x y} hx hy hlt => ?_))
    simp only [List.mem_filter, Bool.and_eq_true, decide_eq_true_eq] at hx
    show x.1 - a < y.1 - a
    omega
  · obtain ⟨q, hq, rfl⟩ := List.mem_map.1 hp
    exact hf.2 q hq

/-- Writing a range of the stack from a generation keeps the canonical form. -/
theorem pasteTab_wf (t src : Tab Byte) (a n : Nat) (h : Memory.wf t = true) (hs : Memory.wf src = true) : Memory.wf (pasteTab t a n src) = true := by
  unfold Memory.wf at *
  rw [Tab.wf_iff] at h hs ⊢
  refine ⟨?_, fun p hp => ?_⟩
  · unfold pasteTab
    refine List.pairwise_append.2 ⟨List.pairwise_append.2 ⟨h.1.filter _, List.pairwise_map.2 ((hs.1.filter _).imp (fun {x y} hlt => ?_)), ?_⟩, h.1.filter _, ?_⟩
    · show x.1 + a < y.1 + a
      omega
    · intro x hx y hy
      simp only [List.mem_filter, decide_eq_true_eq, List.mem_map] at hx hy
      obtain ⟨q, -, rfl⟩ := hy
      show x.1 < q.1 + a
      omega
    · intro x hx y hy
      simp only [List.mem_append, List.mem_filter, decide_eq_true_eq, List.mem_map] at hx hy
      rcases hx with hx | ⟨q, hq, rfl⟩
      · omega
      · show q.1 + a < y.1
        omega
  · simp only [pasteTab, List.mem_append, List.mem_filter, List.mem_map] at hp
    rcases hp with (hp | ⟨q, hq, rfl⟩) | hp
    · exact h.2 p hp.1
    · exact hs.2 q hq.1
    · exact h.2 p hp.1

/-! ## Reset -/

/-- Reset lists no byte of any memory. -/
theorem State.reset_memWf : State.reset.memWf = true := by rfl

end Sys2Proof.Machine
end

