-- ==== Sys2Proof/Laws/State.lean ====
section
/-! SUPPORT. What each shared update of the state leaves alone, field by field, and what reads back. -/

namespace Sys2Proof.Machine

open Sys2Proof

variable (s : State)

/-! ### setCore -/

@[simp] theorem State.setCore_fields (k : Nat) (c : Core) : (s.setCore k c).fields = s.fields := rfl
@[simp] theorem State.setCore_sites (k : Nat) (c : Core) : (s.setCore k c).sites = s.sites := rfl
@[simp] theorem State.setCore_tg (k : Nat) (c : Core) : (s.setCore k c).tg = s.tg := rfl
@[simp] theorem State.setCore_cols (k : Nat) (c : Core) : (s.setCore k c).cols = s.cols := rfl
@[simp] theorem State.setCore_arrivals (k : Nat) (c : Core) : (s.setCore k c).arrivals = s.arrivals := rfl
@[simp] theorem State.setCore_res (k : Nat) (c : Core) : (s.setCore k c).res = s.res := rfl
@[simp] theorem State.setCore_parts (k : Nat) (c : Core) : (s.setCore k c).parts = s.parts := rfl
@[simp] theorem State.setCore_fab (k : Nat) (c : Core) : (s.setCore k c).fab = s.fab := rfl
@[simp] theorem State.setCore_pwr (k : Nat) (c : Core) : (s.setCore k c).pwr = s.pwr := rfl
@[simp] theorem State.setCore_div (k : Nat) (c : Core) : (s.setCore k c).div = s.div := rfl
@[simp] theorem State.setCore_rck (k : Nat) (c : Core) : (s.setCore k c).rck = s.rck := rfl
@[simp] theorem State.setCore_host (k : Nat) (c : Core) : (s.setCore k c).host = s.host := rfl
@[simp] theorem State.setCore_fw (k : Nat) (c : Core) : (s.setCore k c).fw = s.fw := rfl
@[simp] theorem State.setCore_sec (k : Nat) (c : Core) : (s.setCore k c).sec = s.sec := rfl
@[simp] theorem State.setCore_mesh (k : Nat) (c : Core) : (s.setCore k c).mesh = s.mesh := rfl
@[simp] theorem State.setCore_out (k : Nat) (c : Core) : (s.setCore k c).out = s.out := rfl
@[simp] theorem State.setCore_freeCtr (k : Nat) (c : Core) : (s.setCore k c).freeCtr = s.freeCtr := rfl
@[simp] theorem State.setCore_pending (k : Nat) (c : Core) : (s.setCore k c).pending = s.pending := rfl

/-! ### setField -/

@[simp] theorem State.setField_cores (f : Nat) (x : Field) : (s.setField f x).cores = s.cores := rfl
@[simp] theorem State.setField_sites (f : Nat) (x : Field) : (s.setField f x).sites = s.sites := rfl
@[simp] theorem State.setField_tg (f : Nat) (x : Field) : (s.setField f x).tg = s.tg := rfl
@[simp] theorem State.setField_cols (f : Nat) (x : Field) : (s.setField f x).cols = s.cols := rfl
@[simp] theorem State.setField_arrivals (f : Nat) (x : Field) : (s.setField f x).arrivals = s.arrivals := rfl
@[simp] theorem State.setField_res (f : Nat) (x : Field) : (s.setField f x).res = s.res := rfl
@[simp] theorem State.setField_parts (f : Nat) (x : Field) : (s.setField f x).parts = s.parts := rfl
@[simp] theorem State.setField_fab (f : Nat) (x : Field) : (s.setField f x).fab = s.fab := rfl
@[simp] theorem State.setField_pwr (f : Nat) (x : Field) : (s.setField f x).pwr = s.pwr := rfl
@[simp] theorem State.setField_div (f : Nat) (x : Field) : (s.setField f x).div = s.div := rfl
@[simp] theorem State.setField_rck (f : Nat) (x : Field) : (s.setField f x).rck = s.rck := rfl
@[simp] theorem State.setField_host (f : Nat) (x : Field) : (s.setField f x).host = s.host := rfl
@[simp] theorem State.setField_fw (f : Nat) (x : Field) : (s.setField f x).fw = s.fw := rfl
@[simp] theorem State.setField_sec (f : Nat) (x : Field) : (s.setField f x).sec = s.sec := rfl
@[simp] theorem State.setField_mesh (f : Nat) (x : Field) : (s.setField f x).mesh = s.mesh := rfl
@[simp] theorem State.setField_out (f : Nat) (x : Field) : (s.setField f x).out = s.out := rfl
@[simp] theorem State.setField_freeCtr (f : Nat) (x : Field) : (s.setField f x).freeCtr = s.freeCtr := rfl
@[simp] theorem State.setField_pending (f : Nat) (x : Field) : (s.setField f x).pending = s.pending := rfl

/-! ### setPart -/

@[simp] theorem State.setPart_cores (p : Nat) (x : Part) : (s.setPart p x).cores = s.cores := rfl
@[simp] theorem State.setPart_fields (p : Nat) (x : Part) : (s.setPart p x).fields = s.fields := rfl
@[simp] theorem State.setPart_sites (p : Nat) (x : Part) : (s.setPart p x).sites = s.sites := rfl
@[simp] theorem State.setPart_tg (p : Nat) (x : Part) : (s.setPart p x).tg = s.tg := rfl
@[simp] theorem State.setPart_cols (p : Nat) (x : Part) : (s.setPart p x).cols = s.cols := rfl
@[simp] theorem State.setPart_arrivals (p : Nat) (x : Part) : (s.setPart p x).arrivals = s.arrivals := rfl
@[simp] theorem State.setPart_res (p : Nat) (x : Part) : (s.setPart p x).res = s.res := rfl
@[simp] theorem State.setPart_fab (p : Nat) (x : Part) : (s.setPart p x).fab = s.fab := rfl
@[simp] theorem State.setPart_pwr (p : Nat) (x : Part) : (s.setPart p x).pwr = s.pwr := rfl
@[simp] theorem State.setPart_div (p : Nat) (x : Part) : (s.setPart p x).div = s.div := rfl
@[simp] theorem State.setPart_rck (p : Nat) (x : Part) : (s.setPart p x).rck = s.rck := rfl
@[simp] theorem State.setPart_host (p : Nat) (x : Part) : (s.setPart p x).host = s.host := rfl
@[simp] theorem State.setPart_fw (p : Nat) (x : Part) : (s.setPart p x).fw = s.fw := rfl
@[simp] theorem State.setPart_sec (p : Nat) (x : Part) : (s.setPart p x).sec = s.sec := rfl
@[simp] theorem State.setPart_mesh (p : Nat) (x : Part) : (s.setPart p x).mesh = s.mesh := rfl
@[simp] theorem State.setPart_out (p : Nat) (x : Part) : (s.setPart p x).out = s.out := rfl
@[simp] theorem State.setPart_freeCtr (p : Nat) (x : Part) : (s.setPart p x).freeCtr = s.freeCtr := rfl
@[simp] theorem State.setPart_pending (p : Nat) (x : Part) : (s.setPart p x).pending = s.pending := rfl

/-! ### emit -/

@[simp] theorem State.emit_cores (o : List Output) : (s.emit o).cores = s.cores := rfl
@[simp] theorem State.emit_fields (o : List Output) : (s.emit o).fields = s.fields := rfl
@[simp] theorem State.emit_sites (o : List Output) : (s.emit o).sites = s.sites := rfl
@[simp] theorem State.emit_tg (o : List Output) : (s.emit o).tg = s.tg := rfl
@[simp] theorem State.emit_cols (o : List Output) : (s.emit o).cols = s.cols := rfl
@[simp] theorem State.emit_arrivals (o : List Output) : (s.emit o).arrivals = s.arrivals := rfl
@[simp] theorem State.emit_res (o : List Output) : (s.emit o).res = s.res := rfl
@[simp] theorem State.emit_parts (o : List Output) : (s.emit o).parts = s.parts := rfl
@[simp] theorem State.emit_fab (o : List Output) : (s.emit o).fab = s.fab := rfl
@[simp] theorem State.emit_pwr (o : List Output) : (s.emit o).pwr = s.pwr := rfl
@[simp] theorem State.emit_div (o : List Output) : (s.emit o).div = s.div := rfl
@[simp] theorem State.emit_rck (o : List Output) : (s.emit o).rck = s.rck := rfl
@[simp] theorem State.emit_host (o : List Output) : (s.emit o).host = s.host := rfl
@[simp] theorem State.emit_fw (o : List Output) : (s.emit o).fw = s.fw := rfl
@[simp] theorem State.emit_sec (o : List Output) : (s.emit o).sec = s.sec := rfl
@[simp] theorem State.emit_mesh (o : List Output) : (s.emit o).mesh = s.mesh := rfl
@[simp] theorem State.emit_freeCtr (o : List Output) : (s.emit o).freeCtr = s.freeCtr := rfl
@[simp] theorem State.emit_pending (o : List Output) : (s.emit o).pending = s.pending := rfl

/-! ### onBank -/

@[simp] theorem State.onBank_fields (k : Nat) (g : Bank → Bank) : (s.onBank k g).fields = s.fields := rfl
@[simp] theorem State.onBank_sites (k : Nat) (g : Bank → Bank) : (s.onBank k g).sites = s.sites := rfl
@[simp] theorem State.onBank_tg (k : Nat) (g : Bank → Bank) : (s.onBank k g).tg = s.tg := rfl
@[simp] theorem State.onBank_cols (k : Nat) (g : Bank → Bank) : (s.onBank k g).cols = s.cols := rfl
@[simp] theorem State.onBank_arrivals (k : Nat) (g : Bank → Bank) : (s.onBank k g).arrivals = s.arrivals := rfl
@[simp] theorem State.onBank_res (k : Nat) (g : Bank → Bank) : (s.onBank k g).res = s.res := rfl
@[simp] theorem State.onBank_parts (k : Nat) (g : Bank → Bank) : (s.onBank k g).parts = s.parts := rfl
@[simp] theorem State.onBank_fab (k : Nat) (g : Bank → Bank) : (s.onBank k g).fab = s.fab := rfl
@[simp] theorem State.onBank_pwr (k : Nat) (g : Bank → Bank) : (s.onBank k g).pwr = s.pwr := rfl
@[simp] theorem State.onBank_div (k : Nat) (g : Bank → Bank) : (s.onBank k g).div = s.div := rfl
@[simp] theorem State.onBank_rck (k : Nat) (g : Bank → Bank) : (s.onBank k g).rck = s.rck := rfl
@[simp] theorem State.onBank_host (k : Nat) (g : Bank → Bank) : (s.onBank k g).host = s.host := rfl
@[simp] theorem State.onBank_fw (k : Nat) (g : Bank → Bank) : (s.onBank k g).fw = s.fw := rfl
@[simp] theorem State.onBank_sec (k : Nat) (g : Bank → Bank) : (s.onBank k g).sec = s.sec := rfl
@[simp] theorem State.onBank_mesh (k : Nat) (g : Bank → Bank) : (s.onBank k g).mesh = s.mesh := rfl
@[simp] theorem State.onBank_out (k : Nat) (g : Bank → Bank) : (s.onBank k g).out = s.out := rfl
@[simp] theorem State.onBank_freeCtr (k : Nat) (g : Bank → Bank) : (s.onBank k g).freeCtr = s.freeCtr := rfl
@[simp] theorem State.onBank_pending (k : Nat) (g : Bank → Bank) : (s.onBank k g).pending = s.pending := rfl

/-! ### retire -/

@[simp] theorem State.retire_cores (k : Nat) : (s.retire k).cores = s.cores := rfl
@[simp] theorem State.retire_fields (k : Nat) : (s.retire k).fields = s.fields := rfl
@[simp] theorem State.retire_tg (k : Nat) : (s.retire k).tg = s.tg := rfl
@[simp] theorem State.retire_cols (k : Nat) : (s.retire k).cols = s.cols := rfl
@[simp] theorem State.retire_arrivals (k : Nat) : (s.retire k).arrivals = s.arrivals := rfl
@[simp] theorem State.retire_res (k : Nat) : (s.retire k).res = s.res := rfl
@[simp] theorem State.retire_parts (k : Nat) : (s.retire k).parts = s.parts := rfl
@[simp] theorem State.retire_fab (k : Nat) : (s.retire k).fab = s.fab := rfl
@[simp] theorem State.retire_pwr (k : Nat) : (s.retire k).pwr = s.pwr := rfl
@[simp] theorem State.retire_div (k : Nat) : (s.retire k).div = s.div := rfl
@[simp] theorem State.retire_rck (k : Nat) : (s.retire k).rck = s.rck := rfl
@[simp] theorem State.retire_host (k : Nat) : (s.retire k).host = s.host := rfl
@[simp] theorem State.retire_fw (k : Nat) : (s.retire k).fw = s.fw := rfl
@[simp] theorem State.retire_sec (k : Nat) : (s.retire k).sec = s.sec := rfl
@[simp] theorem State.retire_mesh (k : Nat) : (s.retire k).mesh = s.mesh := rfl
@[simp] theorem State.retire_out (k : Nat) : (s.retire k).out = s.out := rfl
@[simp] theorem State.retire_freeCtr (k : Nat) : (s.retire k).freeCtr = s.freeCtr := rfl
@[simp] theorem State.retire_pending (k : Nat) : (s.retire k).pending = s.pending := rfl

/-! ### withCore -/

@[simp] theorem State.withCore_fields (k : Nat) (g : Core → Core) : (s.withCore k g).fields = s.fields := rfl
@[simp] theorem State.withCore_sites (k : Nat) (g : Core → Core) : (s.withCore k g).sites = s.sites := rfl
@[simp] theorem State.withCore_tg (k : Nat) (g : Core → Core) : (s.withCore k g).tg = s.tg := rfl
@[simp] theorem State.withCore_cols (k : Nat) (g : Core → Core) : (s.withCore k g).cols = s.cols := rfl
@[simp] theorem State.withCore_arrivals (k : Nat) (g : Core → Core) : (s.withCore k g).arrivals = s.arrivals := rfl
@[simp] theorem State.withCore_res (k : Nat) (g : Core → Core) : (s.withCore k g).res = s.res := rfl
@[simp] theorem State.withCore_parts (k : Nat) (g : Core → Core) : (s.withCore k g).parts = s.parts := rfl
@[simp] theorem State.withCore_fab (k : Nat) (g : Core → Core) : (s.withCore k g).fab = s.fab := rfl
@[simp] theorem State.withCore_pwr (k : Nat) (g : Core → Core) : (s.withCore k g).pwr = s.pwr := rfl
@[simp] theorem State.withCore_div (k : Nat) (g : Core → Core) : (s.withCore k g).div = s.div := rfl
@[simp] theorem State.withCore_rck (k : Nat) (g : Core → Core) : (s.withCore k g).rck = s.rck := rfl
@[simp] theorem State.withCore_host (k : Nat) (g : Core → Core) : (s.withCore k g).host = s.host := rfl
@[simp] theorem State.withCore_fw (k : Nat) (g : Core → Core) : (s.withCore k g).fw = s.fw := rfl
@[simp] theorem State.withCore_sec (k : Nat) (g : Core → Core) : (s.withCore k g).sec = s.sec := rfl
@[simp] theorem State.withCore_mesh (k : Nat) (g : Core → Core) : (s.withCore k g).mesh = s.mesh := rfl
@[simp] theorem State.withCore_out (k : Nat) (g : Core → Core) : (s.withCore k g).out = s.out := rfl
@[simp] theorem State.withCore_freeCtr (k : Nat) (g : Core → Core) : (s.withCore k g).freeCtr = s.freeCtr := rfl
@[simp] theorem State.withCore_pending (k : Nat) (g : Core → Core) : (s.withCore k g).pending = s.pending := rfl

/-! ### withField -/

@[simp] theorem State.withField_cores (f : Nat) (g : Field → Field) : (s.withField f g).cores = s.cores := rfl
@[simp] theorem State.withField_sites (f : Nat) (g : Field → Field) : (s.withField f g).sites = s.sites := rfl
@[simp] theorem State.withField_tg (f : Nat) (g : Field → Field) : (s.withField f g).tg = s.tg := rfl
@[simp] theorem State.withField_cols (f : Nat) (g : Field → Field) : (s.withField f g).cols = s.cols := rfl
@[simp] theorem State.withField_arrivals (f : Nat) (g : Field → Field) : (s.withField f g).arrivals = s.arrivals := rfl
@[simp] theorem State.withField_res (f : Nat) (g : Field → Field) : (s.withField f g).res = s.res := rfl
@[simp] theorem State.withField_parts (f : Nat) (g : Field → Field) : (s.withField f g).parts = s.parts := rfl
@[simp] theorem State.withField_fab (f : Nat) (g : Field → Field) : (s.withField f g).fab = s.fab := rfl
@[simp] theorem State.withField_pwr (f : Nat) (g : Field → Field) : (s.withField f g).pwr = s.pwr := rfl
@[simp] theorem State.withField_div (f : Nat) (g : Field → Field) : (s.withField f g).div = s.div := rfl
@[simp] theorem State.withField_rck (f : Nat) (g : Field → Field) : (s.withField f g).rck = s.rck := rfl
@[simp] theorem State.withField_host (f : Nat) (g : Field → Field) : (s.withField f g).host = s.host := rfl
@[simp] theorem State.withField_fw (f : Nat) (g : Field → Field) : (s.withField f g).fw = s.fw := rfl
@[simp] theorem State.withField_sec (f : Nat) (g : Field → Field) : (s.withField f g).sec = s.sec := rfl
@[simp] theorem State.withField_mesh (f : Nat) (g : Field → Field) : (s.withField f g).mesh = s.mesh := rfl
@[simp] theorem State.withField_out (f : Nat) (g : Field → Field) : (s.withField f g).out = s.out := rfl
@[simp] theorem State.withField_freeCtr (f : Nat) (g : Field → Field) : (s.withField f g).freeCtr = s.freeCtr := rfl
@[simp] theorem State.withField_pending (f : Nat) (g : Field → Field) : (s.withField f g).pending = s.pending := rfl

/-! ### withTer -/

@[simp] theorem State.withTer_cores (t : Nat) (g : Ter → Ter) : (s.withTer t g).cores = s.cores := rfl
@[simp] theorem State.withTer_sites (t : Nat) (g : Ter → Ter) : (s.withTer t g).sites = s.sites := rfl
@[simp] theorem State.withTer_tg (t : Nat) (g : Ter → Ter) : (s.withTer t g).tg = s.tg := rfl
@[simp] theorem State.withTer_cols (t : Nat) (g : Ter → Ter) : (s.withTer t g).cols = s.cols := rfl
@[simp] theorem State.withTer_arrivals (t : Nat) (g : Ter → Ter) : (s.withTer t g).arrivals = s.arrivals := rfl
@[simp] theorem State.withTer_res (t : Nat) (g : Ter → Ter) : (s.withTer t g).res = s.res := rfl
@[simp] theorem State.withTer_parts (t : Nat) (g : Ter → Ter) : (s.withTer t g).parts = s.parts := rfl
@[simp] theorem State.withTer_fab (t : Nat) (g : Ter → Ter) : (s.withTer t g).fab = s.fab := rfl
@[simp] theorem State.withTer_pwr (t : Nat) (g : Ter → Ter) : (s.withTer t g).pwr = s.pwr := rfl
@[simp] theorem State.withTer_div (t : Nat) (g : Ter → Ter) : (s.withTer t g).div = s.div := rfl
@[simp] theorem State.withTer_rck (t : Nat) (g : Ter → Ter) : (s.withTer t g).rck = s.rck := rfl
@[simp] theorem State.withTer_host (t : Nat) (g : Ter → Ter) : (s.withTer t g).host = s.host := rfl
@[simp] theorem State.withTer_fw (t : Nat) (g : Ter → Ter) : (s.withTer t g).fw = s.fw := rfl
@[simp] theorem State.withTer_sec (t : Nat) (g : Ter → Ter) : (s.withTer t g).sec = s.sec := rfl
@[simp] theorem State.withTer_mesh (t : Nat) (g : Ter → Ter) : (s.withTer t g).mesh = s.mesh := rfl
@[simp] theorem State.withTer_out (t : Nat) (g : Ter → Ter) : (s.withTer t g).out = s.out := rfl
@[simp] theorem State.withTer_freeCtr (t : Nat) (g : Ter → Ter) : (s.withTer t g).freeCtr = s.freeCtr := rfl
@[simp] theorem State.withTer_pending (t : Nat) (g : Ter → Ter) : (s.withTer t g).pending = s.pending := rfl

/-! ### withPart -/

@[simp] theorem State.withPart_cores (p : PartIx) (g : Part → Part) : (s.withPart p g).cores = s.cores := rfl
@[simp] theorem State.withPart_fields (p : PartIx) (g : Part → Part) : (s.withPart p g).fields = s.fields := rfl
@[simp] theorem State.withPart_sites (p : PartIx) (g : Part → Part) : (s.withPart p g).sites = s.sites := rfl
@[simp] theorem State.withPart_tg (p : PartIx) (g : Part → Part) : (s.withPart p g).tg = s.tg := rfl
@[simp] theorem State.withPart_cols (p : PartIx) (g : Part → Part) : (s.withPart p g).cols = s.cols := rfl
@[simp] theorem State.withPart_arrivals (p : PartIx) (g : Part → Part) : (s.withPart p g).arrivals = s.arrivals := rfl
@[simp] theorem State.withPart_res (p : PartIx) (g : Part → Part) : (s.withPart p g).res = s.res := rfl
@[simp] theorem State.withPart_fab (p : PartIx) (g : Part → Part) : (s.withPart p g).fab = s.fab := rfl
@[simp] theorem State.withPart_pwr (p : PartIx) (g : Part → Part) : (s.withPart p g).pwr = s.pwr := rfl
@[simp] theorem State.withPart_div (p : PartIx) (g : Part → Part) : (s.withPart p g).div = s.div := rfl
@[simp] theorem State.withPart_rck (p : PartIx) (g : Part → Part) : (s.withPart p g).rck = s.rck := rfl
@[simp] theorem State.withPart_host (p : PartIx) (g : Part → Part) : (s.withPart p g).host = s.host := rfl
@[simp] theorem State.withPart_fw (p : PartIx) (g : Part → Part) : (s.withPart p g).fw = s.fw := rfl
@[simp] theorem State.withPart_sec (p : PartIx) (g : Part → Part) : (s.withPart p g).sec = s.sec := rfl
@[simp] theorem State.withPart_mesh (p : PartIx) (g : Part → Part) : (s.withPart p g).mesh = s.mesh := rfl
@[simp] theorem State.withPart_out (p : PartIx) (g : Part → Part) : (s.withPart p g).out = s.out := rfl
@[simp] theorem State.withPart_freeCtr (p : PartIx) (g : Part → Part) : (s.withPart p g).freeCtr = s.freeCtr := rfl
@[simp] theorem State.withPart_pending (p : PartIx) (g : Part → Part) : (s.withPart p g).pending = s.pending := rfl

/-! ### withPort -/

@[simp] theorem State.withPort_cores (p : PortIx) (g : FabPort → FabPort) : (s.withPort p g).cores = s.cores := rfl
@[simp] theorem State.withPort_fields (p : PortIx) (g : FabPort → FabPort) : (s.withPort p g).fields = s.fields := rfl
@[simp] theorem State.withPort_sites (p : PortIx) (g : FabPort → FabPort) : (s.withPort p g).sites = s.sites := rfl
@[simp] theorem State.withPort_tg (p : PortIx) (g : FabPort → FabPort) : (s.withPort p g).tg = s.tg := rfl
@[simp] theorem State.withPort_cols (p : PortIx) (g : FabPort → FabPort) : (s.withPort p g).cols = s.cols := rfl
@[simp] theorem State.withPort_arrivals (p : PortIx) (g : FabPort → FabPort) : (s.withPort p g).arrivals = s.arrivals := rfl
@[simp] theorem State.withPort_res (p : PortIx) (g : FabPort → FabPort) : (s.withPort p g).res = s.res := rfl
@[simp] theorem State.withPort_parts (p : PortIx) (g : FabPort → FabPort) : (s.withPort p g).parts = s.parts := rfl
@[simp] theorem State.withPort_pwr (p : PortIx) (g : FabPort → FabPort) : (s.withPort p g).pwr = s.pwr := rfl
@[simp] theorem State.withPort_div (p : PortIx) (g : FabPort → FabPort) : (s.withPort p g).div = s.div := rfl
@[simp] theorem State.withPort_rck (p : PortIx) (g : FabPort → FabPort) : (s.withPort p g).rck = s.rck := rfl
@[simp] theorem State.withPort_host (p : PortIx) (g : FabPort → FabPort) : (s.withPort p g).host = s.host := rfl
@[simp] theorem State.withPort_fw (p : PortIx) (g : FabPort → FabPort) : (s.withPort p g).fw = s.fw := rfl
@[simp] theorem State.withPort_sec (p : PortIx) (g : FabPort → FabPort) : (s.withPort p g).sec = s.sec := rfl
@[simp] theorem State.withPort_mesh (p : PortIx) (g : FabPort → FabPort) : (s.withPort p g).mesh = s.mesh := rfl
@[simp] theorem State.withPort_out (p : PortIx) (g : FabPort → FabPort) : (s.withPort p g).out = s.out := rfl
@[simp] theorem State.withPort_freeCtr (p : PortIx) (g : FabPort → FabPort) : (s.withPort p g).freeCtr = s.freeCtr := rfl
@[simp] theorem State.withPort_pending (p : PortIx) (g : FabPort → FabPort) : (s.withPort p g).pending = s.pending := rfl

/-! ### updField -/

@[simp] theorem State.updField_cores (f : Nat) (g : Field → Field) : (s.updField f g).cores = s.cores := rfl
@[simp] theorem State.updField_sites (f : Nat) (g : Field → Field) : (s.updField f g).sites = s.sites := rfl
@[simp] theorem State.updField_tg (f : Nat) (g : Field → Field) : (s.updField f g).tg = s.tg := rfl
@[simp] theorem State.updField_cols (f : Nat) (g : Field → Field) : (s.updField f g).cols = s.cols := rfl
@[simp] theorem State.updField_arrivals (f : Nat) (g : Field → Field) : (s.updField f g).arrivals = s.arrivals := rfl
@[simp] theorem State.updField_res (f : Nat) (g : Field → Field) : (s.updField f g).res = s.res := rfl
@[simp] theorem State.updField_parts (f : Nat) (g : Field → Field) : (s.updField f g).parts = s.parts := rfl
@[simp] theorem State.updField_fab (f : Nat) (g : Field → Field) : (s.updField f g).fab = s.fab := rfl
@[simp] theorem State.updField_pwr (f : Nat) (g : Field → Field) : (s.updField f g).pwr = s.pwr := rfl
@[simp] theorem State.updField_div (f : Nat) (g : Field → Field) : (s.updField f g).div = s.div := rfl
@[simp] theorem State.updField_rck (f : Nat) (g : Field → Field) : (s.updField f g).rck = s.rck := rfl
@[simp] theorem State.updField_host (f : Nat) (g : Field → Field) : (s.updField f g).host = s.host := rfl
@[simp] theorem State.updField_fw (f : Nat) (g : Field → Field) : (s.updField f g).fw = s.fw := rfl
@[simp] theorem State.updField_sec (f : Nat) (g : Field → Field) : (s.updField f g).sec = s.sec := rfl
@[simp] theorem State.updField_mesh (f : Nat) (g : Field → Field) : (s.updField f g).mesh = s.mesh := rfl
@[simp] theorem State.updField_out (f : Nat) (g : Field → Field) : (s.updField f g).out = s.out := rfl
@[simp] theorem State.updField_freeCtr (f : Nat) (g : Field → Field) : (s.updField f g).freeCtr = s.freeCtr := rfl
@[simp] theorem State.updField_pending (f : Nat) (g : Field → Field) : (s.updField f g).pending = s.pending := rfl

/-! ### updFields -/

@[simp] theorem State.updFields_cores (fs : List Nat) (g : Nat → Field → Field) : (s.updFields fs g).cores = s.cores := rfl
@[simp] theorem State.updFields_sites (fs : List Nat) (g : Nat → Field → Field) : (s.updFields fs g).sites = s.sites := rfl
@[simp] theorem State.updFields_tg (fs : List Nat) (g : Nat → Field → Field) : (s.updFields fs g).tg = s.tg := rfl
@[simp] theorem State.updFields_cols (fs : List Nat) (g : Nat → Field → Field) : (s.updFields fs g).cols = s.cols := rfl
@[simp] theorem State.updFields_arrivals (fs : List Nat) (g : Nat → Field → Field) : (s.updFields fs g).arrivals = s.arrivals := rfl
@[simp] theorem State.updFields_res (fs : List Nat) (g : Nat → Field → Field) : (s.updFields fs g).res = s.res := rfl
@[simp] theorem State.updFields_parts (fs : List Nat) (g : Nat → Field → Field) : (s.updFields fs g).parts = s.parts := rfl
@[simp] theorem State.updFields_fab (fs : List Nat) (g : Nat → Field → Field) : (s.updFields fs g).fab = s.fab := rfl
@[simp] theorem State.updFields_pwr (fs : List Nat) (g : Nat → Field → Field) : (s.updFields fs g).pwr = s.pwr := rfl
@[simp] theorem State.updFields_div (fs : List Nat) (g : Nat → Field → Field) : (s.updFields fs g).div = s.div := rfl
@[simp] theorem State.updFields_rck (fs : List Nat) (g : Nat → Field → Field) : (s.updFields fs g).rck = s.rck := rfl
@[simp] theorem State.updFields_host (fs : List Nat) (g : Nat → Field → Field) : (s.updFields fs g).host = s.host := rfl
@[simp] theorem State.updFields_fw (fs : List Nat) (g : Nat → Field → Field) : (s.updFields fs g).fw = s.fw := rfl
@[simp] theorem State.updFields_sec (fs : List Nat) (g : Nat → Field → Field) : (s.updFields fs g).sec = s.sec := rfl
@[simp] theorem State.updFields_mesh (fs : List Nat) (g : Nat → Field → Field) : (s.updFields fs g).mesh = s.mesh := rfl
@[simp] theorem State.updFields_out (fs : List Nat) (g : Nat → Field → Field) : (s.updFields fs g).out = s.out := rfl
@[simp] theorem State.updFields_freeCtr (fs : List Nat) (g : Nat → Field → Field) : (s.updFields fs g).freeCtr = s.freeCtr := rfl
@[simp] theorem State.updFields_pending (fs : List Nat) (g : Nat → Field → Field) : (s.updFields fs g).pending = s.pending := rfl

/-! ### updCores -/

@[simp] theorem State.updCores_fields (ks : List Nat) (g : Nat → Core → Core) : (s.updCores ks g).fields = s.fields := rfl
@[simp] theorem State.updCores_sites (ks : List Nat) (g : Nat → Core → Core) : (s.updCores ks g).sites = s.sites := rfl
@[simp] theorem State.updCores_tg (ks : List Nat) (g : Nat → Core → Core) : (s.updCores ks g).tg = s.tg := rfl
@[simp] theorem State.updCores_cols (ks : List Nat) (g : Nat → Core → Core) : (s.updCores ks g).cols = s.cols := rfl
@[simp] theorem State.updCores_arrivals (ks : List Nat) (g : Nat → Core → Core) : (s.updCores ks g).arrivals = s.arrivals := rfl
@[simp] theorem State.updCores_res (ks : List Nat) (g : Nat → Core → Core) : (s.updCores ks g).res = s.res := rfl
@[simp] theorem State.updCores_parts (ks : List Nat) (g : Nat → Core → Core) : (s.updCores ks g).parts = s.parts := rfl
@[simp] theorem State.updCores_fab (ks : List Nat) (g : Nat → Core → Core) : (s.updCores ks g).fab = s.fab := rfl
@[simp] theorem State.updCores_pwr (ks : List Nat) (g : Nat → Core → Core) : (s.updCores ks g).pwr = s.pwr := rfl
@[simp] theorem State.updCores_div (ks : List Nat) (g : Nat → Core → Core) : (s.updCores ks g).div = s.div := rfl
@[simp] theorem State.updCores_rck (ks : List Nat) (g : Nat → Core → Core) : (s.updCores ks g).rck = s.rck := rfl
@[simp] theorem State.updCores_host (ks : List Nat) (g : Nat → Core → Core) : (s.updCores ks g).host = s.host := rfl
@[simp] theorem State.updCores_fw (ks : List Nat) (g : Nat → Core → Core) : (s.updCores ks g).fw = s.fw := rfl
@[simp] theorem State.updCores_sec (ks : List Nat) (g : Nat → Core → Core) : (s.updCores ks g).sec = s.sec := rfl
@[simp] theorem State.updCores_mesh (ks : List Nat) (g : Nat → Core → Core) : (s.updCores ks g).mesh = s.mesh := rfl
@[simp] theorem State.updCores_out (ks : List Nat) (g : Nat → Core → Core) : (s.updCores ks g).out = s.out := rfl
@[simp] theorem State.updCores_freeCtr (ks : List Nat) (g : Nat → Core → Core) : (s.updCores ks g).freeCtr = s.freeCtr := rfl
@[simp] theorem State.updCores_pending (ks : List Nat) (g : Nat → Core → Core) : (s.updCores ks g).pending = s.pending := rfl

/-! ### mapCores -/

@[simp] theorem State.mapCores_fields (p : Nat → Bool) (g : Core → Core) : (s.mapCores p g).fields = s.fields := rfl
@[simp] theorem State.mapCores_sites (p : Nat → Bool) (g : Core → Core) : (s.mapCores p g).sites = s.sites := rfl
@[simp] theorem State.mapCores_tg (p : Nat → Bool) (g : Core → Core) : (s.mapCores p g).tg = s.tg := rfl
@[simp] theorem State.mapCores_cols (p : Nat → Bool) (g : Core → Core) : (s.mapCores p g).cols = s.cols := rfl
@[simp] theorem State.mapCores_arrivals (p : Nat → Bool) (g : Core → Core) : (s.mapCores p g).arrivals = s.arrivals := rfl
@[simp] theorem State.mapCores_res (p : Nat → Bool) (g : Core → Core) : (s.mapCores p g).res = s.res := rfl
@[simp] theorem State.mapCores_parts (p : Nat → Bool) (g : Core → Core) : (s.mapCores p g).parts = s.parts := rfl
@[simp] theorem State.mapCores_fab (p : Nat → Bool) (g : Core → Core) : (s.mapCores p g).fab = s.fab := rfl
@[simp] theorem State.mapCores_pwr (p : Nat → Bool) (g : Core → Core) : (s.mapCores p g).pwr = s.pwr := rfl
@[simp] theorem State.mapCores_div (p : Nat → Bool) (g : Core → Core) : (s.mapCores p g).div = s.div := rfl
@[simp] theorem State.mapCores_rck (p : Nat → Bool) (g : Core → Core) : (s.mapCores p g).rck = s.rck := rfl
@[simp] theorem State.mapCores_host (p : Nat → Bool) (g : Core → Core) : (s.mapCores p g).host = s.host := rfl
@[simp] theorem State.mapCores_fw (p : Nat → Bool) (g : Core → Core) : (s.mapCores p g).fw = s.fw := rfl
@[simp] theorem State.mapCores_sec (p : Nat → Bool) (g : Core → Core) : (s.mapCores p g).sec = s.sec := rfl
@[simp] theorem State.mapCores_mesh (p : Nat → Bool) (g : Core → Core) : (s.mapCores p g).mesh = s.mesh := rfl
@[simp] theorem State.mapCores_out (p : Nat → Bool) (g : Core → Core) : (s.mapCores p g).out = s.out := rfl
@[simp] theorem State.mapCores_freeCtr (p : Nat → Bool) (g : Core → Core) : (s.mapCores p g).freeCtr = s.freeCtr := rfl
@[simp] theorem State.mapCores_pending (p : Nat → Bool) (g : Core → Core) : (s.mapCores p g).pending = s.pending := rfl

/-! ### updPart -/

@[simp] theorem State.updPart_cores (p : Nat) (g : Part → Part) : (s.updPart p g).cores = s.cores := rfl
@[simp] theorem State.updPart_fields (p : Nat) (g : Part → Part) : (s.updPart p g).fields = s.fields := rfl
@[simp] theorem State.updPart_sites (p : Nat) (g : Part → Part) : (s.updPart p g).sites = s.sites := rfl
@[simp] theorem State.updPart_tg (p : Nat) (g : Part → Part) : (s.updPart p g).tg = s.tg := rfl
@[simp] theorem State.updPart_cols (p : Nat) (g : Part → Part) : (s.updPart p g).cols = s.cols := rfl
@[simp] theorem State.updPart_arrivals (p : Nat) (g : Part → Part) : (s.updPart p g).arrivals = s.arrivals := rfl
@[simp] theorem State.updPart_res (p : Nat) (g : Part → Part) : (s.updPart p g).res = s.res := rfl
@[simp] theorem State.updPart_fab (p : Nat) (g : Part → Part) : (s.updPart p g).fab = s.fab := rfl
@[simp] theorem State.updPart_pwr (p : Nat) (g : Part → Part) : (s.updPart p g).pwr = s.pwr := rfl
@[simp] theorem State.updPart_div (p : Nat) (g : Part → Part) : (s.updPart p g).div = s.div := rfl
@[simp] theorem State.updPart_rck (p : Nat) (g : Part → Part) : (s.updPart p g).rck = s.rck := rfl
@[simp] theorem State.updPart_host (p : Nat) (g : Part → Part) : (s.updPart p g).host = s.host := rfl
@[simp] theorem State.updPart_fw (p : Nat) (g : Part → Part) : (s.updPart p g).fw = s.fw := rfl
@[simp] theorem State.updPart_sec (p : Nat) (g : Part → Part) : (s.updPart p g).sec = s.sec := rfl
@[simp] theorem State.updPart_mesh (p : Nat) (g : Part → Part) : (s.updPart p g).mesh = s.mesh := rfl
@[simp] theorem State.updPart_out (p : Nat) (g : Part → Part) : (s.updPart p g).out = s.out := rfl
@[simp] theorem State.updPart_freeCtr (p : Nat) (g : Part → Part) : (s.updPart p g).freeCtr = s.freeCtr := rfl
@[simp] theorem State.updPart_pending (p : Nat) (g : Part → Part) : (s.updPart p g).pending = s.pending := rfl

/-! ### updPort -/

@[simp] theorem State.updPort_cores (p : Nat) (g : FabPort → FabPort) : (s.updPort p g).cores = s.cores := rfl
@[simp] theorem State.updPort_fields (p : Nat) (g : FabPort → FabPort) : (s.updPort p g).fields = s.fields := rfl
@[simp] theorem State.updPort_sites (p : Nat) (g : FabPort → FabPort) : (s.updPort p g).sites = s.sites := rfl
@[simp] theorem State.updPort_tg (p : Nat) (g : FabPort → FabPort) : (s.updPort p g).tg = s.tg := rfl
@[simp] theorem State.updPort_cols (p : Nat) (g : FabPort → FabPort) : (s.updPort p g).cols = s.cols := rfl
@[simp] theorem State.updPort_arrivals (p : Nat) (g : FabPort → FabPort) : (s.updPort p g).arrivals = s.arrivals := rfl
@[simp] theorem State.updPort_res (p : Nat) (g : FabPort → FabPort) : (s.updPort p g).res = s.res := rfl
@[simp] theorem State.updPort_parts (p : Nat) (g : FabPort → FabPort) : (s.updPort p g).parts = s.parts := rfl
@[simp] theorem State.updPort_pwr (p : Nat) (g : FabPort → FabPort) : (s.updPort p g).pwr = s.pwr := rfl
@[simp] theorem State.updPort_div (p : Nat) (g : FabPort → FabPort) : (s.updPort p g).div = s.div := rfl
@[simp] theorem State.updPort_rck (p : Nat) (g : FabPort → FabPort) : (s.updPort p g).rck = s.rck := rfl
@[simp] theorem State.updPort_host (p : Nat) (g : FabPort → FabPort) : (s.updPort p g).host = s.host := rfl
@[simp] theorem State.updPort_fw (p : Nat) (g : FabPort → FabPort) : (s.updPort p g).fw = s.fw := rfl
@[simp] theorem State.updPort_sec (p : Nat) (g : FabPort → FabPort) : (s.updPort p g).sec = s.sec := rfl
@[simp] theorem State.updPort_mesh (p : Nat) (g : FabPort → FabPort) : (s.updPort p g).mesh = s.mesh := rfl
@[simp] theorem State.updPort_out (p : Nat) (g : FabPort → FabPort) : (s.updPort p g).out = s.out := rfl
@[simp] theorem State.updPort_freeCtr (p : Nat) (g : FabPort → FabPort) : (s.updPort p g).freeCtr = s.freeCtr := rfl
@[simp] theorem State.updPort_pending (p : Nat) (g : FabPort → FabPort) : (s.updPort p g).pending = s.pending := rfl

/-! ### setRing -/

@[simp] theorem State.setRing_cores (p : Nat) (r : Ring) : (s.setRing p r).cores = s.cores := rfl
@[simp] theorem State.setRing_fields (p : Nat) (r : Ring) : (s.setRing p r).fields = s.fields := rfl
@[simp] theorem State.setRing_sites (p : Nat) (r : Ring) : (s.setRing p r).sites = s.sites := rfl
@[simp] theorem State.setRing_tg (p : Nat) (r : Ring) : (s.setRing p r).tg = s.tg := rfl
@[simp] theorem State.setRing_cols (p : Nat) (r : Ring) : (s.setRing p r).cols = s.cols := rfl
@[simp] theorem State.setRing_arrivals (p : Nat) (r : Ring) : (s.setRing p r).arrivals = s.arrivals := rfl
@[simp] theorem State.setRing_res (p : Nat) (r : Ring) : (s.setRing p r).res = s.res := rfl
@[simp] theorem State.setRing_parts (p : Nat) (r : Ring) : (s.setRing p r).parts = s.parts := rfl
@[simp] theorem State.setRing_fab (p : Nat) (r : Ring) : (s.setRing p r).fab = s.fab := rfl
@[simp] theorem State.setRing_pwr (p : Nat) (r : Ring) : (s.setRing p r).pwr = s.pwr := rfl
@[simp] theorem State.setRing_div (p : Nat) (r : Ring) : (s.setRing p r).div = s.div := rfl
@[simp] theorem State.setRing_rck (p : Nat) (r : Ring) : (s.setRing p r).rck = s.rck := rfl
@[simp] theorem State.setRing_fw (p : Nat) (r : Ring) : (s.setRing p r).fw = s.fw := rfl
@[simp] theorem State.setRing_sec (p : Nat) (r : Ring) : (s.setRing p r).sec = s.sec := rfl
@[simp] theorem State.setRing_mesh (p : Nat) (r : Ring) : (s.setRing p r).mesh = s.mesh := rfl
@[simp] theorem State.setRing_out (p : Nat) (r : Ring) : (s.setRing p r).out = s.out := rfl
@[simp] theorem State.setRing_freeCtr (p : Nat) (r : Ring) : (s.setRing p r).freeCtr = s.freeCtr := rfl
@[simp] theorem State.setRing_pending (p : Nat) (r : Ring) : (s.setRing p r).pending = s.pending := rfl

/-! ### portReset -/

@[simp] theorem State.portReset_cores (p : Nat) : (s.portReset p).cores = s.cores := rfl
@[simp] theorem State.portReset_fields (p : Nat) : (s.portReset p).fields = s.fields := rfl
@[simp] theorem State.portReset_sites (p : Nat) : (s.portReset p).sites = s.sites := rfl
@[simp] theorem State.portReset_tg (p : Nat) : (s.portReset p).tg = s.tg := rfl
@[simp] theorem State.portReset_cols (p : Nat) : (s.portReset p).cols = s.cols := rfl
@[simp] theorem State.portReset_arrivals (p : Nat) : (s.portReset p).arrivals = s.arrivals := rfl
@[simp] theorem State.portReset_res (p : Nat) : (s.portReset p).res = s.res := rfl
@[simp] theorem State.portReset_parts (p : Nat) : (s.portReset p).parts = s.parts := rfl
@[simp] theorem State.portReset_fab (p : Nat) : (s.portReset p).fab = s.fab := rfl
@[simp] theorem State.portReset_pwr (p : Nat) : (s.portReset p).pwr = s.pwr := rfl
@[simp] theorem State.portReset_div (p : Nat) : (s.portReset p).div = s.div := rfl
@[simp] theorem State.portReset_rck (p : Nat) : (s.portReset p).rck = s.rck := rfl
@[simp] theorem State.portReset_fw (p : Nat) : (s.portReset p).fw = s.fw := rfl
@[simp] theorem State.portReset_sec (p : Nat) : (s.portReset p).sec = s.sec := rfl
@[simp] theorem State.portReset_mesh (p : Nat) : (s.portReset p).mesh = s.mesh := rfl
@[simp] theorem State.portReset_out (p : Nat) : (s.portReset p).out = s.out := rfl
@[simp] theorem State.portReset_freeCtr (p : Nat) : (s.portReset p).freeCtr = s.freeCtr := rfl
@[simp] theorem State.portReset_pending (p : Nat) : (s.portReset p).pending = s.pending := rfl

/-! ### report -/

@[simp] theorem State.report_cores (rs : List FaultReport) : (s.report rs).cores = s.cores := rfl
@[simp] theorem State.report_fields (rs : List FaultReport) : (s.report rs).fields = s.fields := rfl
@[simp] theorem State.report_sites (rs : List FaultReport) : (s.report rs).sites = s.sites := rfl
@[simp] theorem State.report_tg (rs : List FaultReport) : (s.report rs).tg = s.tg := rfl
@[simp] theorem State.report_cols (rs : List FaultReport) : (s.report rs).cols = s.cols := rfl
@[simp] theorem State.report_arrivals (rs : List FaultReport) : (s.report rs).arrivals = s.arrivals := rfl
@[simp] theorem State.report_res (rs : List FaultReport) : (s.report rs).res = s.res := rfl
@[simp] theorem State.report_parts (rs : List FaultReport) : (s.report rs).parts = s.parts := rfl
@[simp] theorem State.report_fab (rs : List FaultReport) : (s.report rs).fab = s.fab := rfl
@[simp] theorem State.report_pwr (rs : List FaultReport) : (s.report rs).pwr = s.pwr := rfl
@[simp] theorem State.report_div (rs : List FaultReport) : (s.report rs).div = s.div := rfl
@[simp] theorem State.report_rck (rs : List FaultReport) : (s.report rs).rck = s.rck := rfl
@[simp] theorem State.report_host (rs : List FaultReport) : (s.report rs).host = s.host := rfl
@[simp] theorem State.report_sec (rs : List FaultReport) : (s.report rs).sec = s.sec := rfl
@[simp] theorem State.report_mesh (rs : List FaultReport) : (s.report rs).mesh = s.mesh := rfl
@[simp] theorem State.report_out (rs : List FaultReport) : (s.report rs).out = s.out := rfl
@[simp] theorem State.report_freeCtr (rs : List FaultReport) : (s.report rs).freeCtr = s.freeCtr := rfl
@[simp] theorem State.report_pending (rs : List FaultReport) : (s.report rs).pending = s.pending := rfl

/-! ### alarm -/

@[simp] theorem State.alarm_cores (b : Nat) : (s.alarm b).cores = s.cores := rfl
@[simp] theorem State.alarm_fields (b : Nat) : (s.alarm b).fields = s.fields := rfl
@[simp] theorem State.alarm_sites (b : Nat) : (s.alarm b).sites = s.sites := rfl
@[simp] theorem State.alarm_tg (b : Nat) : (s.alarm b).tg = s.tg := rfl
@[simp] theorem State.alarm_cols (b : Nat) : (s.alarm b).cols = s.cols := rfl
@[simp] theorem State.alarm_arrivals (b : Nat) : (s.alarm b).arrivals = s.arrivals := rfl
@[simp] theorem State.alarm_res (b : Nat) : (s.alarm b).res = s.res := rfl
@[simp] theorem State.alarm_parts (b : Nat) : (s.alarm b).parts = s.parts := rfl
@[simp] theorem State.alarm_fab (b : Nat) : (s.alarm b).fab = s.fab := rfl
@[simp] theorem State.alarm_div (b : Nat) : (s.alarm b).div = s.div := rfl
@[simp] theorem State.alarm_rck (b : Nat) : (s.alarm b).rck = s.rck := rfl
@[simp] theorem State.alarm_host (b : Nat) : (s.alarm b).host = s.host := rfl
@[simp] theorem State.alarm_fw (b : Nat) : (s.alarm b).fw = s.fw := rfl
@[simp] theorem State.alarm_sec (b : Nat) : (s.alarm b).sec = s.sec := rfl
@[simp] theorem State.alarm_mesh (b : Nat) : (s.alarm b).mesh = s.mesh := rfl
@[simp] theorem State.alarm_freeCtr (b : Nat) : (s.alarm b).freeCtr = s.freeCtr := rfl
@[simp] theorem State.alarm_pending (b : Nat) : (s.alarm b).pending = s.pending := rfl

/-! ### failCore -/

@[simp] theorem State.failCore_fields (k kind detail pc : Nat) : (s.failCore k kind detail pc).fields = s.fields := rfl
@[simp] theorem State.failCore_sites (k kind detail pc : Nat) : (s.failCore k kind detail pc).sites = s.sites := rfl
@[simp] theorem State.failCore_tg (k kind detail pc : Nat) : (s.failCore k kind detail pc).tg = s.tg := rfl
@[simp] theorem State.failCore_cols (k kind detail pc : Nat) : (s.failCore k kind detail pc).cols = s.cols := rfl
@[simp] theorem State.failCore_arrivals (k kind detail pc : Nat) : (s.failCore k kind detail pc).arrivals = s.arrivals := rfl
@[simp] theorem State.failCore_res (k kind detail pc : Nat) : (s.failCore k kind detail pc).res = s.res := rfl
@[simp] theorem State.failCore_parts (k kind detail pc : Nat) : (s.failCore k kind detail pc).parts = s.parts := rfl
@[simp] theorem State.failCore_fab (k kind detail pc : Nat) : (s.failCore k kind detail pc).fab = s.fab := rfl
@[simp] theorem State.failCore_pwr (k kind detail pc : Nat) : (s.failCore k kind detail pc).pwr = s.pwr := rfl
@[simp] theorem State.failCore_div (k kind detail pc : Nat) : (s.failCore k kind detail pc).div = s.div := rfl
@[simp] theorem State.failCore_rck (k kind detail pc : Nat) : (s.failCore k kind detail pc).rck = s.rck := rfl
@[simp] theorem State.failCore_host (k kind detail pc : Nat) : (s.failCore k kind detail pc).host = s.host := rfl
@[simp] theorem State.failCore_sec (k kind detail pc : Nat) : (s.failCore k kind detail pc).sec = s.sec := rfl
@[simp] theorem State.failCore_mesh (k kind detail pc : Nat) : (s.failCore k kind detail pc).mesh = s.mesh := rfl
@[simp] theorem State.failCore_out (k kind detail pc : Nat) : (s.failCore k kind detail pc).out = s.out := rfl
@[simp] theorem State.failCore_freeCtr (k kind detail pc : Nat) : (s.failCore k kind detail pc).freeCtr = s.freeCtr := rfl
@[simp] theorem State.failCore_pending (k kind detail pc : Nat) : (s.failCore k kind detail pc).pending = s.pending := rfl

/-! ### trap -/

@[simp] theorem State.trap_fields (k kind detail : Nat) : (s.trap k kind detail).fields = s.fields := rfl
@[simp] theorem State.trap_sites (k kind detail : Nat) : (s.trap k kind detail).sites = s.sites := rfl
@[simp] theorem State.trap_tg (k kind detail : Nat) : (s.trap k kind detail).tg = s.tg := rfl
@[simp] theorem State.trap_cols (k kind detail : Nat) : (s.trap k kind detail).cols = s.cols := rfl
@[simp] theorem State.trap_arrivals (k kind detail : Nat) : (s.trap k kind detail).arrivals = s.arrivals := rfl
@[simp] theorem State.trap_res (k kind detail : Nat) : (s.trap k kind detail).res = s.res := rfl
@[simp] theorem State.trap_parts (k kind detail : Nat) : (s.trap k kind detail).parts = s.parts := rfl
@[simp] theorem State.trap_fab (k kind detail : Nat) : (s.trap k kind detail).fab = s.fab := rfl
@[simp] theorem State.trap_pwr (k kind detail : Nat) : (s.trap k kind detail).pwr = s.pwr := rfl
@[simp] theorem State.trap_div (k kind detail : Nat) : (s.trap k kind detail).div = s.div := rfl
@[simp] theorem State.trap_rck (k kind detail : Nat) : (s.trap k kind detail).rck = s.rck := rfl
@[simp] theorem State.trap_host (k kind detail : Nat) : (s.trap k kind detail).host = s.host := rfl
@[simp] theorem State.trap_sec (k kind detail : Nat) : (s.trap k kind detail).sec = s.sec := rfl
@[simp] theorem State.trap_mesh (k kind detail : Nat) : (s.trap k kind detail).mesh = s.mesh := rfl
@[simp] theorem State.trap_out (k kind detail : Nat) : (s.trap k kind detail).out = s.out := rfl
@[simp] theorem State.trap_freeCtr (k kind detail : Nat) : (s.trap k kind detail).freeCtr = s.freeCtr := rfl
@[simp] theorem State.trap_pending (k kind detail : Nat) : (s.trap k kind detail).pending = s.pending := rfl

/-! ### taken -/

@[simp] theorem State.taken_cores : (s.taken).cores = s.cores := rfl
@[simp] theorem State.taken_fields : (s.taken).fields = s.fields := rfl
@[simp] theorem State.taken_sites : (s.taken).sites = s.sites := rfl
@[simp] theorem State.taken_tg : (s.taken).tg = s.tg := rfl
@[simp] theorem State.taken_cols : (s.taken).cols = s.cols := rfl
@[simp] theorem State.taken_arrivals : (s.taken).arrivals = s.arrivals := rfl
@[simp] theorem State.taken_res : (s.taken).res = s.res := rfl
@[simp] theorem State.taken_parts : (s.taken).parts = s.parts := rfl
@[simp] theorem State.taken_fab : (s.taken).fab = s.fab := rfl
@[simp] theorem State.taken_pwr : (s.taken).pwr = s.pwr := rfl
@[simp] theorem State.taken_div : (s.taken).div = s.div := rfl
@[simp] theorem State.taken_rck : (s.taken).rck = s.rck := rfl
@[simp] theorem State.taken_host : (s.taken).host = s.host := rfl
@[simp] theorem State.taken_sec : (s.taken).sec = s.sec := rfl
@[simp] theorem State.taken_mesh : (s.taken).mesh = s.mesh := rfl
@[simp] theorem State.taken_out : (s.taken).out = s.out := rfl
@[simp] theorem State.taken_freeCtr : (s.taken).freeCtr = s.freeCtr := rfl
@[simp] theorem State.taken_pending : (s.taken).pending = s.pending := rfl

/-! ### fly -/

@[simp] theorem State.fly_cores (f : Fetched) (kind : LongKind) : (s.fly f kind).cores = s.cores := rfl
@[simp] theorem State.fly_fields (f : Fetched) (kind : LongKind) : (s.fly f kind).fields = s.fields := rfl
@[simp] theorem State.fly_sites (f : Fetched) (kind : LongKind) : (s.fly f kind).sites = s.sites := rfl
@[simp] theorem State.fly_tg (f : Fetched) (kind : LongKind) : (s.fly f kind).tg = s.tg := rfl
@[simp] theorem State.fly_cols (f : Fetched) (kind : LongKind) : (s.fly f kind).cols = s.cols := rfl
@[simp] theorem State.fly_arrivals (f : Fetched) (kind : LongKind) : (s.fly f kind).arrivals = s.arrivals := rfl
@[simp] theorem State.fly_res (f : Fetched) (kind : LongKind) : (s.fly f kind).res = s.res := rfl
@[simp] theorem State.fly_parts (f : Fetched) (kind : LongKind) : (s.fly f kind).parts = s.parts := rfl
@[simp] theorem State.fly_fab (f : Fetched) (kind : LongKind) : (s.fly f kind).fab = s.fab := rfl
@[simp] theorem State.fly_pwr (f : Fetched) (kind : LongKind) : (s.fly f kind).pwr = s.pwr := rfl
@[simp] theorem State.fly_div (f : Fetched) (kind : LongKind) : (s.fly f kind).div = s.div := rfl
@[simp] theorem State.fly_rck (f : Fetched) (kind : LongKind) : (s.fly f kind).rck = s.rck := rfl
@[simp] theorem State.fly_host (f : Fetched) (kind : LongKind) : (s.fly f kind).host = s.host := rfl
@[simp] theorem State.fly_sec (f : Fetched) (kind : LongKind) : (s.fly f kind).sec = s.sec := rfl
@[simp] theorem State.fly_mesh (f : Fetched) (kind : LongKind) : (s.fly f kind).mesh = s.mesh := rfl
@[simp] theorem State.fly_out (f : Fetched) (kind : LongKind) : (s.fly f kind).out = s.out := rfl
@[simp] theorem State.fly_freeCtr (f : Fetched) (kind : LongKind) : (s.fly f kind).freeCtr = s.freeCtr := rfl
@[simp] theorem State.fly_pending (f : Fetched) (kind : LongKind) : (s.fly f kind).pending = s.pending := rfl

/-! ### finish -/

@[simp] theorem State.finish_cores (f : Fetched) (st : W16) (r : W64) (n : Nat) : (s.finish f st r n).cores = s.cores := rfl
@[simp] theorem State.finish_fields (f : Fetched) (st : W16) (r : W64) (n : Nat) : (s.finish f st r n).fields = s.fields := rfl
@[simp] theorem State.finish_sites (f : Fetched) (st : W16) (r : W64) (n : Nat) : (s.finish f st r n).sites = s.sites := rfl
@[simp] theorem State.finish_tg (f : Fetched) (st : W16) (r : W64) (n : Nat) : (s.finish f st r n).tg = s.tg := rfl
@[simp] theorem State.finish_cols (f : Fetched) (st : W16) (r : W64) (n : Nat) : (s.finish f st r n).cols = s.cols := rfl
@[simp] theorem State.finish_arrivals (f : Fetched) (st : W16) (r : W64) (n : Nat) : (s.finish f st r n).arrivals = s.arrivals := rfl
@[simp] theorem State.finish_res (f : Fetched) (st : W16) (r : W64) (n : Nat) : (s.finish f st r n).res = s.res := rfl
@[simp] theorem State.finish_parts (f : Fetched) (st : W16) (r : W64) (n : Nat) : (s.finish f st r n).parts = s.parts := rfl
@[simp] theorem State.finish_fab (f : Fetched) (st : W16) (r : W64) (n : Nat) : (s.finish f st r n).fab = s.fab := rfl
@[simp] theorem State.finish_pwr (f : Fetched) (st : W16) (r : W64) (n : Nat) : (s.finish f st r n).pwr = s.pwr := rfl
@[simp] theorem State.finish_div (f : Fetched) (st : W16) (r : W64) (n : Nat) : (s.finish f st r n).div = s.div := rfl
@[simp] theorem State.finish_rck (f : Fetched) (st : W16) (r : W64) (n : Nat) : (s.finish f st r n).rck = s.rck := rfl
@[simp] theorem State.finish_sec (f : Fetched) (st : W16) (r : W64) (n : Nat) : (s.finish f st r n).sec = s.sec := rfl
@[simp] theorem State.finish_mesh (f : Fetched) (st : W16) (r : W64) (n : Nat) : (s.finish f st r n).mesh = s.mesh := rfl
@[simp] theorem State.finish_freeCtr (f : Fetched) (st : W16) (r : W64) (n : Nat) : (s.finish f st r n).freeCtr = s.freeCtr := rfl
@[simp] theorem State.finish_pending (f : Fetched) (st : W16) (r : W64) (n : Nat) : (s.finish f st r n).pending = s.pending := rfl

/-! ### answers -/

@[simp] theorem State.answers_cores (k : Pkt) (own : Bool) (st : W16) : (s.answers k own st).cores = s.cores := rfl
@[simp] theorem State.answers_fields (k : Pkt) (own : Bool) (st : W16) : (s.answers k own st).fields = s.fields := rfl
@[simp] theorem State.answers_sites (k : Pkt) (own : Bool) (st : W16) : (s.answers k own st).sites = s.sites := rfl
@[simp] theorem State.answers_tg (k : Pkt) (own : Bool) (st : W16) : (s.answers k own st).tg = s.tg := rfl
@[simp] theorem State.answers_cols (k : Pkt) (own : Bool) (st : W16) : (s.answers k own st).cols = s.cols := rfl
@[simp] theorem State.answers_arrivals (k : Pkt) (own : Bool) (st : W16) : (s.answers k own st).arrivals = s.arrivals := rfl
@[simp] theorem State.answers_res (k : Pkt) (own : Bool) (st : W16) : (s.answers k own st).res = s.res := rfl
@[simp] theorem State.answers_parts (k : Pkt) (own : Bool) (st : W16) : (s.answers k own st).parts = s.parts := rfl
@[simp] theorem State.answers_fab (k : Pkt) (own : Bool) (st : W16) : (s.answers k own st).fab = s.fab := rfl
@[simp] theorem State.answers_pwr (k : Pkt) (own : Bool) (st : W16) : (s.answers k own st).pwr = s.pwr := rfl
@[simp] theorem State.answers_div (k : Pkt) (own : Bool) (st : W16) : (s.answers k own st).div = s.div := rfl
@[simp] theorem State.answers_rck (k : Pkt) (own : Bool) (st : W16) : (s.answers k own st).rck = s.rck := rfl
@[simp] theorem State.answers_sec (k : Pkt) (own : Bool) (st : W16) : (s.answers k own st).sec = s.sec := rfl
@[simp] theorem State.answers_mesh (k : Pkt) (own : Bool) (st : W16) : (s.answers k own st).mesh = s.mesh := rfl
@[simp] theorem State.answers_freeCtr (k : Pkt) (own : Bool) (st : W16) : (s.answers k own st).freeCtr = s.freeCtr := rfl
@[simp] theorem State.answers_pending (k : Pkt) (own : Bool) (st : W16) : (s.answers k own st).pending = s.pending := rfl

/-! ### putCore and advanced -/

@[simp] theorem State.putCore_fields (k : Nat) (c : Core) : (s.putCore k c).fields = s.fields := by unfold State.putCore; split <;> rfl
@[simp] theorem State.putCore_sites (k : Nat) (c : Core) : (s.putCore k c).sites = s.sites := by unfold State.putCore; split <;> rfl
@[simp] theorem State.putCore_tg (k : Nat) (c : Core) : (s.putCore k c).tg = s.tg := by unfold State.putCore; split <;> rfl
@[simp] theorem State.putCore_cols (k : Nat) (c : Core) : (s.putCore k c).cols = s.cols := by unfold State.putCore; split <;> rfl
@[simp] theorem State.putCore_arrivals (k : Nat) (c : Core) : (s.putCore k c).arrivals = s.arrivals := by unfold State.putCore; split <;> rfl
@[simp] theorem State.putCore_res (k : Nat) (c : Core) : (s.putCore k c).res = s.res := by unfold State.putCore; split <;> rfl
@[simp] theorem State.putCore_parts (k : Nat) (c : Core) : (s.putCore k c).parts = s.parts := by unfold State.putCore; split <;> rfl
@[simp] theorem State.putCore_fab (k : Nat) (c : Core) : (s.putCore k c).fab = s.fab := by unfold State.putCore; split <;> rfl
@[simp] theorem State.putCore_pwr (k : Nat) (c : Core) : (s.putCore k c).pwr = s.pwr := by unfold State.putCore; split <;> rfl
@[simp] theorem State.putCore_div (k : Nat) (c : Core) : (s.putCore k c).div = s.div := by unfold State.putCore; split <;> rfl
@[simp] theorem State.putCore_rck (k : Nat) (c : Core) : (s.putCore k c).rck = s.rck := by unfold State.putCore; split <;> rfl
@[simp] theorem State.putCore_host (k : Nat) (c : Core) : (s.putCore k c).host = s.host := by unfold State.putCore; split <;> rfl
@[simp] theorem State.putCore_sec (k : Nat) (c : Core) : (s.putCore k c).sec = s.sec := by unfold State.putCore; split <;> rfl
@[simp] theorem State.putCore_mesh (k : Nat) (c : Core) : (s.putCore k c).mesh = s.mesh := by unfold State.putCore; split <;> rfl
@[simp] theorem State.putCore_out (k : Nat) (c : Core) : (s.putCore k c).out = s.out := by unfold State.putCore; split <;> rfl
@[simp] theorem State.putCore_freeCtr (k : Nat) (c : Core) : (s.putCore k c).freeCtr = s.freeCtr := by unfold State.putCore; split <;> rfl
@[simp] theorem State.putCore_pending (k : Nat) (c : Core) : (s.putCore k c).pending = s.pending := by unfold State.putCore; split <;> rfl
@[simp] theorem State.advanced_fields (k : Nat) (c : Core) : (s.advanced k c).fields = s.fields := by simp [State.advanced]
@[simp] theorem State.advanced_sites (k : Nat) (c : Core) : (s.advanced k c).sites = s.sites := by simp [State.advanced]
@[simp] theorem State.advanced_tg (k : Nat) (c : Core) : (s.advanced k c).tg = s.tg := by simp [State.advanced]
@[simp] theorem State.advanced_cols (k : Nat) (c : Core) : (s.advanced k c).cols = s.cols := by simp [State.advanced]
@[simp] theorem State.advanced_arrivals (k : Nat) (c : Core) : (s.advanced k c).arrivals = s.arrivals := by simp [State.advanced]
@[simp] theorem State.advanced_res (k : Nat) (c : Core) : (s.advanced k c).res = s.res := by simp [State.advanced]
@[simp] theorem State.advanced_parts (k : Nat) (c : Core) : (s.advanced k c).parts = s.parts := by simp [State.advanced]
@[simp] theorem State.advanced_fab (k : Nat) (c : Core) : (s.advanced k c).fab = s.fab := by simp [State.advanced]
@[simp] theorem State.advanced_pwr (k : Nat) (c : Core) : (s.advanced k c).pwr = s.pwr := by simp [State.advanced]
@[simp] theorem State.advanced_div (k : Nat) (c : Core) : (s.advanced k c).div = s.div := by simp [State.advanced]
@[simp] theorem State.advanced_rck (k : Nat) (c : Core) : (s.advanced k c).rck = s.rck := by simp [State.advanced]
@[simp] theorem State.advanced_host (k : Nat) (c : Core) : (s.advanced k c).host = s.host := by simp [State.advanced]
@[simp] theorem State.advanced_sec (k : Nat) (c : Core) : (s.advanced k c).sec = s.sec := by simp [State.advanced]
@[simp] theorem State.advanced_mesh (k : Nat) (c : Core) : (s.advanced k c).mesh = s.mesh := by simp [State.advanced]
@[simp] theorem State.advanced_out (k : Nat) (c : Core) : (s.advanced k c).out = s.out := by simp [State.advanced]
@[simp] theorem State.advanced_freeCtr (k : Nat) (c : Core) : (s.advanced k c).freeCtr = s.freeCtr := by simp [State.advanced]
@[simp] theorem State.advanced_pending (k : Nat) (c : Core) : (s.advanced k c).pending = s.pending := by simp [State.advanced]

end Sys2Proof.Machine
end

