-- ==== Sys2Proof/Laws/Ops.lean ====
section
/-! SUPPORT. What the shared operations over the module's state can do, once for each: reads after updates, putting a core
back, issuing a word, taking a command and answering it. -/

namespace Sys2Proof.Machine

open Sys2Proof

/-! ## Reads after updates -/

theorem State.core_setCore (s : State) (k j : Nat) (c : Core) : (s.setCore k c).core j = if j = k then c else s.core j := by
  simp only [State.core, State.setCore, Tab.get_set]

theorem State.field_setField (s : State) (f j : Nat) (x : Field) : (s.setField f x).field j = if j = f then x else s.field j := by
  simp only [State.field, State.setField, Tab.get_set]

theorem State.core_withCore (s : State) (k j : Nat) (g : Core → Core) : (s.withCore k g).core j = if j = k then g (s.core k) else s.core j := by
  simp only [State.core, State.withCore, Tab.get_set]

theorem State.field_withField (s : State) (f j : Nat) (g : Field → Field) : (s.withField f g).field j = if j = f then g (s.field f) else s.field j := by
  simp only [State.field, State.withField, Tab.get_set]

theorem State.core_onBank (s : State) (k j : Nat) (g : Bank → Bank) :
    (s.onBank k g).core j = if j = k then { s.core k with bank := g (s.core k).bank } else s.core j := by
  simp only [State.core, State.onBank, Tab.get_upd]

theorem State.field_updField (s : State) (f j : Nat) (g : Field → Field) : (s.updField f g).field j = if j = f then g (s.field f) else s.field j := by
  simp only [State.field, State.updField, Tab.get_upd]

theorem State.core_raiseFault (s : State) (k j : Nat) (c : Core) (kind detail pc : Nat) :
    (s.raiseFault k c kind detail pc).core j = if j = k then c.fail kind detail pc s.coreNow else s.core j := by
  simp only [State.core, State.raiseFault, Tab.get_set]

theorem State.core_failCore (s : State) (k j kind detail pc : Nat) :
    (s.failCore k kind detail pc).core j = if j = k then (s.core k).fail kind detail pc s.coreNow else s.core j :=
  State.core_raiseFault s k j (s.core k) kind detail pc

theorem State.part_setPart (s : State) (p q : Nat) (x : Part) (hp : p < 16) : (s.setPart p x).part q = if q = p then x else s.part q := by
  simp only [State.part, State.setPart, dif_pos hp, Vector.toList_set, List.getD_eq_getElem?_getD, List.getElem?_set, Vector.length_toList]
  by_cases h : p = q
  · subst h; simp [hp]
  · have h2 : q ≠ p := fun e => h e.symm
    simp [h, h2]

theorem State.part_updPart (s : State) (p q : Nat) (g : Part → Part) (hp : p < 16) : (s.updPart p g).part q = if q = p then g (s.part p) else s.part q :=
  State.part_setPart s p q (g (s.part p)) hp

/-! ## Putting a core back -/

/-- A core that is put back stands at its site as its array and its vector engine leave it, or stopped on the fault that
they raised; nothing else changes but the report of that fault. -/
theorem State.putCore_cases (s : State) (k : Nat) (c : Core) :
    (∃ c1, c.pump Config.freeValue s.coreNow = (c1, none) ∧ s.putCore k c = s.setCore k c1) ∨
    (∃ c1 kind d pc, c.pump Config.freeValue s.coreNow = (c1, some (kind, d, pc)) ∧ s.putCore k c = s.raiseFault k c1 kind d pc) := by
  unfold State.putCore
  split <;> rename_i h
  · exact .inl ⟨_, h, rfl⟩
  · exact .inr ⟨_, _, _, _, h, rfl⟩

theorem State.core_putCore_other (s : State) (k j : Nat) (c : Core) (h : j ≠ k) : (s.putCore k c).core j = s.core j := by
  obtain ⟨c1, -, he⟩ | ⟨c1, kind, d, pc, -, he⟩ := State.putCore_cases s k c <;> rw [he]
  · rw [State.core_setCore, if_neg h]
  · rw [State.core_raiseFault, if_neg h]

/-! ## Issue -/

/-- Everything the issue of a word can do: nothing, where the core does not fetch or its store holds another word; a
program fault of the word at the program counter; or what `body` says. -/
theorem State.issue_cases (s : State) (k : Nat) (w : W64) (body : Core → Core × Out Eff) :
    s.issue k w body = s ∨ (∃ kind d, s.issue k w body = s.failCore k kind d (s.core k).seq.pc) ∨
    (∃ c1 e, body (s.core k) = (c1, .ok e) ∧ s.issue k w body =
      { s.putCore k { c1 with seq := c1.seq.advance e.jump } with arrivals := s.arrivals ++ e.arrivals }) ∨
    (∃ c1 o, body (s.core k) = (c1, .wait o) ∧ ∃ q, s.issue k w body = s.putCore k { c1 with seq := q }) ∨
    (∃ c1 kind d, body (s.core k) = (c1, .fault kind d) ∧ s.issue k w body = s.raiseFault k c1 kind d (s.core k).seq.pc) := by
  unfold State.issue
  simp only
  split
  · exact .inl rfl
  · split
    · exact .inr (.inl ⟨_, _, rfl⟩)
    · split
      · exact .inr (.inl ⟨_, _, rfl⟩)
      · split
        · exact .inl rfl
        · split <;> rename_i hb
          · exact .inr (.inr (.inl ⟨_, _, hb, rfl⟩))
          · exact .inr (.inr (.inr (.inl ⟨_, _, hb, _, rfl⟩)))
          · split <;> exact .inr (.inr (.inr (.inl ⟨_, _, hb, _, rfl⟩)))
          · exact .inr (.inr (.inr (.inr ⟨_, _, _, hb, rfl⟩)))

theorem State.ready_parts {s : State} {k : Nat} {w : W64} (h : s.ready k w = true) :
    (s.core k).fetches = true ∧ (s.core k).fetch (s.core k).seq.pc = some w := by
  simpa [State.ready] using h

theorem State.issue_ok {s : State} {k : Nat} {w : W64} {body : Core → Core × Out Eff} {c1 : Core} {e : Eff} (h : s.ready k w = true)
    (hw : knownWord w = true) (hb : body (s.core k) = (c1, .ok e)) :
    s.issue k w body = { s.putCore k { c1 with seq := c1.seq.advance e.jump } with arrivals := s.arrivals ++ e.arrivals } := by
  obtain ⟨h1, h2⟩ := State.ready_parts h
  unfold State.issue
  simp only [h1, h2, hw, hb]
  simp

/-- An instruction that completes and neither branches nor sends an arrival. -/
theorem State.issue_advanced {s : State} {k : Nat} {w : W64} {body : Core → Core × Out Eff} {c1 : Core} (h : s.ready k w = true)
    (hw : knownWord w = true) (hb : body (s.core k) = (c1, .ok {})) : s.issue k w body = s.advanced k c1 := by
  have e : ∀ t : State, t.arrivals = s.arrivals → ({ t with arrivals := s.arrivals ++ [] } : State) = t := by
    intro t ht
    rw [List.append_nil, ← ht]
  rw [State.issue_ok h hw hb]
  exact e _ (State.putCore_arrivals s k _)

/-- An instruction that faults and leaves its core as it was. -/
theorem State.issue_trap {s : State} {k : Nat} {w : W64} {body : Core → Core × Out Eff} {kind d : Nat} (h : s.ready k w = true)
    (hw : knownWord w = true) (hb : body (s.core k) = (s.core k, .fault kind d)) : s.issue k w body = s.trap k kind d := by
  obtain ⟨h1, h2⟩ := State.ready_parts h
  unfold State.issue
  simp only [h1, h2, hw, hb, State.trap, State.failCore]
  simp

/-! ## Commands -/

theorem State.front_parts {s : State} {k : Pkt} {op : W16} {own : Bool} (h : s.front k op own = true) :
    (∃ r, s.fw.inbox = ⟨k, own⟩ :: r) ∧ k.opcode = op ∧ (!s.sec.recovery || recoveryOps.contains op) = true := by
  unfold State.front at h
  simp only [Bool.and_eq_true, beq_iff_eq] at h
  obtain ⟨⟨h1, h2⟩, h3⟩ := h
  refine ⟨?_, h2, h3⟩
  cases hi : s.fw.inbox with
  | nil => simp [hi] at h1
  | cons a r => simp [hi] at h1; exact ⟨r, by rw [h1]⟩

theorem State.accept_front {s : State} {k : Pkt} {op : W16} {own : Bool} (h : s.front k op own = true) : s.accept k op = (s.taken, some ⟨k, own⟩) := by
  obtain ⟨⟨r, hi⟩, hop, -⟩ := State.front_parts h
  unfold State.accept
  simp [hop, hi, State.taken, List.erase_cons_head]

/-- A command in front of the inbox whose issuer may give it and whose target is free runs. -/
theorem State.command_front {s : State} {k : Pkt} {op : W16} {own owner : Bool} {tg : Target} {run : State → Fetched → State}
    (h : s.front k op own = true) (ho : owner = true → own = true) (hb : s.busyOn tg = false) :
    s.command k op owner tg run = run s.taken ⟨k, own⟩ := by
  have hr : (s.taken.sec.recovery && !recoveryOps.contains op) = false := by
    have := (State.front_parts h).2.2
    cases hs : s.sec.recovery <;> simp_all [State.taken]
  have hb' : s.taken.busyOn tg = false := hb
  have hn : (owner && !own) = false := by cases owner <;> simp_all
  unfold State.command
  rw [State.accept_front h]
  simp only [hr, hn, hb']
  rfl

/-- A command of an agent that was not owner as it was fetched is refused. -/
theorem State.command_notOwner {s : State} {k : Pkt} {op : W16} {tg : Target} {run : State → Fetched → State} (h : s.front k op false = true) :
    s.command k op true tg run = s.answers k false stNotOwner := by
  have hr : (s.taken.sec.recovery && !recoveryOps.contains op) = false := by
    have := (State.front_parts h).2.2
    cases hs : s.sec.recovery <;> simp_all [State.taken]
  unfold State.command
  rw [State.accept_front h]
  simp only [hr]
  rfl

theorem State.busyOn_idle {s : State} {t : Target} (h : s.fw.flight = []) : s.busyOn t = false := by simp [State.busyOn, h]

theorem State.busyOn_none {s : State} : s.busyOn .none = false := by simp [State.busyOn]

theorem State.done_taken {s : State} {k : Pkt} {own : Bool} {st : W16} : s.taken.done ⟨k, own⟩ st = s.answers k own st := rfl

@[simp] theorem State.finish_flight (s : State) (f : Fetched) (st : W16) (r : W64) (n : Nat) : (s.finish f st r n).fw.flight = s.fw.flight := by
  simp only [State.finish, State.putReply]; split <;> rfl

@[simp] theorem State.finish_inbox (s : State) (f : Fetched) (st : W16) (r : W64) (n : Nat) : (s.finish f st r n).fw.inbox = s.fw.inbox := by
  simp only [State.finish, State.putReply]; split <;> rfl

@[simp] theorem State.finish_reports (s : State) (f : Fetched) (st : W16) (r : W64) (n : Nat) : (s.finish f st r n).fw.reports = s.fw.reports := by
  simp only [State.finish, State.putReply]; split <;> rfl

end Sys2Proof.Machine
end

