-- ==== Sys2Proof/Tests/Slice0.lean ====
section
/-! SUPPORT. Tests: ill-formed terms that the checks refuse, words written out from the encodings, small effects with values from the
spec, and for every obligation with hypotheses a concrete state and operands that meet them, clause by clause. -/

set_option Elab.async false

namespace Sys2Proof.Tests

open Sys2Proof Sys2Proof.Machine

/-! ## States to test on -/

/-- A core that runs the word `w` at index 0. -/
def runs (w : W64) : Core := { seq := { st := .running }, istore := [(0, w)] }

/-- A module with the core `c` on site 0. -/
def one (c : Core) : State := { cores := [(0, c)] }

/-- A module that serves: READY, agent 0 is owner, ring 0 is enabled, ticks run, the terraces of field 0 are lit. -/
def base : State :=
  { rck := { ready := true, held := none, stage := 0xFF, stable := true, trimValid := true }
    host := { owner := 0, ring := (Vector.replicate 2 ({} : Ring)).set 0 { en := true, link := true } }
    tg := { running := true, period := 100, cyc := 50000000, tick := 44 }
    fields := [(0, { pwr := { trn := .on, mif := .on, pll := true }, ter := #v[{ st := .lit }, { st := .lit }] })] }

/-- A plan of two cores, and a partition that runs it on the terraces of field 0. -/
def plan0 : Plan :=
  { period := 100
    nodetour := true
    base := { terraces := 1, cores := [{ logical := 0, site := 0, sched := [{ last := true, stepFirst := true, rep := 1, span := 1 }] },
      { logical := 1, site := 3, sched := [{ last := true, stepFirst := true, rep := 1, span := 1 }] }] } }
def part0 : Part := { on := true, started := true, terraces := 3, ports := 5, plan := some plan0, edgeIn := 1, nextStep := 4, step := 4, epoch := 3 }

/-- `base` with the partition `x` as partition 2. -/
def withP (x : Part) : State := { base with parts := base.parts.set 2 x }

/-- A command packet of agent 0, and `s` with it in front of the inbox. -/
def pkt (op : W16) (part : Nat := 0xFF) : Pkt := { agent := 0, opcode := op, seq := 0, part := part }
def inb (s : State) (k : Pkt) (own : Bool := true) : State := { s with fw := { s.fw with inbox := [{ pkt := k, owner := own }] } }
def flies (s : State) (k : Pkt) (x : LongKind) : State := { s with fw := { s.fw with flight := [{ f := { pkt := k, owner := true }, kind := x }] } }

/-- Whether a command answers a next state of which `p` holds. -/
def gives (r : Res) (p : State → Bool) : Bool := match r with | .next t => p t | _ => false

/-! ## Terms that are not well-formed -/

theorem test_rsv_scalar : (Instr.add 0 { rsv := 1 }).wellFormed = false ∧ (Instr.add 0 {}).wellFormed = true := by decide
theorem test_rsv_branch : (Instr.br 0 { rsv := 256 }).wellFormed = false ∧ (Instr.br 0 {}).wellFormed = true := by decide
theorem test_rsv_vector : (Instr.vadd 0 { rsv := 32 }).wellFormed = false ∧ (Instr.vadd 0 {}).wellFormed = true := by decide
theorem test_rsv_array : (Instr.tload 0 { rsv := 1 }).wellFormed = false ∧ (Instr.tload 0 {}).wellFormed = true := by decide
theorem test_rsv_dma : (Instr.copy 0 { rsv := 1 }).wellFormed = false ∧ (Instr.copy 0 {}).wellFormed = true := by decide
theorem test_rsv_net : (Instr.send 0 { rsv := 1 }).wellFormed = false ∧ (Instr.send 0 {}).wellFormed = true := by decide
theorem test_rsv_sync : (Instr.sempost 0 { rsv := 1 }).wellFormed = false ∧ (Instr.sempost 0 {}).wellFormed = true := by decide
theorem test_rsv_claim : (Instr.claim (pkt 0x0101) 1 1).wellFormed = false ∧ (Instr.claim (pkt 0x0101) 1 0).wellFormed = true := by decide
theorem test_rsv_release : (Instr.release (pkt 0x0102) 0xFF false 2).wellFormed = false := by decide
theorem test_rsv_partCreate : (Instr.partCreate (pkt 0x0201 1) 1 false 1 0 1).wellFormed = false := by decide
theorem test_rsv_planLoad : (Instr.planLoad (pkt 0x0301 1) 1 false 1 64 0 0 ⟨[], 0, {}⟩).wellFormed = false := by decide
theorem test_rsv_planStart : (Instr.planStart (pkt 0x0401 1) 1 1 0 0 0).wellFormed = false := by decide
theorem test_rsv_snapPolicy : (Instr.snapPolicy (pkt 0x0501 1) 1 {} 1).wellFormed = false := by decide
theorem test_rsv_partnerSet : (Instr.partnerSet (pkt 0x0503) 9 false 1 1).wellFormed = false := by decide
theorem test_rsv_retrace : (Instr.retrace (pkt 0x0505 1) 1 0xFF 0 0 0 false 1).wellFormed = false := by decide
theorem test_rsv_envelope : (Instr.envelopeSet (pkt 0x0601) 1 1 false 1).wellFormed = false := by decide
theorem test_rsv_terraces : (Instr.terraceSetDarken (pkt 0x0602) 1 1).wellFormed = false ∧ (Instr.terraceSetLight (pkt 0x0602) 1 1).wellFormed = false := by decide
theorem test_rsv_probe : (Instr.probeRun (pkt 0x0701 1) 1 false 1 0 1).wellFormed = false := by decide
theorem test_rsv_march : (Instr.marchRun (pkt 0x0702) 1 1 false 1 1).wellFormed = false := by decide
theorem test_rsv_telemetry : (Instr.telemetry (pkt 0x0901) 0xFF 1 1 0 1).wellFormed = false := by decide
theorem test_rsv_fabConfig : (Instr.fabConfig (pkt 0x0A01) 1 1 0 0 0 0 false 0 0 [] 1).wellFormed = false := by decide
theorem test_shape_gradient : (Instr.gradientWrite 0 1 0 false (List.replicate 15 0) (.core 0)).wellFormed = false ∧
    (Instr.gradientWrite 0 1 0 false (List.replicate 16 0) (.core 0)).wellFormed = true := by decide
theorem test_rsv_lifecycle : (Instr.lifecycleNonce (pkt 0x0803) 1).wellFormed = false ∧ (Instr.lifecycleTransition (pkt 0x0803) 1 4 0 0 0 0 0 0).wellFormed = false := by decide
theorem test_shape_flits : (Instr.creditFlit 0 { bytes := List.replicate 251 0 }).wellFormed = false ∧ (Instr.initFlit 0 { bytes := [] }).wellFormed = false ∧
    (Instr.nakReceived 0 { bytes := List.replicate 253 0 }).wellFormed = false ∧ (Instr.fabricDataFlit 0 { bytes := List.replicate 252 0 }).wellFormed = true := by decide +kernel
theorem test_shape_register : (Instr.registerWrite 0 2 false 0).wellFormed = false ∧ (Instr.registerWrite 0 4 true 0).wellFormed = false ∧
    (Instr.registerWrite 0 4 false 0).wellFormed = true ∧ (Instr.registerWrite 0 8 true 0).wellFormed = true := by decide
theorem test_shape_reference : (Instr.refJudge 0 100000).wellFormed = false ∧ (Instr.refclkPresent 0 true).wellFormed = false ∧
    (Instr.refJudge 1 100000).wellFormed = true ∧ (Instr.refclkPresent 3 true).wellFormed = true := by decide
theorem test_shape_bar2 : (Instr.bar2Access 0 0x80000000 61 4 none).wellFormed = false ∧ (Instr.bar2Access 0 0x80000000 60 4 none).wellFormed = true ∧
    (Instr.bar2Access 0 0x80000000 63 0 (some [1, 2])).wellFormed = false := by decide

/-! ## Words written out from the encodings (R81, Tables 3.3 to 3.8, 6.4 and 7.5) -/

/-- R94's own words: `msetn M2, 36` and `ffma.zm V1 {M2}, V1, V6, V7`. -/
theorem test_decode_softmax : decodeInsn 5 0x4200040000000024 = some (.msetn 5 { vd := 2, imm := 36 }) ∧
    decodeInsn 5 0x303502131DC00000 = some (.ffma 5 { mask := 2, zm := 1, vd := 1, va := 1, vb := 6, vc := 7, fmt := 7 }) := by decide +kernel

/-- ADD S1, S2, S3: class 0x0, OP 0x00, SD [51:47], SA [46:42], SB [41:37]. -/
theorem test_decode_add : decodeInsn 5 (BitVec.ofNat 64 (1 * 2 ^ 47 + 2 * 2 ^ 42 + 3 * 2 ^ 37)) = some (.add 5 { sd := 1, sa := 2, sb := 3 }) := by decide +kernel

/-- LOOP on S4, level 1, to index +9: class 0x1, OP 0x01, SA [51:47], LEVEL [42:41], OFFSET [31:0]. -/
theorem test_decode_branch : decodeInsn 5 (BitVec.ofNat 64 (1 * 2 ^ 60 + 1 * 2 ^ 52 + 4 * 2 ^ 47 + 1 * 2 ^ 41 + 9 * 2 ^ 0)) = some (.loop 5 { sa := 4, level := 1, ofs := 9 }) := by decide +kernel

/-- VADD.zm V1 {M2}, V3, V4: class 0x2, OP 0x00, MASK [51:49], ZM [48], VD [45:41], VA [40:36], VB [35:31]. -/
theorem test_decode_vector : decodeInsn 5 (BitVec.ofNat 64 (2 * 2 ^ 60 + 0 * 2 ^ 52 + 2 * 2 ^ 49 + 1 * 2 ^ 48 + 1 * 2 ^ 41 + 3 * 2 ^ 36 + 4 * 2 ^ 31)) = some (.vadd 5 { mask := 2, zm := 1, vd := 1, va := 3, vb := 4 }) := by decide +kernel

/-- FMAX V1, V3, V4: class 0x3, OP 0x04. -/
theorem test_decode_float : decodeInsn 5 (BitVec.ofNat 64 (3 * 2 ^ 60 + 4 * 2 ^ 52 + 1 * 2 ^ 41 + 3 * 2 ^ 36 + 4 * 2 ^ 31)) = some (.fmax 5 { vd := 1, va := 3, vb := 4 }) := by decide +kernel

/-- VCVT.TOBF16 with RND SR: class 0x4, OP 0x0A, RND [47:46], FMT [25:22], IMM16 [15:0]. -/
theorem test_decode_convert : decodeInsn 5 (BitVec.ofNat 64 (4 * 2 ^ 60 + 10 * 2 ^ 52 + 1 * 2 ^ 46 + 2 * 2 ^ 41 + 7 * 2 ^ 36 + 5 * 2 ^ 22 + 1 * 2 ^ 0)) = some (.vcvtTobf16 5 { rnd := 1, vd := 2, va := 7, fmt := 5, imm := 1 }) := by decide +kernel

/-- VAUP: class 0x5, OP 0x01, VC [30:26]. -/
theorem test_decode_adapter : decodeInsn 5 (BitVec.ofNat 64 (5 * 2 ^ 60 + 1 * 2 ^ 52 + 2 * 2 ^ 41 + 7 * 2 ^ 36 + 8 * 2 ^ 31 + 9 * 2 ^ 26)) = some (.vaup 5 { vd := 2, va := 7, vb := 8, vc := 9 }) := by decide +kernel

/-- GDRAIN.B of group 3, fused RUN, to the address in S4: class 0x6, OP 0x0A, GROUP [51:49], FUSE [40:39], SA [12:8]. -/
theorem test_decode_array : decodeInsn 5 (BitVec.ofNat 64 (6 * 2 ^ 60 + 10 * 2 ^ 52 + 3 * 2 ^ 49 + 2 * 2 ^ 39 + 4 * 2 ^ 8)) = some (.gdrainB 5 { group := 3, fuse := 2, sa := 4 }) := by decide +kernel

/-- PASS of 7 rows from row 5, window 4: class 0x6, OP 0x01, AFMT [48:45], FIRST [38:28], N [27:17], WIN [16:13]. -/
theorem test_decode_pass : decodeInsn 5 (BitVec.ofNat 64 (6 * 2 ^ 60 + 1 * 2 ^ 52 + 3 * 2 ^ 49 + 2 * 2 ^ 45 + 5 * 2 ^ 28 + 7 * 2 ^ 17 + 4 * 2 ^ 13)) = some (.pass 5 { group := 3, afmt := 2, first := 5, n := 7, win := 4 } []) := by decide +kernel

/-- HRD with XP 1, format 2: class 0x7, OP 0x01, SA, SB, SC, SEM [36:31], WIN [30:27], W [26], XP [25:23], FMT [22:19]. -/
theorem test_decode_dma : decodeInsn 5 (BitVec.ofNat 64 (7 * 2 ^ 60 + 1 * 2 ^ 52 + 1 * 2 ^ 47 + 2 * 2 ^ 42 + 3 * 2 ^ 37 + 6 * 2 ^ 31 + 4 * 2 ^ 27 + 1 * 2 ^ 26 + 1 * 2 ^ 23 + 2 * 2 ^ 19)) = some (.hrd 5 { sa := 1, sb := 2, sc := 3, sem := 6, win := 4, w := 1, xp := 1, fmt := 2 }) := by decide +kernel

/-- GWR that adds: class 0x7, OP 0x03, GMODE [18]. -/
theorem test_decode_gwr : decodeInsn 5 (BitVec.ofNat 64 (7 * 2 ^ 60 + 3 * 2 ^ 52 + 1 * 2 ^ 18)) = some (.gwr 5 { gmode := 1 }) := by decide +kernel

/-- RXBIND of RID 17 to window 4: class 0x8, OP 0x03, SEM, WIN, RID [22:13]. -/
theorem test_decode_net : decodeInsn 5 (BitVec.ofNat 64 (8 * 2 ^ 60 + 3 * 2 ^ 52 + 6 * 2 ^ 31 + 4 * 2 ^ 27 + 17 * 2 ^ 13)) = some (.rxbind 5 { sem := 6, win := 4, rid := 17 }) := by decide +kernel

/-- SEND on channel 3: class 0x8, OP 0x00, VC [25:23]. -/
theorem test_decode_send : decodeInsn 5 (BitVec.ofNat 64 (8 * 2 ^ 60 + 0 * 2 ^ 52 + 1 * 2 ^ 47 + 2 * 2 ^ 42 + 3 * 2 ^ 37 + 3 * 2 ^ 23)) = some (.send 5 { sa := 1, sb := 2, sc := 3, vc := 3 }) := by decide +kernel

/-- SEMWAIT L5, 100 under cause 3: class 0x9, OP 0x01, CAUSE [51:49], SEM [48:43], IMM16 [15:0]. -/
theorem test_decode_sync : decodeInsn 5 (BitVec.ofNat 64 (9 * 2 ^ 60 + 1 * 2 ^ 52 + 3 * 2 ^ 49 + 5 * 2 ^ 43 + 100 * 2 ^ 0)) = some (.semwait 5 { cause := 3, sem := 5, imm := 100 }) := by decide +kernel

/-- ARRIVE_WAIT of 3 at col 9, deadline in S2, status to S5: class 0x9, OP 0x12, COL [42:30], SA [29:25]. -/
theorem test_decode_col : decodeInsn 5 (BitVec.ofNat 64 (9 * 2 ^ 60 + 18 * 2 ^ 52 + 9 * 2 ^ 30 + 2 * 2 ^ 25 + 101 * 2 ^ 0)) = some (.arriveWait 5 { col := 9, sa := 2, imm := 0x65 }) := by decide +kernel

/-- A class that R83 reserves. -/
theorem test_decode_reserved : decodeInsn 5 0xA000000000000000 = none ∧ decodeInsn 5 0xFFFFFFFFFFFFFFFF = none := by decide +kernel

/-- The table gives its rows no bits: no word spells a command, and none is put in front of the queue. -/
theorem test_no_table_words : decodeTableWord 64 0x4200040000000024 = none ∧ (base.withFetchWord 64 1).pending = [] := by decide +kernel

/-! ## Witnesses: the queue, cores and their instructions -/

/-- `one` of a core with registers S1 to S3 and the word `w`. -/
def regs (w : W64) (a b c : Nat) : Core := { runs w with sr := (((Vector.replicate 32 0).set 1 (BitVec.ofNat 64 a)).set 2 (BitVec.ofNat 64 b)).set 3 (BitVec.ofNat 64 c) }
def s123 : ScalarF := { sd := 1, sa := 2, sb := 3 }
def v123 : VecF := { vd := 1, va := 2, vb := 3, vc := 1 }

/-- Meets the hypotheses of IdleStepIsOneCycle. -/
theorem test_witness_idle : base.pending = [] ∧ base.wf = true ∧ base.quiet = true ∧ ({} : State).wf = true ∧ ({} : State).quiet = true ∧ (base.part 3).started = false ∧ ((withP part0).part 2).started = true ∧ ((withP part0).part 2).hold = [] ∧ ({} : State).tg.running = false ∧ base.tg.running = true ∧ base.tg.period ≠ 0 ∧ 1 < base.toEdge ∧
    1 < ({ base with tg := { base.tg with ofs := 119998 } } : State).toEdge ∧ gives (step base) (fun t => t.tg.ofs = 1 && t.tg.cyc = 50000001) = true := by decide +kernel

/-- Meets the hypotheses of EveryCommandCompletes. -/
theorem test_witness_execNext : ∃ t, exec .watchdogRefresh {} = .next t := ⟨_, rfl⟩

/-- Meets the hypotheses of InstructionFrames. -/
theorem test_witness_frames : (runs 0).arr.q = [] ∧ (runs 0).vq = [] ∧ (runs 0).fault.valid = false ∧ ({ runs 0 with fault := { valid := true, body := {} } } : Core).fault.valid = true ∧
    ({ valid := true, body := {}, cycle := { tick := 3, ofs := 7 } } : FirstRec FaultBody).cycle ≠ base.coreNow ∧ (withP part0).partOfSite 0 = some 2 ∧ (withP part0).partOfSite 64 = none := by decide +kernel

/-- Meets the hypotheses of DecodeOfEncode and SpecWordsDecode. -/
theorem test_witness_words : encodeInsn (.msetn 5 { vd := 2, imm := 36 }) = some 0x4200040000000024 ∧ 0xA ≤ (0xA000000000000000#64).toNat / 2 ^ 60 := by decide +kernel

/-- Meets the hypotheses of ScalarAluCompletes and ScalarMovesAndBranchesComplete. -/
theorem test_witness_scalar : s123.rsv = 0 ∧ (runs 0).freeS [s123.sa, s123.sb] [s123.sd] = true ∧ (runs 0).freeS [] [s123.sd] = true ∧ (runs 0).freeS [s123.sa] [] = true ∧
    (∀ op ∈ [0, 1, 2, 3, 4, 5, 6, 7, 8, 9, 10, 0x10, 0x11, 0x12], (one (runs (encScalar op s123))).ready 0 (encScalar op s123) = true) ∧
    (∀ code ∈ [0, 1, 2, 3, 4, 5, 6], (one (runs (encScalar 0x30 { s123 with imm := BitVec.ofNat 32 code }))).ready 0 (encScalar 0x30 { s123 with imm := BitVec.ofNat 32 code }) = true) ∧
    (∀ code ∈ [0, 1], (one (runs (encScalar 0x31 { s123 with imm := BitVec.ofNat 32 code }))).ready 0 (encScalar 0x31 { s123 with imm := BitVec.ofNat 32 code }) = true) := by decide +kernel

/-- SRA of the sign, and ADD modulo 2^64 (Table 3.6). -/
theorem test_scalar_results :
    gives (exec (.sar 0 s123) (one (regs (encScalar 7 s123) 0 (2 ^ 63) 64))) (fun t => (t.core 0).S 1 = BitVec.allOnes 64) = true ∧
    gives (exec (.add 0 s123) (one (regs (encScalar 0 s123) 0 (2 ^ 64 - 1) 2))) (fun t => (t.core 0).S 1 = 1 && (t.core 0).seq.pc = 1) = true := by decide +kernel

/-- Meets the hypotheses of MemoryInstructionsComplete. Address of LD and ST at both ends of the banks. -/
theorem test_witness_loadStore : ∀ op ∈ [0x20, 0x21], ∀ a ∈ [0, 0x7FFFF8],
    let s := one (regs (encScalar op s123) 0 a 0)
    a % 8 = 0 ∧ a + 7 ≤ 0x7FFFFF ∧ (s.core 0).freeS [2] [1] = true ∧ (s.core 0).freeS [2, 3] [] = true ∧ ((s.core 0).S 2 + BitVec.ofInt 64 s123.imm.toInt).toNat = a ∧
    (s.core 0).bank.clear .scalar a 8 = true ∧ s.ready 0 (encScalar op s123) = true := by decide +kernel

/-- Meets the hypotheses of ScalarMovesAndBranchesComplete. The condition of a branch, at the first and the last index. -/
theorem test_witness_branch : (∀ cond ∈ [0, 1, 2, 3, 4], ∀ n ∈ [0, 16383],
      (one (runs (encBranch 0 { sa := 2, cond := cond, ofs := BitVec.ofNat 32 n }))).ready 0 (encBranch 0 { sa := 2, cond := cond, ofs := BitVec.ofNat 32 n }) = true) ∧
    (∀ a ∈ [0, 1, 0xFFFFFFFF, 0x100000000], (one (regs (encBranch 1 { sa := 2, ofs := 1 }) 0 a 0)).ready 0 (encBranch 1 { sa := 2, ofs := 1 }) = true) ∧
    (runs 0).freeS [2] [] = true ∧ (0 : BitVec 2).toNat = (runs 0).seq.loops.length ∧ 0x100000000 % 2 ^ 32 = 0 ∧ 1 % 2 ^ 32 ≠ 0 ∧ 1 ≤ (1#32).toInt := by decide +kernel

/-- Meets the hypotheses of VectorIntegerAndShiftsComplete, ComparesMovesAndMasksComplete, VectorFloatAndConversionsComplete and RegisterFilesAndMaskedWrites. -/
theorem test_witness_vector : v123.rsv = 0 ∧ v123.rnd = 0 ∧ (runs 0).freeV [1, 2, 3, 1] [] = true ∧ (runs 0).freeV [1, 2, 3] [] = true ∧ (runs 0).freeV [1, 2] [] = true ∧
    (runs 0).freeV [2, 3] [] = true ∧ (runs 0).freeV [1] [2] = true ∧ (runs 0).freeV [2] [1] = true ∧ (runs 0).freeV [] [1] = true ∧ (runs 0).freeV [] [] = true ∧
    1 ≤ v123.vd.toNat ∧ v123.vd.toNat < 8 ∧ v123.va.toNat < 8 ∧ v123.vb.toNat < 8 ∧
    (∀ op ∈ [0, 1, 2, 3, 4, 5, 8, 9, 10, 11, 0x10, 0x11, 0x12, 0x14, 0x15, 0x16, 0x18, 0x19, 0x1A, 0x20, 0x21, 0x22], (one (runs (encVec 2 op v123))).ready 0 (encVec 2 op v123) = true) ∧
    (∀ op ∈ [0, 1, 2, 3, 4, 5, 8, 9, 10, 11], (one (runs (encVec 3 op v123))).ready 0 (encVec 3 op v123) = true) ∧
    (∀ op ∈ [0, 1, 0x10, 0x11, 0x20, 0x21, 0x22, 0x23, 0x24], (one (runs (encVec 4 op v123))).ready 0 (encVec 4 op v123) = true) ∧
    dec32 0x7FC00000 = .nan ∧ dec32 0xFF800001 = .nan := by decide +kernel

/-- Sums of Table 3.5: VADDS clamps, VADD wraps, and a NaN operand gives the quiet NaN (R92). -/
theorem test_vector_results :
    let c (w : W64) : Core := { runs w with vr := ((Vector.replicate 32 (Vector.replicate 64 0)).set 2 (Vector.replicate 64 0x7FFFFFFF)).set 3 (Vector.replicate 64 0x7FC00001) }
    gives (exec (.vadds 0 v123) (one (c (encVec 2 2 v123)))) (fun t => ((t.core 0).V 1)[63] = 0x7FFFFFFF) = true ∧
    gives (exec (.vadd 0 v123) (one (c (encVec 2 0 v123)))) (fun t => ((t.core 0).V 1)[0] = 0xFFC00000) = true ∧
    fadd32 0x3F800000 0x7FC00001 = 0x7FC00000 ∧ fadd32 0x3F800000 0x3F800000 = 0x40000000 ∧ fmul32 0x40000000 0x40400000 = 0x40C00000 := by decide +kernel

/-- Meets the hypotheses of MemoryInstructionsComplete. VLD and VST at both ends of the banks, under M0 and under an empty mask, which needs no bank. -/
theorem test_witness_vectorMemory : (∀ i < 4, (0 : W64).toNat / 2 ^ (16 * i) % 65536 = 0) ∧ ∀ op ∈ [0x30, 0x31], ∀ a ∈ [0, 0x7FFF00], ∀ m ∈ [0, 3],
    let f : VecF := { v123 with mask := m }
    let s := one (regs (encVec 2 op f) a 0 0)
    a % 64 = 0 ∧ a + 255 ≤ 0x7FFFFF ∧ (s.core 0).freeV [1] [1] = true ∧ (s.core 0).freeV [2] [1] = true ∧ ((s.core 0).S f.vc + BitVec.ofNat 64 (f.imm.toNat * 64)).toNat = a ∧
    (∀ i < 4, (s.core 0).bank.clear .vector (a + 64 * i) 64 = true) ∧ s.ready 0 (encVec 2 op f) = true := by decide +kernel

/-- Meets the hypotheses of VectorFloatAndConversionsComplete. -/
theorem test_witness_conversions : ∀ op ∈ [8, 9, 10, 11], ∀ fmt ∈ [0, 5], ∀ r ∈ [0, 1],
    let f : VecF := { v123 with fmt := fmt, rnd := r }
    (one (runs (encVec 4 op f))).ready 0 (encVec 4 op f) = true ∧ f.rsv = 0 ∧ f.rnd.toNat ≤ 1 ∧ f.mask = 0 ∧ f.fmt.toNat ≤ 5 := by decide +kernel

/-- Adapters of rank 16 in the format `af`: the descriptor of tag 0, with A at 0x2000 and B at 0x9000 (Table 3.9). -/
def adpC (op : Nat) (f : VecF) (af : Nat) : Core :=
  { regs (encVec 5 op f) 0 0 0 with adpBase := 0x100000, adpLen := 1, bank := { data := Tab.setRange 0 [] 0x100000 (bytesLE (0x2000 + 2 ^ 32 * 0x9000 + 2 ^ 64 * 16 + 2 ^ 71 + 2 ^ 72 * af) 16) } }

/-- The format of adapter A that goes with the format that the model leaves open for a row record (log 23). -/
def adpFmt (fmt : Nat) : Nat := if fmt = 5 then 5 else 0

/-- What the statement asks of an adapter operation on a row record of zeros, of format `fmt`. -/
def adpHyps (op : Nat) (f : VecF) (fmt : Nat) : Bool :=
  let s := one (adpC op f (adpFmt fmt))
  let c := s.core 0
  let tag := recTag fmt (vregNat (c.V f.va))
  let at_ := c.adpBase + 16 * tag
  let d := adpDesc (Tab.getRange 0 c.bank.data at_ 16)
  let pa := d.a + (c.S f.vc).toNat
  let na := 16 * d.rank * elemBits d.afmt + 4 * d.rank
  let pb := d.b + (c.S f.vc).toNat
  let nb := if d.bfmt = 6 then 256 * d.rank else 128 * d.rank + 128 * ((d.rank + 31) / 32)
  decide (tag < c.adpLen) && decide (at_ + 16 ≤ 0x800000) && c.bank.clear .adapter at_ 16 && d.valid && !d.bad fmt && s.ready 0 (encVec 5 op f) &&
    c.freeV [f.vd, f.va] [f.vc] && decide (0 < na ∧ pa + na ≤ 0x800000) && c.bank.clear .adapter pa na && c.freeV [f.vd, f.va, f.vb] [f.vc] && decide (0 < nb ∧ pb + nb ≤ 0x800000) && c.bank.clear .adapter pb nb

theorem test_adapterRow : ∀ op ∈ [0, 1], ∀ f ∈ [v123, { v123 with imm := 1 }], vregNat ((adpC op f 0).V f.va) = 0 ∧ ∀ fmt < 6, adpHyps op f fmt = true := by decide +kernel

/-- Meets the hypotheses of AdapterCompletes. -/
theorem test_witness_adapter : v123.rsv = 0 ∧ v123.rnd = 0 ∧ v123.mask = 0 ∧ ∀ op ∈ [0, 1], adpHyps op v123 (Config.rowFormat 0 % 6) = true :=
  ⟨rfl, rfl, rfl, fun op h => (test_adapterRow op h v123 (by simp)).2 _ (Nat.mod_lt _ (by decide))⟩

/-- Meets the hypotheses of InstructionTraps. -/
theorem test_witness_scalarTraps :
    ({ runs 0 with seq := { st := .ended } } : Core).fetches = false ∧ ({ runs 0 with ierr := [(0, 3), (0, 70)] } : Core).fetches = true ∧
    ({ runs 0 with ierr := [(0, 3), (0, 70)] } : Core).fetch 0 = none ∧ (runs 0xB000000000000005).fetch 0 = some 0xB000000000000005 ∧ knownWord 0xB000000000000005 = false ∧
    (∀ op ∈ [0, 0x20, 0x21, 0x30, 0x31], (one (runs (encScalar op { s123 with rsv := 1, imm := 7 }))).ready 0 (encScalar op { s123 with rsv := 1, imm := 7 }) = true) ∧
    (∀ a ∈ [1, 0x7FFFFF, 0x800000, 0xFFFFFFFFFFFFFFF8], (one (regs (encScalar 0x20 s123) 0 a 0)).ready 0 (encScalar 0x20 s123) = true ∧ ((regs 0 0 a 0).S 2 + BitVec.ofInt 64 s123.imm.toInt).toNat = a) ∧
    0x7FFFFF % 8 ≠ 0 ∧ 0x800000 % 8 = 0 ∧ 0x7FFFFF < 0x800000 + 7 ∧
    (one (runs (encBranch 0 { sa := 2, cond := 5, ofs := 1 }))).ready 0 (encBranch 0 { sa := 2, cond := 5, ofs := 1 }) = true ∧
    (∀ o ∈ [0, 0xFFFFFFFF], (one (runs (encBranch 1 { sa := 2, ofs := BitVec.ofNat 32 o }))).ready 0 (encBranch 1 { sa := 2, ofs := BitVec.ofNat 32 o }) = true ∧ (BitVec.ofNat 32 o).toInt < 1) ∧
    (one (runs (encBranch 1 { sa := 2, level := 1, ofs := 16383 }))).ready 0 (encBranch 1 { sa := 2, level := 1, ofs := 16383 }) = true ∧ (1#2).toNat ≠ (runs 0).seq.loops.length ∧
    (runs 0).freeS [2] [1] = true ∧ (runs 0).freeS [2, 3] [] = true ∧ (runs 0).freeS [2] [] = true := by decide +kernel

/-- Meets the hypotheses of InstructionTraps. -/
theorem test_witness_vectorTraps :
    (∀ f ∈ [{ v123 with rsv := 1 }, { v123 with rnd := 1 }, { v123 with rnd := 3 }, { v123 with vd := 0 }, { v123 with vd := 8 }, { v123 with va := 8 }, { v123 with mask := 1 }, { v123 with fmt := 6 }],
      (one (runs (encVec 2 0 f))).ready 0 (encVec 2 0 f) = true ∧ (one (runs (encVec 3 0 f))).ready 0 (encVec 3 0 f) = true ∧ (one (runs (encVec 4 10 f))).ready 0 (encVec 4 10 f) = true ∧
      (one (runs (encVec 2 0x18 f))).ready 0 (encVec 2 0x18 f) = true ∧ (one (runs (encVec 4 0x21 f))).ready 0 (encVec 4 0x21 f) = true ∧ (one (runs (encVec 4 8 f))).ready 0 (encVec 4 8 f) = true ∧
      (one (runs (encVec 4 9 f))).ready 0 (encVec 4 9 f) = true ∧ (one (runs (encVec 5 0 f))).ready 0 (encVec 5 0 f) = true) ∧
    (let f : VecF := { vd := 24, va := 31 }
     let s := one { runs (encVec 2 0x21 f) with seq := { st := .running, ord := .stage } }
     s.ready 0 (encVec 2 0x21 f) = true ∧ (s.core 0).seq.ord = .stage ∧ 24 ≤ f.vd.toNat) := by decide +kernel

/-! ## Witnesses: the array, semaphores, ports, landings -/

def a345 : ArrF := { group := 3, fuse := 1, first := 5, n := 7, win := 4, sa := 4 }
def staged (w : W64) : Core := { runs w with seq := { st := .running, ord := .stage } }
def qa (op : ArrOp) : QArr := { pc := 0, op := op }

/-- Meets the hypotheses of ArrayInstructionsQueue. -/
theorem test_witness_arrayQueue :
    (∀ op ∈ [0, 1, 8, 9, 10, 11, 12, 13, 16, 17], (one (staged (encArr op a345))).ready 0 (encArr op a345) = true) ∧ a345.rsv = 0 ∧ (staged 0).arr.q.length < 8 ∧
    (staged 0).seq.ord = .stage ∧ a345.fuse.toNat < 2 ∧ a345.wfmt.toNat ≤ 6 ∧ a345.afmt.toNat ≤ 6 ∧ (staged 0).freeS [a345.sa] [] = true ∧ ((staged 0).S a345.sa).toNat % 64 = 0 ∧
    (staged 0).groupCount 3 = 0 ∧ a345.sa.toNat % 2 = 0 ∧ a345.sa.toNat < 24 ∧ (List.replicate 7 (qa .stage)).length < 8 ∧
    (∀ n ∈ [1, 7, 8], ∀ p ∈ [((2 : Nat), 0), (3, 3), (2, 0x30), (2, 0x31)], let w := encVec p.1 p.2 v123
      let s := one { runs w with vq := List.replicate n { pc := 0, word := encVec 2 0 v123 } }
      s.ready 0 w = true ∧ (s.core 0).seq.ord ≠ .stage ∧ (s.core 0).vq ≠ []) := by decide +kernel

/-- A group of rows 3 to 6: free, open and closed. -/
def grp (x : Group) : Core := { runs 0 with arr := (runs 0).arr.setGroup 7 { x with base := 3, count := 4 } }

/-- Meets the hypotheses of ArrayOperationsComplete. -/
theorem test_witness_arrayHead :
    ((grp {}).arr.group 7).st = .free ∧ 0 < 1277 ∧ 3 + 1277 ≤ 1280 ∧ (runs 0).arr.groups.toList.any (fun x => x.overlaps 3 1277) = false ∧
    (grp { st := .opened }).arr.active = none ∧ (grp { st := .opened }).arr.shadow = none ∧ ((grp { st := .opened }).arr.group 7).st = .opened ∧ 3 + 1 ≤ ((grp { st := .opened }).arr.group 7).count ∧
    ((grp { st := .closed }).arr.group 7).st = .closed ∧ ((grp { st := .closed }).arr.group 7).base ≤ 6 ∧ 6 < ((grp { st := .closed }).arr.group 7).base + ((grp { st := .closed }).arr.group 7).count ∧
    30 + 1 < 32 ∧ ((grp { st := .closed }).arr.group 7).drains = [] ∧ 1279 < 1280 := by decide +kernel

/-- Table 2.6: GOPEN opens the group at its base; a second one over a row of it does not. -/
theorem test_gopen : (match (runs 0).stepArr {} (qa (.gopen 2 5 7)) (fun _ => 0) with | (d, .done) => decide (d.arr.group 2 = { st := .opened, base := 5, count := 7 }) | _ => false) = true ∧
    ((grp { st := .opened }).arr.groups.toList.any (fun x => x.overlaps 6 1)) = true ∧ ((grp { st := .opened }).arr.groups.toList.any (fun x => x.overlaps 7 1)) = false := by decide +kernel

/-- Meets the hypotheses of ArrayOperationsComplete. -/
theorem test_witness_arrayEvents :
    let t : Tile := { sfmt := 0, efmt := 1, vals := 12345, scales := 127 }
    let bad : Tile := { sfmt := 4, efmt := 2, headed := true, codes := 4, nnz := 2 }
    let tile (t : Tile) : Core := { runs 0 with arr := { (runs 0).arr with shadow := some t } }
    let g (x : Group) (q : List ArrOp) : Core := { runs 0 with arr := { (runs 0).arr.setGroup 7 x with q := q.map qa } }
    (tile t).arr.shadow = some t ∧ (tile t).arr.shadowReady = false ∧ t.codeFault = none ∧ (tile bad).arr.shadowReady = false ∧ bad.codeFault.isSome = true ∧
    ((g { st := .opened, closing := true } [.gclose 7]).arr.group 7).closing = true ∧ (runs 0).arr.pend = [] ∧
    ((g { st := .closed, drains := [true] } []).arr.group 7).drains = true :: [] ∧
    ((g { st := .closed, releasing := true } [.grel 7]).arr.group 7).releasing = true ∧ ((g { st := .closed, releasing := true } [.grel 7]).arr.group 7).drains = [] ∧
    (∀ op ∈ [ArrOp.stage, .unstage], (g { drains := [false] } [op]).arr.q = qa op :: [] ∧ (∀ h < 8, true ∉ ((g { drains := [false] } [op]).arr.group h).drains) ∧
      ({ g {} [op] with seq := { stageReq := true, unstageReq := true } } : Core).seq.stageReq = true) := by decide +kernel

/-- Meets the hypotheses of CheckLaneCompares. -/
theorem test_witness_checkLane :
    let b : BlkChk := { sOut := 0x41000000, sChk := 0x3F800000, m := 0x3F800000 }
    let r : RowChk := { group := 2, row := 7, blocks := [b] }
    let c : Core := { runs 0 with arr := { (runs 0).arr with pend := [r] } }
    disagrees false b = true ∧ disagrees false { b with sOut := 0x3F800000 } = false ∧ (∀ o ∈ [true, false], ∀ k ∈ [true, false], (({ off := o } : Chk).off || ({ b with skip := k } : BlkChk).skip) = (o || k)) ∧
    (∀ v ∈ [true, false], ({ record := { valid := v, body := {}, cycle := { tick := 3, ofs := 7 } } } : Chk).record.valid = v) ∧ ({ tick := 3, ofs := 7 } : Stamp) ≠ base.coreNow ∧
    ((one c).core 0).arr.pend = r :: [] ∧ (one c).partOfSite 0 = none ∧ (withP part0).partOfSite 0 = some 2 ∧ (!c.chk.off && r.blocks.any (fun b => !b.skip && (c.chk.inj || disagrees (decide (r.wfmt = 5)) b))) = true ∧
    ((withP part0).core 0).arr.pend = [] := by decide +kernel

def y5 : SyncF := { sem := 5, imm := 100 }

/-- Meets the hypotheses of SyncCompletes. -/
theorem test_witness_sync :
    (∀ l ∈ [0, 99, 100, 65435, 65436, 65535], (one ((runs (encSync 0 y5)).setL 5 (BitVec.ofNat 16 l))).ready 0 (encSync 0 y5) = true ∧
      (one ((runs (encSync 1 y5)).setL 5 (BitVec.ofNat 16 l))).ready 0 (encSync 1 y5) = true) ∧
    65435 + y5.imm.toNat ≤ 65535 ∧ 65535 < 65436 + y5.imm.toNat ∧ (((runs 0).setL 5 100).L 5).toNat = 100 ∧ (((runs 0).setL 5 99).L 5).toNat < y5.imm.toNat ∧
    (one (runs (encSync 2 {}))).ready 0 (encSync 2 {}) = true ∧
    (∀ own ∈ [true, false], ∀ f ∈ [({ col := 9, imm := 0x20 } : SyncF), { col := 9, imm := 0xFFE0, sa := 2 }],
      let c : Core := { runs (encSync 0x10 f) with col := [(9, { show_ := .ok, own := own })] }
      (one c).ready 0 (encSync 0x10 f) = true ∧ (c.copyOf 9).own = own ∧ c.freeS [f.sa] [] = true ∧ 0 < f.imm.toNat / 32 ∧ f.imm.toNat % 32 = 0) ∧
    (∀ sh ∈ [ColShow.ok, .okLate, .expired, .unresolved], ∀ op ∈ [0x11, 0x12], ∀ st ∈ [SeqSt.running, .waiting],
      let f : SyncF := { col := 9, imm := if op = 0x11 then 31 else 0x25 }
      let c := { runs (encSync op f) with col := [(9, { show_ := sh, own := true })], seq := { st := st } }
      (one c).ready 0 (encSync op f) = true ∧ (c.copyOf 9).own = true ∧ (c.copyOf 9).show_ = sh ∧ c.freeS [] [colReg f] = true ∧ c.freeS [f.sa] [colReg f] = true ∧ (op = 0x11 ∨ 0 < f.imm.toNat / 32)) := by decide +kernel

/-- Meets the hypotheses of SyncCompletes. -/
theorem test_witness_waits :
    let w : Core := { (runs (encSync 1 { y5 with cause := 3 })).setL 5 100 with seq := { st := .waiting, wcause := 3 } }
    let e (q : List QArr) : Core := { runs 0 with seq := { st := .running, endIssued := true }, arr := { (runs 0).arr with q := q } }
    w.seq.st = .waiting ∧ w.seq.endIssued = false ∧ w.fetch w.seq.pc = some (encSync 1 { y5 with cause := 3 }) ∧ y5.imm.toNat ≤ (w.L 5).toNat ∧
    (e []).seq.endIssued = true ∧ (e []).seq.st = .running ∧ (e []).arr.q = [] ∧ (e []).vq = [] ∧ (e []).arr.pend = [] ∧ (∀ g < 8, ((e []).arr.group g).drains = []) ∧ (e []).arr.shadow = none ∧ (e [qa .stage]).arr.q ≠ [] := by decide +kernel

/-- A core of partition 2 with a destination entry 5 and operands in S1 to S3. -/
def ported (w : W64) (a b c : Nat) (d : Dest) : State := (withP part0).putCore 0 { regs w a b c with dest := [(5, d)] }
def n123 : NetF := { sa := 1, sb := 2, sc := 3, sem := 6, win := 4, vc := 3, rid := 17 }

/-- Meets the hypotheses of QueuedInstructionsComplete. -/
theorem test_witness_network :
    (∀ n ∈ [64, 0x800000], ∀ d ∈ [({ kind := 4, field := 3 } : Dest), { kind := 1, site := 3, win := 3 }],
      let s := ported (encNet 0 n123) 0 5 n d
      s.ready 0 (encNet 0 n123) = true ∧ (s.core 0).net = [] ∧ (s.core 0).freeS [1, 2, 3] [] = true ∧ 64 ≤ n ∧ n % 64 = 0 ∧ ((s.core 0).destOf (((s.core 0).S 2).toNat % 64)).kind = d.kind ∧
      (d.kind = 4 ∨ s.validTarget 0 d = true)) ∧
    (let s := ported (encNet 0 n123) 0x1000 (5 + 64 * 2 ^ 32) 64 { kind := 0, site := 3, addr := 0x2000 }
     s.validTarget 0 ((s.core 0).destOf 5) = true ∧ ((s.core 0).S 2).toNat % 64 = 5 ∧ ((s.core 0).S 2).toNat / 2 ^ 32 % 64 = 0 ∧ 0x2000 + 64 + 64 ≤ 0x800000) ∧
    (∀ op ∈ [1, 2, 3, 4], (ported (encNet op { n123 with vc := 0 }) 0x1000 5 256 { kind := 2 }).ready 0 (encNet op { n123 with vc := 0 }) = true) ∧
    (((withP part0).withField 0 (fun x => { x with routers := x.routers.set 0 { red := [(17, { len := 2 })] } })).redLen 0 17 = 2 ∧ 256 % (128 * 2) = 0) ∧
    (ported (encNet 2 { n123 with vc := 0, w := 1 }) 0 5 20 { kind := 3 }).ready 0 (encNet 2 { n123 with vc := 0, w := 1 }) = true ∧ 20 % 16 ≠ 0 ∧
    (∀ op ≤ 2, ({ runs 0 with net := [{ op := op }] } : Core).net.head? = some { op := op }) := by decide +kernel

def dm (xp : BitVec 3) : DmaF := { sa := 1, sb := 2, sc := 3, sem := 6, win := 4, xp := xp }

/-- Meets the hypotheses of QueuedInstructionsComplete. -/
theorem test_witness_dma :
    (∀ op ∈ [0, 1, 2, 3], ∀ xp ∈ [0, 3, 4], (one (regs (encDma op (dm xp)) 0x1000 0x2000 0x80)).ready 0 (encDma op (dm xp)) = true) ∧ (regs 0 0x1000 0x2000 0x80).freeS [1, 2, 3] [] = true ∧
    (one (regs 0 0x1000 0x2000 0x80)).dmaJudge 0 { op := 0, sa := 0x1000, sb := 0x2000, sc := 0x80 } = none ∧
    (one (regs (encDma 1 { dm 1 with fmt := 7 }) 0 0 64)).ready 0 (encDma 1 { dm 1 with fmt := 7 }) = true ∧
    ((regs 0 0x1001 0 0).S 1).toNat % 64 ≠ 0 ∧ (runs 0).dma = [] ∧ (runs 0).dma.length < 16 := by decide +kernel

/-- A window of 1 KiB at 0x4000, of which 512 bytes are filled. -/
def win4 : Vector Win 16 := (Vector.replicate 16 ({} : Win)).set 4 { base := 0x4000, size := 1024, head := 512 }
def reg0 : Region := { en := true, kind := 1, part := 2, base := 4096, len := 4, grad := 2, map := 64, rule := 3 }

/-- Meets the hypotheses of TransfersAndLandingsComplete. -/
theorem test_witness_transfers :
    let s (h : DmaOp) : State := ((withP part0).putCore 0 { runs 0 with dma := [h], win := win4 }).withField 0 (fun x => { x with regions := [(5, reg0)] })
    let f := (s {}).field 0
    let w := ((s {}).core 0).window 4
    (∀ op ∈ [0, 1, 2, 3], ∀ b ∈ [true, false], let h : DmaOp := { op := op, sa := 0, sb := if op = 2 then 8192 else if op = 3 then 0 else 0x7FFFC0, sc := 64, sem := 63, win := 4, w := b }
      ((s h).core 0).dma = h :: [] ∧ (((s h).core 0).L 63).toNat < 65535 ∧ h.dstBytes f - h.moved = 64 ∧ ((s h).core 0).bank.clear .dma h.sa.toNat 64 = true) ∧
    (s {}).core 0 ≠ {} ∧ ((s {}).core 0).bank.clear .dma 0x7FFFC0 64 = true ∧ w.head < 2 * w.size ∧ w.tail < 2 * w.size ∧ 64 ≤ w.space ∧ 64 ≤ w.fill ∧
    ((s {}).core 0).windowClear .dma w w.head 64 = true ∧ ((s {}).core 0).windowClear .dma w w.tail 64 = true ∧
    (match hrdBytes { op := 1, sa := 0, sc := 64 } f 64 with | .ok bs => decide (bs.length = 64) | _ => false) = true ∧ 8192 < bindingUnit ∧ f.upe.phase.toList.getD (f.region 0).part .collect = .collect ∧
    gives (exec (.dmaComplete 0) (one { runs 0 with dma := [{ op := 0, sa := 0, sb := 0x7FFFC0, sc := 64, sem := 63 }], bank := { data := [(3, 7)] } })) (fun t => Tab.get 0 (t.core 0).bank.data 0x7FFFC3 = 7 && (t.core 0).L 63 = 1) = true := by decide +kernel

/-- Meets the hypotheses of TransfersAndLandingsComplete. -/
theorem test_witness_sends :
    let s (h : NetOp) (d : Dest) : State := (withP part0).putCore 0 { runs 0 with net := [h], win := win4, dest := [(5, d)] }
    let w := ((s {} {}).core 0).window 4
    (∀ b ∈ [true, false], ∀ d ∈ [({ kind := 0, site := 3, addr := 0x8000 } : Dest), { kind := 1, site := 3, win := 4 }, { kind := 4, coll := 7 }, { kind := 4, coll := 0 }],
      let h : NetOp := { op := 0, sa := 0x1000, sb := 5, sc := 192, moved := 64, sem := 63, win := 4, w := b, vc := 3 }
      ((s h d).core 0).net = h :: [] ∧ ((s h d).core 0).destOf 5 = d ∧ 0 < h.sc.toNat - h.moved ∧ h.sc.toNat - h.moved ≤ 2048 ∧ (s h d).buffered (routerOf 0) (lPort 0) 3 + 1 ≤ meshBuffer 3 ∧
      ((s h d).core 0).bank.clear .net 0x1040 128 = true ∧ d.sop.toNat / 2 ^ 56 ≠ 1) ∧
    w.tail < 2 * w.size ∧ 128 ≤ w.fill ∧ ((s {} {}).core 0).windowClear .net w w.tail 128 = true ∧ (((s {} {}).core 0).L 63).toNat < 65535 ∧
    (let t := (s { op := 1, sc := 256, rid := 17 } {}).withField 0 (fun x => { x with routers := x.routers.set 0 { red := [(17, { len := 2 })] } })
     256 ≤ 128 * t.redLen 0 17 ∧ t.buffered (routerOf 0) (lPort 0) 1 + 2 ≤ meshBuffer 1) := by decide +kernel

def pk0 : MeshPkt := { src := 3, kind := 0, dst := 0, addr := 0x7FFFC0, vc := 3, bytes := List.replicate 64 9, rsemEn := true, rsem := 63 }
def landS (x : Part) (ps : List MeshPkt) : State :=
  { (withP x).putCore 0 { runs 0 with rx := [(17, { on := true, win := 4, sem := 9 })], win := win4, bank := { writeBack := [64, 65], err := [(64 * 68 + 3, 0x55), (65 * 68 + 3, 0x77), (65 * 68 + 9, 0x76), (65 * 68 + 20, 1)] } } with mesh := ps }

def land0 : State := landS part0 [{ pk0 with dst := 9 }, pk0, { pk0 with kind := 5 }]
def landWin : Win := (land0.core 0).window 4

/-- Meets the hypotheses of TransfersAndLandingsComplete. -/
theorem test_witness_landings :
    land0.mesh = [{ pk0 with dst := 9 }] ++ pk0 :: [{ pk0 with kind := 5 }] ∧ pk0.last = true ∧
    land0.partOfSite 0 = some 2 ∧ (land0.part 2).started = true ∧ ((landS { part0 with started := false } []).part 2).started = false ∧ (landS { part0 with terraces := 8 } []).partOfSite 0 = none ∧
    (land0.core 0).bank.clear .net 0x7FFFC0 64 = true ∧ ((land0.core 0).L 63).toNat < 65535 ∧ landWin.head < 2 * landWin.size ∧ 64 ≤ landWin.space ∧
    (land0.core 0).windowClear .net landWin landWin.head 64 = true ∧ (Tab.get ({} : RxBind) (land0.core 0).rx 16).on = false ∧ (Tab.get ({} : RxBind) (land0.core 0).rx 17).on = true ∧ 4 * 128 ≤ landWin.space ∧ landWin.space < 4 * 160 ∧
    (land0.core 0).windowClear .net landWin landWin.head 512 = true := by decide +kernel

/-- Meets the hypotheses of TransfersAndLandingsComplete. A word with one wrong symbol and one with three, both with a write-back waiting (R118, R119). -/
theorem test_witness_writeBack :
    (land0.core 0).bank.writeBack.contains 64 = true ∧ ((land0.core 0).bank.decoded 64).isSome = true ∧ (land0.core 0).bank.writeBack.contains 65 = true ∧ (land0.core 0).bank.writeBack.contains 66 = false := by decide +kernel

theorem test_gfMul_zero : ∀ (n : Nat) (b : Byte), gfMulAux n 0#8 b 0#8 = 0#8
  | 0, _ => rfl
  | n + 1, b => by
    have h : gfX 0#8 = 0#8 := by decide
    simp only [gfMulAux, h]
    cases b.getLsbD 0 <;> simpa using test_gfMul_zero n _

/-- Three wrong symbols whose first two syndromes are 0 fit no correction of two (R119). -/
theorem test_uncorrectable : rsCorrection [(3, 0x77#8), (9, 0x76#8), (20, 1#8)] = none := by
  have h0 : rsSyndrome [(3, 0x77#8), (9, 0x76#8), (20, 1#8)] 0 = 0#8 := by decide +kernel
  have h1 : rsSyndrome [(3, 0x77#8), (9, 0x76#8), (20, 1#8)] 1 = 0#8 := by decide +kernel
  have h2 : rsSyndrome [(3, 0x77#8), (9, 0x76#8), (20, 1#8)] 2 ≠ 0#8 := by decide +kernel
  have f1 : ∀ s2 s3 i, rsFit1 0#8 0#8 s2 s3 i = none := fun _ _ _ => by simp [rsFit1]
  have f2 : ∀ s2 s3 i j, rsFit2 0#8 0#8 s2 s3 i j = none := fun s2 s3 i j => by
    have : ∀ x, gfMul 0#8 x = 0#8 := test_gfMul_zero 8
    simp [rsFit2, this]
  have g1 : ∀ s2 s3 l, List.findSome? (rsFit1 0#8 0#8 s2 s3) l = none := fun s2 s3 l => List.findSome?_eq_none_iff.2 (fun i _ => f1 s2 s3 i)
  have g2 : ∀ s2 s3 i l, List.findSome? (rsFit2 0#8 0#8 s2 s3 i) l = none := fun s2 s3 i l => List.findSome?_eq_none_iff.2 (fun j _ => f2 s2 s3 i j)
  rw [rsCorrection, h0, h1, if_neg (fun h => h2 h.2.2.1), g1]
  exact List.findSome?_eq_none_iff.2 (fun i _ => g2 _ _ i _)

theorem test_threeWrong (b : Bank) (w : Nat) (h : b.errOf w = [(3, 0x77#8), (9, 0x76#8), (20, 1#8)]) : b.decoded w = none := by
  have e : ∀ l, rsCorrection l = none → b.errOf w = l → l ≠ [] → b.decoded w = none := by
    intro l hl he hn
    unfold Bank.decoded
    rw [he]
    split
    · exact absurd rfl hn
    · rw [hl]
  exact e _ test_uncorrectable h (List.cons_ne_nil _ _)

theorem test_landErr : (land0.core 0).bank.errOf 65 = [(3, 0x77#8), (9, 0x76#8), (20, 1#8)] := by decide +kernel

/-- Meets the hypotheses of TransfersAndLandingsComplete. -/
theorem test_witness_uncorrectable : (land0.core 0).bank.decoded 65 = none := test_threeWrong _ _ test_landErr

/-! ## Witnesses: banks, counters, records -/

def hot : State := (withP { part0 with diag := true }).setCore 0 { runs 0 with bank := { march := { maskReg := 0x80000001 } } }

/-- Meets the hypotheses of BankReadAfterWrite, OneWrongSymbolCorrected and BankOwnerRule. -/
theorem test_witness_banks : (∀ i ∈ [0, 67], ∀ r ∈ [Req.vector, .host], let b : Bank := { own := if r = .host then 0xAAAAAAAAAAAAAAAA else 0, err := [(68 * 9 + i, 0x80)] }
      b.errOf 9 = [(i, 0x80)] ∧ b.grant r 9 = .ok () ∧ b.shared r base.coreNow 9 = false ∧
      ({ b with counted := [(9, (if r = .host then Req.vector else .host).code, base.coreNow)] } : Bank).shared r base.coreNow 9 = true) ∧
    (List.replicate 64 (0 : Byte)).length = 64 ∧ ({} : Bank).busy.getLsbD (bankOf 9) = false ∧ ({ busy := 0x00000200 } : Bank).busy.getLsbD (bankOf (9 * 2)) = false ∧ ({ busy := BitVec.allOnes 32 } : Bank).busy.getLsbD (bankOf 131071) = true := by decide +kernel

/-- Meets the hypotheses of BankControlCompletes. -/
theorem test_witness_bankControl :
    base.allows none = true ∧ base.allows (some 0) = true ∧ base.allows (some 1) = false ∧ base.pwr.env.pending = false ∧ base.rck.stage ≠ 9 ∧ base.fw.flight = [] ∧ (∀ p < 16, (base.part p).rcv.spares = [] ∧ (base.part p).rcv.active = false) ∧
    (base.ter 0).st ≠ .zeroing ∧ base.site 0 = .enabled ∧
    (let s := ({ base with fields := [(0, { ter := #v[{ st := .zeroing }, { st := .off }] })] } : State).setCore 0 { runs 0 with bank := { waking := true } }
     (s.core 0).bank.waking = true ∧ (s.ter 0).st = .zeroing ∧ (∀ j ∈ s.enabledOn 0, j ≠ 0 → (s.core j).bank.waking = false)) := by decide +kernel

/-- Meets the hypotheses of BankControlCompletes. -/
theorem test_witness_bankOperations : ∀ j ∈ [0, 31],
    (∀ code ∈ [1, 2, 3], ({} : Bank).secure.getLsbD j = false ∧ ({} : Bank).secSet.getLsbD j = false ∧ ({} : Bank).pend.getLsbD j = false ∧ ({} : Bank).late.getLsbD j = false ∧ ownOf ({} : Bank).own j ≠ code ∧
      ({} : Bank).busy.getLsbD j = false ∧ ({ busy := BitVec.allOnes 32 } : Bank).busy.getLsbD j = true) ∧
    ({ secure := BitVec.allOnes 32 } : Bank).secure.getLsbD j = true ∧ ({ pend := BitVec.allOnes 32 } : Bank).pend.getLsbD j = true ∧
    (let b : Bank := { wiping := 1#32 <<< j, secClr := BitVec.allOnes 32 }
     b.wiping.getLsbD j = true ∧ (∀ i ∈ List.range j, b.wiping.getLsbD i = false) ∧ b.secClr.getLsbD j = true ∧ b.waking = false ∧ b.march.running = false) ∧
    ({ waking := true } : Bank).march.running = false ∧ ({ secure := 1#32 <<< j } : Bank).secure &&& ~~~(BitVec.allOnes 32) = 0 ∧ ({ secure := 1#32 <<< j } : Bank).secure.getLsbD j = true ∧
    ownOf ({} : Bank).own j = 0 := by decide +kernel

/-- An owner field of HOST. -/
theorem test_ownOf_host : ownOf 0xAAAAAAAAAAAAAAAA 31 = 2 := by decide +kernel

/-- Meets the hypotheses of MarchCompletes. -/
theorem test_witness_march :
    (hot.core 0).bank.march.running = false ∧ hot.dark 0 = false ∧ ((List.range 32).filter (hot.core 0).bank.march.maskReg.getLsbD).head? = some 0 ∧ hot.dark 2047 = true ∧
    (∀ p < 16, (hot.part p).rcv.march = []) ∧ hot.fw.flight = [] ∧ hot.allows none = true ∧ hot.allows (some 1) = false ∧ ({} : March).maskReg = 0 ∧ ({ abortFail := none } : March).fail = false ∧ hot.partOfSite 64 = none ∧ hot.partOfSite 0 = some 2 ∧ (hot.part 2).diag = true ∧ (withP part0).partOfSite 0 = some 2 ∧ ((withP part0).part 2).diag = false ∧
    gives (exec (.marchStart none 0) hot) (fun s => (s.core 0).bank.march.running && !(s.core 0).bank.march.aborting && !(s.core 0).bank.march.runMode && (s.core 0).bank.march.todo = [31] &&
      (s.core 0).bank.march.bank < 32 && (s.core 0).bank.wiping = 0 && !(s.core 0).bank.waking &&
      gives (exec (.marchAbort (some 0) 0 2 9 none) s) (fun t => (t.core 0).bank.march.running && (t.core 0).bank.march.aborting)) = true := by decide +kernel

/-- Meets the hypotheses of ClearsAndLatchesComplete. R20: firmware and the owner act, and only from READY on. -/
theorem test_witness_clears : base.allows none = true ∧ base.allows (some 0) = true ∧ base.allows (some 2) = false ∧ ({} : State).allows (some 0) = false ∧ base.rck.ready = true ∧ ({} : State).rck.ready = false ∧
    2 ^ 32 - 1 < 2 ^ 32 ∧
    gives (exec (.clrEvents (some 0) 5 (2 ^ 32 - 1)) base) (fun t => (t.core 5).chk.events = 0xFFFFFFFF) = true := by decide +kernel

/-- R75: the high half latched by the read of the low half. -/
theorem test_latching_read : gives (exec (.tickLoRead 1) { base with tg := { base.tg with tick := 0x123400000005, ofs := 9 } }) (fun t => t.tg.tickHi = 0x1234 && t.tg.tickOfs = 9) = true := by decide +kernel

/-! ## Witnesses: time, registers, the reference, resets -/

def cold (stage : Nat) : State := { rck := { held := none, stage := stage, stable := true, trimValid := true } }

/-- Meets the hypotheses of TimeCommandsComplete. -/
theorem test_witness_time : (∀ p < 16, (base.part p).started = false) ∧ ((withP part0).part 2).started = true ∧ base.pwr.env.pending = false ∧ base.pwr.env.forced = false ∧
    base.allowsRck none = true ∧ base.allowsRck (some 0) = true ∧ base.allowsRck (some 1) = false ∧ base.tg.running = true ∧ base.tg.period ≠ 0 ∧ ({} : State).tg.running = false ∧
    (∀ sel ∈ [0, 47, 52, 53, 55, 56, 63], ({ base with rck := { base.rck with fmcRunning := true, fmcSel := sel } } : State).rck.fmcRunning = true) ∧ (base.field 0).pwr.pll = true ∧
    base.quiet = true ∧ base.wf = true ∧ (∀ c ∈ base.cores, c.2.msgs = []) ∧ base.fw.flight = [] ∧ base.cols = [] ∧ (∀ p < 16, (base.part p).startAt = none ∧ (base.part p).stopAt = none) ∧
    (∀ x < 96, (base.ter x).st ≠ .ready ∧ (base.ter x).darkAt = none) ∧
    (∀ b ∈ [0, 176001], ∀ f ∈ [true, false], let s : State := { base with div := { current := 31, target := 32 }, pwr := { base.pwr with env := { pending := !f, forced := f }, paced := [(50000000, b)] } }
      s.pwr.env.pending = !f ∧ s.pwr.env.forced = f ∧ s.pwr.env.tPoint < 5 ∧ s.div.current ≠ s.div.target ∧ s.paceOk s.dividerDraw = (b == 0 : Bool)) := by decide +kernel

/-- R359, R183: the ends of the ranges. -/
theorem test_time : gives (exec (.rckDivWrite 15) base) (fun t => t.div.bad && t.div.target = base.div.target) = true ∧ gives (exec (.rckDivWrite 16) base) (fun t => t.div.target = 16) = true ∧
    gives (exec (.fmcGateClose 9) { base with rck := { base.rck with fmcRunning := true, fmcSel := 47 } }) (fun t => t.rck.fmcNoclk) = true ∧
    gives (exec (.tickPeriodWrite 50000) base) (fun t => t.tg.nextPeriod = some 50000) = true ∧ gives (exec (.tickPeriodWrite 50001) base) (fun t => t.tg.nextPeriod = none) = true ∧
    gives (exec (.tickEdge []) base) (fun t => t.tg.tick = 45 && t.tg.cyc = 50000000 + 120000) = true := by decide +kernel

/-- Meets the hypotheses of TimeCommandsComplete. -/
theorem test_witness_tickMessages : (∀ e ∈ [45, 2 ^ 48 - 1], base.tg.tick.toNat < (BitVec.ofNat 48 e).toNat) ∧ (∀ e ∈ [0, 44], (BitVec.ofNat 48 e).toNat ≤ base.tg.tick.toNat) ∧
    ({ sched := [{ addr := 3 }], msgs := [(.start, 45)] } : Core).seq.st = .stopped ∧ ({ sched := [{ addr := 3 }] } : Core).sched ≠ [] ∧
    ∀ m ∈ [TickMsg.stop, .hold, .lift, .start], ({ msgs := [(m, 45)] } : Core).msgs = [(m, 45)] ∧ (46#48) ≠ 45 := by decide +kernel

/-- Meets the hypotheses of RegisterWritesComplete. -/
theorem test_witness_registers : base.host.owner = (0 : Fin 3).val ∧ base.host.owner ≠ (1 : Fin 3).val ∧ ({} : State).rck.ready = false ∧ base.allows (some 0) = true ∧ 0x400103 % 4 ≠ 0 ∧ 0x400104 % 8 ≠ 0 ∧ 0x400100 % 8 = 0 ∧
    0x4000F8 + 4 < 0x400100 ∧ 0x400180 ≤ 0x400180 ∧ (∃ t, exec (.registerWrite 0 0x400100 false 5) base = .next t) ∧
    (let s : State := { base with sec := { src := 1, cfg := 0xAB } }
     (∀ i < 4, ({} : State).sec.src.getLsbD i = false) ∧ s.sec.src.getLsbD 0 = true ∧ 2 ≤ s.sec.levelOf 1 ∧ ¬ 2 ≤ ({ src := 1, cfg := 0xA7 } : Sec).levelOf 2) ∧
    (base.ring 1).en = false ∧ (base.ring 0).en = true ∧ (0 : Fin 2) ≠ 1 := ⟨rfl, by decide +kernel, rfl, rfl, by decide, by decide, by decide, by decide, by decide, ⟨_, rfl⟩, by decide +kernel, by decide +kernel, by decide +kernel, by decide⟩

/-- R375: a timeout outside 10 to 60,000 takes the nearer end. -/
theorem test_register_write : gives (exec (.registerWrite 0 0x400004 false 9) base) (fun t => t.host.timeout = 10) = true ∧ gives (exec (.registerWrite 0 0x400004 false 60001) base) (fun t => t.host.timeout = 60000) = true ∧
    gives (exec (.registerWrite 1 0x400004 false 9) base) (fun t => t = base) = true := by decide +kernel

/-- Meets the hypotheses of ReferenceCommandsComplete. -/
theorem test_witness_reference :
    (∀ c ∈ [(1 : Fin 4), 2, 3], let s : State := { rck := { stage := 2, held := none, oscRun := true, a3 := true, h4 := true, refSel := c.val } }
      c ≠ 0 ∧ s.rck.stage = 2 ∧ s.rck.held = none ∧ s.rck.failed = false ∧ s.rck.stable = false ∧ s.rck.present c = true ∧ s.rck.refSel = c.val) ∧
    (let s : State := { rck := { stage := 2, held := none, oscRun := true, a3 := true, judgedBad := [1] } }
     s.rck.refSel = 0 ∧ (∀ i < 2, 1 ≤ i → s.rck.present i = false ∨ i ∈ s.rck.judgedBad) ∧ s.rck.present 2 = true ∧ s.rck.present 1 = true ∧ 1 ∉ ({ s.rck with judgedBad := [] } : Rck).judgedBad) ∧
    ({ stable := true, active := 2 } : Rck).active = (2 : Fin 4).val ∧ base.rck.stable = true ∧ base.wf = true ∧ ({} : State).rck.stable = false ∧ base.rck.held = none ∧ 4 ≤ base.rck.stage ∧ (base.field 0).pwr.lost = false ∧ (base.field 0).pwr.pll = true ∧
    (cold 4).rck.stage = 4 ∧ (cold 4).rck.held = none ∧ ((cold 4).field 47).pwr.pll = false ∧ ((cold 4).field 47).pwr.lost = false := by decide +kernel

/-- R354: the window of a reference that is measured against another. -/
theorem test_refJudge : let s : State := { rck := { stage := 2, held := none, oscRun := true, a3 := true, refSel := 2 } }
    gives (exec (.refJudge 2 98000) s) (fun t => t.rck.stable || t.rck.failed) = true ∧ gives (exec (.refJudge 2 97999) s) (fun t => t.rck.failed && !t.rck.stable) = true := by decide +kernel

/-- Meets the hypotheses of ResetCommandsComplete. -/
theorem test_witness_resets : base.host.owner ≠ (1 : Fin 2).val ∧ base.host.owner = (0 : Fin 2).val ∧ base.sec.erasePending = false ∧ ({ base with rck := { base.rck with warmAt := true } } : State).rck.warmAt = true ∧
    base.rck.held = none ∧ 3 ≤ base.rck.stage ∧ (cold 3).tg.running = false ∧ 3 ≤ (cold 3).rck.stage ∧ (let s : State := { rck := { held := some 1 }, pwr := { vbus := 1139 } }; s.rck.held = some 1 ∧ s.pwr.vbus < 1140) ∧
    ({ rck := { held := some 9, coldWanted := true } } : State).rck.coldWanted = true ∧ (∀ c ∈ (cold 0x10).cores, c.2.bank.wiping = 0) ∧
    (let s : State := { rck := { stage := 1, held := none } }
     s.rck.stage = 1 ∧ s.rck.held = none ∧ s.rck.trimFault = false ∧ s.rck.trimValid = false ∧ s.rck.loadingB = false) ∧ base.rck.trimValid = true := by decide +kernel

/-- Meets the hypotheses of BringupCompletes. -/
theorem test_witness_bringup :
    (∀ st ∈ [2, 3, 4, 5, 7, 8, 9], (cold st).rck.held = none ∧ (cold st).rck.failed = false ∧ (cold st).rck.ready = false ∧ (cold st).rck.trimFault = false ∧ (cold st).rck.stage = st) ∧
    (cold 2).rck.stable = true ∧ ({} : StageInfo).badFields = [] ∧ ({} : StageInfo).badPhases = [] ∧ ({} : StageInfo).badSites = [] ∧
    (∀ f < 48, ((cold 5).field f).pwr.lost = false ∧ ((cold 5).field f).pwr.mif = .off) ∧
    (let s : State := { cold 9 with pwr := { holdupOk := true }, fields := (List.range 48).map (fun f => (f, { ter := #v[{ st := .lit }, { st := .lit }] })) }
     s.pwr.holdupOk = true ∧ ∀ t < 96, s.lightSettled t = true) := by decide +kernel

/-- Meets the hypotheses of BringupCompletes. -/
theorem test_witness_takeover : ({ sec := { coresOk := 7, noStandby := false, active := 0, standby := 1 } } : State).sec.coresOk ≠ 0 ∧
    gives (exec .standbyTakeover { sec := { coresOk := 7, noStandby := false, active := 0, standby := 1 } }) (fun t => t.sec.active = 1 && t.sec.standby = 2) = true := by decide +kernel

/-! ## Witnesses: power -/

def ter0 (x : Ter) : State := base.withTer 0 (fun _ => x)
def lit90 : State := { fields := (List.range 45).map (fun f => (f, { ter := #v[{ st := .lit }, { st := .lit }] })) }

/-- Meets the hypotheses of PowerEventsComplete. -/
theorem test_witness_power :
    ({ ter0 {} with pwr := { holdupOk := true, vbus := 1080 }, tg := { base.tg with ofs := 0 } } : State).mayLight 0 = true ∧ ((ter0 {}).field 0).pwr.trn = .on ∧
    (∀ n ∈ [0, 63], ((ter0 { st := .switching, switches := n }).ter 0).st = .switching ∧ ((ter0 { st := .switching, switches := n }).ter 0).hold = false ∧ n < 64) ∧
    (∀ p ∈ [(0, 47600000), (2400000, 50000000)], let x := (ter0 { st := .switching, hold := true, heldCyc := p.1, holdSince := BitVec.ofNat 64 p.2 }).ter 0
      x.st = .switching ∧ x.hold = true ∧ x.heldCyc + (base.tg.cyc - x.holdSince).toNat = 2400000) ∧ (ter0 {}).fw.flight = [] ∧
    (let s := flies (ter0 { st := .switching, hold := true, heldCyc := 2400000 }) (pkt 0x0602) (.terraces 3 true 0)
     s.fw.flight = [{ f := { pkt := pkt 0x0602, owner := true }, kind := .terraces 3 true 0 }] ∧ (3#96).getLsbD 0 = true ∧ (3#96) ≠ 1#96 <<< 0) ∧ ((ter0 { st := .stopping }).field 0).pwr.trnOffAt = none ∧
    (base.field 0).pwr.trn = .on ∧ base.lit 0 = true ∧ (base.ter 0).darkAt = none ∧ (base.ter 0).hotRun[7] < 2 ∧ ({ base.pwr with warn := 95 } : Pwr).warn = 95 ∧ (109 < 110 ∧ 114 < 115 ∧ 104 < 105 ∧ 124 < 125) ∧
    ({ rck := { held := none, stage := 1 } } : State).rck.stage < 4 ∧
    (∀ b ∈ [0, 176000], let s : State := { base with pwr := { base.pwr with vddMv := 690, vddTarget := 700, env := { pending := true }, paced := [(50000000, b)] } }
      s.pwr.env.pending = true ∧ (700 : Nat) ≠ s.pwr.vddMv ∧ s.paceOk (s.vddDraw 700) = (b == 0 : Bool)) ∧
    ((ter0 { st := .stopping }).ter 0).st = .stopping ∧ bvCount (0xF#48 ||| (1#48 <<< 3)) ≤ 4 ∧ 4 < bvCount (0xF#48 ||| (1#48 <<< 47)) ∧
    base.rck.held = none ∧ 4 ≤ base.rck.stage ∧ base.wf = true ∧ ({ pwr := { sagging := true } } : State).pwr.sagging = true ∧ ({ pwr := { holdupOk := true } } : State).pwr.holdupOk = true ∧
    (200 < 126 + 75 ∧ 126 + 75 < 4 * (126 - 75)) ∧ ¬ 125 + 76 < 4 * (125 - 76) ∧ 94 < base.pwr.warn ∧ 94 < base.pwr.hot ∧ base.pwr.env.pending = false ∧ base.pwr.env.forced = false := by decide +kernel

/-- Meets the hypotheses of DrawBound. R340: 2880 Enabled cores at P0 draw 29,973 W. -/
theorem test_witness_draw : ((List.range 3072).filter (fun k => decide (lit90.site k = .enabled) && lit90.lit (k / 32))).length = 2880 ∧ lit90.pwr.env.point = 0 ∧ lit90.estimate = 29973 ∧
    base.pwr.env.point < 5 := by decide +kernel

def kE : Pkt := pkt 0x0601
def kT : Pkt := pkt 0x0602

/-- Meets the hypotheses of EnvelopeCompletes. -/
theorem test_witness_envelope : (inb base kE).front kE 0x0601 true = true ∧ (inb base kE false).front kE 0x0601 false = true ∧ (inb base kE).fw.flight = [] ∧ kE.part = 0xFF ∧ base.sec.halt = false ∧ ({ base.sec with halt := true } : Sec).halt = true ∧ (flies base kE (.terraces 1 true 0)).fw.flight ≠ [] ∧ (flies base kE .envelope).fw.flight = [⟨⟨kE, true⟩, .envelope⟩] ∧
    (∀ keep ∈ [true, false], ((pickPair 30000 ((inb base kE).envPairs keep)).map (fun c => (base.div.current ≠ pointDiv c.2.1 : Bool))) ≠ none ∧ pickPair 1 ((inb base kE).envPairs keep) = none) ∧
    (∀ p < 16, (base.part p).started = false) ∧
    (∀ e ∈ [49999999, 50000000], let s : State := { base with pwr := { base.pwr with env := { pending := true, deadline := BitVec.ofNat 64 e, bound := 4000 } } }
      s.pwr.env.pending = true ∧ s.pwr.env.deadline.toNat ≤ s.tg.cyc.toNat ∧ drawFits (s.coresOf s.litTers) s.pwr.env.point s.pwr.env.bound = false) ∧
    (let s : State := { base with div := { current := 31, target := 31 }, pwr := { base.pwr with env := { pending := true, bound := 30000 } } }
     drawFits (s.coresOf s.litTers) s.pwr.env.point s.pwr.env.bound = true ∧ s.atPoint = false) ∧
    (inb base kT).front kT 0x0602 true = true ∧ kT.part = 0xFF ∧
    (∀ t < 96, (0x4#96).getLsbD t = true → base.terBusy t = false ∧ (base.ter t).st = .off) ∧ base.lit 0 = true ∧ base.terBusy 0 = false ∧ (base.ter 0).darkAt = none ∧ ((ter0 { st := .failed }).ter 0).st = .failed ∧ (ter0 { temp := (Vector.replicate 8 0).set 0 95 }).coolTer 0 = false ∧
    (let s := inb { base with pwr := { base.pwr with holdupOk := true } } kT
     (∀ t < 96, (0x3#96).getLsbD t = true → s.terBusy t = false ∧ s.lit t = true ∧ s.coolTer t = true) ∧ s.pwr.holdupOk = true ∧ s.pwr.alarm.getLsbD 7 = false ∧ s.setFits 3 = true) := by decide +kernel

/-- R343: the command in flight, at another clock point. -/
theorem test_envelope : gives (exec (.envelopeSet kE 20000 1 true 0) { inb base kE with div := { current := 31, target := 31 } }) (fun t => t.pwr.env.pending && t.pwr.env.bound = 20000 && t.pwr.env.deadline = 50000000 + 1200000) = true := by decide +kernel

/-! ## Witnesses: mesh, cols, streams, watersheds, the engine, steps -/

def rtr (r : Router) : State := base.withField 0 (fun x => { x with routers := x.routers.set 5 r })

/-- Meets the hypotheses of RoutersAndColsComplete. -/
theorem test_witness_routers :
    (let s := rtr { port := Vector.replicate 10 1, streak := Vector.replicate 10 15 }
     (∀ p : Fin 10, (s.field 0).routers[5].streak[p] = 15) ∧ (∀ p ∈ [(4 : Fin 10), 7], (neighbour (routerX 0 5) (routerY 0 5) p).isSome = true) ∧ (s.field 0).routers[5].port[8] = 1 ∧ (s.field 0).routers[5].port[3] = 1) ∧
    (rtr { port := Vector.replicate 10 3 } |>.field 0).routers[5].port[9] ≠ 1 ∧ neighbour (routerX 0 0) (routerY 0 0) 4 = none ∧ ((rtr {}).field 0).routers[5].streak[9] ≠ 15 ∧
    (base.canSpare 0 5 5 = false ∧ base.canSpare 0 15 5 = true) ∧
    (∀ p ∈ [(0 : Fin 10), 9], (∀ e ∈ [({ en := false } : RedEntry), { en := true, inMask := 1023 - 2 ^ p.val, len := 2 }, { en := true, inMask := 1023, len := 3 }],
      (e.en = false) ∨ (e.en = true ∧ e.inMask.testBit p = false) ∨ (e.en = true ∧ e.inMask.testBit p = true ∧ e.len ≠ 2))) ∧
    (let m : MeshPkt := { src := 0, kind := 5, dst := 0, vc := 1, at_ := 5, from_ := 9, id := 7, tail := true }
     m.at_ = 16 * (0 : FieldIx).val + (5 : QuadIx).val ∧ m.from_ = 9 ∧ m.id = 7 ∧ m.toEntry = true ∧ m.tail = true ∧ base.mesh = []) ∧
    (let e : RedEntry := { en := true, inMask := 2 ^ 0 + 2 ^ 9, len := 2, waiting := (Vector.replicate 10 []).set 0 [[0x3F800000, 0]] }
     let s := rtr { red := [(7, e)] }
     Tab.get {} (s.field 0).routers[5].red 7 = e ∧ (0 : Fin 10) ≠ 9 ∧
     gives (exec (.reductionPacket 0 5 9 7 2 [0x3F800000, 0x40000000]) s) (fun t => t.mesh.map MeshPkt.bytes = [[], [0, 0, 0, 0x40, 0, 0, 0, 0x40]]) = true) := by decide +kernel

def colS (c : Col) (dl : Option W64 := none) : State := { (withP part0) with cols := [(8175, c)], arrivals := [{ col := 8175, count := 2, dl := dl }] }

/-- Meets the hypotheses of RoutersAndColsComplete. -/
theorem test_witness_cols :
    (∀ c ∈ [({ part := 2 } : Col), { part := 2, st := .expired }, { part := 2, st := .armed, target := 3 }, { part := 2, st := .armed, target := 2 }, { part := 2, st := .done, target := 2, count := 2 }, { part := 2, st := .doneLate }],
      ((colS c).col 8175) = c ∧ (colS c).arrivals = [] ++ { col := 8175, count := 2, dl := none } :: []) ∧ (0 : Nat) + 2 < 3 ∧ 8175 < 8176 ∧
    (∀ dl ∈ [({ tick := 43, ofs := 5 } : Stamp), { tick := 44, ofs := 0 }], let c : Col := { part := 2, st := .armed, target := 3, dl := some dl }
      ((colS c).col 8175).due (colS c).now = true) ∧ ({ part := 2, st := .armed, target := 3, dl := some { tick := 44, ofs := 1 } } : Col).due base.now = false ∧
    (let s : State := { withP { part0 with rs := { stage := 2 } } with cols := [(8178, { part := 2, st := .armed, target := 2 })], arrivals := [{ col := 3, count := 1 }, { col := 8178, count := 2 }] }
     (∀ x ∈ s.arrivals.take 1, x.col ≠ 8178) ∧ (s.col 8178).st = .armed ∧ (s.col 8178).target ≤ 0 + 2 ∧ 8178 = 8176 + (s.col 8178).part ∧ (s.part 2).rs.stage = 2) ∧
    (∀ e ∈ [44, 45], let r : ResFlit := { col := 8175, status := .ok, edge := BitVec.ofNat 48 e, todo := [0, 64] }
      let s : State := { withP part0 with res := [r] }
      s.res = r :: [] ∧ r ∉ ([] : List ResFlit) ∧ (0 : Site).val ∈ r.todo ∧ (s.tg.tick.toNat < e ∨ e ≤ s.tg.tick.toNat)) ∧ base.res = [] ∧ base.arrivals = [] := by decide +kernel

def ent : StreamEntry := { addr := 1, stride := 8, ntile := 3, win := 2, last := true, sem := 5, efmt := 2 }
def strm (x : StreamPos) (win : Win) (bad : List Nat := []) : State := ((withP part0).putCore 0 { runs 0 with streams := [ent], stream := x, win := (Vector.replicate 16 ({ base := 0 } : Win)).set 2 win }).withField 0 (fun f => { f with hbmBad := bad })

/-- Meets the hypotheses of StreamsAndWatershedComplete. -/
theorem test_witness_streams :
    let w0 : Win := { base := 0x1000, size := 32768 }
    (let s := strm {} w0
     s.runsOn 0 = some 2 ∧ base.runsOn 0 = none ∧ (s.core 0).stream.active = false ∧ (s.core 0).streams ≠ [] ∧ (s.core 0).seq.st ≠ .faulted ∧ (s.core 0).streamEntry = ent ∧ ent.step = false ∧ ent.wsen = false ∧ (s.part 2).hold = [] ∧ (s.core 0).held = false) ∧
    ({ part0 with hold := [.input] } : Part).hold ≠ [] ∧ ({ ent with step := true } : StreamEntry).step = true ∧
    (∀ xp ∈ [0, 1], ∀ bad ∈ [false, true], let s := (strm {} w0).withCore 0 (fun c => { c with streams := [{ ent with wsen := true, wslot := 31, xp := xp, mb0 := 8 }] })
      let f : Field := { s.field 0 with hbmBad := if bad then [216] else [] }
      (s.core 0).streamEntry.wsen = true ∧ (s.core 0).streamEntry.xp = xp ∧ ((f.slot 31).batches.find? (fun b => b.mb = 8) = none) ∧
      (match f.hbmRead ({ f.slot 31 with mbase := 100 }.maskAddr 8) 128 with | .ok _ => !bad | .error _ => bad) = true) ∧
    ({ batches := [{ mb := 8, sel := 5, audited := 2, step := 4 }] } : WsSlot).batches.find? (fun b => b.mb = 8 && b.step = 4) = some { mb := 8, sel := 5, audited := 2, step := 4 } ∧
    (let u := ent.unitAt (base.field 0) 0
     u.bad = false ∧ u.addrs.any (base.field 0).tilePending = false ∧ 1 ≤ u.count ∧ (match (base.field 0).readAll u.len u.addrs with | .ok raws => decide (u.out raws ≠ [] ∧ (u.out raws).length ≤ w0.space) | _ => false) = true) ∧
    ((strm { active := true, ready := true, todo := [0, 1, 2] } w0).core 0).stream.todo = 0 :: [1, 2] ∧ (∀ m ∈ (strm {} w0).mesh, m.dst ≠ (0 : Site).val) ∧
    (let c := (strm { active := true, ready := true, todo := [2] } w0).core 0
     c.window 2 = w0 ∧ w0.head < 2 * w0.size ∧ c.windowClear .dma w0 w0.head 512 = true ∧ (c.L 5).toNat < 65535) ∧
    gives (exec (.streamTileSend 0) (strm { active := true, ready := true, todo := [0, 1, 2] } w0)) (fun t => (t.core 0).stream.todo = [1, 2]) = true ∧
    (({ base := 0x1000, size := 512, head := 0, tail := 1 } : Win).space < 100) ∧ ({ base := 0x1000, size := 512, head := 512, tail := 0 } : Win).space = 0 ∧
    gives (exec (.streamTileSend 0) (strm { active := true, ready := true, todo := [0, 1, 2] } w0 [1])) (fun t => (t.core 0).fault.body.kind = 0x51) = true := by decide +kernel

def slot (w : WsSlot) : State := base.withField 0 (fun x => { x with ws := x.ws.set 31 w })
def ws0 : WsSlot := { en := true, reports := 2, missBound := 64, nblk := 100, denseSlots := 3, mbase := 100, part := 2, cores := [0, 3], formed := [9] }

/-- Meets the hypotheses of StreamsAndWatershedComplete. -/
theorem test_witness_watershed :
    (∀ w ∈ [ws0, { ws0 with en := false }, { ws0 with fallback := true, remain := 1 }, { ws0 with nblk := 1024 }], ((slot w).field 0).ws[31] = w) ∧ (9#16).toNat ∈ ws0.formed ∧ (8#16).toNat ∉ ws0.formed ∧ ws0.nblk ≤ 1024 ∧
    (∀ r ∈ [0, 1], ∀ run ∈ [2, 3], let b : WsBatch := { mb := 8, sel := 1, audited := 14, aCount := 3, reports := r }
      ({ ws0 with batches := [b], run := run } : WsSlot).batches = [b] ∧ b.mb = (8#16).toNat ∧ ws0.en = true ∧ b.reports < ws0.reports ∧ (b.reports + 1 < 2 ∨ b.reports + 1 = 2)) ∧
    (256 * 0 ≤ 64 * 3 ∧ 64 * 3 < 256 * 1) ∧
    gives (exec (.wsActivityReport 0 31 8 2) (slot { ws0 with batches := [{ mb := 8, sel := 1, audited := 14, aCount := 3, reports := 1 }], run := 3 })) (fun t => (t.field 0).ws[31].fallback && (t.field 0).ws[31].remain = 3) = true := by decide +kernel

/-- R158: 93 unselected blocks, six of them audited. -/
theorem test_wsSelection : gives (exec (.wsSelection 0 31 8 0x7F) (slot ws0)) (fun t => (t.field 0).ws[31].batches.map (fun b => b.aCount) = [6] && (t.field 0).ws[31].sel = 7) = true := by decide +kernel

def upeS (r : Region) (ph : UpePhase) (x : Part := part0) : State := (withP x).withField 0 (fun x => { x with regions := [(5, r)], upe := { x.upe with phase := x.upe.phase.set 2 ph }, rules := [(3, { en := true, nterm := 1 })] })

/-- Meets the hypotheses of UpdateEngineCompletes. -/
theorem test_witness_engine :
    (upeS reg0 .collect).runsOn 0 = some 2 ∧ ((upeS reg0 .collect).field 0).region 5 = reg0 ∧ ((upeS reg0 .collect).field 0).gradBad 5 0 = none ∧ 64 * (2 + 0) + 64 ≤ 64 * reg0.map ∧
    ((upeS reg0 .collect).field 0).gradBad 5 100000 = some .range ∧ ((upeS { reg0 with frozen := true } .collect).field 0).gradBad 5 0 = some .frozen ∧ ((upeS reg0 .apply).field 0).gradBad 5 0 = some .late ∧
    (∀ ph ∈ [UpePhase.collect, .norm, .apply], ((upeS reg0 ph).field 0).phase 2 = ph ∧ ((upeS reg0 ph).part 2).started = true) ∧ ((upeS reg0 .norm { part0 with started := false }).part 2).started = false ∧
    (match ((upeS reg0 .collect).field 0).normRegions (((upeS reg0 .collect).field 0).trained 2) 0#32 with | .ok _ => true | _ => false) = true ∧
    ((upeS { reg0 with en := false } .norm).field 0).trained 2 = [] ∧ isFin32 0x7F800000 = false ∧ isFin32 0 = true := by decide +kernel

/-- Meets the hypotheses of RecurrenceRule. -/
theorem test_witness_recurrence : ({ nslot := 1, slots := [{}] } : Rule).slots = [{}] ∧ ({ nterm := 2, terms := [{}, {}] } : Rule).terms = [{}, {}] ∧ ({ nslot := 1 } : Rule).sbf16 = 0 ∧ ({ nslot := 1 } : Rule).bca = 0 ∧
    -- with η = 1, λ = 0 and u = 1 the parameter 3 becomes 2
    ({ eta := 0x3F800000 } : Rule).newParam 0x3F800000 0x40400000 = 0x40000000 := by decide +kernel

def stepS (x : Part) (st : SeqSt := .held) : State := ((withP { x with edgeIn := 1 }).putCore 0 { runs 0 with seq := { st := st } }).putCore 3 { runs 0 with seq := { st := st } }

/-- Meets the hypotheses of StepsComplete. -/
theorem test_witness_steps :
    (∀ h ∈ [[], [HoldWhy.input]], let s := stepS { part0 with hold := h }
     let ks := (s.placed 2).map Prod.snd
     (s.part 2).started = true ∧ s.tg.ofs = 0 ∧ (s.part 2).edgeIn = ((s.part 2).plan.map Plan.mult).getD 1 ∧ ks ≠ [] ∧ ks.Nodup ∧ (∀ k ∈ ks, (s.core k).seq.st = .held ∧ (s.core k).held = false) ∧
     (∀ x ∈ (s.part 2).hold, x = .input) ∧ (s.part 2).replay = none ∧ (s.part 2).shardsIn (s.part 2).nextStep = true) ∧
    (∀ r ∈ [none, some ({} : Replay)], let s := stepS { part0 with begun := [{ step := 3, tick := 40 }], stepOpen := true, replay := r }
     let x := s.part 2
     x.begun = { step := 3, tick := 40 } :: [] ∧ (40#48) ≠ s.tg.tick ∧ x.replay = r ∧ s.fw.reports = [] ∧ (∀ k ∈ (s.placed 2).map Prod.snd, (s.core k).seq.st ≠ .faulted) ∧ (∀ f ∈ s.fields, f.2.trained 2 = []) ∧
     x.checkSites = [] ∧ x.arb = [] ∧ x.digestBad = false ∧ x.digestsMatched = true ∧ x.rollBack = false ∧ x.rcv.active = false ∧ s.commits 2 = true) ∧
    (∀ w ∈ [HoldWhy.snapshot, .stop], w ≠ HoldWhy.input) ∧ ((stepS part0 .running).core 3).seq.st ≠ .held ∧ ((stepS { part0 with started := false }).part 2).started = false ∧
    ({ part0 with begun := [{ tick := 44 }] } : Part).begun = { tick := 44 } :: [] ∧ ({ part0 with digestBad := true } : Part).digestBad = true ∧
    (let s := stepS { part0 with members := [{ addr := 1 }, { addr := 2 }] }
     1 < (s.part 2).members.length ∧ (s.part 2).step.toNat ≤ (4#64).toNat ∧ (3#64).toNat < (s.part 2).step.toNat) := by decide +kernel

/-! ## Witnesses: the fabric -/

def prt (q : FabPort) : State := { (withP part0).withPort 27 (fun _ => q) with fab := { ((withP part0).withPort 27 (fun _ => q)).fab with pfcEn := true, pfcPri := 3, addr := 1, fwd := [(2, 27)] } }
def up0 : FabPort := { en := true, st := .up, link := .on, lowPower := false, rxExp := 5, peer := 2, peerPort := 9 }

def dflit (seq : Nat) (nak : Bool := false) : FabFlit := FabFlit.seal ([3, 0xC1] ++ bytesLE seq 2 ++ bytesLE (if nak then 0x8000 else 0) 2 ++ bytesLE 0x6005 2 ++ List.replicate 20 0 ++ [1, 0, 0, 0])
def cflit (ctype ver : Nat) (nak : Bool := false) : FabFlit := FabFlit.seal ([16, BitVec.ofNat 8 (16 * ctype), 0, 0] ++ bytesLE (if nak then 0x8000 else 0) 2 ++ [0, 0] ++ (List.replicate 6 (bytesLE 16 2)).flatten ++ bytesLE 2 2 ++ [9] ++ bytesLE ver 1 ++ List.replicate 8 0)

/-- Meets the hypotheses of PortCommandsComplete. -/
theorem test_witness_ports :
    (∀ st ∈ [FabSt.down, .training], ∀ eth ∈ [true, false], let q := (prt { en := true, link := .on, lowPower := false, st := st, eth := eth }).port 27
      q.en = true ∧ q.link = .on ∧ q.lowPower = false ∧ q.st = st ∧ q.eth = eth) ∧
    ((prt { st := .init }).port 27).st = .init ∧ ((prt { en := true, st := .failed }).port 27).st = .failed ∧ ((prt { en := true, st := .failed }).port 27).en = true ∧
    (∀ v ∈ [0, 1, 255], (cflit 1 v).kind = 1 ∧ (cflit 1 v).ctype = 1 ∧ crc32 (cflit 1 v).bytes = (cflit 1 v).crc ∧ (cflit 1 v).initVersion = v) ∧ crc32 (cflit 1 1).bytes ≠ (cflit 1 1).crc + 1 ∧
    (let q := (prt up0).port 27
     q.st = .up ∧ q.eth = false ∧ q.rxExp = 5 ∧ (∀ n ∈ [5, 6], (dflit n).kind = 0 ∧ crc32 (dflit n).bytes = (dflit n).crc ∧ (dflit n).seq = BitVec.ofNat 12 n) ∧ ({ up0 with nakSent := true } : FabPort).nakSent = true) ∧
    (∀ nak ∈ [true, false], (cflit 0 0 nak).kind = 1 ∧ (cflit 0 0 nak).ctype = 0 ∧ (cflit 0 0 nak).nak = nak ∧ (dflit 5 nak).nak = nak ∧ crc32 (cflit 0 0 nak).bytes = (cflit 0 0 nak).crc) ∧
    ({ up0 with nakSeq := some 1, nakRun := 31 } : FabPort).nakRun + 1 = 32 := by decide +kernel

/-- Meets the hypotheses of PortCommandsComplete. -/
theorem test_witness_links :
    (∀ eth ∈ [true, false], ∀ md ∈ [true, false], let s := { prt { up0 with eth := eth, memberDown := md } with parts := base.parts }
      (s.port 27).st = .up ∧ (s.port 27).eth = eth ∧ (s.port 27).memberDown = md ∧ s.usersOfPort 27 = []) ∧
    (∀ st ∈ [FabSt.training, .init, .down, .failed], ((prt { st := st }).port 27).st = st) ∧
    ((prt { up0 with buffer := [{ bytes := [1] }] }).port 27).buffer ≠ [] ∧
    (∀ r ∈ [0, 1], let s := prt { up0 with eth := true, ethRate := r, pfcPaused := true, roceq := [{ target := 0 }] }
      (s.port 27).eth = true ∧ (s.port 27).st = .up ∧ s.fab.pfcEn = true ∧ s.fab.pfcPri = 3 ∧ (r < (s.port 27).ethRate ∨ (s.port 27).ethRate = r)) ∧ base.fab.pfcEn = false := by decide +kernel

/-- R270: the CRC-32 of the nine digits. -/
theorem test_crc32 : crc32 [0x31, 0x32, 0x33, 0x34, 0x35, 0x36, 0x37, 0x38, 0x39] = 0xCBF43926 := by decide +kernel

theorem test_portTrained : gives (exec (.portTrained 27) (prt { en := true, link := .on, lowPower := false, st := .down })) (fun t => (t.port 27).st = .init) = true ∧
    gives (exec (.cagePresence 27 (some 1501)) (prt {})) (fun t => (t.port 27).lowPower) = true := by decide +kernel

def fp (dst tk vc : Nat) (ep coll : Nat) : FabPkt := { vc := vc, dst := dst, part := 2, src := 9, epoch := BitVec.ofNat 16 ep, coll := BitVec.ofNat 16 coll, tkind := tk, field := 0, addr := 5, payload := [1] }
/-- A port whose receive buffers hold the packet `k` and a flit of another packet. -/
def holds (k : FabPkt) : FabPort := { up0 with rxb := k.flits.map (fun f => FabFlit.seal f.bytes) ++ [{ bytes := [3, 1] }] }
def pc : Part := { part0 with members := [{ addr := 1 }, { addr := 2 }], plan := some { plan0 with colls := [{ coll := 7, kind := .allGather, n := 1 }] } }

/-- Meets the hypotheses of FabricCommandsComplete. -/
theorem test_witness_fabric :
    (∀ k ∈ [fp 2 0 1 3 7, fp 1 0 1 3 7, fp 1 0 1 3 0, fp 1 0 4 2 7, fp 1 0 3 3 8, fp 1 3 0 3 0, fp 1 3 2 3 0], (holds k).firstPacket = some (k, 1, [{ bytes := [3, 1] }])) ∧ up0.firstPacket = none ∧ up0.st = .up ∧
    (prt up0).fab.addr = 1 ∧ (fp 2 0 1 3 7).dst ≠ (prt up0).fab.addr ∧ (fp 1 0 1 3 7).dst = (prt up0).fab.addr ∧ ((prt up0).part 2).started = true ∧ ((prt up0).part 3).started = false ∧
    (fp 1 0 4 2 7).epoch + 1 = part0.epoch ∧ (fp 1 0 1 3 7).epoch = part0.epoch ∧ pc.plan = some { plan0 with colls := [{ coll := 7, kind := .allGather, n := 1 }] } ∧ (fp 1 0 1 3 7).coll.toNat = 7 ∧ (fp 1 0 3 3 8).coll.toNat ≠ 7 ∧
    pc.compares.find? (fun c => c.coll = 7) = some { coll := 7, kind := .allGather, n := 1 } ∧ pc.compares.find? (fun c => c.coll = 8) = none ∧ base.resultDigest { coll := 7, kind := .allGather, n := 1 } ≠ 8 ∧
    (∀ b ∈ [true, false], ({ up0 with memberDown := b } : FabPort).memberDown = b ∧ ({ up0 with memberDown := b } : FabPort).eth = false) ∧
    (let q := (prt up0).port 27
     q.memberDown = false ∧ q.lastHb.toNat + 4 * ((prt up0).fab.hb * 120000) ≤ (prt up0).tg.cyc.toNat) ∧ (∀ p < 16, (base.part p).started = false ∧ (base.part p).rejoin = []) := by decide +kernel

def m1 : Member := { addr := 1, weight := 1, designated := true }
def m2 : Member := { addr := 2, weight := 1 }
def job0 : JobList := { members := [{ addr := 1 }, { addr := 2 }, { addr := 3 }], dmin := 1, units := 1, sizes := [{ size := 1 }, { size := 2 }, { size := 3 }] }
/-- The same job where two members are needed. -/
def job2 : JobList := { job0 with dmin := 2 }

def mem (x : Part) (fwd : Tab Nat) (va : Nat) (j : JobList := job0) : State := { (withP { x with plan := some { plan0 with job := some j } }) with fab := { base.fab with addr := 1, fwd := fwd, viewAt := BitVec.ofNat 64 va } }

def two : Part := { part0 with members := [m1, m2] }

/-- Meets the hypotheses of MembershipCommandsComplete. -/
theorem test_witness_membership :
    (mem two [(2, 4)] 50000000).tg.cyc.toNat < (mem two [(2, 4)] 50000000).fab.viewAt.toNat + 8 * ((mem two [(2, 4)] 50000000).fab.hb * 120000) ∧
    (∀ j ∈ [job0, job2], ∀ d ∈ [true, false], let s := mem { two with members := [{ m1 with designated := d }, { m2 with designated := !d }] } [] 0 j
      let x := s.part 2
      let comp := s.component x.members
      x.on = true ∧ 1 < x.members.length ∧ comp ≠ x.members ∧ s.fab.viewAt.toNat + 8 * (s.fab.hb * 120000) ≤ s.tg.cyc.toNat ∧ continues x.members comp = d ∧
      (decide ((((x.plan.bind Plan.job).map JobList.dmin).getD 1) ≤ comp.length) && (x.sizeOf comp.length).isSome && s.stagingFits x comp) = decide (j.dmin = 1)) ∧
    (∀ o ∈ [true, false], ∀ sz ∈ [job0, { job0 with dmin := 4 }, { job0 with sizes := [{ size := 2 }, { size := 3 }], units := 0 }], let s := mem { two with stepOpen := o } [(2, 4)] 0 sz
      let x := s.part 2
      x.started = true ∧ x.stepOpen = o ∧ x.rs.stage = 0 ∧ x.joins = [] ∧ (∀ y ∈ x.members ++ x.joins, y.addr ≠ 3) ∧ x.carries 3 = decide (sz.dmin ≠ 4)) ∧
    (let z : JobSize := { size := 3, base := { regions := [{ field := 0, n := 5, r := reg0 }] }, slots := [{ field := 0, region := 5, first := 0, count := 7 }] }
     let s := mem { two with members := [{ m1 with weight := 0 }, m2] } [(2, 4)] 0 { job0 with units := 3, sizes := [z] }
     let x := s.part 2
     x.carries 3 = true ∧ (x.arriving 1 x.members (x.members ++ [{ addr := 3, weight := 1 }])) = [] ∧ s.stagingFits x (x.members ++ [{ addr := 3, weight := 1 }]) = true) := by decide +kernel

/-- Meets the hypotheses of MembershipCommandsComplete. -/
theorem test_witness_fences :
    (∀ ph ∈ [0, 1], let s := mem { two with rs := { stage := 1, newList := [m1, m2] } } [(2, 4)] 0
      s.undrained 3 = false ∧ (s.part 2).rs.stage = 1 ∧ (s.part 2).stepOpen = false ∧ (s.part 2).rcv.active = false ∧ s.paramFields 2 = [] ∧ ph < 2) ∧
    (∀ st ∈ [2, 4, 5, 6], let s := mem { two with rs := { stage := st, newList := [m1, m2], expected := [1, 4], fences := [(3, 9)] } } [(2, 4)] 0
      let x := s.part 2
      x.rs.stage = st ∧ s.others x.rs.newList = [2] ∧ (∀ a ∈ s.others x.rs.newList, a = (2#12).toNat) ∧ (s.field 47).upe.phase[2] = .collect ∧ (47, 0xFFFF) ∉ x.rs.fences ∧ 4 ∈ x.rs.expected ∧ (∀ e ∈ x.rs.arrived, e.1 ≠ 4) ∧
      (∃ v ∈ x.rs.expected, v ≠ 4 ∧ ∀ e ∈ x.rs.arrived, e.1 ≠ v)) ∧
    (let x : Part := { two with rs := { stage := 5, newList := [m1, m2], expected := [1, 4], arrived := [(1, 64)] } }
     (∀ v ∈ x.rs.expected, v = 4 ∨ ∃ e ∈ x.rs.arrived, e.1 = v) ∧ (9#64) ≠ crc64 [1] ∧ crc64 [1] = crc64 [1]) ∧ (3 : W16) = part0.epoch ∧ (2 : W16) + 1 = part0.epoch ∧ (5 : W16) ≠ part0.epoch := by decide +kernel

/-! ## Witnesses: intake, pairing, snapshots, recovery -/

def it0 : Intake := { entries := [{ shard := 7, remote := 0x1000, len := 9, target := 2, field := 1, ofs := 3, crc := crc64 [0x31, 0x32, 0x33, 0x34, 0x35, 0x36, 0x37, 0x38, 0x39] }, { shard := 8, remote := 0x2000, len := 16, crc := 1 }], shards := 1, slots := 2, region := 4, slotSize := 8 }
def inS (ft : List (W64 × Nat × Nat)) (stalled : Bool := false) : State := withP { part0 with plan := some { plan0 with intake := some it0 }, intake := { fetching := ft, stalled := stalled } }

/-- Meets the hypotheses of IntakeAndPairingComplete. -/
theorem test_witness_intake :
    let s := inS []
    (s.part 2).plan.bind Plan.intake = some it0 ∧ (base.part 2).plan.bind Plan.intake = none ∧ (4 : W64) - (s.part 2).step = 0 ∧ (5 : W64) - (s.part 2).step = 1 ∧ it0.slots = 2 ∧ it0.slots ≤ ((6 : W64) - (s.part 2).step).toNat ∧ it0.slots ≤ ((3 : W64) - (s.part 2).step).toNat ∧
    (s.part 2).intake.fetching.find? (fun f => f.1 = 4 && f.2.1 = 0) = none ∧ (s.part 2).intake.stalled = false ∧ (s.port 27).pfcPaused = false ∧ ({ up0 with pfcPaused := true } : FabPort).pfcPaused = true ∧
    (∀ n ∈ [0, 2, 3], ((inS [(4, 0, n)] true).part 2).intake.fetching.find? (fun f => f.1 = 4 && f.2.1 = 0) = some (4, 0, n) ∧ ((inS [(4, 0, n)] true).part 2).intake.stalled = true) ∧
    (let e := (it0.entries[(s.part 2).entryIx it0 4 0]?).getD {}
     [0x31, 0x32, 0x33, 0x34, 0x35, 0x36, 0x37, 0x38, 0x39].length = e.len ∧ crc64 [0x31, 0x32, 0x33, 0x34, 0x35, 0x36, 0x37, 0x38, 0x39] = e.crc ∧ [(1 : Byte)].length ≠ e.len) := by decide +kernel

def fb (held holder : Nat) (unp : Bool := false) : State := { base with fab := { base.fab with addr := 1, held := held, holder := holder, unprotected := unp, feedId := 5, fwd := [(9, 27)] } }

/-- Meets the hypotheses of IntakeAndPairingComplete. -/
theorem test_witness_pairing :
    (fb 8 9).fab.held ≠ 0xFFF ∧ (fb 8 9).fab.held ≠ (9#12).toNat ∧ (fb 9 9).fab.held = (9#12).toNat ∧ (fb 0xFFF 9).reserveOk 0 = true ∧ ({ fb 0xFFF 9 with fab := { (fb 0xFFF 9).fab with slots := [{ part := 2, id := 7, size := 100 }] } } : State).reserveOk 0 = false ∧
    ((5 : Byte).toNat = (fb 0 0).fab.feedId) ∧ ((6 : Byte).toNat ≠ (fb 0 0).fab.feedId ∧ (6 : Byte).toNat ≠ 0xFF ∧ (fb 0 0).fab.feedId ≠ 0xFF) ∧ base.fw.flight = [] ∧
    (flies (fb 9 9) (pkt 0x503) (.partner 9 1 true)).fw.flight = ⟨⟨pkt 0x503, true⟩, .partner 9 1 true⟩ :: [] ∧ (2 : W16) ≠ stOk ∧
    (fb 9 0xFFF).fab.holder = 0xFFF ∧ (fb 9 9 true).fab.unprotected = true ∧ (fb 9 9).fab.holder ≠ 0xFFF ∧ (fb 9 9).fab.unprotected = false ∧ (∀ p < 16, ((fb 9 9).part p).snap.phase = .idle) ∧
    (∀ o ∈ [true, false], ({ withP { part0 with snap := { phase := .copying, ownFlash := o } } with fab := (fb 9 9).fab }.part 2).snap.phase = .copying) ∧
    (inb (fb 9 9) (pkt 0x503)).front (pkt 0x503) 0x0503 true = true ∧ (inb (fb 9 9) (pkt 0x503)).busyOn .module_ = false ∧ (pkt 0x503).part = 0xFF ∧ (64#32).toNat ≤ 64 ∧ ¬ (65#32).toNat ≤ 64 ∧
    28 ≤ Tab.get 28 (fb 9 9).fab.fwd 10 ∧ Tab.get 28 (fb 9 9).fab.fwd 9 < 28 ∧ (fb 9 9).reserveOk 64 = true := by decide +kernel

def g0 : Gen := { id := 3, near := true, own := true }
def snapS (x : SnapState) (fab : Fab := base.fab) : State := { withP { part0 with committed := some 3, hold := [.snapshot], snap := x } with fab := fab }

/-- Meets the hypotheses of SnapshotCommandsComplete. -/
theorem test_witness_snapshots :
    (∀ h ∈ [0xFFF, 9], let s := snapS { phase := .held } (fb 9 h).fab
     (s.part 2).started = true ∧ (s.part 2).snap.phase = .held ∧ (s.part 2).stepOpen = false ∧ (s.part 2).rcv.active = false ∧ s.fab.forced = false ∧ (∀ f ∈ s.fields, f.2.quiet 2 = true) ∧ s.holderUp = decide (h = 9) ∧ s.tooLarge 2 = false) ∧
    (let s := (snapS { phase := .held }).withField 0 (fun x => { x with upe := { x.upe with phase := x.upe.phase.set 2 .norm } })
     ∃ f ∈ s.fields, f.2.quiet 2 = false) ∧
    (∀ b ∈ [true, false], ∀ ms ∈ [[], [m1, m2]], let s := withP { part0 with members := ms, snap := { phase := .copying, taking := some g0, rebaseIn := b, nowIn := b } }
     (s.part 2).snap.taking = some g0 ∧ (s.part 2).snap.phase = .copying ∧ (s.part 2).snap.rebaseIn = b ∧ (77 : W64) ≠ g0.id ∧ (3 : W64) = g0.id) := by decide +kernel

/-- Meets the hypotheses of SnapshotCommandsComplete. -/
theorem test_witness_confirms :
    (∀ own ∈ [1, 2], let g : Gen := { g0 with confirmed := true }
     let s : State := { withP { part0 with members := [m1, m2], snap := { gens := [g], confirms := [(3, own)] } } with fab := { base.fab with addr := 1 } }
     let x := s.part 2
     1 < x.members.length ∧ s.leads x.members = true ∧ (∃ m ∈ x.members, m.addr = (2#12).toNat) ∧ ((∀ m ∈ x.members, ((3 : W64), m.addr) ∈ (3, 2) :: x.snap.confirms.filter (· ≠ (3, 2))) ↔ own = 1) ∧
     (∃ m ∈ x.members, ((3 : W64), m.addr) ∉ x.snap.confirms) ∧ (∃ g ∈ x.snap.gens, g.id = 3 ∧ g.confirmed = true ∧ g.jobValid = false) ∧ x.snap.taking = none) ∧
    (∀ m ∈ two.members, ((3 : W64), m.addr) ∈ [((3 : W64), 2), (3, 1)]) ∧ ({ base with fab := { base.fab with addr := 2 } } : State).leads two.members = false ∧
    (flies (snapS { phase := .copying, taking := some g0 }) (pkt 0x502 2) (.snapNow 2)).fw.flight = ⟨⟨pkt 0x502 2, true⟩, .snapNow 2⟩ :: [] ∧ g0.id ∈ [(3 : W64)] ∧
    (∀ op ∈ [0x0501, 0x0502], let k := pkt (BitVec.ofNat 16 op) 2
      let s := inb (withP part0) k
      s.front k (BitVec.ofNat 16 op) true = true ∧ k.part = (2 : Byte).toNat ∧ (s.part 2).on = true ∧ s.tooLarge 2 = false ∧ s.busyOn (.part 2) = false ∧ (s.part 3).on = false) ∧
    (snapS { size := 2 ^ 60 } (fb 9 9).fab).tooLarge 2 = true ∧
    (inb base (pkt 0x0501 3)).front (pkt 0x0501 3) 0x0501 true = true ∧ ({ mode := 1, k := 8, n := 5, nMax := 5, storeEvery := 255 } : SnapPolicy).ok = true ∧ ({ mode := 3 } : SnapPolicy).ok = false := by decide +kernel

/-- Meets the hypotheses of SnapshotCommandsComplete. -/
theorem test_witness_holder :
    (fb 8 9).fab.held ≠ (9#12).toNat ∧ (fb 9 9).fab.held = (9#12).toNat ∧ (9#12 ≠ (0xFFF : BitVec 12)) ∧
    (let s := snapS {} { base.fab with held := 9, slots := [{ part := 2, id := 7, size := 100 }] }
     let r : GenRegion := { kind := 1 }
     (∃ h ∈ s.fab.slots, h.part = 2 ∧ h.id = 7 ∧ h.valid = false) ∧ s.fab.shelf.writing = none ∧ (∀ x ∈ [(r, r.digest)], x.1.digest = x.2) ∧ (∃ x ∈ [(r, r.digest + 1)], x.1.digest ≠ x.2) ∧ ¬ ∃ h ∈ s.fab.slots, h.part = 2 ∧ h.id = 8 ∧ h.valid = false) ∧
    (∀ rate ∈ [0, 5], ∀ pause ∈ [true, false], let s : State := { base.withPort 3 (fun _ => { up0 with eth := true, pfcPaused := pause }) with
        fab := { (base.withPort 3 (fun _ => { up0 with eth := true, pfcPaused := pause })).fab with
          held := 9, targets := base.fab.targets.set 4 { port := 3 }
          slots := [{ part := 2, id := 7, size := 100, valid := true, pol := { rate := rate, target := 4, storeEvery := 2 } }]
          shelf := { writing := some (2, 7), count := [(2, 1)] } } }
      s.fab.shelf.writing = some (2, 7) ∧ s.fab.shelf.waiting = [] ∧ (s.port 3).eth = true ∧ (s.port 3).st = .up ∧ (s.port 3).pfcPaused = pause ∧ ((s.fab.targets.toList.getD 4 {}).port = 3) ∧ (Tab.get 0 s.fab.shelf.count 2 + 1) % max 1 2 = 0 ∧ (rate ≠ 0 ↔ rate = 5)) ∧
    (fb 9 9).holderUp = true ∧ base.holderUp = false := by decide +kernel

def rp : FaultReport := { part := 2, what := .meshLink 0 0 }
def rcvS (x : Part) : State := { withP x with fw := { base.fw with reports := [rp] }, fab := { base.fab with addr := 1 } }
def capd (r : Bool) : Core := { runs 0 with chk := { cap := { captured := true, replaying := r } } }

def arbS (x : Part) (r0 r3 : Bool) : State := ((rcvS x).putCore 0 (capd r0)).putCore 3 (capd r3)

/-- Meets the hypotheses of RecoveryCommandsComplete. -/
theorem test_witness_recovery :
    let g : Gen := { g0 with confirmed := true, jobValid := true }
    (let s := { rcvS part0 with fw := { base.fw with reports := [{ part := 2, what := .colFault 5 }] } }
     s.fw.reports = { part := 2, what := .colFault 5 } :: [] ∧ (s.part 2).on = true ∧ (s.part 2).started = true ∧ staysStopped (s.part 2).stopStatus = false ∧ s.recurs { part := 2, what := .colFault 5 } = false ∧ s.tg.detourDraw = none ∧
     (s.part 2).rcv.active = false ∧ (s.part 2).stopAt = none ∧ (s.part 2).rcv.losses = [] ∧ (s.part 2).rcv.march = [] ∧ (s.part 2).members = [] ∧ (∀ c ∈ (s.part 2).coreSites (s.part 2).placement, s.site c.2 = .enabled) ∧
     (∀ c ∈ s.placed 2, s.portLost c.2 = false) ∧ s.mayRestore 2 = false) ∧
    (rcvS { part0 with past := [{ what := .colFault 5, step := 4 }] }).recurs { part := 2, what := .colFault 5 } = true ∧
    ((rcvS { part0 with on := false }).part 2).on = false ∧ base.fw.reports = [] ∧ staysStopped stPlanFault = true ∧
    (let s := rcvS { part0 with started := false, rcv := { active := true } }
     s.mayRestore 2 = true ∧ s.chosenGen 2 (fun _ => true) = none ∧ (s.part 2).started = false) ∧
    (let s := rcvS { part0 with started := false, rcv := { active := true }, snap := { gens := [g] } }
     s.mayRestore 2 = true ∧ s.chosenGen 2 (fun _ => true) = some g ∧ (s.part 2).plan = some plan0 ∧ (s.part 2).rcv.detour = none ∧ g.fits plan0 (s.part 2).placement = true) ∧
    ({ g with regions := [{ handle := 9 }] } : Gen).fits plan0 plan0.base = false ∧
    (let s := rcvS { two with started := false, rcv := { active := true, ready := true } }
     (s.part 2).started = false ∧ (s.part 2).rcv.active = true ∧ (s.part 2).rcv.ready = true ∧ s.leads (s.part 2).listNow = true ∧ (∃ m ∈ (s.part 2).listNow, m.addr = (2#12).toNat) ∧ s.others (s.part 2).listNow = [2] ∧ (s.part 2).startAt = none) := by decide +kernel

/-- Meets the hypotheses of RecoveryCommandsComplete. -/
theorem test_witness_arbitration :
    (let s := arbS { part0 with started := false, rcv := { active := true }, checkSites := [0] } false false
     (s.part 2).arb = [] ∧ (s.part 2).started = false ∧ (s.part 2).rcv.active = true ∧ (s.part 2).checkSites = (0 : Site).val :: [] ∧ s.lit 0 = true ∧ (s.core 0).chk.cap.captured = true ∧ s.peerOf 2 0 = some (1 : Site).val ∧ (1 : Site) ≠ 0) ∧
    (let s : State := { arbS { part0 with stepOpen := true, checkSites := [0] } false false with tg := { base.tg with ofs := 0 } }
     (s.part 2).started = true ∧ (s.part 2).stepOpen = true ∧ s.tg.ofs = 0 ∧ s.enginesIn 2 = true ∧ s.dark 0 = false) ∧ ((arbS part0 false false).core 64).chk.cap.captured = false ∧
    (∀ r3 ∈ [true, false], let s := arbS { part0 with started := false, rcv := { active := true }, checkSites := [0], arb := [(0, 3)] } true r3
      (s.part 2).arb = [((0 : Site).val, (3 : Site).val)] ∧ (s.core 3).chk.cap.replaying = r3 ∧ (s.core 0).chk.cap.replaying = true) := by decide +kernel

/-! ## Witnesses: the host ports, Jorlek, commands -/

def rec0 (o : Nat) (x : Bool := false) : State := { base with host := { base.host with owner := o }, sec := { base.sec with recovery := x } }

/-- Meets the hypotheses of CommandsAndOwnershipComplete. -/
theorem test_witness_checks :
    (∀ op ∈ [0x0103, 0x0603, 0x0402, 0x0202, 0x0801], let k := pkt (BitVec.ofNat 16 op) 2
      (inb base k false).fw.inbox = [⟨k, false⟩] ∧ k.opcode = BitVec.ofNat 16 op) ∧ base.sec.recovery = false ∧
    (inb (rec0 0 true) (pkt 0x0402 2)).sec.recovery = true ∧ (flies (inb base (pkt 0x0402 2)) (pkt 0x0502 2) (.snapNow 2)).busyOn (.part 2) = true ∧
    (let k := { pkt 0x0103 with agent := 2, seq := 41 }
     base.listens 2 = true ∧ k.agent = 2 ∧ base.host.owner ≠ 2 ∧ k.headerOk = true ∧ (0 : Fin 2).val ≠ k.agent.val ∧ ({ agent := 2, seq := 41, opcode := 0x0103, status := 0 } : Reply).seq = k.seq) := by decide +kernel

/-- Meets the hypotheses of CommandsAndOwnershipComplete. -/
theorem test_witness_ownership :
    (∀ own ∈ [true, false], let k := pkt 0x0101
      (inb base k own).front k 0x0101 own = true ∧ k.part = 0xFF ∧ (inb base k own).host.owner = k.agent.val ∧ (inb (rec0 1) k own).front k 0x0101 own = true ∧ (rec0 1).host.owner ≠ k.agent.val ∧ (rec0 1).host.owner ≠ 3 ∧
      (inb (rec0 3) k own).front k 0x0101 own = true ∧ (rec0 3).host.owner = 3 ∧ (inb (rec0 3) k own).fw.flight = []) := by decide +kernel

/-- Meets the hypotheses of CommandsAndOwnershipComplete. -/
theorem test_witness_claims :
    (let s := flies { rec0 3 with host := { (rec0 3).host with claimOpen := true } } (pkt 0x0101) (.claim 9)
     s.fw.flight = ⟨⟨pkt 0x0101, true⟩, .claim 9⟩ :: [] ∧ s.host.claimOpen = true ∧ s.claims = [(9, 0, ⟨⟨pkt 0x0101, true⟩, .claim 9⟩)]) ∧
    (let s : State := { rec0 3 with fw := { base.fw with flight := [⟨⟨pkt 0x0101, true⟩, .claim 9⟩, ⟨⟨{ pkt 0x0101 with agent := 1 }, true⟩, .claim 9⟩] } }
     s.claims.map (fun c => (c.1, c.2.1)) = [(9, 0), (9, 1)]) ∧ base.host.claimOpen = false := by decide +kernel

/-- Meets the hypotheses of CommandsAndOwnershipComplete. -/
theorem test_witness_release :
    (∀ f ∈ [true, false], let k := { pkt 0x0102 with agent := 2 }
      (inb base k false).front k 0x0102 false = true ∧ k.part = 0xFF ∧ ({ base.host with hbExpired := f } : HostIf).hbExpired = f) ∧ (base.ring 0).link = true ∧ (base.ring 0).en = true ∧ (base.ring 1).link = false ∧ (0xFF : Byte) = 0xFF ∧
    (inb base (pkt 0x0102)).front (pkt 0x0102) 0x0102 true = true ∧ (inb base (pkt 0x0102) false).front (pkt 0x0102) 0x0102 false = true ∧
    (inb base (pkt 0x0103)).front (pkt 0x0103) 0x0103 true = true ∧ (pkt 0x0103).plen = 0 ∧
    (∀ d ∈ [50000000, 50000001], let s : State := { base with host := { base.host with hbDeadline := BitVec.ofNat 64 d } }
      s.host.owner ≠ 3 ∧ s.host.hbExpired = false ∧ (s.host.hbDeadline.toNat ≤ s.tg.cyc.toNat ∨ s.tg.cyc.toNat < s.host.hbDeadline.toNat)) ∧
    (let k := { pkt 0x0100 with data := 64, dlen := 4096 }
     (inb base k false).front k 0x0100 false = true ∧ k.part = 0xFF ∧ k.plen = 0 ∧ k.agent.val < 2 ∧ k.data ≠ 0 ∧ (inb base k false).taken.devInfo.length ≤ k.dlen.toNat) ∧
    (inb base (pkt 0x0603)).front (pkt 0x0603) 0x0603 true = true ∧
    (let k := { pkt 0x0103 with agent := 2 }
     base.listens 2 = true ∧ base.host.owner ≠ 2 ∧ k.headerOk = true ∧ base.fw.stored = Vector.replicate 3 [] ∧ base.fw.expSeq = Vector.replicate 3 none ∧ k.opcode ∈ opcodes ∧ base.rck.ready = true) := by decide +kernel

theorem test_claim : gives (exec .claimWindowEnd (flies { rec0 3 with host := { (rec0 3).host with claimOpen := true } } (pkt 0x0101) (.claim 9))) (fun t => t.host.owner = 0 && t.host.priority = 9) = true := by decide +kernel

def rng (r : Ring) : State := { base with host := { base.host with ring := base.host.ring.set 0 r } }

/-- The 32 bytes of a HEARTBEAT packet with sequence number 8 (Table 12.5). -/
def hbBytes : List Byte := bytesLE 0x4A4C 2 ++ [1, 0] ++ bytesLE 0x0103 2 ++ [0, 0, 8, 0, 0, 0, 0xFF] ++ List.replicate 19 0

theorem test_packetBytes : Pkt.ofBytes 0 hbBytes = { pkt 0x0103 with seq := 8 } := by decide +kernel

/-- Meets the hypotheses of HostPortCommandsComplete. -/
theorem test_witness_hostPorts :
    (let s := rng { en := true, last := 7, size := 4 }
     let k := { pkt 0x0103 with seq := 8 }
     s.rck.ready = true ∧ (s.ring 0).en = true ∧ (s.ring 0).slots < (((0x20 : W64).setWidth 32 : W32) - (s.ring 0).last).toNat ∧ ((7 : W64).setWidth 32 : W32) = (s.ring 0).last ∧ ((8 : W64).setWidth 32 : W32) = (s.ring 0).last + 1 ∧
     (((8 : W64).setWidth 32 : W32) - (s.ring 0).last).toNat ≤ (s.ring 0).slots ∧ 16 ≤ (s.ring 0).slots ∧ s.host.owner = (0 : Fin 2).val ∧ k.headerOk = true ∧ s.fw.stored = Vector.replicate 3 [] ∧
     Vector.replicate 3 (some k.seq) = Vector.replicate 3 (some (8 : W32)) ∧ k.opcode ∈ opcodes ∧ s.lifeCycle ≠ 4) ∧
    (base.ring 1).en = false ∧ ((rng { pcie := .on }).ring 0).pcie = .on ∧ (rng {}).rck.held = none ∧ (inb base (pkt 0x0103)).fw.inbox = ⟨pkt 0x0103, true⟩ :: [] ∧ (pkt 0x0103).agent.val = (0 : Fin 2).val ∧ (pkt 0x0103).seq = 0 ∧
    (flies base (pkt 0x0502 2) (.snapNow 2)).fw.flight = ⟨⟨pkt 0x0502 2, true⟩, .snapNow 2⟩ :: [] ∧ base.fw.inbox = [] ∧ base.host.owner ≠ (1 : Fin 2).val := by decide +kernel

/-- Meets the hypotheses of HostPortCommandsComplete. -/
theorem test_witness_apertures :
    (∀ o ∈ [0, 0x1FFFFFC], let a : W64 := BitVec.ofNat 64 (2 ^ 63 + 2 ^ 61)
      apEn a = true ∧ apKind a = 1 ∧ apField a = 0 ∧ o < 2 ^ 25 ∧ o % 64 + 4 ≤ 64 ∧ 64 * apBase a / 2 ^ 25 * 2 ^ 25 + o < (96 - base.fab.reserve) * 2 ^ 30 ∧ (base.field 0).pwr.mif = .on ∧ o / 64 ∉ (base.field 0).hbmBad) ∧
    (∀ o ∈ [0, 0x7FFFFC], let a : W64 := BitVec.ofNat 64 (2 ^ 63 + 2 ^ 62)
      apEn a = true ∧ apKind a = 2 ∧ apField a = 0 ∧ apCore a = 0 ∧ o < 0x800000 ∧ base.dark 0 = false ∧ (({ bank := { own := 0xAAAAAAAAAAAAAAAA } } : Core).bank.clear .host o 4) = true) ∧ apEn 0 = false ∧ ([1, 2, 3, 4] : List Byte).length = 4 := by decide +kernel

def img0 : PlanImage := { head := bytesLE 0x4E414C50 4 ++ bytesLE 1 2 ++ bytesLE 1 2 ++ bytesLE 4096 8 ++ bytesLE 100 2 ++ [1, 1] ++ bytesLE 1 12 ++ List.replicate 32 0 ++ bytesLE 1 2 ++ [0, 0] ++ bytesLE 64 4 ++ bytesLE 128 8, sha := 77, plan := plan0 }

def idle0 : Part := { part0 with started := false }

/-- Meets the hypotheses of PartitionCommandsComplete. -/
theorem test_witness_partitions :
    (let k := pkt 0x0201 3
     let s := inb (withP part0) k
     s.front k 0x0201 true = true ∧ k.part = (3 : Byte).toNat ∧ (3 : Byte).toNat < 16 ∧ (s.part 3).on = false ∧ (4 : BitVec 96) ≠ 0 ∧ (2 : W32).toNat < 2 ^ 28 ∧
     (∀ q < 16, (s.part q).on = true → (s.part q).terraces &&& 4 = 0 ∧ (s.part q).ports &&& (2 : W32).setWidth 28 = 0) ∧ (∀ i < 28, (s.port i).eth = false) ∧ (s.part 2).terraces &&& 2 ≠ 0) ∧
    (inb (withP part0) (pkt 0x0201 2)).front (pkt 0x0201 2) 0x0201 true = true ∧ ((withP part0).part 2).on = true ∧ (inb base (pkt 0x0201 16)).front (pkt 0x0201 16) 0x0201 true = true ∧ 16 ≤ (16 : Byte).toNat ∧
    (∀ x ∈ [part0, idle0], (inb (withP x) (pkt 0x0202 2)).front (pkt 0x0202 2) 0x0202 true = true ∧ ((withP x).part 2).on = true ∧ ((withP x).part 2).startAt = none) ∧ idle0.started = false := by decide +kernel

/-- Meets the hypotheses of PartitionCommandsComplete. -/
theorem test_witness_plans :
    (∀ a ∈ [(0 : Fin 3), 2], let k := { pkt 0x0301 2 with agent := a }
      let s := inb { withP { idle0 with plan := none } with host := { base.host with owner := a.val } } k
      s.front k 0x0301 true = true ∧ s.busyOn (.part 2) = false ∧ k.part = (2 : Byte).toNat ∧ s.planStatus 2 false 4096 77 img0 = stOk ∧ s.planStatus 2 false 4095 77 img0 ≠ stOk) ∧ (64 : W64).toNat % 64 = 0 ∧ (8 : W64).toNat % 64 ≠ 0 ∧
    (let s := inb (withP idle0) (pkt 0x0401 2)
     s.front (pkt 0x0401 2) 0x0401 true = true ∧ s.startStatus 2 60 = stOk ∧ s.startStatus 2 0 = stOk ∧ s.startStatus 2 44 ≠ stOk ∧ (s.part 2).members = [] ∧ s.busyOn (.part 2) = false) ∧
    (∀ x ∈ [part0, { part0 with stepOpen := true }, idle0, { idle0 with plan := none }, { idle0 with on := false }], let s := inb (withP x) (pkt 0x0402 2)
      s.front (pkt 0x0402 2) 0x0402 true = true ∧ s.busyOn (.part 2) = false ∧ (pkt 0x0402 2).part = (2 : Byte).toNat ∧ (s.part 2).on = x.on ∧ (s.part 2).plan = x.plan ∧ (s.part 2).started = x.started ∧ (s.part 2).stopAt = none ∧ (s.part 2).members = [] ∧ (s.part 2).stepOpen = x.stepOpen) := by decide +kernel

/-- Meets the hypotheses of DiagnosisCommandsComplete. -/
theorem test_witness_recover :
    (∀ x ∈ [part0, idle0, { idle0 with plan := none }, { idle0 with on := false }], let s := inb (withP x) (pkt 0x0504 2)
      s.front (pkt 0x0504 2) 0x0504 true = true ∧ s.busyOn (.part 2) = false ∧ (s.part 2).on = x.on ∧ (s.part 2).plan = x.plan ∧ (s.part 2).started = x.started ∧ (s.part 2).snap.gens = []) ∧
    (let g : Gen := { id := 2, confirmed := true, jobValid := true, own := true }
     let s := inb (withP { idle0 with snap := { gens := [g] } }) (pkt 0x0504 2)
     (s.part 2).snap.gens.find? (fun g => g.id = 2 && g.jobValid && (s.genSource g).isSome) = some g ∧ ({ g with regions := [{ handle := 9 }] } : Gen).fits plan0 plan0.base = false ∧ g.fits plan0 (s.part 2).placement = true ∧ ((s.part 2).coreSites plan0.base).all (fun c => s.lit (c.2 / 32)) = true ∧ plan0.base.regions = []) ∧
    (∀ st ∈ [TerSt.off, .lit], let s := inb (base.withTer 4 (fun x => { x with st := st })) (pkt 0x0504)
      s.front (pkt 0x0504) 0x0504 true = true ∧ (pkt 0x0504).part = 0xFF ∧ s.busyOn (.ter 4) = false ∧ s.partOfTer 4 = none ∧ s.lit 4 = decide (st = .lit) ∧ s.fw.flight = [] ∧ s.testSites 4 ≠ []) ∧
    (∀ d ∈ [true, false], let s := withP { part0 with diag := d }
      s.partOfTer 1 = some 2 ∧ (s.part 2).diag = d ∧ s.running 2 = true) ∧ (∀ k ∈ [64, 65], ({ base with sites := [(64, .fused)] } : State).site k = .fused ∨ k ≠ 64) ∧ (128 : Site).val / 32 = 4 := by decide +kernel

/-- Meets the hypotheses of DiagnosisCommandsComplete. -/
theorem test_witness_diagnosis :
    (∀ d ∈ [true, false], let s := inb (withP { idle0 with diag := d, plan := none }) (pkt 0x0701 2)
      s.front (pkt 0x0701 2) 0x0701 true = true ∧ (s.part 2).on = true ∧ (s.part 2).diag = d ∧ (s.part 2).started = false ∧ s.busyOn (.part 2) = false ∧ (3 ∉ s.fieldsOf 2) ∧ (∀ i < 48, (1#48).getLsbD i = true → i ∈ s.fieldsOf 2)) := by decide +kernel

/-- A job-valid generation of step 4 and a record of step 5. -/
def g4 : Gen := { id := 4, confirmed := true, jobValid := true, own := true }
def diagS (j : Bool) : State := { withP { idle0 with retraces := [{ step := 5, snapId := 4, ticks := 3, firstTick := 20 }], snap := { gens := [g4] }, replay := some { gen := 4, src := 2, last := 5, begun := [(5, 42)] } } with
  fw := { base.fw with log := if j then [{ part := 2, tick := 22, digests := [(0, 9), (1, 8)] }] else [] } }

/-- Meets the hypotheses of DiagnosisCommandsComplete. -/
theorem test_witness_probe :
    (let s := flies (withP idle0) (pkt 0x0701 2) (.probe 2 1 false 7)
     s.fw.flight = ⟨⟨pkt 0x0701 2, true⟩, .probe 2 1 false 7⟩ :: [] ∧ (1#48).getLsbD ((0 : Site).val / 64) = true ∧ (1#48).getLsbD 1 = false ∧ (s.probePairs 2 0).contains (0, 1) = true ∧ (s.probePairs 2 0).contains (62, 63) = true ∧ 1 < (s.probePairs 2 0).length ∧ (0, 2) ∉ s.probePairs 2 0) ∧
    (let s := (withP idle0).withPart 2 (fun _ => idle0) |> fun s => { s with sites := (List.range 62).map (fun k => (k, SiteSt.fused)) }
     s.probePairs 2 0 = [(62, 63)]) ∧
    (∀ k ∈ [5, 6], let s := inb (diagS false) (pkt 0x0505 2)
     s.front (pkt 0x0505 2) 0x0505 true = true ∧ s.busyOn (.part 2) = false ∧ (pkt 0x0505 2).part = (2 : Byte).toNat ∧ (s.part 2).on = true ∧ (s.part 2).plan = some plan0 ∧ s.running 2 = false ∧
     (((s.part 2).retraces.take 64).find? (fun r => r.step = BitVec.ofNat 64 k)).isSome = decide (k = 5) ∧ (s.part 2).snap.gens.find? (fun g => g.id = 4 && g.jobValid && (s.genSource g).isSome) = some g4 ∧
     (s.part 2).recorded { step := 5, snapId := 4 } = [(0, 0), (1, 3)] ∧ moveSite 3 0 0 = some 3 ∧ moveSite 3 (-1) 0 = none ∧ (s.part 2).terraces.getLsbD 0 = true) ∧
    (withP part0).running 2 = true ∧ (diagS false).replayedTick 2 = some (5, 1) ∧ (withP part0).replayedTick 2 = none ∧
    (flies (diagS true) (pkt 0x0505 2) (.retrace 2 2 5)).fw.flight = ⟨⟨pkt 0x0505 2, true⟩, .retrace 2 2 5⟩ :: [] ∧
    ((diagS true).fw.log.find? (fun e => e.part = 2 && e.tick = 20 + BitVec.ofNat 48 2)).isSome = true ∧ diffs [(0, 9), (1, 8)] [(0, 9), (1, 7)] = [1] ∧ diffs [(0, 9)] [(0, 9)] = [] ∧
    (let s := inb base (pkt 0x0702)
     s.front (pkt 0x0702) 0x0702 true = true ∧ s.lit 1 = true ∧ s.lit 95 = false ∧ s.partOfSite 63 = none ∧ (s.core 63).bank.march.running = false ∧ s.busyOn (.site 63) = false) := by decide +kernel



/-! ## Witnesses: telemetry, firmware, security -/

/-- Meets the hypotheses of TelemetryAndFabConfigComplete. -/
theorem test_witness_telemetry :
    (∀ p ∈ [2, 3, 0xFF], let k := pkt 0x0901 p
      (inb (withP part0) k).front k 0x0901 true = true ∧ (inb (withP part0) k false).front k 0x0901 false = true ∧ k.part = (BitVec.ofNat 8 p).toNat) ∧ ((withP part0).part 3).on = false ∧
    (let w := 2 ^ 48 - 1
     w < 2 ^ 48 ∧ base.tg.tick.toNat < w) ∧ (44 : Nat) ≤ base.tg.tick.toNat ∧ (31 : Byte).toNat < 32 ∧ (1000000 : W32).toNat ≤ 1000000 ∧ ¬ (1000001 : W32).toNat ≤ 1000000 ∧ (1 : W32) ≠ 0 ∧
    (∀ n ∈ [15, 16], ({ base with fw := { base.fw with flight := List.replicate n ⟨⟨pkt 0x0901, true⟩, .telemetry {}⟩ } } : State).windowsOf 0 = n) ∧
    (∀ c ∈ [true, false], let w : TeleWin := { closed := c, start := 40, len := 4, mask := 4, part := 2 }
      (flies base (pkt 0x0901 2) (.telemetry w)).fw.flight = ⟨⟨pkt 0x0901 2, true⟩, .telemetry w⟩ :: [] ∧ w.closed = c ∧ w.mask = 4) := by decide +kernel

/-- Meets the hypotheses of TelemetryAndFabConfigComplete. -/
theorem test_witness_fabConfig :
    (let k := pkt 0x0A01
     (inb (withP part0) k).front k 0x0A01 true = true ∧ (inb base k).front k 0x0A01 true = true ∧ (inb base k).busyOn .module_ = false ∧ k.part = 0xFF ∧ 1000 < (1001 : W16).toNat ∧ (1000 : W16).toNat ≤ 1000 ∧
     ((withP part0).part 2).on = true ∧ ((withP part0).part 2).ports.getLsbD 0 = true ∧ ((withP part0).port 0).en ≠ (1#28).getLsbD 0 ∧ ((withP part0).part 2).started = true ∧ (5 : BitVec 12) ≠ 0xFFF ∧ (5 : BitVec 12).toNat ≠ (withP part0).fab.addr ∧
     (∀ i < 28, (base.port i).en = (0#28).getLsbD i ∧ (base.port i).eth = (0#28).getLsbD i ∧ (base.port i).st = .down) ∧ (∀ p < 16, (base.part p).on = false ∧ (base.part p).started = false)) := by decide +kernel

/-- A firmware image of five bytes with a signature of the published algorithm, made outside the model. -/
def img1 : FwImage :=
  let key : Nat × Nat := (38782368093490071747657743800695031374521408414431448708541986004073168101049948510436944418274911268928862748728451,
    217907064595870433887904581194768389550247523771251539850982796122090822369847137070358002198032248152350832307004)
  let sig : Nat × Nat := (31296158738624270313304518792260347708650448288225018291577190852560566381065331861766599094153118020430241578779653,
    7564302933951658098948646121252451276018400003154041779223647327331175619697582313710521193859933971978569224428813)
  let body : List Byte := [104, 101, 108, 108, 111]
  { magic := 0x46574C56, version := 9, svn := 3, keyIx := 1, bodyLen := 5, bodyHash := sha384 body, body := body, keyX := key.1, keyY := key.2, sigR := sig.1, sigS := sig.2, header := bytesLE 0x46574C56 4 ++ bytesLE 9 8 ++ bytesLE 3 2 ++ [1, 0] ++ bytesLE 5 4 ++ bytesBE (sha384 body) 48 ++ (bytesBE key.1 48 ++ bytesBE key.2 48).take 92 }
def mfg : Nat × Nat := (21869804778414566741089753678165388937074172944005520783108396157731205080366346378397200383348578594519752589482908,
  36431784453076025009420046130785922954858925126429366716807439154179607319876663743855129168519507263853674437296774)
def id1 : Ident := { moduleId := 0x1122, fwKeys := #v[0, keyHash img1.keyX img1.keyY], mfgKey := keyHash mfg.1 mfg.2 }

theorem test_imageSigned : ({ sec := { ident := id1 } } : State).imageSigned img1 = true := by decide +kernel

/-- Meets the hypotheses of FirmwareAndLifeCycleComplete. -/
theorem test_witness_firmware :
    (∀ a ∈ [(0 : Fin 3), 2], let k := { pkt 0x0801 with agent := a }
      let s := inb { base with host := { base.host with owner := a.val } } k
      s.front k 0x0801 true = true ∧ s.busyOn .module_ = false ∧ k.part = 0xFF) ∧ (flies base (pkt 0x0502 2) (.snapNow 2)).busyOn .module_ = false ∧ ({ sec := { ident := id1 } } : State).imageSigned { img1 with keyIx := 0 } = false ∧ 384 + img1.bodyLen ≤ (389 : W32).toNat ∧ (388 : W32).toNat < 384 + img1.bodyLen ∧
    img1.svn < ({ minSvn := 4 } : Sec).minSvn ∧ ({ minSvn := 3 } : Sec).minSvn ≤ img1.svn ∧ base.fw.flight = [] ∧ base.sec.erasePending = false ∧
    (∀ b ∈ [true, false], (flies base (pkt 0x0801) (.fwStage b b)).fw.flight = ⟨⟨pkt 0x0801, true⟩, .fwStage b b⟩ :: []) ∧ base.sec.standbyStaged = false ∧ ({ standbyStaged := true, noStandby := false } : Sec).standbyStaged = true := by decide +kernel

def kL : Pkt := pkt 0x0803
def lcS (otp : List (Nat × Bool)) : State := { base with sec := { base.sec with otp := otp, idKey := true } }

/-- Meets the hypotheses of FirmwareAndLifeCycleComplete. -/
theorem test_witness_lifecycle :
    (inb base kL).front kL 0x0803 true = true ∧ (inb base kL).busyOn .module_ = false ∧ (inb (withP part0) kL).front kL 0x0803 true = true ∧ kL.part = 0xFF ∧ (∃ p < 16, ((withP part0).part p).started = true) ∧ (∀ p < 16, (base.part p).started = false) ∧
    (inb (lcS [(1, true)]) kL).lcStatus 4 0 0 0 0 0 0 = stOk ∧ (inb (lcS [(1, true)]) kL).lcStatus 3 0 0 0 0 0 0 ≠ stOk ∧ base.sec.lcTarget = none ∧
    (∀ g ∈ [1, 2, 3, 4], ∀ o ∈ [[], [(1, true), (2, true)]], let s := flies { lcS o with sec := { (lcS o).sec with lcTarget := some (g, 77) } } kL (.lifecycle g)
      s.sec.lcTarget = some (g, 77) ∧ s.fw.flight = [⟨⟨kL, true⟩, .lifecycle g⟩] ∧ s.wf = true ∧ (s.lifeCycle = 2 ∨ s.lifeCycle ≠ 2)) ∧
    belowReserve 64 - 1 < belowReserve 64 ∧ (lcS [(1, true), (2, true)]).lifeCycle = 2 ∧ (lcS []).lifeCycle ≠ 2 := by decide +kernel

/-- Meets the hypotheses of AlarmsAndDebugComplete. -/
theorem test_witness_alarms :
    (∀ lv ∈ [(0xAB, 3), (0x55, 1), (0xFF, 3)], (({ cfg := BitVec.ofNat 8 lv.1 } : Sec).levelOf 1 = lv.2)) ∧ ({ cfg := 0xAA } : Sec).levelOf 2 = 2 ∧ (lcS [(1, true), (2, true)]).lifeCycle = 2 ∧ base.lifeCycle ≠ 2 ∧ base.sec.debugOpen = false ∧ ({ debugOpen := true } : Sec).debugOpen = true ∧
    ({ rck := { held := some 3 } } : State).rck.held.isSome = true ∧ base.rck.held = none ∧ base.sec.record.valid = false ∧ (base.ter 0).st ≠ .failed ∧ ({ erasePending := true } : Sec).erasePending = true ∧ base.sec.erasePending = false ∧ base.fw.nonce = none := by decide +kernel

/-- R419: a token over nonce 5 that the module's key signs, and one that it does not; the signature was made outside the model. -/
theorem test_debugToken : let s : State := { base with sec := { base.sec with ident := id1 }, fw := { base.fw with nonce := some 5 } }
    let q := mfg
    let r : Nat := 9662461418034075955311513537404627015855243165566139602614790911692482540729517239502732113211438594810881738364457
    let g : Nat := 9662461418034075955311513537404627015855243165566139602614790911692482540729517239502732113211438594810881738364457
    gives (exec (.debugToken q.1 q.2 r g) s) (fun t => t.sec.debugOpen && t.fw.nonce == none) = true ∧ gives (exec (.debugToken q.1 q.2 r (g + 1)) s) (fun t => !t.sec.debugOpen && t.fw.nonce == some 5) = true := by decide +kernel

/-- Meets the hypotheses of AttestationCompletes. -/
theorem test_witness_attestation :
    base.listens 2 = true ∧ ({ base with rck := { base.rck with trimValid := false } } : State).listens 2 = false ∧
    (∀ m ∈ [0, 1, 2, 3], ({ base with sec := { base.sec with spdm := base.sec.spdm.set 2 m } } : State).spdmAt 2 = m) ∧ base.canSign = false ∧ (lcS []).canSign = true ∧ ({ noStandby := true } : Sec).noStandby = true ∧
    (∀ o ∈ [true, false], (inb base (pkt 0x0802) o).front (pkt 0x0802) 0x0802 o = true) ∧ (pkt 0x0802).part = 0xFF ∧ (3 : Byte) ≠ 0 ∧ (3 : Byte) ≠ 2 ∧ (3 : Byte) ≠ 4 := by decide +kernel

/-! ## Witnesses: invariants, whole rules -/

/-- Meets the hypotheses of WellFormedKept and FloorNeverFalls. -/
theorem test_witness_step : base.wf = true ∧ (∃ t, step { base with pending := [.watchdogRefresh] } = .next t) ∧ (lit90.wf = true) := ⟨by decide +kernel, ⟨_, rfl⟩, by decide +kernel⟩

/-- Meets the hypotheses of TermFunctions and BankAddressDecomposition. -/
theorem test_witness_terms : isNan32 0x7FC00000 = true ∧ flt32 0 1 = true ∧ flt32 0x80000001 0 = true ∧ (0 : Nat) < 4 ∧ 4 ≤ 4 ∧ (0x7FFFFF : Nat) < 2 ^ 23 ∧ 0x7FFE00 % 512 = 0 ∧ 0x7FFF00 % 256 = 0 := by decide +kernel

/-- The bank, the group and the word of byte address 0x7F_FFC0 (R116). -/
theorem test_bank_address : bankOf (0x7FFFC0 / 64) = 31 ∧ wordInBank (0x7FFFC0 / 64) = 4095 ∧ bankOf (0x200040 / 64) = 9 := by decide +kernel

/-- Meets the hypotheses of ColDeadlineRule. -/
theorem test_witness_deadline : ({} : Col).dl = none ∧ (dlStamp 44 5 ≠ dlStamp 44 6) ∧ ({ dl := some (dlStamp 44 5) } : Col).dl = some (dlStamp 44 5) ∧
    (let s := colS { part := 2, st := .armed, target := 3, dl := some (dlStamp 44 5) } (some 6)
     s.arrivals = { col := 8175, count := 2, dl := some 6 } :: [] ∧ (s.col 8175).st = .armed ∧ (s.col 8175).dl = some (dlStamp 44 5)) ∧
    ((colS { part := 2, st := .armed, target := 3 } (some 6)).col 8175).dl = none := by decide +kernel

end Sys2Proof.Tests
end

section
/-! SUPPORT. Reading sparse tables: a listed key, an unlisted key, and a table rewritten entry by entry. -/

namespace Sys2Proof

variable {α : Type}

/-- A key that no entry has reads the default. -/
theorem Tab.get_of_not_listed (d : α) (t : Tab α) (x : Nat) (h : ∀ p ∈ t, p.1 ≠ x) : Tab.get d t x = d := by
  induction t with
  | nil => rfl
  | cons p t ih =>
    rw [Tab.get, if_neg (h p (by simp)).symm]
    exact ih (fun q hq => h q (by simp [hq]))

/-- In a table whose keys rise strictly, a listed key reads its entry. -/
theorem Tab.get_of_mem (d : α) (t : Tab α) (x : Nat) (v : α) (hs : t.Pairwise (fun a b => a.1 < b.1)) (h : (x, v) ∈ t) : Tab.get d t x = v := by
  induction t with
  | nil => simp at h
  | cons p t ih =>
    obtain ⟨hp, ht⟩ := List.pairwise_cons.1 hs
    obtain rfl | h := List.mem_cons.1 h
    · simp [Tab.get]
    · rw [Tab.get, if_neg (Nat.ne_of_gt (hp _ h)), ih ht h]

/-- Rewriting every entry rewrites what every key reads, where the rewriting keeps the default. -/
theorem Tab.get_mapV [DecidableEq α] (d : α) (t : Tab α) (f : Nat → α → α) (hd : ∀ x, f x d = d)
    (h : t.Pairwise (fun a b => a.1 < b.1)) (x : Nat) : Tab.get d (Tab.mapV d t f) x = f x (Tab.get d t x) := by
  induction t with
  | nil => exact (hd x).symm
  | cons p t ih =>
    obtain ⟨k, v⟩ := p
    obtain ⟨hp, ht⟩ := List.pairwise_cons.1 h
    have unfolded : Tab.mapV d ((k, v) :: t) f = if f k v = d then Tab.mapV d t f else (k, f k v) :: Tab.mapV d t f := by
      by_cases he : f k v = d <;> simp [Tab.mapV, he]
    rw [unfolded, Tab.get]
    by_cases hx : x = k
    · subst hx
      split
      · next he =>
        rw [ih ht, Tab.get_of_not_listed d t x (fun q hq => (hp q hq).ne'), hd, if_pos rfl, he]
      · simp [Tab.get]
    · rw [if_neg hx]
      split
      · exact ih ht
      · rw [Tab.get, if_neg hx, ih ht]

end Sys2Proof
end

section
/-! The state after power-on reset. -/

namespace Sys2Proof.Machine

open Sys2Proof

/-- The Spare sites stand in rising order. -/
theorem spareSites_sorted : spareSites.Pairwise (fun a b => a.1 < b.1) := by
  refine List.pairwise_flatMap.2 ⟨fun f _ => ?_, ?_⟩
  · exact List.pairwise_map.2 (List.pairwise_lt_range.imp (fun {i j} hij => by simpa using hij))
  · refine List.pairwise_lt_range.imp (fun {f g} hfg p hp q hq => ?_)
    obtain ⟨i, hi, rfl⟩ := List.mem_map.1 hp
    obtain ⟨j, -, rfl⟩ := List.mem_map.1 hq
    have hi := List.mem_range.1 hi
    show 64 * f + 60 + i < 64 * g + 60 + j
    omega

theorem mem_spareSites (k : Nat) (x : SiteSt) : (k, x) ∈ spareSites ↔ k < 3072 ∧ 60 ≤ k % 64 ∧ x = .spare := by
  simp only [spareSites, List.mem_flatMap, List.mem_map, List.mem_range, Prod.mk.injEq]
  constructor
  · rintro ⟨f, hf, i, hi, rfl, rfl⟩
    exact ⟨by omega, by omega, rfl⟩
  · rintro ⟨hk, h60, rfl⟩
    exact ⟨k / 64, by omega, k % 64 - 60, by omega, by omega, rfl⟩

/-- At reset the core indices 60 to 63 of every field are Spare, every other site Enabled (R12, log 5). -/
theorem State.site_reset (k : Site) : State.reset.site k = if 60 ≤ k.val % 64 then .spare else .enabled := by
  show Tab.get .enabled spareSites k.val = _
  split
  · next h => exact Tab.get_of_mem _ _ _ _ spareSites_sorted ((mem_spareSites _ _).2 ⟨k.isLt, h, rfl⟩)
  · next h =>
    refine Tab.get_of_not_listed _ _ _ (fun p hp he => h ?_)
    obtain ⟨-, h60, -⟩ := (mem_spareSites p.1 p.2).1 hp
    exact he ▸ h60

theorem State.reset_wf : State.reset.wf = true := by
  have hs : Tab.wf .enabled spareSites = true :=
    (Tab.wf_iff _ _).2 ⟨spareSites_sorted, fun p hp => by simp [((mem_spareSites p.1 p.2).1 hp).2.2]⟩
  simp [State.wf, State.reset, hs]

/-- A table of equal entries reads that entry at every index, listed or not. -/
theorem getD_toList_replicate {α : Type} (n i : Nat) (d : α) : (Vector.replicate n d).toList.getD i d = d := by
  rw [Vector.toList_replicate, List.getD_eq_getElem?_getD, List.getElem?_getD_replicate_default_eq]

theorem State.part_reset (p : Nat) : State.reset.part p = {} := getD_toList_replicate 16 p ({} : Part)
theorem State.port_reset (p : Nat) : State.reset.port p = {} := getD_toList_replicate 28 p ({} : FabPort)
theorem State.ter_reset (t : Nat) : State.reset.ter t = {} := getD_toList_replicate 2 (t % 2) ({} : Ter)

/-- Where the input stands at 11.4 V, the first release begins the trim load with copy A (Table 11.2, R367). -/
theorem resetRelease_reset (v : Nat) (hv : 1140 ≤ v) :
    let s : State := { State.reset with pwr := { State.reset.pwr with vbus := v } }
    exec .resetRelease s = .next s.release := by
  intro s
  show Host.Outcome.next (if (1 = 1 || 1 = 2) && decide (v < 1140) then s else s.release) = _
  simp [Nat.not_lt.2 hv]

end Sys2Proof.Machine

open Sys2Proof Sys2Proof.Machine

/-- Settles O58: the registers by evaluation, the tables entry by entry, and the release by `resetRelease_reset`. -/
theorem resetValues : Obligations.ResetValues := by
  unfold Obligations.ResetValues
  refine ⟨⟨rfl, rfl, rfl, rfl, rfl, rfl, rfl, rfl, rfl, rfl, rfl, rfl, rfl, rfl, rfl, rfl, rfl, rfl, rfl, rfl, rfl, rfl, rfl,
    fun _ => rfl, fun _ => rfl, State.part_reset, State.port_reset, fun _ => rfl, fun t => congrArg Ter.st (State.ter_reset t), State.site_reset, rfl,
    fun v hv => ⟨_, resetRelease_reset v hv, rfl, rfl⟩⟩, State.reset_wf⟩
end

section
/-! One wafer cycle in which nothing is under way in the mesh, the cols and the snapshots. -/

namespace Sys2Proof.Machine

open Sys2Proof

theorem State.quiet_iff (s : State) : s.quiet = true ↔ s.mesh = [] ∧ s.arrivals = [] ∧
    (∀ x ∈ s.parts.toList, x.snap.phase ≠ .copying) ∧ ∀ c ∈ s.cols, c.2.st = .armed → c.2.dl = none := by
  simp only [State.quiet, Bool.and_eq_true, List.isEmpty_iff, List.all_eq_true, decide_eq_true_eq, and_assoc]

/-- A core at its default is stopped, and counts nothing. -/
theorem Core.tickIdle_default (n : Nat) : Core.tickIdle n {} = {} := rfl

/-- Every core counts the core cycles that begin (R186). -/
theorem State.core_passCycles (s : State) (h : s.wf = true) (n k : Nat) :
    (s.passCycles n).core k = (s.core k).tickIdle (s.div.cycles n) := by
  simp only [State.wf, Bool.and_eq_true] at h
  obtain ⟨⟨hc, -⟩, -⟩ := h
  exact Tab.get_mapV {} s.cores _ (fun _ => Core.tickIdle_default _) ((Tab.wf_iff _ _).1 hc).1 k

/-- A partition that runs, and is not held for a snapshot, counts its running time (R292). -/
def Part.passed (n : Nat) (x : Part) : Part :=
  if x.started && !(x.hold.contains .snapshot && x.begun.isEmpty) then
    { x with snap := { x.snap with runCyc := x.snap.runCyc + BitVec.ofNat 64 n } } else x

theorem State.parts_passCycles (s : State) (n : Nat) : (s.passCycles n).parts = s.parts.map (Part.passed n) := rfl

theorem State.part_passCycles (s : State) (n : Nat) (p : PartIx) : (s.passCycles n).part p = (s.part p).passed n := by
  have hp : p.val < 16 := p.isLt
  simp [State.part, State.parts_passCycles, List.getD_eq_getElem?_getD, hp]

theorem Part.passed_frame (n : Nat) (x : Part) : x.passed n = { x with snap := { x.snap with runCyc := (x.passed n).snap.runCyc } } := by
  unfold Part.passed
  split <;> rfl

theorem Part.passed_phase (n : Nat) (x : Part) : (x.passed n).snap.phase = x.snap.phase := by
  rw [Part.passed_frame]

theorem Part.passed_stopped (n : Nat) (x : Part) (h : x.started = false) : x.passed n = x := by
  simp [Part.passed, h]

theorem Part.passed_running (n : Nat) (x : Part) (h : x.started = true) (hold : x.hold = []) :
    (x.passed n).snap.runCyc = x.snap.runCyc + BitVec.ofNat 64 n := by
  simp [Part.passed, h, hold]

/-- Time passing leaves a quiet module quiet: it touches neither mesh, arrivals nor cols, nor a snapshot's phase. -/
theorem State.quiet_passCycles (s : State) (n : Nat) (h : s.quiet = true) : (s.passCycles n).quiet = true := by
  obtain ⟨hm, ha, hp, hc⟩ := (State.quiet_iff s).1 h
  refine (State.quiet_iff _).2 ⟨hm, ha, fun x hx => ?_, hc⟩
  rw [State.parts_passCycles, Vector.toList_map] at hx
  obtain ⟨y, hy, rfl⟩ := List.mem_map.1 hx
  rw [Part.passed_phase]
  exact hp y hy

/-- Where no ARMED col has a deadline, none expires. -/
theorem State.expireCols_quiet (s : State) (h : s.quiet = true) : s.expireCols = s := by
  obtain ⟨-, -, -, hc⟩ := (State.quiet_iff s).1 h
  have none_due : s.cols.filter (fun c => c.2.st = .armed && (match c.2.dl with | none => false | some d => d.le s.now && d ≠ s.now)) = [] := by
    refine List.filter_eq_nil_iff.2 (fun c hm => ?_)
    by_cases harmed : c.2.st = .armed
    · simp [hc c hm harmed]
    · simp [harmed]
  show List.foldl _ s _ = s
  exact (congrArg (List.foldl _ s) none_due).trans rfl

/-- A quiet mesh has no flit slot to give, and no snapshot copy ends. -/
theorem State.idleStep_quiet (s : State) (h : s.idleCycle.quiet = true) : s.idleStep = s.idleCycle := by
  obtain ⟨hm, ha, hp, -⟩ := (State.quiet_iff _).1 h
  have hnet : s.idleCycle.netCycle = s.idleCycle := by simp [State.netCycle, hm, ha]
  have hcopy : s.idleCycle.parts.toList.any (fun x => x.snap.phase = .copying) = false :=
    List.any_eq_false.2 (fun x hx => by simpa using hp x hx)
  simp only [State.idleStep, hnet, hcopy, Bool.false_eq_true, if_false]

theorem State.idleCycle_stands (s : State) (h : s.tg.running = false) : s.idleCycle = s := by simp [State.idleCycle, h]

theorem State.idleCycle_quiet (s : State) (h : s.quiet = true) (hrun : s.tg.running = true) (hper : s.tg.period ≠ 0) (hedge : 1 < s.toEdge) :
    s.idleCycle = s.passCycles 1 := by
  simp only [State.idleCycle, hrun, hper, Nat.not_le.2 hedge, Bool.not_true, Bool.false_or, decide_false, Bool.false_eq_true, if_false]
  exact State.expireCols_quiet _ (State.quiet_passCycles s 1 h)

theorem step_empty (s : State) (h : s.pending = []) : step s = .next s.idleStep := by simp [step, h]

end Sys2Proof.Machine

open Sys2Proof Sys2Proof.Machine

/-- Settles O2: a quiet module's idle step is `passCycles 1` while the generator runs, and nothing while it stands. -/
theorem idleStepIsOneCycle : Obligations.IdleStepIsOneCycle := by
  unfold Obligations.IdleStepIsOneCycle
  intro s hpend hwf hq
  rw [step_empty s hpend]
  constructor
  · intro hrun
    have hcyc : s.idleCycle = s := State.idleCycle_stands s hrun
    rw [State.idleStep_quiet s (hcyc.symm ▸ hq), hcyc]
  · intro hrun hper hedge
    have hcyc : s.idleCycle = s.passCycles 1 := State.idleCycle_quiet s hq hrun hper hedge
    have hstep : s.idleStep = s.passCycles 1 := by
      rw [State.idleStep_quiet s (hcyc.symm ▸ State.quiet_passCycles s 1 hq), hcyc]
    refine ⟨s.passCycles 1, by rw [hstep], rfl, ?_, fun k => ?_, fun p => ?_, rfl⟩
    · show s.div.pass 1 = _
      rw [Divider.pass, Nat.one_mul]
    · rw [State.core_passCycles s hwf, Divider.cycles, Nat.one_mul]
    · rw [State.part_passCycles]
      exact ⟨Part.passed_frame 1 _, Part.passed_stopped 1 _, Part.passed_running 1 _⟩
end

section
/-! Clearing writes of counters and records, and reads that latch: the shared operations, once each. -/

namespace Sys2Proof.Machine

open Sys2Proof

/-- Commands that lead to one state answer alike. -/
theorem next_congr {s t : State} (h : s = t) : (Host.Outcome.next s : Res) = .next t := congrArg Host.Outcome.next h

/-! ### Entries of a vector by a bounded index -/

theorem vset_of_lt {α : Type} {n i : Nat} (v : Vector α n) (h : i < n) (x : α) : vset v i x = v.set i x h := dif_pos h

theorem vset_fin {α : Type} {n : Nat} (v : Vector α n) (i : Fin n) (x : α) : vset v i.val x = v.set i.val x :=
  vset_of_lt v i.isLt x

theorem getD_toList_fin {α : Type} {n : Nat} (v : Vector α n) (i : Fin n) (d : α) : v.toList.getD i.val d = v[i] := by
  simp [List.getD_eq_getElem?_getD]

/-! ### Whether a write acts -/

@[simp] theorem State.cutTele_allows (s : State) (who w : Option (Fin 3)) (k : Nat) (g : TeleLatch → TeleLatch) :
    (s.cutTele who k g).allows w = s.allows w := by
  unfold State.cutTele
  split <;> rfl

@[simp] theorem State.cutTele_core (s : State) (who : Option (Fin 3)) (k j : Nat) (g : TeleLatch → TeleLatch) :
    (s.cutTele who k g).core j = s.core j := by
  unfold State.cutTele
  split <;> rfl

theorem State.onCore_allowed {s : State} {who : Option (Fin 3)} (h : s.allows who = true) (k : Nat) (g : Core → Core) :
    s.onCore who k g = s.setCore k (g (s.core k)) := if_pos h

theorem State.onCore_refused {s : State} {who : Option (Fin 3)} (h : s.allows who = false) (k : Nat) (g : Core → Core) :
    s.onCore who k g = s := by simp [State.onCore, h]

theorem State.onField_allowed {s : State} {who : Option (Fin 3)} (h : s.allows who = true) (f : Nat) (g : Field → Field) :
    s.onField who f g = s.withField f g := if_pos h

theorem State.onField_refused {s : State} {who : Option (Fin 3)} (h : s.allows who = false) (f : Nat) (g : Field → Field) :
    s.onField who f g = s := by simp [State.onField, h]

/-- A counter that is cleared with the TELEMETRY windows over its core (R400). -/
theorem State.cutTele_onCore {s : State} {who : Option (Fin 3)} (h : s.allows who = true) (k : Nat) (cut : TeleLatch → TeleLatch)
    (g : Core → Core) : (s.cutTele who k cut).onCore who k g = (s.cutTele who k cut).setCore k (g (s.core k)) := by
  rw [State.onCore_allowed (by simpa using h), State.cutTele_core]

theorem State.cutTele_refused {s : State} {who : Option (Fin 3)} (h : s.allows who = false) (k : Nat) (cut : TeleLatch → TeleLatch) :
    s.cutTele who k cut = s := by simp [State.cutTele, h]

/-- A cleared counter takes the events of the same cycle, up to its end. -/
theorem cleared_eq (n : Nat) : cleared n = BitVec.ofNat 32 (min n 0xFFFFFFFF) := by
  simp [cleared, satAdd]

/-- A change of a watershed slot, or of the update engine, as a change of its field. -/
theorem State.onSlot_allowed {s : State} {who : Option (Fin 3)} (h : s.allows who = true) (f : FieldIx) (w : SlotIx) (g : WsSlot → WsSlot) :
    s.onField who f (Field.onSlot w g) = s.withField f (fun x => { x with ws := x.ws.set w.val (g (s.field f).ws[w]) }) := by
  rw [State.onField_allowed h]
  simp only [State.withField, Field.onSlot, vset_fin, getD_toList_fin]

theorem State.onUpe_allowed {s : State} {who : Option (Fin 3)} (h : s.allows who = true) (f : Nat) (g : Upe → Upe) :
    s.onField who f (Field.onUpe g) = s.withField f (fun x => { x with upe := g (s.field f).upe }) :=
  State.onField_allowed h f _

/-! ### Records of the first event -/

theorem FirstRec.clear_none {α : Type} (lower : α → α → Bool) (now : Stamp) (d : α) :
    FirstRec.clear lower now d [] = { valid := false, more := false, body := d } := rfl

theorem FirstRec.clear_one {α : Type} (lower : α → α → Bool) (now : Stamp) (d e : α) :
    FirstRec.clear lower now d [e] = { valid := true, more := false, body := e, cycle := now } := rfl

theorem FirstRec.clear_two {α : Type} (lower : α → α → Bool) (now : Stamp) (d e1 e2 : α) :
    FirstRec.clear lower now d [e1, e2] = { valid := true, more := true, body := if lower e2 e1 then e2 else e1, cycle := now } := by
  cases hl : lower e2 e1 <;> simp [FirstRec.clear, FirstRec.note, hl]

/-- The capture buffer that a clear of the check record leaves (R299). -/
theorem Chk.clearRecord_eq (x : Chk) (now : Stamp) (same : List (ChkBody × Captured)) :
    ∃ cap : Capture, x.clearRecord now same = { x with record := FirstRec.clear ChkBody.lower now {} (same.map Prod.fst), cap := cap } ∧
      (same = [] → cap = {}) ∧ (∀ b y, same = [(b, y)] → cap = { captured := true, src := y }) := by
  refine ⟨_, rfl, ?_, ?_⟩
  · rintro rfl
    rfl
  · rintro b y rfl
    simp [FirstRec.clear_one]

/-- A change of a terrace, in the two forms in which the model writes it. -/
theorem State.updTer_eq_withTer (s : State) (t : Nat) (g : Ter → Ter) : s.updTer t g = s.withTer t g := rfl

/-! ### Reads that latch -/

/-- The high half of a counter. -/
theorem setWidth_ushiftRight_32 {w : Nat} (v : Nat) (x : BitVec w) : (x >>> 32).setWidth v = BitVec.ofNat v (x.toNat / 2 ^ 32) := by
  apply BitVec.eq_of_toNat_eq
  simp [Nat.shiftRight_eq_div_pow]

theorem setWidth_32_64 {w : Nat} (x : BitVec w) : (x.setWidth 32).setWidth 64 = BitVec.ofNat 64 (x.toNat % 2 ^ 32) := by
  apply BitVec.eq_of_toNat_eq
  simp

/-- The agent of a PCIe port gets the value; the management interface has no BAR (R403). -/
theorem State.answerRead_eq (s : State) (a : Fin 3) (x : Nat) :
    s.answerRead a x = if a.val = 2 then s else { s with out := .bar a.val (s.regRead a x false) :: s.out } := rfl

theorem IdleCtr.latch_cause (i : IdleCtr) (j : Fin 8) :
    i.latch j.castSucc.val = { i with idleHi := i.idleHi.set j.val (BitVec.ofNat 32 (i.idle[j].toNat / 2 ^ 32)) } := by
  have hj : j.val ≠ 8 := by omega
  simp only [IdleCtr.latch, Fin.val_castSucc, hj, if_false, vset_fin, getD_toList_fin, setWidth_ushiftRight_32]

theorem IdleCtr.latch_run (i : IdleCtr) : i.latch (8 : Fin 9).val = { i with runHi := BitVec.ofNat 32 (i.run.toNat / 2 ^ 32) } := by
  have h8 : (8 : Fin 9).val = 8 := rfl
  rw [IdleCtr.latch, if_pos h8, setWidth_ushiftRight_32]

/-- A block that answers from READY on reads all ones before (R365). -/
theorem State.regRead_notReady {s : State} (h : s.rck.ready = false) (a : Fin 3) (x : Nat) (hal : x % 4 = 0) (hx : 0x200000 ≤ x) :
    s.regRead a x false = 0xFFFFFFFF := by
  have h1 : ¬ x < 0x200000 := by omega
  have h2 : ¬ x < 0x100000 := by omega
  simp [State.regRead, State.read32, hal, h1, h2, h]

/-- From READY on a read latches, and answers from the latched state `t`. -/
theorem State.latchRead_ready {s : State} (h : s.rck.ready = true) (t : State) (a : Fin 3) (x : Nat) :
    (if s.rck.ready then t else s).answerRead a x = if a.val = 2 then t else { t with out := .bar a.val (t.regRead a x false) :: t.out } := by
  rw [if_pos h, State.answerRead_eq]

/-- Before READY a read latches nothing, and answers all ones. -/
theorem State.latchRead_notReady {s : State} (h : s.rck.ready = false) (t : State) (a : Fin 3) (x : Nat) (hal : x % 4 = 0) (hx : 0x200000 ≤ x) :
    (if s.rck.ready then t else s).answerRead a x = if a.val = 2 then s else { s with out := .bar a.val 0xFFFFFFFF :: s.out } := by
  rw [if_neg (by simp [h]), State.answerRead_eq, State.regRead_notReady h a x hal hx]

theorem corBase_aligned (k : Nat) : corBase k % 4 = 0 := by unfold corBase; omega
theorem le_corBase (k : Nat) : 0x200000 ≤ corBase k := by unfold corBase; omega

/-- A register of TCL_ is read in the order of Table 12.2. -/
theorem State.regRead_tcl {s : State} (h : s.rck.ready = true) (a : Fin 3) (o : Nat) (hal : o % 4 = 0) (ho : o < 0x100000) :
    s.regRead a (0x300000 + o) false = (s.rdTcl o).setWidth 64 := by
  have h1 : ¬ 0x300000 + o < 0x200000 := by omega
  have h2 : ¬ 0x300000 + o < 0x100000 := by omega
  have h3 : ¬ 0x300000 + o < 0x300000 := by omega
  have h4 : 0x300000 + o < 0x400000 := by omega
  have h5 : (0x300000 + o) % 4 = 0 := by omega
  simp [State.regRead, State.read32, h1, h2, h3, h4, h5, h]

/-- The window of a field (Table 12.3). -/
theorem State.read32_field {s : State} (h : s.rck.ready = true) (a : Fin 3) (f o : Nat) (hf : f < 48) (ho : o < 0x20000) :
    s.read32 a (0x1000000 + (f * 0x20000 + o)) = s.rdField f o := by
  have hlow : ∀ n, n ≤ 0x1000000 → ¬ 0x1000000 + (f * 0x20000 + o) < n := by omega
  have hhigh : 0x1000000 + (f * 0x20000 + o) < 0x1600000 := by omega
  have hfield : (f * 0x20000 + o) / 0x20000 = f := by omega
  have hofs : (f * 0x20000 + o) % 0x20000 = o := by omega
  simp only [State.read32, hlow, hhigh, h, hfield, hofs, Nat.add_sub_cancel_left, Nat.reduceLeDiff, Nat.le_add_right,
    decide_true, decide_false, Bool.false_and, Bool.not_true, Bool.and_self, Bool.false_eq_true, if_false, if_true]

/-- The COR_ registers of core j of a field. -/
theorem State.rdField_cor (s : State) (f j o : Nat) (hj : j < 64) (ho : o < 0x400) :
    s.rdField f (j * 0x400 + o) = (s.core (64 * f + j)).rdCor o := by
  have hcor : j * 0x400 + o < 0x10000 := by omega
  have hcore : (j * 0x400 + o) / 0x400 = j := by omega
  have hreg : (j * 0x400 + o) % 0x400 = o := by rw [Nat.mul_add_mod', Nat.mod_eq_of_lt ho]
  rw [State.rdField, if_pos hcor, hcore, hreg]

/-- A register of a core's COR_ window reads that core. -/
theorem State.regRead_cor {s : State} (h : s.rck.ready = true) (a : Fin 3) (k : Site) (o : Nat) (hal : o % 4 = 0) (ho : o < 0x400) :
    s.regRead a (corBase k + o) false = ((s.core k).rdCor o).setWidth 64 := by
  have hk := k.isLt
  have haddr : corBase k + o = 0x1000000 + (k.val / 64 * 0x20000 + (k.val % 64 * 0x400 + o)) := by unfold corBase; omega
  have halign : (corBase k + o) % 4 = 0 := by omega
  rw [State.regRead, if_neg (by decide), if_pos halign, haddr, State.read32_field h a _ _ (by omega) (by omega),
    State.rdField_cor s _ _ o (by omega) ho, Nat.div_add_mod]

theorem State.rdTcl_tickLo (s : State) : s.rdTcl 0x04 = s.tg.tick.setWidth 32 := rfl
theorem State.rdTcl_cycLo (s : State) : s.rdTcl 0x10 = s.tg.cyc.setWidth 32 := rfl
theorem Core.rdCor_blocksLo (c : Core) : c.rdCor 0x8C = c.chk.blocks.setWidth 32 := rfl

end Sys2Proof.Machine

open Sys2Proof Sys2Proof.Machine

/-- Settles O28: a write that acts is one change of its core, field or record, one that does not act is none; a read latches, and
then answers from the latched state. -/
theorem clearsAndLatchesComplete : Obligations.ClearsAndLatchesComplete := by
  unfold Obligations.ClearsAndLatchesComplete
  refine ⟨fun who s h => ⟨fun k n => ?counters, fun f w n => ?fieldCounters⟩,
    ⟨fun α lower now d e1 e2 => ?firstRecord, fun who s h => ?records, fun a k f q r s h => ?refused⟩, fun a k s => ?reads⟩
  case counters =>
    intro c v done
    have hv : cleared n = v := cleared_eq n
    have windowed (cut g) := next_congr (State.cutTele_onCore h k cut g)
    have plain (g) := next_congr (State.onCore_allowed h k g)
    exact ⟨hv ▸ windowed _ _, hv ▸ windowed _ _, windowed _ _, hv ▸ plain _, hv ▸ plain _, fun same => windowed _ _, fun mask same => windowed _ _⟩
  case fieldCounters =>
    intro x v slot upe
    have hv : cleared n = v := cleared_eq n
    have onSlot (g) := next_congr (State.onSlot_allowed h f w g)
    have onUpe (g) := next_congr (State.onUpe_allowed h f g)
    exact ⟨hv ▸ onSlot _, hv ▸ onSlot _, hv ▸ onSlot _, hv ▸ onSlot _, hv ▸ onSlot _, hv ▸ onUpe _, hv ▸ onUpe _, hv ▸ onUpe _, hv ▸ onUpe _⟩
  case firstRecord => exact ⟨FirstRec.clear_none .., FirstRec.clear_one .., FirstRec.clear_two ..⟩
  case records =>
    refine ⟨fun k => ⟨fun same => ?_, fun same => ?_, fun same => ?_⟩, fun f q same => ?_, fun f same => ?_, fun same => ?_, fun same => ?_,
      ?_, fun t => ⟨?_, ?_⟩, fun f => ?_⟩
    · obtain ⟨cap, hcap, hnone, hone⟩ := Chk.clearRecord_eq (s.core k).chk s.coreNow same
      refine ⟨cap, ?_, hnone, hone⟩
      exact next_congr ((State.onCore_allowed h k _).trans (by rw [Core.onChk, hcap]))
    · exact next_congr (State.onCore_allowed h k _)
    · exact next_congr (State.onCore_allowed h k _)
    · exact next_congr ((State.onField_allowed h f _).trans (by simp only [vset_fin]))
    · exact next_congr (State.onUpe_allowed h f _)
    · exact next_congr (if_pos h)
    · exact next_congr (if_pos h)
    · exact next_congr (if_pos h)
    · exact next_congr (if_pos h)
    · exact next_congr (if_pos h)
    · exact next_congr (if_pos h)
  case refused =>
    have hne : ¬ s.allows (some a) = true := by simp [h]
    have core (g) := next_congr (State.onCore_refused h k g)
    have field (g) := next_congr (State.onField_refused h f g)
    have windowed (cut g) := next_congr ((congrArg (State.onCore · _ _ _) (State.cutTele_refused h k cut)).trans (State.onCore_refused h k g))
    exact ⟨fun same => core _, fun same => core _, fun same => core _, fun same => field _, fun same => field _,
      fun same => next_congr (if_neg hne), fun same => next_congr (if_neg hne), next_congr (if_neg hne), fun n => ⟨windowed _ _, core _⟩⟩
  case reads =>
    intro c reads cor
    constructor
    · intro h
      refine ⟨?_, fun j => ?_, ?_, ?_, ?_, ?_, ?_, ?_⟩
      · exact next_congr ((State.latchRead_ready h _ a _).trans (by rw [Core.onChk, setWidth_ushiftRight_32]; rfl))
      · exact next_congr ((State.latchRead_ready h _ a _).trans (by rw [IdleCtr.latch_cause]; rfl))
      · exact next_congr ((State.latchRead_ready h _ a _).trans (by rw [IdleCtr.latch_run]; rfl))
      · exact next_congr ((State.latchRead_ready h _ a _).trans (by rw [setWidth_ushiftRight_32]))
      · exact next_congr ((State.latchRead_ready h _ a _).trans (by rw [setWidth_ushiftRight_32]))
      · exact (State.regRead_tcl h a 0x04 rfl (by decide)).trans (by rw [State.rdTcl_tickLo, setWidth_32_64])
      · exact (State.regRead_tcl h a 0x10 rfl (by decide)).trans (by rw [State.rdTcl_cycLo, setWidth_32_64])
      · exact (State.regRead_cor h a k 0x8C rfl (by decide)).trans (by rw [Core.rdCor_blocksLo, setWidth_32_64])
    · intro h answer
      have hal := corBase_aligned k
      have hge := le_corBase k
      exact ⟨next_congr (State.latchRead_notReady h _ a _ (by omega) (by omega)),
        fun j => next_congr (State.latchRead_notReady h _ a _ (by omega) (by omega)),
        next_congr (State.latchRead_notReady h _ a _ rfl (by decide)), next_congr (State.latchRead_notReady h _ a _ rfl (by decide))⟩
end

section
/-! Register writes (R19, R20, R23, R375): which writes act, and how a block takes one DW. -/

namespace Sys2Proof.Machine

open Sys2Proof

/-! ### Words and fields of a written value -/

theorem msb_setWidth_32 (v : W64) : (v.setWidth 32 : W32).msb = v.getLsbD 31 := by
  simp [BitVec.msb_eq_getLsbD_last]

theorem getLsbD_setWidth_32 (v : W64) (i : Nat) (h : i < 32) : (v.setWidth 32 : W32).getLsbD i = v.getLsbD i := by
  simp [h]

theorem fld_setWidth_32 (v : W64) (hi lo : Nat) (h : lo ≤ hi) (hhi : hi < 32) : fld (v.setWidth 32) hi lo = v.toNat / 2 ^ lo % 2 ^ (hi + 1 - lo) := by
  have hsplit : 2 ^ 32 = 2 ^ lo * 2 ^ (32 - lo) := by rw [← Nat.pow_add]; congr 1; omega
  have hdvd : 2 ^ (hi + 1 - lo) ∣ 2 ^ (32 - lo) := Nat.pow_dvd_pow 2 (by omega)
  rw [fld, BitVec.toNat_setWidth, hsplit, Nat.mod_mul_right_div_self, Nat.mod_mod_of_dvd _ hdvd]

/-! ### Whether a write acts -/

/-- The owner that acts is an agent of a PCIe port or the management interface, and the module is READY. -/
theorem State.allows_some (s : State) (who : Fin 3) : s.allows (some who) = true ↔ s.host.owner = who.val ∧ s.rck.ready = true := by
  simp [State.allows]

/-- An access that is not naturally aligned is discarded (R375). -/
theorem State.regWrite_unaligned (s : State) (who : Fin 3) (a : Nat) (wide : Bool) (v : W64) (h : a % (if wide then 8 else 4) ≠ 0) :
    s.regWrite who a wide v = s := by
  cases wide with
  | true => exact if_neg h
  | false => exact if_neg h

theorem State.regWrite_dw (s : State) (who : Fin 3) (a : Nat) (v : W64) (h : a % 4 = 0) :
    s.regWrite who a false v = s.write32 who a (v.setWidth 32) := if_pos h

/-- A 64-bit write is the low DW, then the high one (R375). -/
theorem State.regWrite_wide (s : State) (who : Fin 3) (a : Nat) (v : W64) (h : a % 8 = 0) :
    s.regWrite who a true v = (s.regWrite who a false v).regWrite who (a + 4) false (v >>> 32) := by
  rw [State.regWrite_dw _ _ _ _ (by omega), State.regWrite_dw _ _ _ _ (by omega)]
  exact if_pos h

/-- Where neither DW of an access acts, the access changes nothing. -/
theorem State.regWrite_discarded (s : State) (who : Fin 3) (a : Nat) (wide : Bool) (v : W64)
    (h : ∀ w, s.write32 who a w = s ∧ s.write32 who (a + 4) w = s) : s.regWrite who a wide v = s := by
  cases wide with
  | true =>
    simp only [State.regWrite, (h _).1, (h _).2, ite_self]
  | false =>
    simp only [State.regWrite, (h _).1, ite_self, Bool.false_eq_true, if_false]

/-- Outside its own ring only the owner's write acts (R23, R387). -/
theorem State.write32_notOwner (s : State) (who : Fin 3) (a : Nat) (v : W32) (h : s.host.owner ≠ who.val) (ha : a < 0x400100 ∨ 0x400180 ≤ a) :
    s.write32 who a v = s := by
  have hrck : s.allowsRck (some who) = false := by simp [State.allowsRck, h]
  have hring : ¬ (0x400100 ≤ a ∧ a < 0x400180) := by omega
  simp [State.write32, hrck, hring, h]

/-- Before READY only RCK_ and VID_ take a write (R365). -/
theorem State.write32_notReady (s : State) (who : Fin 3) (a : Nat) (v : W32) (h : s.rck.ready = false) (ha : 0x200000 ≤ a) :
    s.write32 who a v = s := by
  have hlow : ¬ a < 0x200000 := by omega
  simp [State.write32, hlow, h]

/-! ### The block that takes a write -/

section Blocks

variable {s : State} {who : Fin 3} (hport : who.val < 2) (v : W32)
include hport

theorem State.write32_rck (h : s.allowsRck (some who) = true) (o : Nat) (ho : o < 0x100000) :
    s.write32 who (0x100000 + o) v = s.wrRck o v := by
  have h2 : who.val ≠ 2 := by omega
  have hlt : 0x100000 + o < 0x200000 := by omega
  have hge : ¬ 0x100000 + o < 0x100000 := by omega
  rw [State.write32, if_neg h2, if_pos hlt, h, if_neg (by decide), if_neg hge, Nat.add_sub_cancel_left]

/-- From READY on, the owner's write outside the rings goes to the block of its address. -/
theorem State.write32_owner (h : s.allows (some who) = true) (a : Nat) (ha : 0x200000 ≤ a) (hring : ¬ (0x400100 ≤ a ∧ a < 0x400180)) :
    s.write32 who a v =
      if a < 0x300000 then s.wrPwt (a - 0x200000) v
      else if a < 0x400000 then s.wrTcl (a - 0x300000) v
      else if a < 0x500000 then s.wrHpo (a - 0x400000) v
      else if a < 0x600000 then s.wrFab (a - 0x500000) v
      else if a < 0x700000 then s.wrSec (a - 0x600000) v
      else if 0x1000000 ≤ a && a < 0x1600000 then s.wrField ((a - 0x1000000) / 0x20000) ((a - 0x1000000) % 0x20000) v
      else s := by
  obtain ⟨howner, hready⟩ := (State.allows_some s who).1 h
  have h2 : who.val ≠ 2 := by omega
  have hlow : ¬ a < 0x200000 := by omega
  have hring' : ¬ ((decide (0x400100 ≤ a) && decide (a < 0x400180)) = true) := by simpa using hring
  rw [State.write32, if_neg h2, if_neg hlow, hready, if_neg (by decide), if_neg hring', if_neg (not_not.2 howner)]

theorem State.write32_pwt (h : s.allows (some who) = true) (o : Nat) (ho : o < 0x100000) : s.write32 who (0x200000 + o) v = s.wrPwt o v := by
  rw [State.write32_owner hport v h _ (by omega) (by omega), if_pos (by omega), Nat.add_sub_cancel_left]

theorem State.write32_tcl (h : s.allows (some who) = true) (o : Nat) (ho : o < 0x100000) : s.write32 who (0x300000 + o) v = s.wrTcl o v := by
  rw [State.write32_owner hport v h _ (by omega) (by omega), if_neg (by omega), if_pos (by omega), Nat.add_sub_cancel_left]

/-- The registers of HPO_ below the rings. -/
theorem State.write32_hpo (h : s.allows (some who) = true) (o : Nat) (ho : o < 0x100) : s.write32 who (0x400000 + o) v = s.wrHpo o v := by
  rw [State.write32_owner hport v h _ (by omega) (by omega), if_neg (by omega), if_neg (by omega), if_pos (by omega), Nat.add_sub_cancel_left]

theorem State.write32_fab (h : s.allows (some who) = true) (o : Nat) (ho : o < 0x100000) : s.write32 who (0x500000 + o) v = s.wrFab o v := by
  rw [State.write32_owner hport v h _ (by omega) (by omega), if_neg (by omega), if_neg (by omega), if_neg (by omega), if_pos (by omega),
    Nat.add_sub_cancel_left]

theorem State.write32_sec (h : s.allows (some who) = true) (o : Nat) (ho : o < 0x100000) : s.write32 who (0x600000 + o) v = s.wrSec o v := by
  rw [State.write32_owner hport v h _ (by omega) (by omega), if_neg (by omega), if_neg (by omega), if_neg (by omega), if_neg (by omega),
    if_pos (by omega), Nat.add_sub_cancel_left]

end Blocks

/-- HEARTBEAT_LOST of a port clears by a write of 1 (R275). -/
theorem State.wrFab_hbLost (s : State) (p : PortIx) (v : W32) (h : v.getLsbD 28 = true) :
    s.wrFab (0x1004 + 0x40 * p.val) v = s.withPort p (fun q => { q with hbLost := false }) := by
  have hp := p.isLt
  have h80 : 0x1004 + 0x40 * p.val ≠ 0x80 := by omega
  have hint : ¬ 0x1004 + 0x40 * p.val < 0x100 := by omega
  have hlo : 0x1000 ≤ 0x1004 + 0x40 * p.val := by omega
  have hhi : 0x1004 + 0x40 * p.val < 0x1000 + 28 * 0x40 := by omega
  have hreg : (0x1004 + 0x40 * p.val) % 0x40 = 4 := by omega
  have hix : (0x1004 + 0x40 * p.val - 0x1000) / 0x40 = p.val := by omega
  simp only [State.wrFab, h80, hint, hlo, hhi, hreg, hix, h, decide_true, decide_false, Bool.and_false, Bool.false_and,
    Bool.and_self, Bool.false_eq_true, if_false, if_true, State.updPort, State.withPort, vset_fin]

/-! ### HALT, IMBALANCE and a ring's enable -/

theorem State.haltClear_clears (s : State) (h : ∀ i, i < 4 → s.sec.src.getLsbD i = true → s.sec.levelOf (i + 1) < 2) :
    s.haltClear = { s with sec := { s.sec with halt := false } } := by
  refine if_neg (fun hany => ?_)
  simp only [List.any_eq_true, List.mem_range, Bool.and_eq_true, decide_eq_true_eq] at hany
  obtain ⟨i, hi, hsrc, hlevel⟩ := hany
  exact absurd (h i hi hsrc) (Nat.not_lt.2 hlevel)

theorem State.haltClear_stays (s : State) (h : ∃ i, i < 4 ∧ s.sec.src.getLsbD i = true ∧ 2 ≤ s.sec.levelOf (i + 1)) : s.haltClear = s := by
  refine if_pos ?_
  simpa only [List.any_eq_true, List.mem_range, Bool.and_eq_true, decide_eq_true_eq] using h

/-- With IMBALANCE cleared PWR_GOOD follows the input and HOLDUP_OK (R337, R347). -/
theorem State.imbalanceClear_balanced (s : State) (who : Fin 3) (h : s.allows (some who) = true) :
    s.imbalanceClear (some who) true = { s with pwr := { s.pwr with
      alarm := s.pwr.alarm &&& ~~~0x80#9, pwrGood := decide (1140 ≤ s.pwr.vbus) && s.pwr.holdupOk } } := by
  obtain ⟨-, hready⟩ := (State.allows_some s who).1 h
  have hbit : (s.pwr.alarm &&& ~~~0x80#9).getLsbD alImbalance = false := by simp [alImbalance]
  refine (if_pos (by simp [h])).trans ?_
  show State.updPwrGood { s with pwr := { s.pwr with alarm := s.pwr.alarm &&& ~~~0x80#9 } } = _
  simp only [State.updPwrGood, hready, hbit, Bool.true_and, Bool.not_false, Bool.and_true]

theorem State.ringEnable_enables (s : State) (p : Fin 2) (hready : s.rck.ready = true) (hen : (s.ring p).en = false) :
    s.ringEnable p p = { s with
      host := { s.host with ring := s.host.ring.set p.val { s.ring p with en := true, entry := 0, phase := true, last := (s.ring p).startSeq - 1 } }
      fw := { s.fw with expSeq := s.fw.expSeq.set p.val (some (s.ring p).startSeq) } } := by
  have hp : p.val < 3 := by omega
  simp only [State.ringEnable, hready, hen, State.setRing, vset_fin, vset_of_lt _ hp, ne_eq, not_true_eq_false, decide_false, Bool.not_true, Bool.or_self,
    Bool.false_eq_true, if_false]

theorem State.ringEnable_other (s : State) (on p : Fin 2) (h : on ≠ p) : s.ringEnable on p = s := by
  have hval : on.val ≠ p.val := fun he => h (Fin.ext he)
  simp [State.ringEnable, hval]

end Sys2Proof.Machine

open Sys2Proof Sys2Proof.Machine

/-- Settles O30: which DW acts follows from `write32`'s guards, and what it does from the block of its address. -/
theorem registerWritesComplete : Obligations.RegisterWritesComplete := by
  unfold Obligations.RegisterWritesComplete
  intro who s
  refine ⟨?_, ?_, ?_, ?_, ?_, ?_, ?_, ?_, ?_, ?_, ?_, ?_, ?_, ?_⟩
  · exact fun a v ha => next_congr (State.regWrite_unaligned s who a false v ha)
  · exact fun a v ha => next_congr (State.regWrite_unaligned s who a true v ha)
  · exact fun a wide v howner ha => next_congr (State.regWrite_discarded s who a wide v fun w =>
      ⟨State.write32_notOwner s who a w howner (by omega), State.write32_notOwner s who (a + 4) w howner (by omega)⟩)
  · exact fun a wide v hready ha => next_congr (State.regWrite_discarded s who a wide v fun w =>
      ⟨State.write32_notReady s who a w hready ha, State.write32_notReady s who (a + 4) w hready (by omega)⟩)
  · exact fun a v ha => ⟨_, rfl, next_congr (State.regWrite_wide s who a v ha)⟩
  · intro v hport h
    refine ⟨?_, ?_, ?_⟩
    · exact next_congr ((State.write32_rck hport _ h 0x00 (by decide)).trans (by rw [State.wrRck, fld_setWidth_32 v 1 0 (by decide) (by decide)]; simp))
    · refine next_congr ((State.write32_rck hport _ h 0x30 (by decide)).trans ?_)
      rw [State.wrRck, getLsbD_setWidth_32 v 30 (by decide)]
      split <;> rfl
    · refine next_congr ((State.write32_rck hport _ h 0x44 (by decide)).trans ?_)
      rw [State.wrRck, msb_setWidth_32]
      split <;> rfl
  · intro v hport h
    have hw9 : (v.setWidth 32).setWidth 9 = v.setWidth 9 := BitVec.setWidth_setWidth_of_le v (by decide)
    have hw8 : (v.setWidth 32).setWidth 8 = v.setWidth 8 := BitVec.setWidth_setWidth_of_le v (by decide)
    refine ⟨?_, ?_, ?_, ?_, ?_, ?_, fun p hp => ?_, ?_⟩
    · exact next_congr ((State.write32_pwt hport _ h 0x10 (by decide)).trans (by rw [State.wrPwt, hw9]))
    · exact next_congr ((State.write32_pwt hport _ h 0x14 (by decide)).trans (by rw [State.wrPwt, hw9]))
    · refine next_congr ((State.write32_pwt hport _ h 0x18 (by decide)).trans ?_)
      rw [State.wrPwt, fld_setWidth_32 v 31 24 (by decide) (by decide), fld_setWidth_32 v 23 16 (by decide) (by decide),
        fld_setWidth_32 v 5 0 (by decide) (by decide)]
      simp [clamp]
    · refine next_congr ((State.write32_tcl hport _ h 0x00 (by decide)).trans ?_)
      rw [State.wrTcl, msb_setWidth_32]
      split <;> rfl
    · refine next_congr ((State.write32_tcl hport _ h 0x1C (by decide)).trans ?_)
      rw [State.wrTcl, msb_setWidth_32]
      split <;> rfl
    · refine next_congr ((State.write32_hpo hport _ h 4 (by decide)).trans ?_)
      rw [State.wrHpo, if_pos rfl, fld_setWidth_32 v 15 0 (by decide) (by decide)]
      simp [clamp]
    · have haddr : 0x501004 + 0x40 * p.val = 0x500000 + (0x1004 + 0x40 * p.val) := by omega
      rw [haddr]
      refine next_congr ((State.regWrite_dw s who _ v (by omega)).trans ?_)
      rw [State.write32_fab hport _ h _ (by omega), State.wrFab_hbLost s p _ (by rwa [getLsbD_setWidth_32 v 28 (by decide)])]
    · refine next_congr ((State.write32_sec hport _ h 0x100 (by decide)).trans ?_)
      rw [State.wrSec, hw8]
      split <;> rfl
  · exact fun h hsrc => next_congr ((if_pos h).trans (State.haltClear_clears s hsrc))
  · exact fun h hsrc => next_congr ((if_pos h).trans (State.haltClear_stays s hsrc))
  · exact fun h => next_congr (State.imbalanceClear_balanced s who h)
  · exact next_congr (if_neg (by simp))
  · intro h
    have hne : ¬ s.allows (some who) = true := by simp [h]
    exact ⟨next_congr (if_neg hne), next_congr (if_neg (by simp [h]))⟩
  · exact fun p hready hen => next_congr (State.ringEnable_enables s p hready hen)
  · exact fun on p h => next_congr (State.ringEnable_other s on p h)
end

section
/-! Steps of a partition (R28, R30, R32, R291, R310): what STEP_BEGIN and STEP_COMMIT change, and what a commit boundary keeps. -/

namespace Sys2Proof

variable {α : Type}

/-- Updating a list of distinct keys changes what each of them reads, and no other key. -/
theorem Tab.get_updAll [DecidableEq α] (d : α) (xs : List Nat) (f : Nat → α → α) (y : Nat) (h : xs.Nodup) (t : Tab α) :
    Tab.get d (Tab.updAll d t xs f) y = if y ∈ xs then f y (Tab.get d t y) else Tab.get d t y := by
  induction xs generalizing t with
  | nil => rfl
  | cons x xs ih =>
    obtain ⟨hx, hxs⟩ := List.nodup_cons.1 h
    refine (ih hxs (Tab.upd d t x (f x))).trans ?_
    rw [Tab.get_upd]
    by_cases hy : y = x
    · subst hy
      simp [hx]
    · simp [hy]

end Sys2Proof

namespace Sys2Proof.Machine

open Sys2Proof

/-! ### Shared operations -/

theorem State.core_updCores (s : State) (ks : List Nat) (g : Nat → Core → Core) (j : Nat) (h : ks.Nodup) :
    (s.updCores ks g).core j = if j ∈ ks then g j (s.core j) else s.core j :=
  Tab.get_updAll ({} : Core) ks g j h s.cores

theorem State.updPart_eq_withPart (s : State) (p : PartIx) (g : Part → Part) : s.updPart p g = s.withPart p g := by
  simp only [State.updPart, State.withPart, dif_pos p.isLt]

theorem State.sitesOf_nodup (s : State) (p : Nat) : (s.sitesOf p).Nodup := List.nodup_range.filter _

/-! ### STEP_BEGIN -/

/-- A core that stands held before an entry starts its run at an edge that holds nothing; a step's first run clears the counter (R111). -/
theorem Core.atEdge_held (c : Core) (now : Stamp) (hst : c.seq.st = .held) (hheld : c.held = false) :
    c.atEdge false false now = if (c.sched.getD c.seq.entry {}).stepFirst = true then { c.startRun c.seq.entry 0 with rnd := { c.rnd with ctr := 0 } }
      else c.startRun c.seq.entry 0 := by
  have hact : c.edgeAct = .due c.seq.entry 0 := by simp only [Core.edgeAct, hst]
  simp [Core.atEdge, hact, hheld]

/-- Opening the ACT regions draws values into the fields and changes nothing else (R213). -/
theorem State.openActs_frame (s : State) (p : Nat) : ∃ fs n, s.openActs p = { s with fields := fs, freeCtr := n } := by
  simp only [State.openActs]
  split
  · exact ⟨s.fields, s.freeCtr, rfl⟩
  · exact ⟨_, _, rfl⟩

theorem State.openActs_cores (s : State) (p : Nat) : (s.openActs p).cores = s.cores := by
  obtain ⟨fs, n, h⟩ := s.openActs_frame p
  rw [h]

theorem State.openActs_parts (s : State) (p : Nat) : (s.openActs p).parts = s.parts := by
  obtain ⟨fs, n, h⟩ := s.openActs_frame p
  rw [h]

/-- What reads only the partitions is the same in two states that agree on them. -/
theorem State.part_congr {s t : State} (h : t.parts = s.parts) (p : Nat) : t.part p = s.part p := by
  simp only [State.part, h]

theorem State.sitesOf_congr {s t : State} (h : t.parts = s.parts) (p : Nat) : t.sitesOf p = s.sitesOf p := by
  simp only [State.sitesOf, State.part_congr h]

/-- The seeds go to the random streams of the partition's sites, and a core keeps the rest (R65). -/
theorem State.core_writeSeeds (s : State) (p k : Nat) (n : W64) :
    ∃ r, (s.writeSeeds p n).core k = { s.core k with rnd := r } ∧ (k ∈ s.sitesOf p → r.seed = stepSeed (s.part p).seed n) := by
  simp only [State.writeSeeds, State.core_updCores _ _ _ _ (s.sitesOf_nodup p)]
  split
  · exact ⟨_, rfl, fun _ => rfl⟩
  · next h => exact ⟨_, rfl, fun hk => absurd hk h⟩

theorem State.core_congr {s t : State} (h : t.cores = s.cores) (k : Nat) : t.core k = s.core k := by
  simp only [State.core, h]

theorem State.startWs_cores (s : State) (p : Nat) : (s.startWs p).cores = s.cores := rfl

theorem State.startWs_parts (s : State) (p : Nat) : (s.startWs p).parts = s.parts := rfl

theorem State.writeSeeds_parts (s : State) (p : Nat) (n : W64) : (s.writeSeeds p n).parts = s.parts := by
  rw [State.writeSeeds, State.updCores_parts]

/-- A beginning step writes the seeds, and changes no core otherwise. -/
theorem State.beginStep_cores (s : State) (p : Nat) : (s.beginStep p).cores = ((s.openActs p).writeSeeds p (s.part p).nextStep).cores := by
  rw [State.beginStep, State.updPart_cores, State.startWs_cores]

theorem State.core_beginStep (s : State) (p k : Nat) :
    ∃ r, (s.beginStep p).core k = { s.core k with rnd := r } ∧ (k ∈ s.sitesOf p → r.seed = stepSeed (s.part p).seed (s.part p).nextStep) := by
  have h := State.core_writeSeeds (s.openActs p) p k (s.part p).nextStep
  rwa [State.sitesOf_congr (s.openActs_parts p), State.part_congr (s.openActs_parts p), State.core_congr (s.openActs_cores p),
    ← State.core_congr (s.beginStep_cores p)] at h

/-- What the partition stands at while its step begins. -/
theorem State.part_beforeBegin (s : State) (p q : Nat) (n : W64) : (((s.openActs p).writeSeeds p n).startWs p).part q = s.part q :=
  State.part_congr (by rw [State.startWs_parts, State.writeSeeds_parts, State.openActs_parts]) q

theorem State.part_beginStep (s : State) (p : PartIx) (hhold : ∀ h ∈ (s.part p).hold, h = .input) (hreplay : (s.part p).replay = none) :
    (s.beginStep p).part p = { s.part p with
      nextStep := (s.part p).nextStep + 1, stepOpen := true, hold := []
      begun := (s.part p).begun ++ [{ step := (s.part p).nextStep, tick := s.tg.tick, cyc := s.tg.cyc }] } := by
  have hfree : (s.part p).hold.filter (· ≠ .input) = [] := by simpa [List.filter_eq_nil_iff] using hhold
  rw [State.beginStep, State.part_updPart _ _ _ _ p.isLt, if_pos rfl, s.part_beforeBegin, hfree, hreplay, Option.map_none, ← hreplay]

theorem State.part_beginStep_other (s : State) (p : PartIx) (q : Nat) (h : q ≠ p) : (s.beginStep p).part q = s.part q := by
  rw [State.beginStep, State.part_updPart _ _ _ _ p.isLt, if_neg h, s.part_beforeBegin]

/-- The beginning of a step changes cores, fields, partitions and the draws. -/
theorem State.beginStep_frame (s : State) (p : Nat) : ∃ cs fs ps n, s.beginStep p = { s with cores := cs, fields := fs, parts := ps, freeCtr := n } := by
  obtain ⟨fs, n, h⟩ := s.openActs_frame p
  simp only [State.beginStep, State.updPart, State.startWs, State.writeSeeds, State.updCores, h]
  exact ⟨_, _, _, _, rfl⟩

/-- The guard of STEP_BEGIN. -/
def State.begins (s : State) (p : Nat) : Bool :=
  let x := s.part p
  let ks := (s.placed p).map Prod.snd
  x.started && s.tg.ofs = 0 && x.edgeIn = (x.plan.map Plan.mult).getD 1 && !ks.isEmpty && ks.all (fun k => (s.core k).seq.st = .held && !(s.core k).held) &&
    (x.hold.filter (· ≠ .input)).isEmpty && !x.replayOver && x.shardsIn x.nextStep

/-- STEP_BEGIN asks for a partition edge, cores that stand held, no hold but the input's, and the shards (R28, R30, R310). -/
theorem State.begins_iff (s : State) (p : Nat) : s.begins p = true ↔
    ((s.part p).started = true ∧ s.tg.ofs = 0 ∧ (s.part p).edgeIn = ((s.part p).plan.map Plan.mult).getD 1) ∧ (s.placed p).map Prod.snd ≠ [] ∧
    (∀ k ∈ (s.placed p).map Prod.snd, (s.core k).seq.st = .held ∧ (s.core k).held = false) ∧ (∀ h ∈ (s.part p).hold, h = .input) ∧
    (s.part p).replayOver = false ∧ (s.part p).shardsIn (s.part p).nextStep = true := by
  simp only [State.begins, Bool.and_eq_true, Bool.not_eq_true', List.all_eq_true, decide_eq_true_eq, List.isEmpty_eq_false_iff, List.isEmpty_iff,
    List.filter_eq_nil_iff, ne_eq, not_not, and_assoc]

theorem Part.replayOver_none {x : Part} (h : x.replay = none) : x.replayOver = false := by
  rw [Part.replayOver, h, Option.any_none]

theorem State.stepBegin_begins {s : State} {p : Nat} (h : s.begins p = true) :
    s.stepBegin p = (s.beginStep p).updCores ((s.placed p).map Prod.snd) (fun _ c => c.atEdge false false s.coreNow) := if_pos h

theorem State.stepBegin_stays {s : State} {p : Nat} (h : ¬ s.begins p = true) : s.stepBegin p = s := if_neg h

/-- Every core of the placement starts the run before which it stands held. -/
theorem State.core_stepBegin {s : State} {p k : Nat} (h : s.begins p = true) (hks : ((s.placed p).map Prod.snd).Nodup) (hk : k ∈ (s.placed p).map Prod.snd) :
    let e := (s.core k).sched.getD (s.core k).seq.entry {}
    let c := (s.stepBegin p).core k
    c.seq.st = .running ∧ c.seq.entry = (s.core k).seq.entry ∧ c.seq.pc = e.addr ∧ c.seq.spanLeft = e.span ∧ (e.stepFirst = true → c.rnd.ctr = 0) ∧
      (k ∈ s.sitesOf p → c.rnd.seed = stepSeed (s.part p).seed (s.part p).nextStep) := by
  intro e c
  obtain ⟨-, -, hcores, -⟩ := (s.begins_iff p).1 h
  obtain ⟨hst, hheld⟩ := hcores k hk
  obtain ⟨r, hcore, hseed⟩ := s.core_beginStep p k
  have hrun : c = ((s.beginStep p).core k).atEdge false false s.coreNow := by
    simp only [c, State.stepBegin_begins h, State.core_updCores _ _ _ _ hks, if_pos hk]
  rw [hrun, hcore, Core.atEdge_held { s.core k with rnd := r } _ hst hheld]
  split
  · exact ⟨rfl, rfl, rfl, rfl, fun _ => rfl, hseed⟩
  · next hfirst => exact ⟨rfl, rfl, rfl, rfl, fun he => absurd he hfirst, hseed⟩

theorem State.stepBegin_parts {s : State} {p : Nat} (h : s.begins p = true) : (s.stepBegin p).parts = (s.beginStep p).parts := by
  rw [State.stepBegin_begins h, State.updCores_parts]

theorem State.stepBegin_frame {s : State} {p : Nat} (h : s.begins p = true) : ∃ cs fs ps n, s.stepBegin p = { s with cores := cs, fields := fs, parts := ps, freeCtr := n } := by
  obtain ⟨cs, fs, ps, n, hframe⟩ := s.beginStep_frame p
  rw [State.stepBegin_begins h, hframe, State.updCores]
  exact ⟨_, _, _, _, rfl⟩

/-! ### What a commit records -/

/-- What a commit settles: of the partition its steps, its records and its intake, beside the state that no commit touches. -/
structure CommitLedger where
  tg : TickGen
  sites : Tab SiteSt
  sec : Sec
  step : W64
  committed : Option W64
  begun : List Begun
  stepOpen : Bool
  enginesDone : List Nat
  digests : List (Nat × W64)
  intake : IntakeSt
  retraces : List Retrace
  since : Nat
  stepCyc : List Nat

/-- The ledger of a state in which the partition stands as `x`. -/
def State.ledgerWith (s : State) (x : Part) : CommitLedger :=
  { tg := s.tg, sites := s.sites, sec := s.sec, step := x.step, committed := x.committed, begun := x.begun, stepOpen := x.stepOpen, enginesDone := x.enginesDone
    digests := x.digests, intake := x.intake, retraces := x.retraces, since := x.snap.since, stepCyc := x.snap.stepCyc }

def State.ledger (s : State) (p : Nat) : CommitLedger := s.ledgerWith (s.part p)

theorem State.ledger_updPart (s : State) (p : PartIx) (g : Part → Part) : (s.updPart p g).ledger p = s.ledgerWith (g (s.part p)) := by
  rw [State.ledger, State.part_updPart _ _ _ _ p.isLt, if_pos rfl]
  rfl

theorem State.ledger_congr {s t : State} (p : Nat) (htg : t.tg = s.tg) (hsites : t.sites = s.sites) (hsec : t.sec = s.sec) (hparts : t.parts = s.parts) :
    t.ledger p = s.ledger p := by
  simp only [State.ledger, State.ledgerWith, State.part_congr hparts, htg, hsites, hsec]

@[simp] theorem State.ledger_emit (s : State) (o : List Output) (p : Nat) : (s.emit o).ledger p = s.ledger p := rfl

@[simp] theorem State.ledger_holdSnap (s : State) (p : PartIx) : (s.holdSnap p).ledger p = s.ledger p := s.ledger_updPart p _

@[simp] theorem State.ledger_announce (s : State) (p : PartIx) (n : W64) : (s.announce p n).ledger p = s.ledger p := by
  simp only [State.announce]
  split
  · rfl
  · split
    · rfl
    · split
      · rfl
      · rw [State.ledger_emit]
        exact s.ledger_updPart p _

@[simp] theorem State.ledger_sendStop (s : State) (p : PartIx) : (s.sendStop p).ledger p = s.ledger p := by
  unfold State.sendStop
  split
  · rfl
  · exact s.ledger_updPart p _

@[simp] theorem State.ledger_tellStop (s : State) (p : PartIx) : (s.tellStop p).ledger p = s.ledger p := by
  unfold State.tellStop
  split
  · exact s.ledger_emit _ p
  · rfl

@[simp] theorem State.ledger_adopt (s : State) (p : PartIx) (new : List Member) : (s.adopt p new).ledger p = s.ledger p := by
  simp only [State.adopt, State.beyondLists]
  split
  · rw [State.ledger_emit]
    exact s.ledger_updPart p _
  · exact s.ledger_updPart p _

@[simp] theorem State.ledger_takeJoins (s : State) (p : PartIx) : (s.takeJoins p).ledger p = s.ledger p := by
  have cleared : (s.updPart p (fun y => { y with joins := [] })).ledger p = s.ledger p := s.ledger_updPart p _
  simp only [State.takeJoins]
  split
  · rfl
  · split
    · rw [State.ledger_emit, cleared]
    · rw [State.ledger_adopt, State.ledger_emit, cleared]

/-! The envelope's moves at a commit boundary (R343). -/

@[simp] theorem State.ledger_endLong (s : State) (k : LongKind → Bool) (st : W16) (r : W64) (n p : Nat) : (s.endLong k st r n).ledger p = s.ledger p := by
  unfold State.endLong
  split
  · rfl
  · exact State.ledger_congr p (State.finish_tg ..) (State.finish_sites ..) (State.finish_sec ..) (State.finish_parts ..)

@[simp] theorem State.ledger_updTer (s : State) (t : Nat) (g : Ter → Ter) (p : Nat) : (s.updTer t g).ledger p = s.ledger p := rfl

@[simp] theorem State.ledger_orderDark (s : State) (t : Nat) (heat : Bool) (p : Nat) : (s.orderDark t heat).ledger p = s.ledger p := by
  unfold State.orderDark
  split
  · rfl
  · exact State.ledger_updTer s t _ p

@[simp] theorem State.ledger_paceDark (ts : List Nat) (sum ofs : Nat) (s : State) (p : Nat) : (State.paceDark ts sum ofs s).ledger p = s.ledger p := by
  induction ts generalizing sum ofs s with
  | nil => rfl
  | cons t ts ih => rw [State.paceDark, ih, State.ledger_updTer, State.ledger_orderDark]

@[simp] theorem State.ledger_steerClock (s : State) (p : Nat) : s.steerClock.ledger p = s.ledger p := by
  simp only [State.steerClock]
  split <;> rfl

@[simp] theorem State.ledger_envAdvance (s : State) (p : Nat) : s.envAdvance.ledger p = s.ledger p := by
  unfold State.envAdvance
  extract_lets e placed lower t pwr env u v late
  have steered : t.ledger p = s.ledger p := by
    simp only [t]
    split
    · exact s.ledger_steerClock p
    · rfl
  split
  · rfl
  · split
    · exact steered
    · rw [State.ledger_endLong, State.ledger_paceDark]
      exact steered

/-- The re-placement loads cores, reductions and cols (R281, R343). -/
theorem State.rePlace_frame (s : State) (p : Nat) : ∃ cs fs cols, s.rePlace p = { s with cores := cs, fields := fs, cols := cols } := by
  simp only [State.rePlace, State.mapCores, State.loadCores, State.loadReds, State.loadCols, State.updCores, State.armCols]
  exact ⟨_, _, _, rfl⟩

@[simp] theorem State.ledger_rePlace (s : State) (p q : Nat) : (s.rePlace p).ledger q = s.ledger q := by
  obtain ⟨cs, fs, cols, h⟩ := s.rePlace_frame p
  rw [h]
  rfl

@[simp] theorem State.ledger_envReplace (s : State) (p : PartIx) : (s.envReplace p).ledger p = s.ledger p := by
  simp only [State.envReplace]
  split
  · rfl
  · split
    · rfl
    · rw [State.ledger_envAdvance, State.ledger_rePlace]
      exact s.ledger_updPart p _

/-! ### STEP_COMMIT -/

theorem State.setRates_frame (s : State) (p n : Nat) : ∃ fs, s.setRates p n = { s with fields := fs } := by
  unfold State.setRates
  split
  · exact ⟨s.fields, rfl⟩
  · next pl hpl =>
    clear hpl
    generalize pl.rules = rs
    induction rs generalizing s with
    | nil => exact ⟨s.fields, rfl⟩
    | cons r rs ih =>
      rw [List.foldl_cons]
      split
      · exact ih _
      · exact ih s

theorem State.startRoots_frame (s : State) (p n : Nat) : ∃ cs fs, s.startRoots p n = { s with cores := cs, fields := fs } := by
  have jobs (js : List (Nat × Nat)) : ∃ cs, js.foldl (fun (u : State) j => u.updCores [j.1] (fun _ c => c.startJob j.2)) s = { s with cores := cs } := by
    induction js generalizing s with
    | nil => exact ⟨s.cores, rfl⟩
    | cons j js ih => exact ih _
  simp only [State.startRoots]
  obtain ⟨cs, h⟩ := jobs _
  rw [h]
  exact ⟨_, _, rfl⟩

theorem State.ratesAndRoots_frame (s : State) (p m n : Nat) : ∃ cs fs, (s.setRates p m).startRoots p n = { s with cores := cs, fields := fs } := by
  obtain ⟨fs, h⟩ := s.setRates_frame p m
  rw [h]
  exact State.startRoots_frame _ p n

theorem keepRetraces_head (r : Retrace) (rs : List Retrace) : (keepRetraces (r :: rs)).head? = some r := by
  unfold keepRetraces
  split <;> rfl

@[simp] theorem State.ledger_ratesAndRoots (s : State) (p m n q : Nat) : ((s.setRates p m).startRoots p n).ledger q = s.ledger q := by
  obtain ⟨cs, fs, h⟩ := s.ratesAndRoots_frame p m n
  rw [h]
  rfl

theorem State.ratesAndRoots_parts (s : State) (p m n : Nat) : ((s.setRates p m).startRoots p n).parts = s.parts := by
  obtain ⟨cs, fs, h⟩ := s.ratesAndRoots_frame p m n
  rw [h]

@[simp] theorem State.ledger_setIvl (s : State) (p : PartIx) (n : Nat) : (s.updPart p (fun y => { y with snap := { y.snap with ivl := n } })).ledger p = s.ledger p :=
  s.ledger_updPart p _

/-- The commit of a step moves the ledger on, and what falls on its boundary keeps it (R32, R246, R291, R308). -/
theorem State.ledger_commitStep (s : State) (p : PartIx) (b : Begun) : (s.commitStep p b).ledger p =
    { s.ledger p with
      step := b.step + 1, committed := some b.step, begun := (s.part p).begun.drop 1, stepOpen := !((s.part p).begun.drop 1).isEmpty
      enginesDone := [], digests := [], intake := (s.part p).intakeNext b.step, retraces := keepRetraces (s.retraceOf p b :: (s.part p).retraces)
      since := (s.part p).snap.since + 1, stepCyc := ((s.tg.cyc - b.cyc).toNat :: (s.part p).snap.stepCyc).take 64 } := by
  unfold State.commitStep
  extract_lets x recorded jobs timed held stopped
  have hstopped : (if (stopped.part p).stepOpen then stopped else (stopped.takeJoins p).envReplace p).ledger p = stopped.ledger p := by
    split
    · rfl
    · rw [State.ledger_envReplace, State.ledger_takeJoins]
  have hheld : stopped.ledger p = held.ledger p := by
    simp only [stopped]
    split
    · rw [State.ledger_sendStop, State.ledger_tellStop]
    · rfl
  have htimed : held.ledger p = timed.ledger p := by
    simp only [held]
    split
    · exact timed.ledger_holdSnap p
    · exact timed.ledger_announce p b.step
  have hjobs : timed.ledger p = jobs.ledger p := jobs.ledger_setIvl p _
  have hrecorded : jobs.ledger p = recorded.ledger p := recorded.ledger_ratesAndRoots p _ _ p
  rw [hstopped, hheld, htimed, hjobs, hrecorded]
  exact s.ledger_updPart p _

/-- What a commit asks of the partition beside its oldest step and its edge (R32, R219, R253, R300). -/
def State.commitQuiet (s : State) (p : Nat) : Prop :=
  let x := s.part p
  (∀ r ∈ s.fw.reports, r.part ≠ p) ∧ (∀ k ∈ (s.placed p).map Prod.snd, (s.core k).seq.st ≠ .faulted) ∧ (∀ f ∈ s.fields, f.2.trained p = [] ∨ f.1 ∈ x.enginesDone) ∧
    x.checkSites = [] ∧ x.arb = [] ∧ x.digestBad = false ∧ x.digestsMatched = true ∧ x.rollBack = false ∧ x.rcv.active = false

theorem State.faultOpen_iff (s : State) (p : Nat) : s.faultOpen p = false ↔
    (∀ r ∈ s.fw.reports, r.part ≠ p) ∧ ∀ k ∈ (s.placed p).map Prod.snd, (s.core k).seq.st ≠ .faulted := by
  simp only [State.faultOpen, Bool.or_eq_false_iff, List.any_eq_false, decide_eq_true_eq, List.forall_mem_map, ne_eq]

theorem State.enginesIn_iff (s : State) (p : Nat) : s.enginesIn p = true ↔ ∀ f ∈ s.fields, f.2.trained p = [] ∨ f.1 ∈ (s.part p).enginesDone := by
  simp only [State.enginesIn, List.all_eq_true, Bool.or_eq_true, List.isEmpty_iff, List.contains_iff_mem]

theorem State.stepRan_iff (s : State) (p : Nat) : s.stepRan p = true ↔ ∃ b r, (s.part p).begun = b :: r ∧ b.tick ≠ s.tg.tick := by
  unfold State.stepRan
  cases (s.part p).begun with
  | nil => simp
  | cons b r => simp

theorem State.commits_iff (s : State) (p : Nat) : s.commits p = true ↔
    (∃ b r, (s.part p).begun = b :: r ∧ b.tick ≠ s.tg.tick) ∧ (s.part p).stepOpen = true ∧
    ((s.part p).started = true ∧ s.tg.ofs = 0 ∧ (s.part p).edgeIn = ((s.part p).plan.map Plan.mult).getD 1) ∧ s.commitQuiet p := by
  simp only [State.commits, State.commitQuiet, Bool.and_eq_true, Bool.not_eq_true', decide_eq_true_eq, List.isEmpty_iff, State.stepRan_iff, State.faultOpen_iff,
    State.enginesIn_iff]
  tauto

theorem State.stepCommit_stays {s : State} {p : Nat} (h : ¬ s.commits p = true) : s.stepCommit p = s := if_neg h

theorem State.stepCommit_commits {s : State} {p : Nat} {b : Begun} {r : List Begun} (h : s.commits p = true) (hb : (s.part p).begun = b :: r) :
    s.stepCommit p = if (s.part p).replay.isSome then s.replayStep p b else s.commitStep p b := by
  rw [State.stepCommit, if_pos h, hb]

/-- A replayed step moves the partition on and leaves no record (R310). -/
theorem State.part_replayStep (s : State) (p : PartIx) (b : Begun) : (s.replayStep p b).part p = { s.part p with
    step := b.step + 1, committed := some b.step, begun := (s.part p).begun.drop 1, stepOpen := !((s.part p).begun.drop 1).isEmpty
    enginesDone := [], digests := [], intake := (s.part p).intakeNext b.step } := by
  refine (State.part_congr (State.ratesAndRoots_parts _ _ _ _) p).trans ?_
  rw [State.part_updPart _ _ _ _ p.isLt, if_pos rfl]

theorem State.ledger_replayStep (s : State) (p : PartIx) (b : Begun) : (s.replayStep p b).ledger p =
    { s.ledger p with
      step := b.step + 1, committed := some b.step, begun := (s.part p).begun.drop 1, stepOpen := !((s.part p).begun.drop 1).isEmpty
      enginesDone := [], digests := [], intake := (s.part p).intakeNext b.step } :=
  (State.ledger_ratesAndRoots _ p _ _ p).trans (s.ledger_updPart p _)

theorem Part.begun_drop {x : Part} {b : Begun} {r : List Begun} (hb : x.begun = b :: r) : x.begun.drop 1 = r := by
  rw [hb, List.drop_one, List.tail_cons]

/-- What a commit leaves in the ledger; the records and the counts move on outside a replay only (R310). -/
theorem State.ledger_stepCommit {s : State} {p : PartIx} {b : Begun} {r : List Begun} (h : s.commits p = true) (hb : (s.part p).begun = b :: r) :
    ∃ rs n cyc, (s.stepCommit p).ledger p = { s.ledger p with
        step := b.step + 1, committed := some b.step, begun := r, stepOpen := !r.isEmpty, enginesDone := [], digests := []
        intake := (s.part p).intakeNext b.step, retraces := rs, since := n, stepCyc := cyc } ∧
      ((s.part p).replay = none → rs = keepRetraces (s.retraceOf p b :: (s.part p).retraces) ∧ n = (s.part p).snap.since + 1 ∧
        cyc = ((s.tg.cyc - b.cyc).toNat :: (s.part p).snap.stepCyc).take 64) := by
  rw [State.stepCommit_commits h hb]
  cases hreplay : (s.part p).replay with
  | none =>
    refine ⟨_, _, _, ?_, fun _ => ⟨rfl, rfl, rfl⟩⟩
    exact (s.ledger_commitStep p b).trans (by rw [Part.begun_drop hb])
  | some y =>
    refine ⟨(s.part p).retraces, (s.part p).snap.since, (s.part p).snap.stepCyc, (s.ledger_replayStep p b).trans ?_, nofun⟩
    rw [Part.begun_drop hb]
    rfl

theorem State.part_stepCommit_replay {s : State} {p : PartIx} {b : Begun} {r : List Begun} (h : s.commits p = true) (hb : (s.part p).begun = b :: r)
    (hreplay : (s.part p).replay ≠ none) : (s.stepCommit p).part p = { s.part p with
      step := b.step + 1, committed := some b.step, begun := r, stepOpen := !r.isEmpty
      enginesDone := [], digests := [], intake := (s.part p).intakeNext b.step } := by
  rw [State.stepCommit_commits h hb, if_pos (Option.isSome_iff_ne_none.2 hreplay), State.part_replayStep, Part.begun_drop hb]

/-! ### SNAPSHOT_ANNOUNCE -/

theorem State.snapAnnounced_hears (s : State) (p : PartIx) (n : W64) (hstarted : (s.part p).started = true) (hspans : 1 < (s.part p).members.length)
    (hstep : (s.part p).step.toNat ≤ n.toNat) : s.snapAnnounced p n = s.withPart p (fun y => { y with snap := { y.snap with announced := some n } }) := by
  rw [← State.updPart_eq_withPart]
  exact if_pos (by simp [Part.spans, hstarted, hspans, hstep])

theorem State.snapAnnounced_ignores (s : State) (p : Nat) (n : W64)
    (h : (s.part p).started = false ∨ (s.part p).members.length ≤ 1 ∨ n.toNat < (s.part p).step.toNat) : s.snapAnnounced p n = s := by
  refine if_neg (fun hall => ?_)
  simp only [Part.spans, Bool.and_eq_true, decide_eq_true_eq] at hall
  obtain ⟨⟨hstarted, hspans⟩, hstep⟩ := hall
  rcases h with h | h | h
  · exact absurd hstarted (by simp [h])
  · omega
  · omega

end Sys2Proof.Machine

open Sys2Proof Sys2Proof.Machine

/-- Settles O43: a beginning step follows core by core from `core_stepBegin`, a commit from the ledger that all of its boundary work keeps. That a
commit waits for a recovery and that a step's time runs from its begin edge are the model's choice (log 38). -/
theorem stepsComplete : Obligations.StepsComplete := by
  unfold Obligations.StepsComplete
  intro p s x ks edge quiet
  refine ⟨?_, ?_, ?_, ?_, ?_, ?_⟩
  · intro hedge hks hnodup hcores hhold hreplay hshards
    have hbegins := (s.begins_iff p).2 ⟨hedge, hks, hcores, hhold, Part.replayOver_none hreplay, hshards⟩
    have hparts := State.stepBegin_parts hbegins
    refine ⟨s.stepBegin p, rfl, ?_, fun k hk => State.core_stepBegin hbegins hnodup hk, fun q _ hq => ?_, ?_⟩
    · rw [State.part_congr hparts, s.part_beginStep p hhold hreplay]
    · rw [State.part_congr hparts, s.part_beginStep_other p q hq]
    · obtain ⟨cs, fs, ps, n, h⟩ := State.stepBegin_frame hbegins
      rw [h]
  · intro h
    refine next_congr (State.stepBegin_stays fun hall => ?_)
    obtain ⟨hedge, hks, hcores, hhold, -, hshards⟩ := (s.begins_iff p).1 hall
    rcases h with h | h | h | ⟨w, hw, hne⟩ | ⟨k, hk, hne | hheld⟩
    · exact h hedge
    · exact hks h
    · exact Bool.eq_false_iff.1 h hshards
    · exact hne (hhold w hw)
    · exact hne (hcores k hk).1
    · exact Bool.eq_false_iff.1 (hcores k hk).2 hheld
  · intro b r hb htick hopen hedge hquiet
    have hall := (s.commits_iff p).2 ⟨⟨b, r, hb, htick⟩, hopen, hedge, hquiet⟩
    obtain ⟨rs, n, cyc, hledger, hcounts⟩ := State.ledger_stepCommit hall hb
    simp only [State.ledger, State.ledgerWith, CommitLedger.mk.injEq] at hledger
    obtain ⟨htg, hsites, hsec, hstep, hcommitted, hbegun, hstepOpen, hengines, hdigests, hintake, hretraces, hsince, hcyc⟩ := hledger
    refine ⟨s.stepCommit p, rfl, hcommitted, hstep, hbegun, hstepOpen, hengines, hdigests, hintake, htg, hsites, hsec, fun hreplay => ?_, fun hreplay => ?_⟩
    · obtain ⟨rfl, rfl, rfl⟩ := hcounts hreplay
      exact ⟨hsince, by rw [hcyc]; rfl, s.retraceOf p b, by rw [hretraces, keepRetraces_head], rfl, rfl, rfl, rfl⟩
    · exact State.part_stepCommit_replay hall hb hreplay
  · intro h
    refine next_congr (State.stepCommit_stays fun hall => ?_)
    obtain ⟨⟨b, r, hb, htick⟩, hopen, hedge, hquiet⟩ := (s.commits_iff p).1 hall
    rcases h with h | ⟨b', r', hb', htick'⟩ | h | h | h
    · exact List.cons_ne_nil b r (hb.symm.trans h)
    · obtain ⟨rfl, -⟩ := List.cons.inj (hb.symm.trans hb')
      exact htick htick'
    · exact Bool.eq_false_iff.1 h hopen
    · exact h hedge
    · exact h hquiet
  · exact fun n hstarted hspans hstep => next_congr (s.snapAnnounced_hears p n hstarted hspans hstep)
  · exact fun n h => next_congr (s.snapAnnounced_ignores p n h)
end

section
/-! Instruction words (R83, R84): the fields of a word read back, and a word is put together from its fields. -/

namespace Sys2Proof

open Sys2Proof.Machine

/-! ### Fields of a word -/

/-- A word below bit `lo + n` is its field of `n` bits from `lo` on, and what lies below the field. -/
theorem mod_eq_bits_add (w : W64) (lo n : Nat) : w.toNat % 2 ^ (lo + n) = (bits w lo n).toNat * 2 ^ lo + w.toNat % 2 ^ lo := by
  rw [Nat.pow_add, Nat.mod_mul, bits, BitVec.toNat_ofNat, Nat.mul_comm, Nat.add_comm]

/-- A word is put together from its class, its operation and its low 52 bits. -/
theorem opWord_mod {w : W64} {cls op : Nat} (hc : w.toNat / 2 ^ 60 = cls) (ho : w.toNat / 2 ^ 52 % 256 = op) :
    opWord cls op (w.toNat % 2 ^ 52) = w := by
  apply BitVec.eq_of_toNat_eq
  rw [opWord, BitVec.toNat_ofNat]
  omega

theorem opWord_class (cls op rest : Nat) (hc : cls < 16) (ho : op < 256) (hr : rest < 2 ^ 52) : (opWord cls op rest).toNat / 2 ^ 60 = cls := by
  rw [opWord, BitVec.toNat_ofNat]
  omega

theorem opWord_op (cls op rest : Nat) (ho : op < 256) (hr : rest < 2 ^ 52) : (opWord cls op rest).toNat / 2 ^ 52 % 256 = op := by
  rw [opWord, BitVec.toNat_ofNat]
  omega

/-! ### Class 0x0 -/

theorem encScalar_class (op : Nat) (f : ScalarF) (h : op < 256) : (encScalar op f).toNat / 2 ^ 60 = 0 :=
  opWord_class 0 op _ (by decide) h (by omega)

theorem encScalar_op (op : Nat) (f : ScalarF) (h : op < 256) : (encScalar op f).toNat / 2 ^ 52 % 256 = op :=
  opWord_op 0 op _ h (by omega)

theorem decScalar_encScalar (op : Nat) (f : ScalarF) : decScalar (encScalar op f) = f := by
  obtain ⟨sd, sa, sb, rsv, imm⟩ := f
  simp only [decScalar, encScalar, opWord, bits, ScalarF.mk.injEq]
  refine ⟨?_, ?_, ?_, ?_, ?_⟩ <;> apply BitVec.eq_of_toNat_eq <;> simp only [BitVec.toNat_ofNat] <;> omega

theorem encScalar_decScalar {w : W64} {op : Nat} (hc : w.toNat / 2 ^ 60 = 0) (ho : w.toNat / 2 ^ 52 % 256 = op) : encScalar op (decScalar w) = w := by
  conv_rhs => rw [← opWord_mod hc ho, mod_eq_bits_add w 47 5, mod_eq_bits_add w 42 5, mod_eq_bits_add w 37 5, mod_eq_bits_add w 32 5,
    mod_eq_bits_add w 0 32]
  simp [encScalar, decScalar, add_assoc, Nat.mod_one]

/-! ### Class 0x1 -/

theorem encBranch_class (op : Nat) (f : BranchF) (h : op < 256) : (encBranch op f).toNat / 2 ^ 60 = 1 :=
  opWord_class 1 op _ (by decide) h (by omega)

theorem encBranch_op (op : Nat) (f : BranchF) (h : op < 256) : (encBranch op f).toNat / 2 ^ 52 % 256 = op :=
  opWord_op 1 op _ h (by omega)

theorem decBranch_encBranch (op : Nat) (f : BranchF) : decBranch (encBranch op f) = f := by
  obtain ⟨sa, cond, level, rsv, ofs⟩ := f
  simp only [decBranch, encBranch, opWord, bits, BranchF.mk.injEq]
  refine ⟨?_, ?_, ?_, ?_, ?_⟩ <;> apply BitVec.eq_of_toNat_eq <;> simp only [BitVec.toNat_ofNat] <;> omega

theorem encBranch_decBranch {w : W64} {op : Nat} (hc : w.toNat / 2 ^ 60 = 1) (ho : w.toNat / 2 ^ 52 % 256 = op) : encBranch op (decBranch w) = w := by
  conv_rhs => rw [← opWord_mod hc ho, mod_eq_bits_add w 47 5, mod_eq_bits_add w 43 4, mod_eq_bits_add w 41 2, mod_eq_bits_add w 32 9,
    mod_eq_bits_add w 0 32]
  simp [encBranch, decBranch, add_assoc, Nat.mod_one]

/-! ### Classes 0x2 to 0x5 -/

theorem encVec_class (cls op : Nat) (f : VecF) (hc : cls < 16) (h : op < 256) : (encVec cls op f).toNat / 2 ^ 60 = cls :=
  opWord_class cls op _ hc h (by omega)

theorem encVec_op (cls op : Nat) (f : VecF) (h : op < 256) : (encVec cls op f).toNat / 2 ^ 52 % 256 = op :=
  opWord_op cls op _ h (by omega)

theorem decVec_encVec (cls op : Nat) (f : VecF) : decVec (encVec cls op f) = f := by
  obtain ⟨mask, zm, rnd, vd, va, vb, vc, fmt, rsv, imm⟩ := f
  simp only [decVec, encVec, opWord, bits, VecF.mk.injEq]
  refine ⟨?_, ?_, ?_, ?_, ?_, ?_, ?_, ?_, ?_, ?_⟩ <;> apply BitVec.eq_of_toNat_eq <;> simp only [BitVec.toNat_ofNat] <;> omega

theorem encVec_decVec {w : W64} {cls op : Nat} (hc : w.toNat / 2 ^ 60 = cls) (ho : w.toNat / 2 ^ 52 % 256 = op) : encVec cls op (decVec w) = w := by
  conv_rhs => rw [← opWord_mod hc ho, mod_eq_bits_add w 49 3, mod_eq_bits_add w 48 1, mod_eq_bits_add w 46 2, mod_eq_bits_add w 41 5,
    mod_eq_bits_add w 36 5, mod_eq_bits_add w 31 5, mod_eq_bits_add w 26 5, mod_eq_bits_add w 22 4, mod_eq_bits_add w 16 6, mod_eq_bits_add w 0 16]
  simp [encVec, decVec, add_assoc, Nat.mod_one]

/-! ### Class 0x6 -/

theorem encArr_class (op : Nat) (f : ArrF) (h : op < 256) : (encArr op f).toNat / 2 ^ 60 = 6 :=
  opWord_class 6 op _ (by decide) h (by omega)

theorem encArr_op (op : Nat) (f : ArrF) (h : op < 256) : (encArr op f).toNat / 2 ^ 52 % 256 = op :=
  opWord_op 6 op _ h (by omega)

theorem decArr_encArr (op : Nat) (f : ArrF) : decArr (encArr op f) = f := by
  obtain ⟨group, afmt, wfmt, fuse, first, n, win, sa, rsv⟩ := f
  simp only [decArr, encArr, opWord, bits, ArrF.mk.injEq]
  refine ⟨?_, ?_, ?_, ?_, ?_, ?_, ?_, ?_, ?_⟩ <;> apply BitVec.eq_of_toNat_eq <;> simp only [BitVec.toNat_ofNat] <;> omega

theorem encArr_decArr {w : W64} {op : Nat} (hc : w.toNat / 2 ^ 60 = 6) (ho : w.toNat / 2 ^ 52 % 256 = op) : encArr op (decArr w) = w := by
  conv_rhs => rw [← opWord_mod hc ho, mod_eq_bits_add w 49 3, mod_eq_bits_add w 45 4, mod_eq_bits_add w 41 4, mod_eq_bits_add w 39 2,
    mod_eq_bits_add w 28 11, mod_eq_bits_add w 17 11, mod_eq_bits_add w 13 4, mod_eq_bits_add w 8 5, mod_eq_bits_add w 0 8]
  simp [encArr, decArr, add_assoc, Nat.mod_one]

/-! ### Class 0x7 -/

theorem encDma_class (op : Nat) (f : DmaF) (h : op < 256) : (encDma op f).toNat / 2 ^ 60 = 7 :=
  opWord_class 7 op _ (by decide) h (by omega)

theorem encDma_op (op : Nat) (f : DmaF) (h : op < 256) : (encDma op f).toNat / 2 ^ 52 % 256 = op :=
  opWord_op 7 op _ h (by omega)

theorem decDma_encDma (op : Nat) (f : DmaF) : decDma (encDma op f) = f := by
  obtain ⟨sa, sb, sc, sem, win, w, xp, fmt, gmode, rsv⟩ := f
  simp only [decDma, encDma, opWord, bits, DmaF.mk.injEq]
  refine ⟨?_, ?_, ?_, ?_, ?_, ?_, ?_, ?_, ?_, ?_⟩ <;> apply BitVec.eq_of_toNat_eq <;> simp only [BitVec.toNat_ofNat] <;> omega

theorem encDma_decDma {w : W64} {op : Nat} (hc : w.toNat / 2 ^ 60 = 7) (ho : w.toNat / 2 ^ 52 % 256 = op) : encDma op (decDma w) = w := by
  conv_rhs => rw [← opWord_mod hc ho, mod_eq_bits_add w 47 5, mod_eq_bits_add w 42 5, mod_eq_bits_add w 37 5, mod_eq_bits_add w 31 6,
    mod_eq_bits_add w 27 4, mod_eq_bits_add w 26 1, mod_eq_bits_add w 23 3, mod_eq_bits_add w 19 4, mod_eq_bits_add w 18 1, mod_eq_bits_add w 0 18]
  simp [encDma, decDma, add_assoc, Nat.mod_one]

/-! ### Class 0x8 -/

theorem encNet_class (op : Nat) (f : NetF) (h : op < 256) : (encNet op f).toNat / 2 ^ 60 = 8 :=
  opWord_class 8 op _ (by decide) h (by omega)

theorem encNet_op (op : Nat) (f : NetF) (h : op < 256) : (encNet op f).toNat / 2 ^ 52 % 256 = op :=
  opWord_op 8 op _ h (by omega)

theorem decNet_encNet (op : Nat) (f : NetF) : decNet (encNet op f) = f := by
  obtain ⟨sa, sb, sc, sem, win, w, vc, rid, rsv⟩ := f
  simp only [decNet, encNet, opWord, bits, NetF.mk.injEq]
  refine ⟨?_, ?_, ?_, ?_, ?_, ?_, ?_, ?_, ?_⟩ <;> apply BitVec.eq_of_toNat_eq <;> simp only [BitVec.toNat_ofNat] <;> omega

theorem encNet_decNet {w : W64} {op : Nat} (hc : w.toNat / 2 ^ 60 = 8) (ho : w.toNat / 2 ^ 52 % 256 = op) : encNet op (decNet w) = w := by
  conv_rhs => rw [← opWord_mod hc ho, mod_eq_bits_add w 47 5, mod_eq_bits_add w 42 5, mod_eq_bits_add w 37 5, mod_eq_bits_add w 31 6,
    mod_eq_bits_add w 27 4, mod_eq_bits_add w 26 1, mod_eq_bits_add w 23 3, mod_eq_bits_add w 13 10, mod_eq_bits_add w 0 13]
  simp [encNet, decNet, add_assoc, Nat.mod_one]

/-! ### Class 0x9 -/

theorem encSync_class (op : Nat) (f : SyncF) (h : op < 256) : (encSync op f).toNat / 2 ^ 60 = 9 :=
  opWord_class 9 op _ (by decide) h (by omega)

theorem encSync_op (op : Nat) (f : SyncF) (h : op < 256) : (encSync op f).toNat / 2 ^ 52 % 256 = op :=
  opWord_op 9 op _ h (by omega)

theorem decSync_encSync (op : Nat) (f : SyncF) : decSync (encSync op f) = f := by
  obtain ⟨cause, sem, col, sa, rsv, imm⟩ := f
  simp only [decSync, encSync, opWord, bits, SyncF.mk.injEq]
  refine ⟨?_, ?_, ?_, ?_, ?_, ?_⟩ <;> apply BitVec.eq_of_toNat_eq <;> simp only [BitVec.toNat_ofNat] <;> omega

theorem encSync_decSync {w : W64} {op : Nat} (hc : w.toNat / 2 ^ 60 = 9) (ho : w.toNat / 2 ^ 52 % 256 = op) : encSync op (decSync w) = w := by
  conv_rhs => rw [← opWord_mod hc ho, mod_eq_bits_add w 49 3, mod_eq_bits_add w 43 6, mod_eq_bits_add w 30 13, mod_eq_bits_add w 25 5,
    mod_eq_bits_add w 16 9, mod_eq_bits_add w 0 16]
  simp [encSync, decSync, add_assoc, Nat.mod_one]

/-! ### Decode and encode -/

set_option smartUnfolding false in
/-- The decoder as a choice of the class and then of the operation within it (R83): by evaluation. -/
theorem decodeInsn_byClass (k : Site) (w : W64) : decodeInsn k w = match w.toNat / 2 ^ 60 with
    | 0 => match w.toNat / 2 ^ 52 % 256 with
      | 0x00 => some (.add k (decScalar w)) | 0x01 => some (.sub k (decScalar w)) | 0x02 => some (.and k (decScalar w))
      | 0x03 => some (.or k (decScalar w)) | 0x04 => some (.xor k (decScalar w)) | 0x05 => some (.shl k (decScalar w))
      | 0x06 => some (.shr k (decScalar w)) | 0x07 => some (.sar k (decScalar w)) | 0x08 => some (.mul k (decScalar w))
      | 0x09 => some (.slt k (decScalar w)) | 0x0A => some (.sltu k (decScalar w)) | 0x10 => some (.ldi k (decScalar w))
      | 0x11 => some (.ldih k (decScalar w)) | 0x12 => some (.addi k (decScalar w)) | 0x20 => some (.ld k (decScalar w))
      | 0x21 => some (.st k (decScalar w)) | 0x30 => some (.srd k (decScalar w)) | 0x31 => some (.ctlw k (decScalar w)) | _ => none
    | 1 => match w.toNat / 2 ^ 52 % 256 with
      | 0x00 => some (.br k (decBranch w)) | 0x01 => some (.loop k (decBranch w)) | _ => none
    | 2 => match w.toNat / 2 ^ 52 % 256 with
      | 0x00 => some (.vadd k (decVec w)) | 0x01 => some (.vsub k (decVec w)) | 0x02 => some (.vadds k (decVec w))
      | 0x03 => some (.vsubs k (decVec w)) | 0x04 => some (.vaddu k (decVec w)) | 0x05 => some (.vsubu k (decVec w))
      | 0x08 => some (.vand k (decVec w)) | 0x09 => some (.vor k (decVec w)) | 0x0A => some (.vxor k (decVec w))
      | 0x0B => some (.vandn k (decVec w)) | 0x10 => some (.vshl k (decVec w)) | 0x11 => some (.vshr k (decVec w))
      | 0x12 => some (.vsar k (decVec w)) | 0x14 => some (.vshli k (decVec w)) | 0x15 => some (.vshri k (decVec w))
      | 0x16 => some (.vsari k (decVec w)) | 0x18 => some (.vcmpeq k (decVec w)) | 0x19 => some (.vcmplt k (decVec w))
      | 0x1A => some (.vcmpltu k (decVec w)) | 0x20 => some (.vsel k (decVec w)) | 0x21 => some (.vmov k (decVec w))
      | 0x22 => some (.vbcast k (decVec w)) | 0x30 => some (.vld k (decVec w)) | 0x31 => some (.vst k (decVec w)) | _ => none
    | 3 => match w.toNat / 2 ^ 52 % 256 with
      | 0x00 => some (.fadd k (decVec w)) | 0x01 => some (.fsub k (decVec w)) | 0x02 => some (.fmul k (decVec w))
      | 0x03 => some (.ffma k (decVec w)) | 0x04 => some (.fmax k (decVec w)) | 0x05 => some (.fmin k (decVec w))
      | 0x08 => some (.fcmpeq k (decVec w)) | 0x09 => some (.fcmplt k (decVec w)) | 0x0A => some (.fcmple k (decVec w))
      | 0x0B => some (.fcmpun k (decVec w)) | _ => none
    | 4 => match w.toNat / 2 ^ 52 % 256 with
      | 0x00 => some (.vexp2 k (decVec w)) | 0x01 => some (.vrsqrt k (decVec w)) | 0x08 => some (.vcvtTomx k (decVec w))
      | 0x09 => some (.vcvtFrommx k (decVec w)) | 0x0A => some (.vcvtTobf16 k (decVec w)) | 0x0B => some (.vcvtFrombf16 k (decVec w))
      | 0x10 => some (.vrsum k (decVec w)) | 0x11 => some (.vrmax k (decVec w)) | 0x20 => some (.msetn k (decVec w))
      | 0x21 => some (.mand k (decVec w)) | 0x22 => some (.mor k (decVec w)) | 0x23 => some (.mnot k (decVec w))
      | 0x24 => some (.mcount k (decVec w)) | _ => none
    | 5 => match w.toNat / 2 ^ 52 % 256 with
      | 0x00 => some (.vadn k (decVec w)) | 0x01 => some (.vaup k (decVec w)) | _ => none
    | 6 => match w.toNat / 2 ^ 52 % 256 with
      | 0x00 => some (.tload k (decArr w)) | 0x01 => some (.pass k (decArr w) []) | 0x08 => some (.gopen k (decArr w))
      | 0x09 => some (.gclose k (decArr w)) | 0x0A => some (.gdrainB k (decArr w)) | 0x0B => some (.gdrainV k (decArr w))
      | 0x0C => some (.grel k (decArr w)) | 0x0D => some (.gside k (decArr w)) | 0x10 => some (.stage k (decArr w))
      | 0x11 => some (.unstage k (decArr w)) | _ => none
    | 7 => match w.toNat / 2 ^ 52 % 256 with
      | 0x00 => some (.copy k (decDma w)) | 0x01 => some (.hrd k (decDma w)) | 0x02 => some (.hwr k (decDma w)) | 0x03 => some (.gwr k (decDma w)) | _ => none
    | 8 => match w.toNat / 2 ^ 52 % 256 with
      | 0x00 => some (.send k (decNet w)) | 0x01 => some (.red k (decNet w)) | 0x02 => some (.msg k (decNet w))
      | 0x03 => some (.rxbind k (decNet w)) | 0x04 => some (.rxfree k (decNet w)) | _ => none
    | 9 => match w.toNat / 2 ^ 52 % 256 with
      | 0x00 => some (.sempost k (decSync w)) | 0x01 => some (.semwait k (decSync w)) | 0x02 => some (.endRun k (decSync w))
      | 0x10 => some (.arrive k (decSync w)) | 0x11 => some (.wait k (decSync w)) | 0x12 => some (.arriveWait k (decSync w)) | _ => none
    | _ => none := by
  rw [decodeInsn]
  rfl

/-- The word of an instruction row reads back as that instruction. -/
theorem decodeInsn_of_encodeInsn {i : Instr} {w : W64} (h : encodeInsn i = some w) : ∃ k, decodeInsn k w = some i.plain := by
  cases i with
  | add k f | sub k f | and k f | or k f | xor k f | shl k f | shr k f | sar k f | mul k f | slt k f | sltu k f | ldi k f | ldih k f | addi k f
  | ld k f | st k f | srd k f | ctlw k f =>
    cases h
    refine ⟨k, ?_⟩
    rw [decodeInsn_byClass, encScalar_class _ _ (by decide), encScalar_op _ _ (by decide), decScalar_encScalar]
    rfl
  | br k f | loop k f =>
    cases h
    refine ⟨k, ?_⟩
    rw [decodeInsn_byClass, encBranch_class _ _ (by decide), encBranch_op _ _ (by decide), decBranch_encBranch]
    rfl
  | vadd k f | vsub k f | vadds k f | vsubs k f | vaddu k f | vsubu k f | vand k f | vor k f | vxor k f | vandn k f | vshl k f | vshr k f | vsar k f
  | vshli k f | vshri k f | vsari k f | vcmpeq k f | vcmplt k f | vcmpltu k f | vsel k f | vmov k f | vbcast k f | vld k f | vst k f | fadd k f
  | fsub k f | fmul k f | ffma k f | fmax k f | fmin k f | fcmpeq k f | fcmplt k f | fcmple k f | fcmpun k f | vexp2 k f | vrsqrt k f
  | vcvtTomx k f | vcvtFrommx k f | vcvtTobf16 k f | vcvtFrombf16 k f | vrsum k f | vrmax k f | msetn k f | mand k f | mor k f | mnot k f
  | mcount k f | vadn k f | vaup k f =>
    cases h
    refine ⟨k, ?_⟩
    rw [decodeInsn_byClass, encVec_class _ _ _ (by decide) (by decide), encVec_op _ _ _ (by decide), decVec_encVec]
    rfl
  | tload k f | pass k f _ | gopen k f | gclose k f | gdrainB k f | gdrainV k f | grel k f | gside k f | stage k f | unstage k f =>
    cases h
    refine ⟨k, ?_⟩
    rw [decodeInsn_byClass, encArr_class _ _ (by decide), encArr_op _ _ (by decide), decArr_encArr]
    rfl
  | copy k f | hrd k f | hwr k f | gwr k f =>
    cases h
    refine ⟨k, ?_⟩
    rw [decodeInsn_byClass, encDma_class _ _ (by decide), encDma_op _ _ (by decide), decDma_encDma]
    rfl
  | send k f | red k f | msg k f | rxbind k f | rxfree k f =>
    cases h
    refine ⟨k, ?_⟩
    rw [decodeInsn_byClass, encNet_class _ _ (by decide), encNet_op _ _ (by decide), decNet_encNet]
    rfl
  | sempost k f | semwait k f | endRun k f | arrive k f | wait k f | arriveWait k f =>
    cases h
    refine ⟨k, ?_⟩
    rw [decodeInsn_byClass, encSync_class _ _ (by decide), encSync_op _ _ (by decide), decSync_encSync]
    rfl
  | _ => cases h

/-- A word that reads as an instruction is the word of that instruction: its class and operation are those of the row, and its
fields make up the rest. -/
theorem encodeInsn_of_decodeInsn {k : Site} {w : W64} {i : Instr} (h : decodeInsn k w = some i) : encodeInsn i = some w := by
  rw [decodeInsn_byClass] at h
  split at h
  case _ hc => split at h <;> cases h <;> exact congrArg some (encScalar_decScalar hc ‹_›)
  case _ hc => split at h <;> cases h <;> exact congrArg some (encBranch_decBranch hc ‹_›)
  case _ hc => split at h <;> cases h <;> exact congrArg some (encVec_decVec hc ‹_›)
  case _ hc => split at h <;> cases h <;> exact congrArg some (encVec_decVec hc ‹_›)
  case _ hc => split at h <;> cases h <;> exact congrArg some (encVec_decVec hc ‹_›)
  case _ hc => split at h <;> cases h <;> exact congrArg some (encVec_decVec hc ‹_›)
  case _ hc => split at h <;> cases h <;> exact congrArg some (encArr_decArr hc ‹_›)
  case _ hc => split at h <;> cases h <;> exact congrArg some (encDma_decDma hc ‹_›)
  case _ hc => split at h <;> cases h <;> exact congrArg some (encNet_decNet hc ‹_›)
  case _ hc => split at h <;> cases h <;> exact congrArg some (encSync_decSync hc ‹_›)
  case _ => cases h

/-- Which words spell an instruction does not depend on the site. -/
theorem decodeInsn_isSome (k j : Site) (w : W64) : (decodeInsn k w).isSome = (decodeInsn j w).isSome := by
  rw [decodeInsn_byClass, decodeInsn_byClass]
  split
  iterate 10 case _ => split <;> rfl
  case _ => rfl

/-- The word of an instruction row has a class and an operation that exist (R83). -/
theorem knownWord_of_encodeInsn {i : Instr} {w : W64} (h : encodeInsn i = some w) : knownWord w = true := by
  obtain ⟨k, hk⟩ := decodeInsn_of_encodeInsn h
  rw [knownWord, decodeInsn_isSome 0 k, hk]
  rfl

/-- Classes 0xA to 0xF are reserved (R83). -/
theorem decodeInsn_reserved (k : Site) (w : W64) (h : 0xA ≤ w.toNat / 2 ^ 60) : decodeInsn k w = none := by
  rw [decodeInsn_byClass]
  split
  iterate 10 case _ hc => omega
  case _ => rfl

end Sys2Proof

open Sys2Proof Sys2Proof.Machine

/-- Settles O5: the encoders put the fields at the bits from which the decoders read them. -/
theorem decodeOfEncode : Obligations.DecodeOfEncode := by
  unfold Obligations.DecodeOfEncode
  exact ⟨fun _ _ => decodeInsn_of_encodeInsn, fun _ _ _ => encodeInsn_of_decodeInsn⟩

/-- Settles O6: the words by evaluation, the reserved classes by `decodeInsn_reserved`. -/
theorem specWordsDecode : Obligations.SpecWordsDecode := by
  unfold Obligations.SpecWordsDecode
  intro k
  refine ⟨?_, ?_, ?_, decodeInsn_reserved k⟩ <;> rw [decodeInsn_byClass] <;> rfl
end

section
/-! Register files and masked writes (R79, R86, Table 3.2), and what the values of Tables 3.5 and 3.6 are as arithmetic. -/

namespace Sys2Proof.Machine

open Sys2Proof

/-! ### Register files -/

theorem Core.S_setS (c : Core) (k j : BitVec 5) (v : W64) : (c.setS k v).S j = if j = 0 then 0 else if j = k then v else c.S j := by
  by_cases hj : j = 0
  · rw [Core.S, if_pos hj, if_pos hj]
  · rw [if_neg hj]
    by_cases hk : k = 0
    · rw [Core.setS, if_pos hk, if_neg (hk ▸ hj)]
    · rw [Core.setS, if_neg hk, Core.S, Core.S, if_neg hj, if_neg hj]
      simp only [Vector.getElem_set, BitVec.toNat_inj, eq_comm (a := k)]

theorem Core.M_setM (c : Core) (k j : BitVec 3) (v : W64) :
    (c.setM k v).M j = if j = 0 then BitVec.allOnes 64 else if j = k then v else c.M j := by
  by_cases hj : j = 0
  · rw [Core.M, if_pos hj, if_pos hj]
  · rw [if_neg hj]
    by_cases hk : k = 0
    · rw [Core.setM, if_pos hk, if_neg (hk ▸ hj)]
    · rw [Core.setM, if_neg hk, Core.M, Core.M, if_neg hj, if_neg hj]
      simp only [Vector.getElem_set, BitVec.toNat_inj, eq_comm (a := k)]

theorem Core.V_setV (c : Core) (k j : BitVec 5) (v : VReg) : (c.setV k v).V j = if j = k then v else c.V j := by
  simp only [Core.setV, Core.V, Vector.getElem_set, BitVec.toNat_inj, eq_comm (a := k)]

/-- What a masked write leaves in the register that it names (R86). -/
theorem Core.V_putV_same (c : Core) (f : VecF) (v : VReg) : (c.putV f v).V f.vd = maskWrite (c.V f.vd) v (c.M f.mask) (f.zm == 1) := by
  rw [Core.putV, Core.V_setV, if_pos rfl]

theorem Core.V_putV_other (c : Core) (f : VecF) (v : VReg) (j : BitVec 5) (h : j ≠ f.vd) : (c.putV f v).V j = c.V j := by
  rw [Core.putV, Core.V_setV, if_neg h]

theorem maskWrite_lane (old new : VReg) (m : W64) (zm : Bool) (l : Fin 64) :
    (maskWrite old new m zm)[l] = if m.getLsbD l.val then new[l] else if zm then 0 else old[l] := by
  simp [maskWrite]

/-- Under M0 every lane is enabled (R86). -/
theorem Core.M_zero_lane (c : Core) (l : Fin 64) : (c.M 0).getLsbD l.val = true := by
  show (BitVec.allOnes 64).getLsbD l.val = true
  rw [BitVec.getLsbD_allOnes, decide_eq_true l.isLt]

/-! ### Values -/

section Values

variable {n : Nat} (x y : BitVec n)

theorem ofNat_toNat_add : BitVec.ofNat n (x.toNat + y.toNat) = x + y := by
  rw [BitVec.ofNat_add, BitVec.ofNat_toNat, BitVec.ofNat_toNat, BitVec.setWidth_eq, BitVec.setWidth_eq]

theorem ofNat_toNat_mul : BitVec.ofNat n (x.toNat * y.toNat) = x * y := by
  rw [BitVec.ofNat_mul, BitVec.ofNat_toNat, BitVec.ofNat_toNat, BitVec.setWidth_eq, BitVec.setWidth_eq]

theorem ofInt_toNat_sub : BitVec.ofInt n ((x.toNat : Int) - y.toNat) = x - y := by
  apply BitVec.eq_of_toInt_eq
  rw [BitVec.toInt_ofInt, BitVec.toInt_sub, BitVec.toInt_eq_toNat_bmod, BitVec.toInt_eq_toNat_bmod]
  simp

theorem shiftLeft_eq_ofNat (s : Nat) : x <<< s = if n ≤ s then 0 else BitVec.ofNat n (x.toNat * 2 ^ s) := by
  split
  · next h => exact BitVec.shiftLeft_eq_zero h
  · apply BitVec.eq_of_toNat_eq
    rw [BitVec.toNat_shiftLeft, BitVec.toNat_ofNat, Nat.shiftLeft_eq]

theorem ushiftRight_eq_ofNat (s : Nat) : x >>> s = BitVec.ofNat n (x.toNat / 2 ^ s) := by
  apply BitVec.eq_of_toNat_eq
  rw [BitVec.toNat_ushiftRight, BitVec.toNat_ofNat, Nat.shiftRight_eq_div_pow, Nat.mod_eq_of_lt (Nat.lt_of_le_of_lt (Nat.div_le_self _ _) x.isLt)]

theorem sshiftRight_eq_ofInt (s : Nat) : x.sshiftRight s = BitVec.ofInt n (x.toInt / 2 ^ s) := by
  rw [BitVec.sshiftRight, Int.shiftRight_eq_div_pow]
  norm_cast

/-- A count beyond the width leaves the sign alone. -/
theorem sshiftRight_of_le (s : Nat) (h : n ≤ s) : x.sshiftRight s = if x.msb then BitVec.allOnes n else 0 := by
  cases hm : x.msb
  · rw [BitVec.sshiftRight_eq_of_msb_false hm, BitVec.ushiftRight_eq_zero h]
    rfl
  · rw [BitVec.sshiftRight_eq_of_msb_true hm, BitVec.ushiftRight_eq_zero h]
    simp

end Values

theorem ofBool_ite_slt (a b : W64) : (if a.slt b then 1 else 0 : W64) = if a.toInt < b.toInt then 1 else 0 := by
  simp [BitVec.slt_eq_decide]

theorem ofBool_ite_ult (a b : W64) : (if a.ult b then 1 else 0 : W64) = if a.toNat < b.toNat then 1 else 0 := by
  simp [BitVec.ult_eq_decide]

end Sys2Proof.Machine

open Sys2Proof Sys2Proof.Machine

/-- Settles O7: a register file is a vector whose register 0 (S0, M0) is fixed, and a masked write is one write of VD. -/
theorem registerFilesAndMaskedWrites : Obligations.RegisterFilesAndMaskedWrites := by
  unfold Obligations.RegisterFilesAndMaskedWrites
  refine ⟨⟨Core.S_setS, fun c v => if_pos rfl, Core.M_setM, fun c v => if_pos rfl, Core.V_setV⟩, fun c f v l => ⟨?_, fun hm => ?_, c.V_putV_other f v⟩⟩
  · rw [Core.V_putV_same, maskWrite_lane]
    simp only [beq_iff_eq]
  · rw [Core.V_putV_same, maskWrite_lane, hm, if_pos (c.M_zero_lane l)]
end

section
/-! What a completed instruction and one that faults leave of the module (R76, R85, R113, R114). -/

namespace Sys2Proof.Machine

open Sys2Proof

/-! ### Putting a core back -/

/-- With both queues empty the array and the vector engine stand still. -/
theorem Core.pump_idle (c : Core) (free : Nat → W64) (now : Stamp) (ha : c.arr.q = []) (hv : c.vq = []) : c.pump free now = (c, none) := by
  have harr : c.turnArr free now = (c, .stands) := by simp only [Core.turnArr, ha]
  have hvec : c.turnVec now = (c, .stands) := by simp only [Core.turnVec, hv]
  simp only [Core.pump, Core.pumpN, harr, hvec, ite_self]

theorem State.putCore_idle (s : State) (k : Nat) (c : Core) (ha : c.arr.q = []) (hv : c.vq = []) : s.putCore k c = s.setCore k c := by
  simp only [State.putCore, Core.pump_idle c _ _ ha hv]

theorem State.advanced_idle (s : State) (k : Nat) (c : Core) (ha : c.arr.q = []) (hv : c.vq = []) :
    s.advanced k c = s.setCore k { c with seq := c.seq.advance none } :=
  s.putCore_idle k { c with seq := c.seq.advance none } ha hv

/-- Putting a core back changes the cores and firmware's reports only. -/
theorem State.putCore_frame (s : State) (k : Nat) (c : Core) :
    s.putCore k c = { s with cores := (s.putCore k c).cores, fw := { s.fw with reports := (s.putCore k c).fw.reports } } := by
  obtain ⟨c1, -, he⟩ | ⟨c1, kind, d, pc, -, he⟩ := State.putCore_cases s k c <;> rw [he] <;> rfl

/-! ### Program faults -/

/-- The first event fills a record (R114). -/
theorem FirstRec.note_first {α : Type} (lower : α → α → Bool) (now : Stamp) (r : FirstRec α) (b : α) (h : r.valid = false) :
    r.note lower now b = { valid := true, more := r.more, body := b, cycle := now } := by
  simp [FirstRec.note, h]

/-- A later event sets MORE, and takes the body only from an event of its own cycle (R71, R114). -/
theorem FirstRec.note_later {α : Type} (lower : α → α → Bool) (now : Stamp) (r : FirstRec α) (b : α) (h : r.valid = true) :
    (r.note lower now b).valid = true ∧ (r.note lower now b).more = true ∧ (r.cycle ≠ now → (r.note lower now b).body = r.body) := by
  unfold FirstRec.note
  simp only [h, Bool.not_true, Bool.false_eq_true, if_false]
  split
  · next hc =>
    have hnow : r.cycle = now := by simpa using (Bool.and_eq_true_iff.1 hc).1
    exact ⟨rfl, rfl, fun hne => absurd hnow hne⟩
  · exact ⟨rfl, rfl, fun _ => rfl⟩

theorem State.core_trap (s : State) (k j kind detail : Nat) :
    (s.trap k kind detail).core j = if j = k then (s.core k).fail kind detail (s.core k).seq.pc s.coreNow else s.core j :=
  State.core_failCore s k j kind detail _

theorem State.reports_trap (s : State) (k kind detail : Nat) :
    (s.trap k kind detail).fw = { s.fw with reports := s.fw.reports ++ s.coreReport k kind detail } := rfl

end Sys2Proof.Machine

open Sys2Proof Sys2Proof.Machine

/-- Settles O4: `putCore` changes one core and firmware's reports, and a fault is one `raiseFault` of the core as it stands. -/
theorem instructionFrames : Obligations.InstructionFrames := by
  unfold Obligations.InstructionFrames
  refine ⟨fun s k c => ⟨fun j hj => s.core_putCore_other k j _ hj, s.putCore_frame k _, fun ha hv => ?_⟩, fun s k kind detail => ?_⟩
  · rw [State.advanced_idle s k c ha hv, State.core_setCore, if_pos rfl]
    exact ⟨rfl, rfl⟩
  · intro c t d
    have hd : d = c.fail kind detail c.seq.pc s.coreNow := by
      show (s.trap k kind detail).core k = _
      rw [State.core_trap, if_pos rfl]
    have hfault : d.fault = c.fault.note FaultBody.lower s.coreNow
        { kind := BitVec.ofNat 8 kind, pc := c.seq.pc, detail := BitVec.ofNat 32 detail, at_ := s.coreNow } := by rw [hd]; rfl
    have hfw : t.fw = { s.fw with reports := s.fw.reports ++ s.coreReport k kind detail } := State.reports_trap s k kind detail
    refine ⟨by rw [hd]; rfl, fun hv => ?_, fun hv => ?_, ?_, fun p hp => ?_, fun hp => ?_, fun j hj => ?_, rfl⟩
    · rw [hfault, FirstRec.note_first _ _ _ _ hv]
      exact ⟨rfl, rfl, rfl⟩
    · rw [hfault]
      exact FirstRec.note_later _ _ _ _ hv
    · rw [hfw]
      simp only [List.drop_left]
    · rw [hfw, State.coreReport, hp]
    · rw [hfw, State.coreReport, hp, List.append_nil]
    · exact (State.core_trap s k j kind detail).trans (if_neg hj)
end

section
/-! Scalar instructions (Table 3.6): where the core is ready and no register is waited for, the instruction runs. -/

namespace Sys2Proof.Machine

open Sys2Proof

/-- A ready core whose instruction row is `i` completes it as its body says. -/
theorem State.issue_row {s : State} {k : Nat} {w : W64} {body : Core → Core × Out Eff} {c1 : Core} (i : Instr) (hi : encodeInsn i = some w)
    (h : s.ready k w = true) (hb : body (s.core k) = (c1, .ok {})) : s.issue k w body = s.advanced k c1 :=
  State.issue_advanced h (knownWord_of_encodeInsn hi) hb

/-- A ready core stops on the fault that the body of its instruction row `i` raises. -/
theorem State.issue_row_trap {s : State} {k : Nat} {w : W64} {body : Core → Core × Out Eff} {kind d : Nat} (i : Instr) (hi : encodeInsn i = some w)
    (h : s.ready k w = true) (hb : body (s.core k) = (s.core k, .fault kind d)) : s.issue k w body = s.trap k kind d :=
  State.issue_trap h (knownWord_of_encodeInsn hi) hb

theorem Core.freeS_iff (c : Core) (rs ws : List (BitVec 5)) :
    c.freeS rs ws = true ↔ c.depends ((rs ++ ws).map BitVec.toNat) = false ∧ c.overwrites (ws.map BitVec.toNat) = false := by
  simp [Core.freeS]

/-- A legal scalar instruction that waits for no register runs. -/
theorem scalarBody_run {w : W64} {f : ScalarF} {legal : Bool} {rs ws : List (BitVec 5)} {run : Core → Core × Out Eff} {c : Core} (hr : f.rsv = 0)
    (hl : legal = true) (hf : c.freeS rs ws = true) : scalarBody w f legal rs ws run c = run c := by
  obtain ⟨h1, h2⟩ := (c.freeS_iff rs ws).1 hf
  simp only [scalarBody, hr, hl, h1, h2, ne_eq, not_true_eq_false, decide_false, Bool.not_true, Bool.or_false, Bool.false_eq_true, if_false]

/-- An illegal scalar instruction raises ILLEGAL_INSN (R85). -/
theorem scalarBody_illegal {w : W64} {f : ScalarF} {legal : Bool} {rs ws : List (BitVec 5)} {run : Core → Core × Out Eff} {c : Core}
    (h : f.rsv ≠ 0 ∨ legal = false) : scalarBody w f legal rs ws run c = (c, .fault 0x01 (hiWord w)) := by
  have hbad : (decide (f.rsv ≠ 0) || !legal) = true := by simpa using h
  simp only [scalarBody, hbad, if_true]

/-- An ALU instruction that is ready leaves `v` in SD, where `v` is SA op SB. -/
theorem State.issue_alu {s : State} {k : Nat} {w : W64} {f : ScalarF} {op : W64 → W64 → W64} {v : W64} (i : Instr) (hi : encodeInsn i = some w)
    (hr : f.rsv = 0) (hf : (s.core k).freeS [f.sa, f.sb] [f.sd] = true) (h : s.ready k w = true) (hv : op ((s.core k).S f.sa) ((s.core k).S f.sb) = v) :
    s.issue k w (aluBody op w f) = s.advanced k ((s.core k).setS f.sd v) := by
  subst hv
  exact State.issue_row i hi h (scalarBody_run hr rfl hf)

/-- A branch instruction's wait for its register (R77). -/
theorem Core.depends_of_freeS {c : Core} {r : BitVec 5} (h : c.freeS [r] [] = true) : c.depends [r.toNat] = false :=
  ((c.freeS_iff [r] []).1 h).1

/-- COND of BR in the words of Table 3.6. -/
theorem condHolds_eq (n : Nat) (a : W64) :
    condHolds n a = match n with | 0 => true | 1 => decide (a = 0) | 2 => decide (a ≠ 0) | 3 => decide (a.toInt < 0) | _ => decide (0 ≤ a.toInt) := by
  have hneg : a.msb = decide (a.toInt < 0) := BitVec.msb_eq_toInt
  have hpos : (!a.msb) = decide (0 ≤ a.toInt) := by
    rw [hneg, ← decide_not]
    exact decide_eq_decide.2 Int.not_lt
  match n with
  | 0 => rfl
  | 1 => exact beq_eq_decide a 0
  | 2 => exact (congrArg not (beq_eq_decide a 0)).trans decide_not.symm
  | 3 => exact hneg
  | n + 4 => exact hpos

/-- The special values of SRD (Table 3.6). -/
theorem srdValue_eq (s : State) (k : Nat) (c : Core) (code : Nat) (h : code ≤ 6) : srdValue s k c code =
    if code = 0 then BitVec.ofNat 64 s.tg.tick.toNat
    else if code = 1 then BitVec.ofNat 64 s.tg.ofs
    else if code = 2 then s.tg.cyc
    else if code = 3 then BitVec.ofNat 64 (c.logical.getD 0)
    else if code = 4 then ((s.partOfSite k).map (fun p => (s.part p).step)).getD 0
    else if code = 5 then BitVec.ofNat 64 c.seq.entry
    else BitVec.ofNat 64 c.seq.rep := by
  match code, h with
  | 0, _ => exact (BitVec.ofNat_toNat 64 s.tg.tick).symm
  | 1, _ => rfl
  | 2, _ => rfl
  | 3, _ => rfl
  | 4, _ =>
    simp only [srdValue]
    cases s.partOfSite k <;> rfl
  | 5, _ => rfl
  | 6, _ => rfl

/-- A taken branch of a ready core (R96). -/
theorem State.issue_jump {s : State} {k : Nat} {w : W64} {body : Core → Core × Out Eff} {c1 : Core} {t : Nat} (i : Instr) (hi : encodeInsn i = some w)
    (h : s.ready k w = true) (hb : body (s.core k) = (c1, .ok { jump := some t })) :
    s.issue k w body = s.putCore k { c1 with seq := c1.seq.advance (some t) } := by
  have e : ∀ t : State, t.arrivals = s.arrivals → ({ t with arrivals := s.arrivals ++ [] } : State) = t := by
    intro t ht
    rw [List.append_nil, ← ht]
  rw [State.issue_ok h (knownWord_of_encodeInsn hi) hb]
  exact e _ (State.putCore_arrivals s k _)

/-- A positive offset is its word as a number. -/
theorem toNat_add_toInt (pc : Nat) (ofs : W32) (h : 1 ≤ ofs.toInt) : ((pc : Int) + ofs.toInt).toNat = pc + ofs.toNat := by
  rw [BitVec.toInt_eq_toNat_cond] at h ⊢
  split at h <;> omega

section Branches

variable {w : W64} {f : BranchF} {c : Core}

theorem brBody_illegal (h : f.rsv ≠ 0 ∨ 5 ≤ f.cond.toNat) : brBody w f c = (c, .fault 0x01 (hiWord w)) := by
  have hbad : (decide (f.rsv ≠ 0) || decide (4 < f.cond.toNat)) = true := by
    simp only [Bool.or_eq_true, decide_eq_true_eq]
    exact h
  simp only [brBody, hbad, if_true]

/-- A legal BR that waits for no register jumps where its condition holds, and goes on where it does not. -/
theorem brBody_run (hr : f.rsv = 0) (hc : f.cond.toNat ≤ 4) (hf : c.freeS [f.sa] [] = true) (hlo : 0 ≤ (c.seq.pc : Int) + f.ofs.toInt)
    (hhi : (c.seq.pc : Int) + f.ofs.toInt ≤ 16383) (h : condHolds f.cond.toNat (c.S f.sa) = true) :
    brBody w f c = (c, .ok { jump := some ((c.seq.pc : Int) + f.ofs.toInt).toNat }) := by
  simp [brBody, hr, Nat.not_lt.2 hc, Core.depends_of_freeS hf, h, Int.not_lt.2 hlo, Int.not_lt.2 hhi]

theorem brBody_skip (hr : f.rsv = 0) (hc : f.cond.toNat ≤ 4) (hf : c.freeS [f.sa] [] = true) (h : condHolds f.cond.toNat (c.S f.sa) = false) :
    brBody w f c = (c, .ok {}) := by
  simp [brBody, hr, Nat.not_lt.2 hc, Core.depends_of_freeS hf, h]

theorem loopBody_illegal (h : f.rsv ≠ 0 ∨ f.ofs.toInt < 1) : loopBody w f c = (c, .fault 0x01 (hiWord w)) := by
  have hbad : (decide (f.rsv ≠ 0) || decide (f.ofs.toInt < 1) || decide (16383 < (c.seq.pc : Int) + f.ofs.toInt)) = true := by
    simp only [Bool.or_eq_true, decide_eq_true_eq]
    exact .inl h
  simp only [loopBody, hbad, if_true]

/-- What a legal LOOP that waits for no register does (R96). -/
theorem loopBody_legal (hr : f.rsv = 0) (hlo : 1 ≤ f.ofs.toInt) (hhi : (c.seq.pc : Int) + f.ofs.toInt ≤ 16383) (hf : c.freeS [f.sa] [] = true) :
    loopBody w f c =
      if f.level.toNat ≠ c.seq.loops.length then (c, .fault 0x21 f.level.toNat)
      else if (c.S f.sa).toNat % 2 ^ 32 = 0 then ({ c with seq := { c.seq with pc := ((c.seq.pc : Int) + f.ofs.toInt).toNat } }, .ok {})
      else ({ c with seq := { c.seq with
        loops := { level := f.level.toNat, start := c.seq.pc + 1, stop := ((c.seq.pc : Int) + f.ofs.toInt).toNat, left := (c.S f.sa).toNat % 2 ^ 32 } :: c.seq.loops } }, .ok {}) := by
  have hlegal : (decide (f.rsv ≠ 0) || decide (f.ofs.toInt < 1) || decide (16383 < (c.seq.pc : Int) + f.ofs.toInt)) = false := by
    simp [hr, hlo, hhi]
  simp only [loopBody, hlegal, Core.depends_of_freeS hf, toNat_add_toInt _ _ hlo, Bool.false_eq_true, if_false]

end Branches

/-- Where nothing fetches, nothing issues. -/
theorem State.issue_stopped {s : State} {k : Nat} (h : (s.core k).fetches = false) (w : W64) (body : Core → Core × Out Eff) : s.issue k w body = s := by
  simp only [State.issue, h, Bool.not_false, if_true]

/-- A word that its code cannot correct raises INSN_CHECK (R106). -/
theorem State.issue_check {s : State} {k : Nat} (h : (s.core k).fetches = true) (hf : (s.core k).fetch (s.core k).seq.pc = none) (w : W64)
    (body : Core → Core × Out Eff) : s.issue k w body = s.trap k 0x02 (s.core k).seq.pc := by
  simp only [State.issue, h, hf, Bool.not_true, Bool.false_eq_true, if_false, State.trap]

/-- A word of no class or operation raises ILLEGAL_INSN (R85). -/
theorem State.issue_unknown {s : State} {k : Nat} {v : W64} (h : (s.core k).fetches = true) (hf : (s.core k).fetch (s.core k).seq.pc = some v)
    (hv : knownWord v = false) (w : W64) (body : Core → Core × Out Eff) : s.issue k w body = s.trap k 0x01 (hiWord v) := by
  simp only [State.issue, h, hf, hv, Bool.not_true, Bool.not_false, Bool.false_eq_true, if_false, if_true, State.trap]

/-- LD and ST at an address that is no multiple of 8 (Table 3.6). -/
theorem ldFault_align {a : Nat} (h : a % 8 ≠ 0) : ldFault a = some (0x06, a) := by
  simp [ldFault, firstFault, h]

theorem ldFault_range {a : Nat} (h : a % 8 = 0) (hr : 0x7FFFFF < a + 7) : ldFault a = some (0x07, a) := by
  simp [ldFault, firstFault, h, hr]

theorem ldFault_none {a : Nat} (h : a % 8 = 0) (hr : a + 7 ≤ 0x7FFFFF) : ldFault a = none := by
  simp [ldFault, firstFault, h, Nat.not_lt.2 hr]

theorem ldBody_fault {now : Stamp} {w : W64} {f : ScalarF} {c : Core} {kind d : Nat} (hr : f.rsv = 0) (hf : c.freeS [f.sa] [f.sd] = true)
    (h : ldFault (ldAddr c f) = some (kind, d)) : ldBody now w f c = (c, .fault kind d) := by
  rw [ldBody, scalarBody_run hr rfl hf, h]

theorem stBody_fault {now : Stamp} {w : W64} {f : ScalarF} {c : Core} {kind d : Nat} (hr : f.rsv = 0) (hf : c.freeS [f.sa, f.sb] [] = true)
    (h : ldFault (ldAddr c f) = some (kind, d)) : stBody now w f c = (c, .fault kind d) := by
  rw [stBody, scalarBody_run hr rfl hf, h]

end Sys2Proof.Machine

open Sys2Proof Sys2Proof.Machine

/-- Settles O8: each operation is one `aluBody`, whose value is the arithmetic of Table 3.6. -/
theorem scalarAluCompletes : Obligations.ScalarAluCompletes := by
  unfold Obligations.ScalarAluCompletes
  intro k f s hr hf c a b n done
  refine ⟨fun h => ?_, fun h => ?_, fun h => ?_, fun h => ?_, fun h => ?_, fun h => ?_, fun h => ?_, fun h => ?_, fun h => ?_, fun h => ?_, fun h => ?_⟩
  · exact next_congr (State.issue_alu (.add k f) rfl hr hf h (ofNat_toNat_add a b).symm)
  · exact next_congr (State.issue_alu (.sub k f) rfl hr hf h (ofInt_toNat_sub a b).symm)
  · exact next_congr (State.issue_alu (.and k f) rfl hr hf h rfl)
  · exact next_congr (State.issue_alu (.or k f) rfl hr hf h rfl)
  · exact next_congr (State.issue_alu (.xor k f) rfl hr hf h rfl)
  · exact next_congr (State.issue_alu (.shl k f) rfl hr hf h (shiftLeft_eq_ofNat a n))
  · refine next_congr (State.issue_alu (.shr k f) rfl hr hf h ?_)
    split
    · next hn => exact BitVec.ushiftRight_eq_zero hn
    · exact ushiftRight_eq_ofNat a n
  · refine next_congr (State.issue_alu (.sar k f) rfl hr hf h ?_)
    split
    · next hn => exact sshiftRight_of_le a n hn
    · exact sshiftRight_eq_ofInt a n
  · exact next_congr (State.issue_alu (.mul k f) rfl hr hf h (ofNat_toNat_mul a b).symm)
  · exact next_congr (State.issue_alu (.slt k f) rfl hr hf h (ofBool_ite_slt a b))
  · exact next_congr (State.issue_alu (.sltu k f) rfl hr hf h (ofBool_ite_ult a b))

/-- Settles O9: the immediates are `scalarBody_run`, the branches what `brBody` and `loopBody` do when they are legal. -/
theorem scalarMovesAndBranchesComplete : Obligations.ScalarMovesAndBranchesComplete := by
  unfold Obligations.ScalarMovesAndBranchesComplete
  refine ⟨fun k f s hr => ?_, fun k f s hr hf => ?_⟩
  · intro c code done
    refine ⟨fun h hf => ?_, fun h hf => ?_, fun h hf => ?_, fun h hf hcode => ?_, fun h hf hcode => ?_, fun h hf hcode => ?_⟩
    · exact next_congr (State.issue_row (.ldi k f) rfl h (scalarBody_run hr rfl hf))
    · exact next_congr (State.issue_row (.ldih k f) rfl h (scalarBody_run hr rfl hf))
    · exact next_congr (State.issue_row (.addi k f) rfl h (scalarBody_run hr rfl hf))
    · rw [← srdValue_eq s k c code hcode]
      exact next_congr (State.issue_row (.srd k f) rfl h (scalarBody_run hr (decide_eq_true hcode) hf))
    · have hlegal : decide (f.imm.toNat % 16 ≤ 1) = true := decide_eq_true (by omega)
      exact next_congr (State.issue_row (.ctlw k f) rfl h ((scalarBody_run hr hlegal hf).trans (if_pos hcode)))
    · have hlegal : decide (f.imm.toNat % 16 ≤ 1) = true := decide_eq_true (by omega)
      exact next_congr (State.issue_row (.ctlw k f) rfl h ((scalarBody_run hr hlegal hf).trans (if_neg (by omega))))
  · intro c a t holds
    have hcond : condHolds f.cond.toNat a = holds := condHolds_eq f.cond.toNat a
    refine ⟨fun h hc hh hlo hhi => ?_, fun h hc hh => ?_, fun h hlo hhi hl hn => ?_, fun h hlo hhi hl hn => ?_⟩
    · exact next_congr (State.issue_jump (.br k f) rfl h (brBody_run hr hc hf hlo hhi (hcond.trans hh)))
    · exact next_congr (State.issue_row (.br k f) rfl h (brBody_skip hr hc hf (hcond.trans hh)))
    · refine next_congr (State.issue_row (.loop k f) rfl h ((loopBody_legal hr hlo hhi hf).trans ?_))
      rw [if_neg (not_not.2 hl), if_pos hn]
    · refine next_congr (State.issue_row (.loop k f) rfl h ((loopBody_legal hr hlo hhi hf).trans ?_))
      rw [if_neg (not_not.2 hl), if_neg hn]
end

section
/-! Vector instructions (Table 3.5): what the sequencer judges first (R85), and the results of the lanes (R86 to R90). -/

namespace Sys2Proof.Machine

open Sys2Proof

/-! ### Issue -/

theorem Core.freeV_iff (c : Core) (vs ss : List (BitVec 5)) : c.freeV vs ss = true ↔
    c.regBusy (vs.map BitVec.toNat) = none ∧ c.vq = [] ∧ c.vecBlocked { vs := vs, rs := ss, run := fun d => (d, .ok {}) } = false := by
  simp only [Core.freeV, Bool.and_eq_true, Option.isNone_iff_eq_none, List.isEmpty_iff, Bool.not_eq_true', and_assoc]

/-- Whether an operation waits for the array depends on the registers that it names alone. -/
theorem Core.vecBlocked_names (c : Core) (o : VecOp) (run : Core → Core × Out Eff) :
    c.vecBlocked { vs := o.vs, rs := o.rs ++ o.ws, run := run } = c.vecBlocked o := by
  simp only [Core.vecBlocked, List.append_nil]

section VecBody

variable {w : W64} {f : VecF} {o : VecOp} {c c1 : Core}

/-- A legal vector instruction that meets nothing it waits for is taken by the engine at once. -/
theorem vecBody_ok {e : Eff} (hr : f.rsv = 0) (hn : f.rnd = 0) (hl : o.legal = true) (hb : o.fmtBad = false) (hf : c.freeV o.vs (o.rs ++ o.ws) = true)
    (hrun : o.run c = (c1, .ok e)) : vecBody w f o c = (c1, .ok e) := by
  obtain ⟨hbusy, hq, hblocked⟩ := (c.freeV_iff _ _).1 hf
  rw [Core.vecBlocked_names c o] at hblocked
  have htry : c.tryVec o = (c1, .ok e) := by rw [Core.tryVec, hblocked, if_neg Bool.false_ne_true, hrun]
  simp [vecBody, hr, hn, hl, hb, hbusy, hq, htry]

/-- What is ILLEGAL_INSN in a vector word (R82, R84, R85). -/
theorem vecBody_illegal (h : f.rsv ≠ 0 ∨ 2 ≤ f.rnd.toNat ∨ (f.rnd = 1 ∧ o.sr = false) ∨ o.legal = false) :
    vecBody w f o c = (c, .fault 0x01 (hiWord w)) := by
  have hbad : (decide (f.rsv ≠ 0) || decide (2 ≤ f.rnd.toNat) || (decide (f.rnd = 1) && !o.sr) || !o.legal) = true := by
    simpa only [Bool.or_eq_true, Bool.and_eq_true, decide_eq_true_eq, Bool.not_eq_true', or_assoc] using h
  simp only [vecBody, hbad, if_true]

theorem vecLegal (hr : f.rsv = 0) (hn : f.rnd = 0 ∨ f.rnd.toNat ≤ 1 ∧ o.sr = true) (hl : o.legal = true) :
    (decide (f.rsv ≠ 0) || decide (2 ≤ f.rnd.toNat) || (decide (f.rnd = 1) && !o.sr) || !o.legal) = false := by
  rcases hn with hn | ⟨hn, hs⟩
  · simp [hr, hn, hl]
  · simp [hr, hs, hl, Nat.lt_succ_of_le hn]

/-- A format that the operation does not allow is BAD_FORMAT (Table 3.13). -/
theorem vecBody_badFormat (hr : f.rsv = 0) (hn : f.rnd = 0 ∨ f.rnd.toNat ≤ 1 ∧ o.sr = true) (hl : o.legal = true) (hb : o.fmtBad = true) :
    vecBody w f o c = (c, .fault 0x03 f.fmt.toNat) := by
  simp only [vecBody, vecLegal hr hn hl, hb, Bool.false_eq_true, if_false, if_true]

/-- A register of the staging is REG_BUSY (R82). -/
theorem vecBody_regBusy {r : Nat} (hr : f.rsv = 0) (hn : f.rnd = 0) (hl : o.legal = true) (hb : o.fmtBad = false)
    (h : c.regBusy (o.vs.map BitVec.toNat) = some r) : vecBody w f o c = (c, .fault 0x04 r) := by
  simp only [vecBody, vecLegal hr (.inl hn) hl, hb, h, Bool.false_eq_true, if_false]

end VecBody

/-- A vector instruction of a ready core completes as the engine runs its operation. -/
theorem State.issue_vec {s : State} {k : Nat} {w : W64} {f : VecF} {o : VecOp} {c1 : Core} (i : Instr) (hi : encodeInsn i = some w) (h : s.ready k w = true)
    (hr : f.rsv = 0) (hn : f.rnd = 0) (hl : o.legal = true) (hb : o.fmtBad = false) (hf : (s.core k).freeV o.vs (o.rs ++ o.ws) = true)
    (hrun : o.run (s.core k) = (c1, .ok {})) : s.issue k w (vecBody w f o) = s.advanced k c1 :=
  State.issue_row i hi h (vecBody_ok hr hn hl hb hf hrun)

/-- VD takes, lane by lane under the mask, `g`, where `g` is VA op VB. -/
theorem State.issue_vbin {s : State} {k : Nat} {w : W64} {f : VecF} {op : W32 → W32 → W32} {g : Fin 64 → W32} (i : Instr) (hi : encodeInsn i = some w)
    (hr : f.rsv = 0) (hn : f.rnd = 0) (hf : (s.core k).freeV [f.vd, f.va, f.vb] [] = true) (h : s.ready k w = true)
    (hg : ∀ l : Fin 64, op ((s.core k).V f.va)[l] ((s.core k).V f.vb)[l] = g l) :
    s.issue k w (vecBody w f (vbinOp op f)) = s.advanced k ((s.core k).putV f (Vector.ofFn g)) := by
  obtain rfl : (fun l : Fin 64 => op ((s.core k).V f.va)[l] ((s.core k).V f.vb)[l]) = g := funext hg
  exact State.issue_vec i hi h hr hn rfl rfl hf rfl

/-- VD takes, lane by lane under the mask, `g`, where `g` is op VA. -/
theorem State.issue_vun {s : State} {k : Nat} {w : W64} {f : VecF} {op : W32 → W32} {g : Fin 64 → W32} (i : Instr) (hi : encodeInsn i = some w)
    (hr : f.rsv = 0) (hn : f.rnd = 0) (hf : (s.core k).freeV [f.vd, f.va] [] = true) (h : s.ready k w = true)
    (hg : ∀ l : Fin 64, op ((s.core k).V f.va)[l] = g l) :
    s.issue k w (vecBody w f (vunOp op f)) = s.advanced k ((s.core k).putV f (Vector.ofFn g)) := by
  obtain rfl : (fun l : Fin 64 => op ((s.core k).V f.va)[l]) = g := funext hg
  exact State.issue_vec i hi h hr hn rfl rfl hf rfl

/-! ### Saturation (R87) -/

theorem clampS_eq (x : Int) : clampS x = BitVec.ofInt 32 (max (-2 ^ 31) (min (2 ^ 31 - 1) x)) := rfl

theorem clampU_add (a b : W32) : clampU ((a.toNat : Int) + b.toNat) = BitVec.ofNat 32 (min (2 ^ 32 - 1) (a.toNat + b.toNat)) := by
  rw [← BitVec.ofInt_natCast, clampU]
  congr 1
  omega

theorem clampU_sub (a b : W32) : clampU ((a.toNat : Int) - b.toNat) = BitVec.ofNat 32 (a.toNat - b.toNat) := by
  rw [← BitVec.ofInt_natCast, clampU]
  congr 1
  omega

/-! ### Masks and compares (R89) -/

/-- Bit j of a number put together from a list of bits, lowest first. -/
theorem testBit_foldr_bits {α : Type} (p : α → Bool) (l : List α) (j : Nat) :
    (l.foldr (fun i a => (if p i then 1 else 0) + 2 * a) 0).testBit j = (l[j]?.map p).getD false := by
  induction l generalizing j with
  | nil => simp
  | cons x l ih =>
    rw [List.foldr_cons]
    cases j with
    | zero => cases hp : p x <;> simp [hp, Nat.testBit_zero, Nat.add_mod]
    | succ j =>
      have hdiv : ∀ a : Nat, ((if p x then 1 else 0) + 2 * a) / 2 = a := by
        intro a
        split <;> omega
      rw [Nat.testBit_succ, hdiv, ih]
      rfl

theorem laneMask_lane (p : Nat → Bool) (l : Fin 64) : (laneMask p).getLsbD l.val = p l.val := by
  rw [laneMask, BitVec.getLsbD_ofNat, testBit_foldr_bits]
  simp

theorem compareMask_lane (rel : W32 → W32 → Bool) (a b : VReg) (m : W64) (l : Fin 64) :
    (compareMask rel a b m).getLsbD l.val = (m.getLsbD l.val && rel a[l] b[l]) := by
  rw [compareMask, laneMask_lane, getD_toList_fin, getD_toList_fin]

/-- A mask register other than M0 that VD[2:0] names. -/
theorem maskDest_of {x : BitVec 5} (h1 : 1 ≤ x.toNat) (h8 : x.toNat < 8) : maskDest x = true := by
  have hne : x ≠ 0 := fun h => by simp [h] at h1
  simpa [maskDest, h8] using hne

theorem State.issue_vcmp {s : State} {k : Nat} {w : W64} {f : VecF} {rel : W32 → W32 → Bool} (i : Instr) (hi : encodeInsn i = some w) (hr : f.rsv = 0)
    (hn : f.rnd = 0) (h1 : 1 ≤ f.vd.toNat) (h8 : f.vd.toNat < 8) (hf : (s.core k).freeV [f.va, f.vb] [] = true) (h : s.ready k w = true) :
    s.issue k w (vecBody w f (vcmpOp rel f)) =
      s.advanced k ((s.core k).setM (f.vd.setWidth 3) (compareMask rel ((s.core k).V f.va) ((s.core k).V f.vb) ((s.core k).M f.mask))) :=
  State.issue_vec i hi h hr hn (maskDest_of h1 h8) rfl hf rfl

theorem State.issue_maskOp {s : State} {k : Nat} {w : W64} {f : VecF} {srcs : List (BitVec 5)} {val : Core → W64} (i : Instr) (hi : encodeInsn i = some w)
    (hr : f.rsv = 0) (hn : f.rnd = 0) (h1 : 1 ≤ f.vd.toNat) (h8 : f.vd.toNat < 8) (hs : ∀ x ∈ srcs, x.toNat < 8)
    (hf : (s.core k).freeV [] [] = true) (h : s.ready k w = true) :
    s.issue k w (vecBody w f (maskOp srcs val f)) = s.advanced k ((s.core k).setM (f.vd.setWidth 3) (val (s.core k))) := by
  have hlegal : (maskDest f.vd && srcs.all maskField) = true := by
    rw [maskDest_of h1 h8, Bool.true_and, List.all_eq_true]
    exact fun x hx => decide_eq_true (hs x hx)
  exact State.issue_vec i hi h hr hn hlegal rfl hf rfl

theorem isNan32_iff (a : W32) : isNan32 a = true ↔ dec32 a = .nan := beq_iff_eq

theorem flt32_nan {a b : W32} (h : dec32 a = .nan ∨ dec32 b = .nan) : flt32 a b = false := by
  unfold flt32
  rcases h with h | h
  · rw [h]
  · rw [h]
    cases dec32 a <;> rfl

theorem feq32_nan {a b : W32} (h : dec32 a = .nan ∨ dec32 b = .nan) : feq32 a b = false := by
  rcases h with h | h <;> simp [feq32, (isNan32_iff _).2 h]

theorem fun32_eq (a b : W32) : fun32 a b = decide (dec32 a = .nan ∨ dec32 b = .nan) := by
  rw [Bool.eq_iff_iff]
  simp [fun32, isNan32_iff]

/-! ### Lane reductions (R90) -/

/-- The lanes of a register, each as `g` of its index and value. -/
theorem toList_mapIdx_lanes {α : Type} (v : VReg) (g : Nat → W32 → α) : v.toList.mapIdx g = (List.finRange 64).map (fun i => g i.val v[i]) := by
  apply List.ext_getElem
  · simp
  · intro i h1 h2
    simp

theorem State.issue_vred {s : State} {k : Nat} {w : W64} {f : VecF} {pad : W32} {red : List W32 → W32} (i : Instr) (hi : encodeInsn i = some w)
    (hr : f.rsv = 0) (hn : f.rnd = 0) (hf : (s.core k).freeV [f.va] [f.vd] = true) (h : s.ready k w = true) :
    s.issue k w (vecBody w f (vredOp pad red f)) = s.advanced k ((s.core k).setS f.vd (BitVec.ofNat 64
      (red ((List.finRange 64).map (fun i => if ((s.core k).M f.mask).getLsbD i.val then ((s.core k).V f.va)[i] else pad))).toNat)) := by
  rw [BitVec.ofNat_toNat, ← toList_mapIdx_lanes _ (fun i x => if ((s.core k).M f.mask).getLsbD i then x else pad)]
  exact State.issue_vec i hi h hr hn rfl rfl hf rfl

theorem popCount_eq (m : W64) : popCount 64 m.toNat = (List.finRange 64).countP (fun i => m.getLsbD i.val) := by
  rw [popCount, ← List.map_coe_finRange_eq_range, List.countP_map]
  rfl

end Sys2Proof.Machine

open Sys2Proof Sys2Proof.Machine

/-- Settles O11: each operation is one `vbinOp` or `vunOp`, whose lanes are the arithmetic of Table 3.5. -/
theorem vectorIntegerAndShiftsComplete : Obligations.VectorIntegerAndShiftsComplete := by
  unfold Obligations.VectorIntegerAndShiftsComplete
  refine ⟨fun k f s hr hn hf => ?_, fun k f s hr hn => ?_⟩
  · intro c done a b
    refine ⟨fun h => ?_, fun h => ?_, fun h => ?_, fun h => ?_, fun h => ?_, fun h => ?_, fun h => ?_, fun h => ?_, fun h => ?_, fun h => ?_⟩
    · exact next_congr (State.issue_vbin (.vadd k f) rfl hr hn hf h (fun l => (ofNat_toNat_add (a l) (b l)).symm))
    · exact next_congr (State.issue_vbin (.vsub k f) rfl hr hn hf h (fun l => (ofInt_toNat_sub (a l) (b l)).symm))
    · exact next_congr (State.issue_vbin (.vadds k f) rfl hr hn hf h (fun l => clampS_eq _))
    · exact next_congr (State.issue_vbin (.vsubs k f) rfl hr hn hf h (fun l => clampS_eq _))
    · exact next_congr (State.issue_vbin (.vaddu k f) rfl hr hn hf h (fun l => clampU_add (a l) (b l)))
    · exact next_congr (State.issue_vbin (.vsubu k f) rfl hr hn hf h (fun l => clampU_sub (a l) (b l)))
    · exact next_congr (State.issue_vbin (.vand k f) rfl hr hn hf h (fun l => rfl))
    · exact next_congr (State.issue_vbin (.vor k f) rfl hr hn hf h (fun l => rfl))
    · exact next_congr (State.issue_vbin (.vxor k f) rfl hr hn hf h (fun l => rfl))
    · exact next_congr (State.issue_vbin (.vandn k f) rfl hr hn hf h (fun l => rfl))
  · intro c done a n m shl shr sar
    refine ⟨fun h hf => ?_, fun h hf => ?_, fun h hf => ?_, fun h hf => ?_, fun h hf => ?_, fun h hf => ?_⟩
    · exact next_congr (State.issue_vbin (.vshl k f) rfl hr hn hf h (fun l => shiftLeft_eq_ofNat (a l) (n l)))
    · exact next_congr (State.issue_vbin (.vshr k f) rfl hr hn hf h (fun l => ushiftRight_eq_ofNat (a l) (n l)))
    · exact next_congr (State.issue_vbin (.vsar k f) rfl hr hn hf h (fun l => sshiftRight_eq_ofInt (a l) (n l)))
    · exact next_congr (State.issue_vun (.vshli k f) rfl hr hn hf h (fun l => shiftLeft_eq_ofNat (a l) m))
    · exact next_congr (State.issue_vun (.vshri k f) rfl hr hn hf h (fun l => ushiftRight_eq_ofNat (a l) m))
    · exact next_congr (State.issue_vun (.vsari k f) rfl hr hn hf h (fun l => sshiftRight_eq_ofInt (a l) m))

/-- Settles O12: a compare's mask is told lane by lane by `compareMask_lane`, the others are one register write each. -/
theorem comparesMovesAndMasksComplete : Obligations.ComparesMovesAndMasksComplete := by
  unfold Obligations.ComparesMovesAndMasksComplete
  refine ⟨fun k f s hr hn h1 h8 hf => ?_, fun k f s hr hn => ?_⟩
  · intro c a b sets nan
    refine ⟨fun h => ?_, fun h => ?_, fun h => ?_, fun h => ?_, fun h => ?_, fun h => ?_, fun h => ?_⟩
    · exact ⟨_, next_congr (State.issue_vcmp (.vcmpeq k f) rfl hr hn h1 h8 hf h), fun i =>
        (compareMask_lane _ _ _ _ i).trans (congrArg _ (beq_eq_decide (a i) (b i)))⟩
    · exact ⟨_, next_congr (State.issue_vcmp (.vcmplt k f) rfl hr hn h1 h8 hf h), fun i => compareMask_lane _ _ _ _ i⟩
    · exact ⟨_, next_congr (State.issue_vcmp (.vcmpltu k f) rfl hr hn h1 h8 hf h), fun i => compareMask_lane _ _ _ _ i⟩
    · exact ⟨⟨_, next_congr (State.issue_vcmp (.fcmpeq k f) rfl hr hn h1 h8 hf h), fun i => compareMask_lane _ _ _ _ i⟩, fun i => feq32_nan⟩
    · exact ⟨⟨_, next_congr (State.issue_vcmp (.fcmplt k f) rfl hr hn h1 h8 hf h), fun i => compareMask_lane _ _ _ _ i⟩, fun i => flt32_nan⟩
    · exact ⟨_, next_congr (State.issue_vcmp (.fcmple k f) rfl hr hn h1 h8 hf h), fun i => compareMask_lane _ _ _ _ i⟩
    · exact ⟨_, next_congr (State.issue_vcmp (.fcmpun k f) rfl hr hn h1 h8 hf h), fun i =>
        (compareMask_lane _ _ _ _ i).trans (congrArg _ (fun32_eq (a i) (b i)))⟩
  · intro c m on
    refine ⟨⟨fun hf h => ?_, fun hf h => ?_, fun hf h => ?_, fun hf h => ?_, fun hf h => ?_, fun hf h8 h => ?_⟩, fun hf h1 h8 => ?_⟩
    · exact next_congr (State.issue_vec (.vsel k f) rfl h hr hn rfl rfl hf rfl)
    · have hlanes : Vector.ofFn (fun i : Fin 64 => (c.V f.va)[i]) = c.V f.va := by simp
      rw [← hlanes]
      exact next_congr (State.issue_vun (.vmov k f) rfl hr hn hf h (fun l => rfl))
    · rw [BitVec.ofNat_toNat]
      exact next_congr (State.issue_vec (.vbcast k f) rfl h hr hn rfl rfl hf rfl)
    · exact next_congr (State.issue_vred (.vrsum k f) rfl hr hn hf h)
    · exact next_congr (State.issue_vred (.vrmax k f) rfl hr hn hf h)
    · rw [← popCount_eq]
      exact next_congr (State.issue_vec (.mcount k f) rfl h hr hn (decide_eq_true h8) rfl hf rfl)
    · intro sets
      refine ⟨fun h => ?_, fun h ha hb => ?_, fun h ha hb => ?_, fun h ha => ?_⟩
      · rw [Nat.min_comm]
        exact next_congr (State.issue_maskOp (.msetn k f) rfl hr hn h1 h8 (by simp) hf h)
      · exact next_congr (State.issue_maskOp (.mand k f) rfl hr hn h1 h8 (by simp [ha, hb]) hf h)
      · exact next_congr (State.issue_maskOp (.mor k f) rfl hr hn h1 h8 (by simp [ha, hb]) hf h)
      · exact next_congr (State.issue_maskOp (.mnot k f) rfl hr hn h1 h8 (by simp [ha]) hf h)
end

section
/-! Where scalar and vector instructions stop (R82, R84, R85, R106, Tables 3.11 and 3.13). -/

namespace Sys2Proof.Machine

open Sys2Proof

/-- While STAGE came last, an instruction that names a register of the staging meets one of those it names (R82). -/
theorem Core.regBusy_stage {c : Core} (h : c.seq.ord = .stage) {vs : List Nat} (hv : ∃ v ∈ vs, 24 ≤ v ∧ v ≤ 31) :
    ∃ r ∈ vs, 24 ≤ r ∧ c.regBusy vs = some r := by
  have mem : ∀ r, r ∈ (vs.filter (fun v => 24 ≤ v && v ≤ 31)).dedup → r ∈ vs ∧ 24 ≤ r := by
    intro r hr
    simp only [List.mem_dedup, List.mem_filter, Bool.and_eq_true, decide_eq_true_eq] at hr
    exact ⟨hr.1, hr.2.1⟩
  obtain ⟨v, hv, h24, h31⟩ := hv
  have hin : v ∈ (vs.filter (fun v => 24 ≤ v && v ≤ 31)).dedup := by simp [hv, h24, h31]
  rw [Core.regBusy, if_pos h]
  split
  · next hnil => rw [hnil] at hin; cases hin
  · next r hone =>
    have hr := mem r (by rw [hone]; exact List.mem_singleton.2 rfl)
    exact ⟨r, hr.1, hr.2, rfl⟩
  · have hpos : 0 < ((vs.filter (fun v => 24 ≤ v && v ≤ 31)).dedup).length := List.length_pos_of_mem hin
    have hlt := Nat.mod_lt (Config.busyPick (vs.filter (fun v => 24 ≤ v && v ≤ 31)).dedup) hpos
    have hr := mem _ (List.getElem_mem hlt)
    exact ⟨_, hr.1, hr.2, List.getElem?_eq_getElem hlt⟩

theorem rnd_illegal {o : VecOp} {f : VecF} (hs : o.sr = false) (h : 1 ≤ f.rnd.toNat) : 2 ≤ f.rnd.toNat ∨ (f.rnd = 1 ∧ o.sr = false) ∨ o.legal = false := by
  rcases Nat.eq_or_lt_of_le h with h1 | h2
  · exact .inr (.inl ⟨BitVec.eq_of_toNat_eq h1.symm, hs⟩)
  · exact .inl h2

theorem maskField_false {x : BitVec 5} (h : 8 ≤ x.toNat) : maskField x = false := decide_eq_false (Nat.not_lt.2 h)

theorem maskDest_false {x : BitVec 5} (h : x = 0 ∨ 8 ≤ x.toNat) : maskDest x = false := by
  rcases h with rfl | h
  · rfl
  · simp [maskDest, Nat.not_lt.2 h]

theorem State.issue_vec_illegal {s : State} {k : Nat} {w : W64} {f : VecF} {o : VecOp} (i : Instr) (hi : encodeInsn i = some w) (h : s.ready k w = true)
    (hbad : f.rsv ≠ 0 ∨ 2 ≤ f.rnd.toNat ∨ (f.rnd = 1 ∧ o.sr = false) ∨ o.legal = false) :
    s.issue k w (vecBody w f o) = s.trap k 0x01 (hiWord w) :=
  State.issue_row_trap i hi h (vecBody_illegal hbad)

end Sys2Proof.Machine

open Sys2Proof Sys2Proof.Machine

/-- Settles O15: the checks before every instruction are `State.issue`'s own, the others the first branches of each body. -/
theorem instructionTraps : Obligations.InstructionTraps := by
  unfold Obligations.InstructionTraps
  refine ⟨fun k f b s => ?_, fun k f s => ?_⟩
  · intro c a hi
    refine ⟨fun h => ?_, fun h hn => ?_, fun v h hv hk => ?_, fun h hr => ?_, fun h hr hf ha => ?_, fun h hr hf ha hx => ?_, fun h hr hf ha => ?_,
      fun h hx => ?_, fun h hx => ?_, fun h hx => ?_, fun h hx => ?_, fun h hr hlo hhi hf hl => ?_⟩
    · exact next_congr (State.issue_stopped h _ _)
    · exact next_congr (State.issue_check h hn _ _)
    · exact next_congr (State.issue_unknown h hv hk _ _)
    · exact next_congr (State.issue_row_trap (.add k f) rfl h (scalarBody_illegal (.inl hr)))
    · exact next_congr (State.issue_row_trap (.ld k f) rfl h (ldBody_fault hr hf (ldFault_align ha)))
    · exact next_congr (State.issue_row_trap (.ld k f) rfl h (ldBody_fault hr hf (ldFault_range ha hx)))
    · exact next_congr (State.issue_row_trap (.st k f) rfl h (stBody_fault hr hf (ldFault_align ha)))
    · exact next_congr (State.issue_row_trap (.srd k f) rfl h (scalarBody_illegal (.inr (decide_eq_false (by omega)))))
    · exact next_congr (State.issue_row_trap (.ctlw k f) rfl h (scalarBody_illegal (.inr (decide_eq_false (by omega)))))
    · exact next_congr (State.issue_row_trap (.br k b) rfl h (brBody_illegal (.inr hx)))
    · exact next_congr (State.issue_row_trap (.loop k b) rfl h (loopBody_illegal (.inr hx)))
    · exact next_congr (State.issue_row_trap (.loop k b) rfl h ((loopBody_legal hr hlo hhi hf).trans (if_pos hl)))
  · intro c ill
    refine ⟨fun h hb => ?_, fun h hb => ?_, fun h hb => ?_, fun h hb => ?_, fun h hb => ?_, fun h hb => ?_, fun h hb => ?_, fun h hr hn hm hb => ?_,
      fun h hr hn hb => ?_, fun h hr hn ho hb => ?_⟩
    · exact next_congr (State.issue_vec_illegal (.vadd k f) rfl h (hb.imp_right (rnd_illegal rfl)))
    · exact next_congr (State.issue_vec_illegal (.fadd k f) rfl h (hb.imp_right (rnd_illegal rfl)))
    · exact next_congr (State.issue_vec_illegal (.vcvtTobf16 k f) rfl h (.inr (.inl hb)))
    · exact next_congr (State.issue_vec_illegal (.vcmpeq k f) rfl h (.inr (.inr (.inr (maskDest_false hb)))))
    · have hlegal : (maskDest f.vd && [f.va, f.vb].all maskField) = false := by
        rcases hb with hb | hb | hb | hb
        · rw [maskDest_false (.inl hb), Bool.false_and]
        · rw [maskDest_false (.inr hb), Bool.false_and]
        · simp [maskField_false hb]
        · simp [maskField_false hb]
      exact next_congr (State.issue_vec_illegal (.mand k f) rfl h (.inr (.inr (.inr hlegal))))
    · exact next_congr (State.issue_vec_illegal (.vcvtTomx k f) rfl h (.inr (.inr (.inr (decide_eq_false hb)))))
    · exact next_congr (State.issue_vec_illegal (.vadn k f) rfl h (.inr (.inr (.inr (decide_eq_false hb)))))
    · exact next_congr (State.issue_row_trap (.vcvtTomx k f) rfl h (vecBody_badFormat hr (.inr ⟨hn, rfl⟩) (decide_eq_true hm) (decide_eq_true hb)))
    · exact next_congr (State.issue_row_trap (.vcvtFrommx k f) rfl h (vecBody_badFormat hr (.inl hn) rfl (decide_eq_true hb)))
    · have hnames : ∃ v ∈ [f.vd.toNat, f.va.toNat], 24 ≤ v ∧ v ≤ 31 := by
        rcases hb with hb | hb
        · exact ⟨_, by simp, hb, by omega⟩
        · exact ⟨_, by simp, hb, by omega⟩
      obtain ⟨r, hmem, h24, hbusy⟩ := Core.regBusy_stage ho hnames
      have htrap : exec (.vmov k f) s = .next (s.trap k 0x04 r) :=
        next_congr (State.issue_row_trap (.vmov k f) rfl h (vecBody_regBusy hr hn rfl rfl hbusy))
      rcases List.mem_pair.1 hmem with rfl | rfl
      · exact ⟨f.vd, h24, .inl rfl, htrap⟩
      · exact ⟨f.va, h24, .inr rfl, htrap⟩
end

section
/-! Array instructions at issue (R76, R82, R97), and vector instructions that join the vector engine's queue (R76). -/

namespace Sys2Proof.Machine

open Sys2Proof

/-! ### What the sequencer judges -/

/-- No fault is raised where none of the conditions holds. -/
theorem firstFault_none {l : List (Bool × Nat × Nat)} (h : ∀ x ∈ l, x.1 = false) : firstFault l = none := by
  induction l with
  | nil => rfl
  | cons x l ih =>
    obtain ⟨b, kind, d⟩ := x
    obtain rfl : b = false := h _ (List.mem_cons_self ..)
    exact ih (fun y hy => h y (List.mem_cons_of_mem _ hy))

/-- Registers below V24, or a staging that is not bound, are never REG_BUSY (R82). -/
theorem Core.regBusy_none {c : Core} {vs : List Nat} (h : c.seq.ord = .stage → ∀ v ∈ vs, v < 24) : c.regBusy vs = none := by
  by_cases ho : c.seq.ord = .stage
  · have hnil : vs.filter (fun v => 24 ≤ v && v ≤ 31) = [] := List.filter_eq_nil_iff.2 (fun v hv => by simp [Nat.not_le.2 (h ho v hv)])
    simp only [Core.regBusy, ho, hnil, List.dedup_nil, if_true]
  · rw [Core.regBusy, if_neg ho]

@[simp] theorem Core.regBusy_nil (c : Core) : c.regBusy [] = none := Core.regBusy_none (fun _ _ hv => absurd hv List.not_mem_nil)

@[simp] theorem Core.depends_nil (c : Core) : c.depends [] = false := by simp [Core.depends]

/-- The array's queue with one more operation, issued at the program counter (R76). -/
def Core.joinArr (c : Core) (op : ArrOp) : Core :=
  { c with arr := { c.arr with q := c.arr.q ++ [{ pc := c.seq.pc, op := op, before := c.vq.length }] } }

section ArrBody

variable {w : W64} {f : ArrF} {legal : Bool} {fmtBad : Option Nat} {feeds : Bool} {vs ss : List Nat} {addr : Core → Option (Nat × Nat)}
  {op : Core → ArrOp} {c : Core}

/-- An array instruction that meets no fault and finds room joins the queue. -/
theorem arrBody_joins (hr : f.rsv = 0) (hq : c.arr.q.length < 8) (hl : legal = true) (hfmt : fmtBad = none) (hv : c.regBusy vs = none)
    (hfeed : feeds = true → c.seq.ord = .stage) (hs : c.depends ss = false) (ha : addr c = none) :
    arrBody w f legal fmtBad feeds vs ss addr op c = (c.joinArr (op c), .ok {}) := by
  have hstage : (feeds && decide (c.seq.ord ≠ .stage)) = false := by
    cases hb : feeds
    · rfl
    · simp [hfeed hb]
  simp only [arrBody, hr, hl, hfmt, hv, hstage, hs, ha, Nat.not_le.2 hq, ne_eq, not_true_eq_false, decide_false, Bool.not_true, Bool.or_false,
    Bool.false_eq_true, if_false]
  rfl

/-- A staging instruction also becomes the last one in program order (R82). -/
theorem stagingBody_joins {ord : StageOrd} {x : ArrOp} (hr : f.rsv = 0) (hq : c.arr.q.length < 8) :
    stagingBody w f ord x c = ({ c.joinArr x with seq := { c.seq with ord := ord } }, .ok {}) := by
  rw [stagingBody, arrBody_joins hr hq rfl rfl c.regBusy_nil (fun h => absurd h Bool.false_ne_true) c.depends_nil rfl]
  rfl

end ArrBody

theorem passFmtBad_none {f : ArrF} {c : Core} (hf : f.afmt.toNat ≤ 6) (h : c.seq.ord = .stage) : passFmtBad f c = none := by
  simp only [passFmtBad, Nat.not_lt.2 hf, h, if_true, if_false]

theorem drainFault_none {f : ArrF} {c : Core} (ha : (c.S f.sa).toNat % 64 = 0)
    (hn : c.groupCount f.group.toNat = 0 ∨ (c.S f.sa).toNat + 512 * c.groupCount f.group.toNat ≤ 0x800000) : drainFault f c = none := by
  refine firstFault_none ?_
  simp only [List.forall_mem_cons, ha, ne_eq, not_true_eq_false, decide_false, true_and, Bool.and_eq_false_iff, decide_eq_false_iff_not, not_not]
  exact ⟨by omega, by simp⟩

/-- A full queue stops the sequencer behind the instruction (R76). -/
theorem State.issue_full {s : State} {k : Nat} {w : W64} {body : Core → Core × Out Eff} (i : Instr) (hi : encodeInsn i = some w) (h : s.ready k w = true)
    (hb : body (s.core k) = (s.core k, .wait (some queueFull))) :
    s.issue k w body = s.putCore k { s.core k with seq := { (s.core k).seq with st := .running, full := true } } := by
  obtain ⟨h1, h2⟩ := State.ready_parts h
  simp only [State.issue, h1, h2, knownWord_of_encodeInsn hi, hb, Bool.not_true, Bool.false_eq_true, if_false, ne_eq, not_true_eq_false, if_true]

/-- A vector instruction behind others that wait joins their queue, or waits for room in it (R76). -/
theorem State.issue_vec_queued {s : State} {k : Nat} {w : W64} {f : VecF} {o : VecOp} (i : Instr) (hi : encodeInsn i = some w) (hr : f.rsv = 0)
    (hn : f.rnd = 0) (ho : (s.core k).seq.ord ≠ .stage) (hq : (s.core k).vq ≠ []) (hl : o.legal = true) (hb : o.fmtBad = false) (h : s.ready k w = true) :
    s.issue k w (vecBody w f o) =
      if (s.core k).vq.length < 8 then s.advanced k { s.core k with vq := (s.core k).vq ++ [{ pc := (s.core k).seq.pc, word := w }] }
      else s.putCore k { s.core k with seq := { (s.core k).seq with st := .running, full := true } } := by
  have hbusy : (s.core k).regBusy (o.vs.map BitVec.toNat) = none := Core.regBusy_none (fun h => absurd h ho)
  have hempty : (s.core k).vq.isEmpty = false := by simpa using hq
  have body : vecBody w f o (s.core k) = if (s.core k).vq.length < 8 then
      ({ s.core k with vq := (s.core k).vq ++ [{ pc := (s.core k).seq.pc, word := w }] }, .ok {}) else (s.core k, .wait (some queueFull)) := by
    simp only [vecBody, vecLegal hr (.inl hn) hl, hb, hbusy, hempty, Bool.false_eq_true, if_false]
  split
  · next hlt => exact State.issue_row i hi h (body.trans (if_pos hlt))
  · next hge => exact State.issue_full i hi h (body.trans (if_neg hge))

end Sys2Proof.Machine

open Sys2Proof Sys2Proof.Machine

/-- Settles O16: an array instruction that `arrBody` lets pass joins its queue, a vector instruction by `State.issue_vec_queued`. -/
theorem arrayInstructionsQueue : Obligations.ArrayInstructionsQueue := by
  unfold Obligations.ArrayInstructionsQueue
  refine ⟨fun k f ups s hr hq => ?_, fun k f s hr hn ho hq => ?_⟩
  · intro c joins done
    have noFeed : false = true → c.seq.ord = .stage := fun h => absurd h Bool.false_ne_true
    have plain : ∀ {w : W64} {op : Core → ArrOp}, arrBody w f true none false [] [] (fun _ => none) op c = (c.joinArr (op c), .ok {}) :=
      arrBody_joins hr hq rfl rfl c.regBusy_nil noFeed c.depends_nil rfl
    refine ⟨fun h hfuse hfmt hord => ?_, fun h hfmt hord => ?_, fun h => ?_, fun h => ?_, fun h hfuse hf ha hrange => ?_, fun h hfuse heven hord => ?_,
      fun h => ?_, fun h => ?_, fun h => ?_, fun h => ?_⟩
    · rw [← Nat.mod_eq_of_lt hfuse]
      exact next_congr (State.issue_row (.tload k f) rfl h
        (arrBody_joins hr hq (decide_eq_true hfuse) (if_neg (Nat.not_lt.2 hfmt)) c.regBusy_nil (fun _ => hord) c.depends_nil rfl))
    · exact next_congr (State.issue_row (.pass k f ups) rfl h
        (arrBody_joins hr hq rfl (passFmtBad_none hfmt hord) c.regBusy_nil (fun _ => hord) c.depends_nil rfl))
    · exact next_congr (State.issue_row (.gopen k f) rfl h plain)
    · exact next_congr (State.issue_row (.gclose k f) rfl h plain)
    · have hlegal : decide (f.fuse.toNat ≠ 3) = true := decide_eq_true (by omega)
      exact next_congr (State.issue_row (.gdrainB k f) rfl h
        (arrBody_joins hr hq hlegal rfl c.regBusy_nil noFeed (Core.depends_of_freeS hf) (drainFault_none ha hrange)))
    · have hlegal : (decide (f.fuse.toNat ≠ 3) && decide (f.sa.toNat % 2 = 0)) = true :=
        Bool.and_eq_true_iff.2 ⟨decide_eq_true (by omega), decide_eq_true heven⟩
      have hlow : c.seq.ord = .stage → ∀ v ∈ [f.sa.toNat, f.sa.toNat + 1], v < 24 := by
        intro ho v hv
        have hsa := hord ho
        rcases List.mem_pair.1 hv with rfl | rfl <;> omega
      exact next_congr (State.issue_row (.gdrainV k f) rfl h
        (arrBody_joins hr hq hlegal rfl (Core.regBusy_none hlow) noFeed c.depends_nil rfl))
    · exact next_congr (State.issue_row (.grel k f) rfl h plain)
    · exact next_congr (State.issue_row (.gside k f) rfl h plain)
    · exact next_congr (State.issue_row (.stage k f) rfl h (stagingBody_joins hr hq))
    · exact next_congr (State.issue_row (.unstage k f) rfl h (stagingBody_joins hr hq))
  · intro c joins
    have queued : ∀ {w : W64} {o : VecOp} (i : Instr), encodeInsn i = some w → o.legal = true → o.fmtBad = false → s.ready k w = true →
        (Host.Outcome.next (s.issue k w (vecBody w f o)) : Res) = joins w := by
      intro w o i hi hl hb h
      rw [State.issue_vec_queued i hi hr hn ho hq hl hb h]
      exact apply_ite _ _ _ _
    exact ⟨queued (.vadd k f) rfl rfl rfl, queued (.ffma k f) rfl rfl rfl, queued (.vld k f) rfl rfl rfl, queued (.vst k f) rfl rfl rfl⟩
end

section
/-! Semaphores, END, the col instructions and the ends of their waits (R98, R99, R109, R191, R194). -/

namespace Sys2Proof.Machine

open Sys2Proof

/-! ### Issue -/

/-- An instruction that waits under a cause of Table 3.8. -/
theorem State.issue_wait {s : State} {k : Nat} {w : W64} {body : Core → Core × Out Eff} {cause : Nat} (i : Instr) (hi : encodeInsn i = some w)
    (h : s.ready k w = true) (hc : cause ≠ queueFull) (hb : body (s.core k) = (s.core k, .wait (some cause))) :
    s.issue k w body = s.putCore k { s.core k with seq := { (s.core k).seq with st := .waiting, wcause := cause, full := false } } := by
  obtain ⟨h1, h2⟩ := State.ready_parts h
  simp only [State.issue, h1, h2, knownWord_of_encodeInsn hi, hb, if_neg hc, Bool.not_true, Bool.false_eq_true, if_false, ne_eq, not_true_eq_false]

/-- A col instruction whose core completes it and sends these arrivals: they join the flits at the core's router. -/
theorem State.issueCol_ok {s : State} {k : Nat} {w : W64} {body : Core → Core × Out Eff} {c1 : Core} {l : List Arrival} (i : Instr)
    (hi : encodeInsn i = some w) (h : s.ready k w = true) (hb : body (s.core k) = (c1, .ok { arrivals := l })) :
    s.issueCol k w body = { s.advanced k c1 with arrivals := l.foldl queueArrival s.arrivals } := by
  have hissue := State.issue_ok h (knownWord_of_encodeInsn hi) hb
  simp only [State.issueCol, hissue, List.drop_left]
  rfl

theorem State.issueCol_trap {s : State} {k : Nat} {w : W64} {body : Core → Core × Out Eff} {kind d : Nat} (i : Instr) (hi : encodeInsn i = some w)
    (h : s.ready k w = true) (hb : body (s.core k) = (s.core k, .fault kind d)) : s.issueCol k w body = s.trap k kind d := by
  have hissue := State.issue_row_trap i hi h hb
  have harr : (s.trap k kind d).arrivals = s.arrivals := rfl
  simp only [State.issueCol, hissue, harr, List.drop_length, List.foldl_nil]
  rfl

/-! ### Semaphores -/

/-- A post that stays at 65,535 or less (R98). -/
theorem Core.post_ok {c : Core} {k n : Nat} (h : (c.L k).toNat + n ≤ 65535) : c.post k n = (c.setL k (BitVec.ofNat 16 ((c.L k).toNat + n)), .ok ()) := by
  rw [Core.post, if_neg (Nat.not_lt.2 h)]

theorem Core.post_overflow {c : Core} {k n : Nat} (h : 65535 < (c.L k).toNat + n) : c.post k n = (c, .fault 0x20 k) := by
  rw [Core.post, if_pos h]

theorem sub_eq_ofNat_toNat_sub {n : Nat} (x y : BitVec n) (h : y.toNat ≤ x.toNat) : x - y = BitVec.ofNat n (x.toNat - y.toNat) := by
  apply BitVec.eq_of_toNat_eq
  rw [BitVec.toNat_sub_of_le h, BitVec.toNat_ofNat, Nat.mod_eq_of_lt (Nat.lt_of_le_of_lt (Nat.sub_le _ _) x.isLt)]

section Bodies

variable {w : W64} {f : SyncF} {c : Core} {k : Nat}

theorem sempostBody_ok (hr : f.rsv = 0) (hn : f.imm ≠ 0) (hc : f.cause = 0) (hcol : f.col = 0) (hsa : f.sa = 0)
    (h : (c.L f.sem.toNat).toNat + f.imm.toNat ≤ 65535) :
    sempostBody w f c = (c.setL f.sem.toNat (BitVec.ofNat 16 ((c.L f.sem.toNat).toNat + f.imm.toNat)), .ok {}) := by
  simp only [sempostBody, hr, hc, hcol, hsa, decide_eq_false hn, ne_eq, not_true_eq_false, decide_false, Bool.or_false, Bool.false_eq_true, if_false,
    Core.post_ok h]

theorem sempostBody_overflow (hr : f.rsv = 0) (hn : f.imm ≠ 0) (hc : f.cause = 0) (hcol : f.col = 0) (hsa : f.sa = 0)
    (h : 65535 < (c.L f.sem.toNat).toNat + f.imm.toNat) : sempostBody w f c = (c, .fault 0x20 f.sem.toNat) := by
  simp only [sempostBody, hr, hc, hcol, hsa, decide_eq_false hn, ne_eq, not_true_eq_false, decide_false, Bool.or_false, Bool.false_eq_true, if_false,
    Core.post_overflow h]

theorem semwaitBody_legal (hr : f.rsv = 0) (hn : f.imm ≠ 0) (h4 : f.cause ≠ 4) (h7 : f.cause ≠ 7) (hcol : f.col = 0) (hsa : f.sa = 0) :
    semwaitBody w f c = if f.imm.toNat ≤ (c.L f.sem.toNat).toNat then (c.setL f.sem.toNat (c.L f.sem.toNat - f.imm), .ok {})
      else (c, .wait (some f.cause.toNat)) := by
  simp only [semwaitBody, hr, hcol, hsa, decide_eq_false hn, decide_eq_false h4, decide_eq_false h7, ne_eq, not_true_eq_false, decide_false,
    Bool.or_false, Bool.false_eq_true, if_false]

theorem endBody_legal (hr : f.rsv = 0) (hc : f.cause = 0) (hs : f.sem = 0) (hcol : f.col = 0) (hsa : f.sa = 0) (hn : f.imm = 0) :
    endBody w f c = ({ c with seq := { c.seq with endIssued := true } }, .ok {}) := by
  simp [endBody, hr, hc, hs, hcol, hsa, hn]

/-! ### Col instructions -/

theorem arriveBody_legal (hr : f.rsv = 0) (hc : f.cause = 0) (hs : f.sem = 0) (hcount : 0 < f.imm.toNat / 32) (hreg : f.imm.toNat % 32 = 0)
    (hf : c.freeS [f.sa] [] = true) : arriveBody k w f c =
      if (c.copyOf f.col.toNat).own then (c, .ok { arrivals := [arrivalOf k f c] }) else (c, .fault 0x41 f.col.toNat) := by
  have hreg0 : colReg f = 0 := BitVec.eq_of_toNat_eq (by rw [colReg, BitVec.toNat_setWidth]; exact hreg)
  have hcount0 : colCount f ≠ 0 := Nat.pos_iff_ne_zero.1 hcount
  cases hown : (c.copyOf f.col.toNat).own <;> simp [arriveBody, hr, hc, hs, hreg0, hcount0, Core.depends_of_freeS hf, hown]

theorem waitBody_legal (hr : f.rsv = 0) (hc : f.cause = 0) (hs : f.sem = 0) (hcount : f.imm.toNat < 32) (hf : c.freeS [] [colReg f] = true)
    (hown : (c.copyOf f.col.toNat).own = true) : waitBody w f c = copyWait f c {} := by
  obtain ⟨hdep, hover⟩ := (c.freeS_iff _ _).1 hf
  have hcount0 : colCount f = 0 := Nat.div_eq_of_lt hcount
  simp only [List.nil_append, List.map_cons, List.map_nil] at hdep hover
  simp [waitBody, hr, hc, hs, hcount0, hdep, hover, hown]

theorem arriveWaitLegal_of (hr : f.rsv = 0) (hc : f.cause = 0) (hs : f.sem = 0) (hcount : 0 < f.imm.toNat / 32) : arriveWaitLegal f = true := by
  have hcount0 : colCount f ≠ 0 := Nat.pos_iff_ne_zero.1 hcount
  simp [arriveWaitLegal, hr, hc, hs, hcount0]

theorem arriveWaitBody_legal (hl : arriveWaitLegal f = true) (hf : c.freeS [f.sa] [colReg f] = true) (hown : (c.copyOf f.col.toNat).own = true) :
    arriveWaitBody w f c = copyWait f c {} := by
  obtain ⟨hdep, hover⟩ := (c.freeS_iff _ _).1 hf
  simp only [List.cons_append, List.nil_append, List.map_cons, List.map_nil] at hdep hover
  simp [arriveWaitBody, hl, hdep, hover, hown]

/-- A legal ARRIVE_WAIT that waits for no register sends its arrival when it first issues (R191). -/
theorem arriveSends_legal (hl : arriveWaitLegal f = true) (hf : c.freeS [f.sa] [colReg f] = true) (hown : (c.copyOf f.col.toNat).own = true)
    (h1 : c.fetches = true) (h2 : c.fetch c.seq.pc = some w) : arriveSends c w f = decide (c.seq.st = .running) := by
  obtain ⟨hdep, hover⟩ := (c.freeS_iff _ _).1 hf
  simp only [List.cons_append, List.nil_append, List.map_cons, List.map_nil] at hdep hover
  have hissue : c.canIssue w = true := by
    simp only [Core.fetches] at h1
    simp [Core.canIssue, h1, h2]
  simp [arriveSends, hissue, hl, hdep, hover, hown]

end Bodies

section CopyWait

variable {f : SyncF} {c : Core} {e : Eff}

theorem copyWait_ok (h : (c.copyOf f.col.toNat).show_ = .ok) : copyWait f c e = (c.setS (colReg f) 0, .ok e) := by rw [copyWait, h]
theorem copyWait_late (h : (c.copyOf f.col.toNat).show_ = .okLate) : copyWait f c e = (c.setS (colReg f) 1, .ok e) := by rw [copyWait, h]
theorem copyWait_expired (h : (c.copyOf f.col.toNat).show_ = .expired) : copyWait f c e = (c, .fault 0x40 f.col.toNat) := by rw [copyWait, h]
theorem copyWait_open (h : (c.copyOf f.col.toNat).show_ = .unresolved) : copyWait f c e = (c, .wait (some 1)) := by rw [copyWait, h]

end CopyWait

/-- ARRIVE_WAIT is the issue of its wait, with its arrival beside it when it first issues. -/
theorem execArriveWait_eq {s t : State} {k : Site} {f : SyncF} (h : s.ready k (encSync 0x12 f) = true) (hl : arriveWaitLegal f = true)
    (hf : (s.core k).freeS [f.sa] [colReg f] = true) (hown : ((s.core k).copyOf f.col.toNat).own = true)
    (ht : s.issue k (encSync 0x12 f) (arriveWaitBody (encSync 0x12 f) f) = t) : exec (.arriveWait k f) s =
      .next { t with arrivals := if (s.core k).seq.st = .running then queueArrival s.arrivals (arrivalOf k f (s.core k)) else s.arrivals } := by
  obtain ⟨h1, h2⟩ := State.ready_parts h
  have hsend := arriveSends_legal hl hf hown h1 h2
  subst ht
  show Host.Outcome.next _ = _
  rw [hsend]
  simp only [decide_eq_true_eq]

/-! ### Ends of waits (R98, R109) -/

/-- A SEMWAIT that waits issues again when its event is there. -/
theorem State.semwaitDone_eq {s : State} {k : Nat} {f : SyncF} (hst : (s.core k).seq.st = .waiting)
    (hf : (s.core k).fetch (s.core k).seq.pc = some (encSync 0x01 f)) :
    s.semwaitDone k = s.issue k (encSync 0x01 f) (semwaitBody (encSync 0x01 f) f) := by
  have hcls := encSync_class 0x01 f (by decide)
  have hop := encSync_op 0x01 f (by decide)
  have hrow : (encSync 0x01 f).toNat / 2 ^ 52 = 0x901 := by omega
  simp only [State.semwaitDone, hf, hst, hrow, decSync_encSync, decide_true, Bool.and_self, if_true]

theorem Arr.group_fin (a : Arr) (g : Fin 8) : a.group g.val = a.groups[g] := getD_toList_fin a.groups g {}

theorem Core.settled_iff (c : Core) : c.settled = true ↔ c.arr.q = [] ∧ c.vq = [] ∧ c.arr.pend = [] ∧ (∀ g < 8, (c.arr.group g).drains = []) ∧
    (c.arr.shadow = none ∨ c.arr.shadowReady = true) := by
  have hgroups : c.arr.groups.toList.all (fun g => g.drains.isEmpty) = true ↔ ∀ g < 8, (c.arr.group g).drains = [] := by
    constructor
    · intro h g hg
      rw [show g = (⟨g, hg⟩ : Fin 8).val from rfl, Arr.group_fin]
      exact List.isEmpty_iff.1 (List.all_eq_true.1 h _ (by simp))
    · intro h
      refine List.all_eq_true.2 (fun x hx => ?_)
      obtain ⟨g, hg, rfl⟩ := List.mem_iff_getElem.1 hx
      have hg8 : g < 8 := by simpa using hg
      have hdrains := h g hg8
      rw [show g = (⟨g, hg8⟩ : Fin 8).val from rfl, Arr.group_fin] at hdrains
      simpa using hdrains
  have hshadow : (!(c.arr.shadow.isSome && !c.arr.shadowReady)) = true ↔ (c.arr.shadow = none ∨ c.arr.shadowReady = true) := by
    cases c.arr.shadow <;> cases c.arr.shadowReady <;> simp
  simp only [Core.settled, Bool.and_eq_true, List.isEmpty_iff, hgroups, hshadow, and_assoc]

theorem State.endRetire_done {s : State} {k : Nat} (he : (s.core k).seq.endIssued = true) (hst : (s.core k).seq.st = .running)
    (h : (s.core k).settled = true) :
    s.endRetire k = s.setCore k { s.core k with seq := { (s.core k).seq with st := .ended, wcause := 4, endIssued := false } } := by
  simp only [State.endRetire, he, hst, h, decide_true, Bool.and_self, if_true]

theorem State.endRetire_stays {s : State} {k : Nat} (h : (s.core k).seq.endIssued = true → (s.core k).settled = true → False) : s.endRetire k = s := by
  have hno : ((s.core k).seq.endIssued && decide ((s.core k).seq.st = .running) && (s.core k).settled) = false :=
    Bool.eq_false_iff.2 (fun hall => by
      simp only [Bool.and_eq_true] at hall
      exact h hall.1.1 hall.2)
  simp only [State.endRetire, hno, Bool.false_eq_true, if_false]

end Sys2Proof.Machine

open Sys2Proof Sys2Proof.Machine

/-- Settles O19: each instruction is what its body does when it is legal; a wait that ends is the issue of its word again. -/
theorem syncCompletes : Obligations.SyncCompletes := by
  unfold Obligations.SyncCompletes
  refine ⟨fun k f s hr => ?_, fun k s => ?_⟩
  · intro c n l copy arr stays done
    have imm_ne : n ≠ 0 → f.imm ≠ 0 := fun h h0 => h (by show f.imm.toNat = 0; rw [h0]; rfl)
    have one_ne : (1 : Nat) ≠ queueFull := by decide
    refine ⟨fun h hn hc hcol hsa hle => ?_, fun h hn hc hcol hsa hlt => ?_, fun h hn h4 h7 hcol hsa hle => ?_, fun h hn h4 h7 hcol hsa hlt => ?_,
      fun h hc hs hcol hsa hn => ?_, fun h hc hs hcount hreg hf => ⟨fun hown => ?_, fun hown => ?_⟩, fun h hc hs hcount hf hown => ?_,
      fun h hc hs hcount hf hown => ?_⟩
    · exact next_congr (State.issue_row (.sempost k f) rfl h (sempostBody_ok hr (imm_ne hn) hc hcol hsa hle))
    · exact next_congr (State.issue_row_trap (.sempost k f) rfl h (sempostBody_overflow hr (imm_ne hn) hc hcol hsa hlt))
    · rw [← sub_eq_ofNat_toNat_sub _ _ hle]
      exact next_congr (State.issue_row (.semwait k f) rfl h ((semwaitBody_legal hr (imm_ne hn) h4 h7 hcol hsa).trans (if_pos hle)))
    · have hcause : f.cause.toNat ≠ queueFull := by
        have := f.cause.isLt
        rw [queueFull]
        omega
      exact next_congr (State.issue_wait (.semwait k f) rfl h hcause
        ((semwaitBody_legal hr (imm_ne hn) h4 h7 hcol hsa).trans (if_neg (Nat.not_le.2 hlt))))
    · exact next_congr (State.issue_row (.endRun k f) rfl h (endBody_legal hr hc hs hcol hsa (BitVec.eq_of_toNat_eq hn)))
    · exact next_congr (State.issueCol_ok (.arrive k f) rfl h ((arriveBody_legal hr hc hs hcount hreg hf).trans (if_pos hown)))
    · have hnot : ¬copy.own = true := by simp [hown]
      exact next_congr (State.issueCol_trap (.arrive k f) rfl h ((arriveBody_legal hr hc hs hcount hreg hf).trans (if_neg hnot)))
    · have hbody := waitBody_legal (w := encSync 0x11 f) hr hc hs hcount hf hown
      exact ⟨fun hw => next_congr (State.issue_row (.wait k f) rfl h (hbody.trans (copyWait_ok hw))),
        fun hw => next_congr (State.issue_row (.wait k f) rfl h (hbody.trans (copyWait_late hw))),
        fun hw => next_congr (State.issue_row_trap (.wait k f) rfl h (hbody.trans (copyWait_expired hw))),
        fun hw => next_congr (State.issue_wait (.wait k f) rfl h one_ne (hbody.trans (copyWait_open hw)))⟩
    · have hl := arriveWaitLegal_of hr hc hs hcount
      have hbody := arriveWaitBody_legal (w := encSync 0x12 f) hl hf hown
      exact ⟨fun hw => execArriveWait_eq h hl hf hown (State.issue_row (.arriveWait k f) rfl h (hbody.trans (copyWait_ok hw))),
        fun hw => execArriveWait_eq h hl hf hown (State.issue_row (.arriveWait k f) rfl h (hbody.trans (copyWait_late hw))),
        fun hw => execArriveWait_eq h hl hf hown (State.issue_row_trap (.arriveWait k f) rfl h (hbody.trans (copyWait_expired hw))),
        fun hw => execArriveWait_eq h hl hf hown (State.issue_wait (.arriveWait k f) rfl h one_ne (hbody.trans (copyWait_open hw)))⟩
  · intro c
    refine ⟨fun f hst he hf hr hn h4 h7 hcol hsa hle => ?_, fun he hst hq hv hp hg hsh => ?_, fun hbusy => ?_⟩
    · have hready : s.ready k (encSync 0x01 f) = true := by
        simp [State.ready, Core.fetches, hst, he, hf, c]
      exact next_congr ((State.semwaitDone_eq hst hf).trans
        (State.issue_row (.semwait k f) rfl hready ((semwaitBody_legal hr hn h4 h7 hcol hsa).trans (if_pos hle))))
    · exact next_congr (State.endRetire_done he hst ((Core.settled_iff c).2 ⟨hq, hv, hp, hg, hsh⟩))
    · refine next_congr (State.endRetire_stays (fun he hset => ?_))
      obtain ⟨hq, hv, hp, hg, -⟩ := (Core.settled_iff _).1 hset
      rcases hbusy with h | h | h | h | ⟨g, hlt, h⟩
      · exact absurd he (Bool.eq_false_iff.1 h)
      · exact h hq
      · exact h hv
      · exact h hp
      · exact h (hg g hlt)
end

section
/-! Network and DMA instructions at issue (R85, R181, R207): what the port and the engine judge, and the queues they join. -/

namespace Sys2Proof.Machine

open Sys2Proof

/-- An instruction that reads three registers and need not wait for them. -/
theorem Core.depends_of_freeS3 {c : Core} {x y z : BitVec 5} (h : c.freeS [x, y, z] [] = true) : c.depends [x.toNat, y.toNat, z.toNat] = false :=
  ((c.freeS_iff [x, y, z] []).1 h).1

/-! ### The network port -/

/-- A queue whose head is neither a binding nor a freeing stays as it is (R181). -/
theorem Core.pumpNet_stays {c : Core} (h : ∀ x, c.net.head? = some x → x.op ≤ 2) (n : Nat) : Core.pumpNet n c = c := by
  cases n with
  | zero => rfl
  | succ n =>
    unfold Core.pumpNet
    split
    · rfl
    · next x t hnet =>
      have hop : x.op ≤ 2 := h x (by rw [hnet]; rfl)
      rw [if_neg (by omega), if_neg (by omega)]

/-- An operation for the network port with its operands as they read now (R181). -/
def Core.netOp (c : Core) (f : NetF) (op : Nat) : NetOp :=
  { pc := c.seq.pc, op := op, sa := c.S f.sa, sb := c.S f.sb, sc := c.S f.sc, sem := f.sem.toNat, win := f.win.toNat, w := f.w = 1, vc := f.vc.toNat, rid := f.rid.toNat }

section NetBody

variable {op : Nat} {w : W64} {f : NetF} {legal : Bool} {bad : Core → Option (Nat × Nat)} {c : Core}

/-- A network instruction that meets no fault and finds room is handed to the port. -/
theorem netBody_taken (hr : f.rsv = 0) (hl : legal = true) (hf : c.freeS [f.sa, f.sb, f.sc] [] = true) (hq : c.net.length < 16) (hb : bad c = none) :
    netBody op w f legal bad c = (Core.pumpNet 17 { c with net := c.net ++ [c.netOp f op] }, .ok {}) := by
  simp only [netBody, hr, hl, Core.depends_of_freeS3 hf, hb, Nat.not_le.2 hq, ne_eq, not_true_eq_false, decide_false, Bool.not_true, Bool.or_false,
    Bool.false_eq_true, if_false]
  rfl

theorem netBody_fault {kind d : Nat} (hr : f.rsv = 0) (hl : legal = true) (hf : c.freeS [f.sa, f.sb, f.sc] [] = true) (hb : bad c = some (kind, d)) :
    netBody op w f legal bad c = (c, .fault kind d) := by
  simp only [netBody, hr, hl, Core.depends_of_freeS3 hf, hb, ne_eq, not_true_eq_false, decide_false, Bool.not_true, Bool.or_false, Bool.false_eq_true,
    if_false]

/-- An operation that the port does not carry out at once joins its queue. -/
theorem netBody_joins (hr : f.rsv = 0) (hl : legal = true) (hf : c.freeS [f.sa, f.sb, f.sc] [] = true) (hq : c.net.length < 16) (hb : bad c = none)
    (hop : op ≤ 2 ∨ c.net ≠ []) (hh : ∀ x, c.net.head? = some x → x.op ≤ 2) :
    netBody op w f legal bad c = ({ c with net := c.net ++ [c.netOp f op] }, .ok {}) := by
  have hhead : ∀ x, (c.net ++ [c.netOp f op]).head? = some x → x.op ≤ 2 := by
    intro x hx
    cases hnet : c.net with
    | nil =>
      obtain rfl : c.netOp f op = x := by simpa [hnet] using hx
      exact hop.resolve_right (fun h => h hnet)
    | cons y t => exact hh x (by simpa [hnet] using hx)
  rw [netBody_taken hr hl hf hq hb, Core.pumpNet_stays hhead]

/-- The port binds at once when its queue is empty (R181). -/
theorem Core.pumpNet_bind (h : c.net = []) : Core.pumpNet 17 { c with net := c.net ++ [c.netOp f 3] } =
    { c with rx := Tab.set {} c.rx f.rid.toNat { on := true, win := f.win.toNat, sem := f.sem.toNat } } := by
  have hrest : Core.pumpNet 16 { c with net := [], rx := Tab.set {} c.rx f.rid.toNat { on := true, win := f.win.toNat, sem := f.sem.toNat } } = _ :=
    Core.pumpNet_stays (fun x hx => by cases hx) 16
  rw [h]
  exact hrest.trans (by rw [← h])

theorem Core.pumpNet_free (h : c.net = []) : Core.pumpNet 17 { c with net := c.net ++ [c.netOp f 4] } =
    { c with rx := Tab.set {} c.rx f.rid.toNat {} } := by
  have hrest : Core.pumpNet 16 { c with net := [], rx := Tab.set {} c.rx f.rid.toNat {} } = _ :=
    Core.pumpNet_stays (fun x hx => by cases hx) 16
  rw [h]
  exact hrest.trans (by rw [← h])

end NetBody

section Faults

variable {s : State} {k : Nat} {f : NetF} {c : Core}

/-- A source in the banks that is aligned and in range, or a window, raises neither ALIGN nor ADDR_RANGE (R181). -/
theorem netSource_fine {n sa sc : Nat} (h : f.w = 1 ∨ (sa % n = 0 ∧ sa + sc ≤ 0x800000)) :
    (decide (f.w = 0) && decide (sa % n ≠ 0)) = false ∧ (decide (f.w = 0) && decide (sc ≠ 0) && decide (0x7FFFFF < sa + sc - 1)) = false := by
  rcases h with h | ⟨ha, hr⟩
  · simp [h]
  · have hin : sc = 0 ∨ ¬0x7FFFFF < sa + sc - 1 := by omega
    rcases hin with h0 | hle
    · simp [ha, h0]
    · simp only [ha, hle, ne_eq, not_true_eq_false, decide_false, Bool.and_false, and_self]

theorem sendFault_none (hs : (f.w = 1 ∨ ((c.S f.sa).toNat % 64 = 0 ∧ (c.S f.sa).toNat + (c.S f.sc).toNat ≤ 0x800000))) (hlo : 64 ≤ (c.S f.sc).toNat)
    (hal : (c.S f.sc).toNat % 64 = 0) (hhi : (c.S f.sc).toNat ≤ 0x800000)
    (hd : (c.destOf ((c.S f.sb).toNat % 64)).kind = 4 ∨
      ((c.destOf ((c.S f.sb).toNat % 64)).kind = 1 ∧ s.validTarget k (c.destOf ((c.S f.sb).toNat % 64)) = true) ∨
      ((c.destOf ((c.S f.sb).toNat % 64)).kind = 0 ∧ s.validTarget k (c.destOf ((c.S f.sb).toNat % 64)) = true ∧ (c.S f.sb).toNat / 2 ^ 32 % 64 = 0 ∧
        (c.destOf ((c.S f.sb).toNat % 64)).addr + (c.S f.sb).toNat / 2 ^ 32 + (c.S f.sc).toNat ≤ 0x800000)) :
    sendFault s k f c = none := by
  obtain ⟨h6, h7⟩ := netSource_fine hs
  have hlen : (decide ((c.S f.sc).toNat % 64 ≠ 0) || decide ((c.S f.sc).toNat < 64) || decide (0x800000 < (c.S f.sc).toNat)) = false := by
    simp only [Bool.or_eq_false_iff, decide_eq_false_iff_not]
    omega
  refine firstFault_none ?_
  simp only [List.forall_mem_cons, h6, h7, hlen, true_and, Bool.false_or]
  rcases hd with hk | ⟨hk, hv⟩ | ⟨hk, hv, hofs, hend⟩
  · simp [hk]
  · simp [hk, hv]
  · simpa [hk, hv] using ⟨hofs, hend⟩

theorem redFault_none (hs : (f.w = 1 ∨ ((c.S f.sa).toNat % 64 = 0 ∧ (c.S f.sa).toNat + (c.S f.sc).toNat ≤ 0x800000)))
    (hlen : (c.S f.sc).toNat % (128 * s.redLen k f.rid.toNat) = 0) : redFault s k f c = none := by
  obtain ⟨h6, h7⟩ := netSource_fine hs
  refine firstFault_none ?_
  simp only [List.forall_mem_cons, h6, h7, true_and]
  simp [hlen]

theorem msgKind_fine (hd : (c.destOf ((c.S f.sb).toNat % 64)).kind = 2 ∨ (c.destOf ((c.S f.sb).toNat % 64)).kind = 3) :
    (!(decide ((c.destOf ((c.S f.sb).toNat % 64)).kind = 2) || decide ((c.destOf ((c.S f.sb).toNat % 64)).kind = 3))) = false := by
  rcases hd with hk | hk <;> simp [hk]

theorem msgFault_none (hs : (f.w = 1 ∨ ((c.S f.sa).toNat % 16 = 0 ∧ (c.S f.sa).toNat + (c.S f.sc).toNat ≤ 0x800000))) (hlo : 16 ≤ (c.S f.sc).toNat)
    (hal : (c.S f.sc).toNat % 16 = 0) (hhi : (c.S f.sc).toNat ≤ 256)
    (hd : (c.destOf ((c.S f.sb).toNat % 64)).kind = 2 ∨ (c.destOf ((c.S f.sb).toNat % 64)).kind = 3) : msgFault f c = none := by
  obtain ⟨h6, h7⟩ := netSource_fine hs
  refine firstFault_none ?_
  simp only [List.forall_mem_cons, h6, h7, msgKind_fine hd, true_and]
  simp [hal, Nat.not_lt.2 hlo, Nat.not_lt.2 hhi]

/-- A length that is no multiple of 16 is NET_LEN (R181). -/
theorem msgFault_len (hw : f.w = 1) (hal : (c.S f.sc).toNat % 16 ≠ 0)
    (hd : (c.destOf ((c.S f.sb).toNat % 64)).kind = 2 ∨ (c.destOf ((c.S f.sb).toNat % 64)).kind = 3) : msgFault f c = some (0x46, (c.S f.sc).toNat) := by
  simp only [msgFault, firstFault, msgKind_fine hd]
  simp [hw, hal]

end Faults

/-! ### The DMA engine -/

/-- An operation for the DMA engine with its operands as they read now (R207). -/
def Core.dmaOp (c : Core) (f : DmaF) (op : Nat) : DmaOp :=
  { pc := c.seq.pc, op := op, sa := c.S f.sa, sb := c.S f.sb, sc := c.S f.sc, sem := f.sem.toNat, win := f.win.toNat, w := f.w = 1, xp := f.xp.toNat, fmt := f.fmt.toNat, add := f.gmode = 1 }

section DmaBody

variable {s : State} {k op : Nat} {w : W64} {f : DmaF} {fmtBad : Bool} {c : Core}

/-- A DMA instruction that finds room joins the queue, unless the engine takes it at once and finds a fault. -/
theorem dmaBody_judged (hr : f.rsv = 0) (hx : f.xp.toNat ≤ 3) (hb : fmtBad = false) (hf : c.freeS [f.sa, f.sb, f.sc] [] = true) (hq : c.dma.length < 16) :
    (∀ kind d, c.dma = [] → s.dmaJudge k (c.dmaOp f op) = some (kind, d) → dmaBody s k op w f fmtBad c = (c, .fault kind d)) ∧
    ((c.dma = [] → s.dmaJudge k (c.dmaOp f op) = none) → dmaBody s k op w f fmtBad c = ({ c with dma := c.dma ++ [c.dmaOp f op] }, .ok {})) := by
  have hx4 : ¬4 ≤ f.xp.toNat := by omega
  have legal : (decide (f.rsv ≠ 0) || decide (4 ≤ f.xp.toNat)) = false := by simp [hr, hx4]
  simp only [dmaBody, legal, hb, Core.depends_of_freeS3 hf, Nat.not_le.2 hq, Bool.false_eq_true, if_false]
  refine ⟨fun kind d hnil hj => ?_, fun hfine => ?_⟩
  · rw [if_pos hnil]
    unfold Core.dmaOp at hj
    rw [hj]
  · by_cases hnil : c.dma = []
    · have hj := hfine hnil
      unfold Core.dmaOp at hj
      rw [if_pos hnil, hj]
      rfl
    · rw [if_neg hnil]
      rfl

theorem dmaBody_illegal (h : 4 ≤ f.xp.toNat) : dmaBody s k op w f fmtBad c = (c, .fault 0x01 (hiWord w)) := by
  have hbad : (decide (f.rsv ≠ 0) || decide (4 ≤ f.xp.toNat)) = true := by rw [decide_eq_true h, Bool.or_true]
  simp only [dmaBody, hbad, if_true]

theorem dmaBody_badFormat (hr : f.rsv = 0) (hx : f.xp.toNat ≤ 3) (hb : fmtBad = true) : dmaBody s k op w f fmtBad c = (c, .fault 0x03 f.fmt.toNat) := by
  have hx4 : ¬4 ≤ f.xp.toNat := by omega
  simp only [dmaBody, hr, hb, hx4, ne_eq, not_true_eq_false, decide_false, Bool.or_false, Bool.false_eq_true, if_false, if_true]

end DmaBody

/-- A COPY from an address that is no multiple of 64 is ALIGN (R207). -/
theorem State.dmaJudge_align (s : State) (k : Nat) (h : DmaOp) (hop : h.op = 0) (ha : h.sa.toNat % 64 ≠ 0) :
    s.dmaJudge k h = some (0x06, h.sa.toNat) := by
  have hsides : ∃ l, h.bankSides (s.field (k / 64)) = (h.sa.toNat, h.srcBytes (s.field (k / 64))) :: l := by
    unfold DmaOp.bankSides
    rw [hop]
    exact ⟨_, rfl⟩
  obtain ⟨l, hl⟩ := hsides
  simp only [State.dmaJudge, DmaOp.bad, firstFault, hl, List.any_cons, List.find?_cons, decide_eq_true ha, Bool.true_or, if_true, Option.getD_some]

end Sys2Proof.Machine

open Sys2Proof Sys2Proof.Machine

/-- Settles O20: an instruction whose operands the port or the engine finds nothing wrong with joins its queue. -/
theorem queuedInstructionsComplete : Obligations.QueuedInstructionsComplete := by
  unfold Obligations.QueuedInstructionsComplete
  refine ⟨fun k f s hr hq hf => ?_, fun k f s hr hq hf => ?_⟩
  · intro c sa sc d e done
    have vcw : f.vc = 0 → f.w = 0 → (decide (f.vc = 0) && decide (f.w = 0)) = true := fun hv hw => by simp [hv, hw]
    refine ⟨fun hh hlo hal hhi hs h hv hd => ?_, fun hh hs hlen h hv => ?_, fun hh hlo hal hhi hs hd h hv => ?_, fun hn h hv hw => ?_, fun hn h hv hw => ?_,
      fun hh hv hw => ⟨fun h => ?_, fun h => ?_⟩, fun hlo hhi hal hw hd h hv => ?_⟩
    · have hlegal : (decide (f.vc = 3) || decide (f.vc = 4)) = true := by simpa using hv
      exact next_congr (State.issue_row (.send k f) rfl h (netBody_joins hr hlegal hf hq (sendFault_none hs hlo hal hhi hd) (.inl (by decide)) hh))
    · exact next_congr (State.issue_row (.red k f) rfl h (netBody_joins hr (decide_eq_true hv) hf hq (redFault_none hs hlen) (.inl (by decide)) hh))
    · exact next_congr (State.issue_row (.msg k f) rfl h (netBody_joins hr (decide_eq_true hv) hf hq (msgFault_none hs hlo hal hhi hd) (.inl (by decide)) hh))
    · refine next_congr (State.issue_row (.rxbind k f) rfl h ((netBody_taken hr (vcw hv hw) hf hq rfl).trans ?_))
      rw [Core.pumpNet_bind hn]
    · refine next_congr (State.issue_row (.rxfree k f) rfl h ((netBody_taken hr (vcw hv hw) hf hq rfl).trans ?_))
      rw [Core.pumpNet_free hn]
    · obtain ⟨x, hx, hop⟩ := hh
      have hne : c.net ≠ [] := fun h0 => by rw [h0] at hx; cases hx
      have hhead : ∀ y, c.net.head? = some y → y.op ≤ 2 := fun y hy => by rw [hx] at hy; cases hy; exact hop
      exact next_congr (State.issue_row (.rxbind k f) rfl h (netBody_joins hr (vcw hv hw) hf hq rfl (.inr hne) hhead))
    · obtain ⟨x, hx, hop⟩ := hh
      have hne : c.net ≠ [] := fun h0 => by rw [h0] at hx; cases hx
      have hhead : ∀ y, c.net.head? = some y → y.op ≤ 2 := fun y hy => by rw [hx] at hy; cases hy; exact hop
      exact next_congr (State.issue_row (.rxfree k f) rfl h (netBody_joins hr (vcw hv hw) hf hq rfl (.inr hne) hhead))
    · exact next_congr (State.issue_row_trap (.msg k f) rfl h (netBody_fault hr (decide_eq_true hv) hf (msgFault_len hw hal hd)))
  · intro c e joins fine
    have judged := fun (op : Nat) (w : W64) (fmtBad : Bool) hx hb => dmaBody_judged (s := s) (k := k) (op := op) (w := w) (fmtBad := fmtBad) hr hx hb hf hq
    refine ⟨fun hx => ⟨fun h hj => ?_, fun h hj hfmt => ?_, fun h hj => ?_, fun h hj => ?_, fun h hn ha => ?_⟩, fun h hx => ?_, fun h hx hne hfmt => ?_⟩
    · exact next_congr (State.issue_row (.copy k f) rfl h ((judged 0 _ false hx rfl).2 hj))
    · have hb : (decide (f.xp ≠ 0) && decide (6 < f.fmt.toNat)) = false := by
        rcases hfmt with h0 | h6
        · simp [h0]
        · simp [Nat.not_lt.2 h6]
      exact next_congr (State.issue_row (.hrd k f) rfl h ((judged 1 _ _ hx hb).2 hj))
    · exact next_congr (State.issue_row (.hwr k f) rfl h ((judged 2 _ false hx rfl).2 hj))
    · exact next_congr (State.issue_row (.gwr k f) rfl h ((judged 3 _ false hx rfl).2 hj))
    · exact next_congr (State.issue_row_trap (.copy k f) rfl h ((judged 0 _ false hx rfl).1 _ _ hn (s.dmaJudge_align k _ rfl ha)))
    · exact next_congr (State.issue_row_trap (.copy k f) rfl h (dmaBody_illegal hx))
    · have hb : (decide (f.xp ≠ 0) && decide (6 < f.fmt.toNat)) = true := Bool.and_eq_true_iff.2 ⟨decide_eq_true hne, decide_eq_true hfmt⟩
      exact next_congr (State.issue_row_trap (.hrd k f) rfl h (dmaBody_badFormat hr hx hb))
end

section
/-! The banks as memory (R118, R121, R124): what a read delivers and a write leaves where every word touched is admitted and free of error. -/

namespace Sys2Proof

/-! ### Ranges of a table -/

section Ranges

variable {α : Type} (d : α) (t : Tab α)

theorem Tab.length_getRange (x n : Nat) : (Tab.getRange d t x n).length = n := by simp [Tab.getRange]

theorem Tab.getElem_getRange (x n i : Nat) (h : i < (Tab.getRange d t x n).length) : (Tab.getRange d t x n)[i] = Tab.get d t (x + i) := by
  simp [Tab.getRange]

theorem Tab.getRange_add (x m n : Nat) : Tab.getRange d t x (m + n) = Tab.getRange d t x m ++ Tab.getRange d t (x + m) n := by
  simp only [Tab.getRange, List.range_add, List.map_append, List.map_map]
  congr 1
  exact List.map_congr_left (fun i _ => congrArg (Tab.get d t) (Nat.add_assoc x m i).symm)

theorem Tab.drop_getRange (x n j : Nat) (h : j ≤ n) : (Tab.getRange d t x n).drop j = Tab.getRange d t (x + j) (n - j) := by
  obtain ⟨m, rfl⟩ := Nat.exists_eq_add_of_le h
  rw [Tab.getRange_add, List.drop_append_of_le_length (Tab.length_getRange ..).ge, List.drop_eq_nil_of_le (Tab.length_getRange ..).le,
    Nat.add_sub_cancel_left, List.nil_append]

theorem Tab.take_getRange (x n j : Nat) (h : j ≤ n) : (Tab.getRange d t x n).take j = Tab.getRange d t x j := by
  obtain ⟨m, rfl⟩ := Nat.exists_eq_add_of_le h
  rw [Tab.getRange_add, List.take_append_of_le_length (Tab.length_getRange ..).ge, List.take_of_length_le (Tab.length_getRange ..).le]

theorem Tab.getRange_congr {t u : Tab α} {x n : Nat} (h : ∀ y, x ≤ y → y < x + n → Tab.get d t y = Tab.get d u y) :
    Tab.getRange d t x n = Tab.getRange d u x n :=
  List.map_congr_left (fun i hi => h (x + i) (Nat.le_add_right _ _) (Nat.add_lt_add_left (List.mem_range.1 hi) x))

end Ranges

/-! ### Little-endian numbers -/

theorem natLE_append (l r : List Byte) : natLE (l ++ r) = natLE l + 256 ^ l.length * natLE r := by
  induction l with
  | nil => simp [natLE]
  | cons b l ih =>
    simp only [List.cons_append, natLE, ih, List.length_cons]
    ring

theorem bytesLE_succ (v n : Nat) : bytesLE v (n + 1) = bytesLE v n ++ [BitVec.ofNat 8 (v / 256 ^ n)] := by
  simp [bytesLE, List.range_succ]

theorem length_bytesLE (v n : Nat) : (bytesLE v n).length = n := by simp [bytesLE]

/-- The bytes of a number make up the number. -/
theorem natLE_bytesLE (v n : Nat) : natLE (bytesLE v n) = v % 256 ^ n := by
  induction n with
  | zero => simp [bytesLE, natLE, Nat.mod_one]
  | succ n ih =>
    have hmod : v % 256 ^ (n + 1) = v % 256 ^ n + 256 ^ n * (v / 256 ^ n % 256) := by rw [Nat.pow_succ, Nat.mod_mul]
    rw [bytesLE_succ, natLE_append, ih, length_bytesLE, hmod]
    simp [natLE]

end Sys2Proof

namespace Sys2Proof.Machine

open Sys2Proof

/-! ### The words of a range of bytes -/

theorem mem_wordsOf {a n w : Nat} : w ∈ wordsOf a n ↔ 0 < n ∧ a / 64 ≤ w ∧ w ≤ (a + n - 1) / 64 := by
  unfold wordsOf
  split
  · next h => simp [h]
  · next h =>
    have hle : a / 64 ≤ (a + n - 1) / 64 := Nat.div_le_div_right (by omega)
    simp only [List.mem_map, List.mem_range]
    constructor
    · rintro ⟨i, hi, rfl⟩
      omega
    · rintro ⟨-, h1, h2⟩
      exact ⟨w - a / 64, by omega, by omega⟩

/-- The word of a byte of a range is one of the range's words. -/
theorem div_mem_wordsOf {a n x : Nat} (h1 : a ≤ x) (h2 : x < a + n) : x / 64 ∈ wordsOf a n :=
  mem_wordsOf.2 ⟨by omega, Nat.div_le_div_right h1, Nat.div_le_div_right (by omega)⟩

theorem wordsOf_nodup (a n : Nat) : (wordsOf a n).Nodup := by
  unfold wordsOf
  split
  · exact List.nodup_nil
  · exact List.nodup_range.map (fun i j h => Nat.add_right_cancel h)

/-- A range within one word touches that word alone. -/
theorem wordsOf_within {a n : Nat} (hn : 0 < n) (h : a % 64 + n ≤ 64) : wordsOf a n = [a / 64] := by
  have hone : (a + n - 1) / 64 - a / 64 + 1 = 1 := by omega
  rw [wordsOf, if_neg (by omega), hone]
  simp

theorem Bank.clear_iff {b : Bank} {r : Req} {a n : Nat} : b.clear r a n = true ↔ ∀ w ∈ wordsOf a n, b.grant r w = .ok () ∧ b.errOf w = [] := by
  simp only [Bank.clear, List.all_eq_true, Bool.and_eq_true, decide_eq_true_eq, List.isEmpty_iff]

/-! ### Reads -/

/-- Where every access is admitted, all of them are (R124). -/
theorem Bank.admitAll_ok {b : Bank} {r : Req} {l : List (Nat × Nat)} (h : ∀ p ∈ l, b.grant r p.2 = .ok ()) : Bank.admitAll r l b = (b, .ok ()) := by
  induction l with
  | nil => rfl
  | cons p l ih =>
    obtain ⟨a, w⟩ := p
    have hw : b.grant r w = .ok () := h _ (List.mem_cons_self ..)
    simp only [Bank.admitAll, hw]
    exact ih (fun q hq => h q (List.mem_cons_of_mem _ hq))

theorem Bank.readWord_clear {b : Bank} {r : Req} {w : Nat} (hg : b.grant r w = .ok ()) (he : b.errOf w = []) (now : Stamp) (addr : Nat) :
    b.readWord r now addr w = (b, .ok (b.word w)) := by
  simp only [Bank.readWord, hg, Bank.decoded, he]

theorem Bank.readCycle_clear {b : Bank} {r : Req} {ws : List Nat} (h : ∀ w ∈ ws, b.grant r w = .ok () ∧ b.errOf w = []) (now : Stamp) (addr : Nat) :
    Bank.readCycle r now addr ws b = (b, .ok (ws.flatMap b.word)) := by
  induction ws with
  | nil => rfl
  | cons w ws ih =>
    obtain ⟨hg, he⟩ := h w (List.mem_cons_self ..)
    simp only [Bank.readCycle, Bank.readWord_clear hg he, ih (fun v hv => h v (List.mem_cons_of_mem _ hv)), List.flatMap_cons]

theorem Bank.readCycles_clear {b : Bank} {r : Req} {wss : List (List Nat)} (h : ∀ ws ∈ wss, ∀ w ∈ ws, b.grant r w = .ok () ∧ b.errOf w = [])
    (now : Stamp) (addr : Nat) : Bank.readCycles r now addr wss b = (b, .ok (wss.flatten.flatMap b.word)) := by
  induction wss with
  | nil => rfl
  | cons ws wss ih =>
    simp only [Bank.readCycles, Bank.readCycle_clear (h ws (List.mem_cons_self ..)), ih (fun v hv => h v (List.mem_cons_of_mem _ hv)),
      List.flatten_cons, List.flatMap_append]

theorem chunks_flatten {α : Type} (n k : Nat) (l : List α) (h : l.length ≤ n * k) : (chunks n k l).flatten = l := by
  induction k generalizing l with
  | zero => simpa [chunks] using h
  | succ k ih =>
    rw [chunks, List.flatten_cons, ih (l.drop n) (by rw [List.length_drop]; rw [Nat.mul_succ] at h; omega), List.take_append_drop]

theorem mem_of_mem_chunks {α : Type} {n k : Nat} {l c : List α} {x : α} (hc : c ∈ chunks n k l) (hx : x ∈ c) : x ∈ l := by
  induction k generalizing l with
  | zero => cases hc
  | succ k ih =>
    rcases List.mem_cons.1 hc with rfl | hc
    · exact List.mem_of_mem_take hx
    · exact List.mem_of_mem_drop (ih hc)

theorem Bank.readWords_clear {b : Bank} {r : Req} {ws : List Nat} (h : ∀ w ∈ ws, b.grant r w = .ok () ∧ b.errOf w = []) (now : Stamp) (addr : Nat) :
    Bank.readWords r now addr ws b = (b, .ok (ws.flatMap b.word)) := by
  have hpos : 0 < r.perCycle := by cases r <;> decide
  have hlen : ws.length ≤ r.perCycle * ((ws.length + r.perCycle - 1) / r.perCycle) := by
    have := Nat.div_add_mod (ws.length + r.perCycle - 1) r.perCycle
    have := Nat.mod_lt (ws.length + r.perCycle - 1) hpos
    omega
  rw [Bank.readWords, Bank.readCycles_clear (fun c hc w hw => h w (mem_of_mem_chunks hc hw)), chunks_flatten _ _ _ hlen]

/-- The words of consecutive addresses are one range of bytes. -/
theorem Bank.flatMap_word (b : Bank) (w m : Nat) : ((List.range m).map (· + w)).flatMap b.word = Tab.getRange 0 b.data (64 * w) (64 * m) := by
  induction m with
  | zero => rfl
  | succ m ih =>
    rw [List.range_succ, List.map_append, List.flatMap_append, ih, Nat.mul_succ, Tab.getRange_add, show 64 * w + 64 * m = 64 * (m + w) by omega]
    simp [Bank.word]

/-- A read delivers the bytes of its range. -/
theorem Bank.read_clear {b : Bank} {r : Req} {a n : Nat} (h : b.clear r a n = true) (now : Stamp) : b.read r now a n = (b, .ok (Tab.getRange 0 b.data a n)) := by
  have hall := Bank.clear_iff.1 h
  have hadmit : Bank.admitAll r ((wordsOf a n).map (fun w => (max a (64 * w), w))) b = (b, .ok ()) := by
    refine Bank.admitAll_ok (fun p hp => ?_)
    obtain ⟨w, hw, rfl⟩ := List.mem_map.1 hp
    exact (hall w hw).1
  have hbytes : (((wordsOf a n).flatMap b.word).drop (a % 64)).take n = Tab.getRange 0 b.data a n := by
    unfold wordsOf
    split
    · next h0 => simp [h0, Tab.getRange]
    · next h0 =>
      rw [Bank.flatMap_word, Tab.drop_getRange _ _ _ _ _ (by omega), Tab.take_getRange _ _ _ _ _ (by omega), Nat.div_add_mod]
  simp only [Bank.read, hadmit, Bank.readWords_clear hall, hbytes]

theorem Core.readBytes_clear {c : Core} {r : Req} {a n : Nat} (h : c.bank.clear r a n = true) (now : Stamp) :
    c.readBytes r now a n = (c, .ok (Tab.getRange 0 c.bank.data a n)) := by
  simp only [Core.readBytes, Bank.read_clear h now]

/-! ### Writes -/

/-- The byte that a write of lanes from `a` on leaves at address x, if it writes there. -/
def laneAt (a : Nat) (lanes : List (Option Byte)) (x : Nat) : Option Byte := if a ≤ x then (lanes[x - a]?).join else none

/-- The lanes of the word w in such a write. -/
def wordLanes (a : Nat) (lanes : List (Option Byte)) (w : Nat) : List (Option Byte) := (List.range 64).map (fun j => laneAt a lanes (64 * w + j))

/-- The bytes of the word w once the lanes have been merged over it. -/
def Bank.merged (b : Bank) (a : Nat) (lanes : List (Option Byte)) (w : Nat) : List Byte :=
  (List.range 64).map (fun j => (laneAt a lanes (64 * w + j)).getD (Tab.get 0 b.data (64 * w + j)))

/-- The words that a write of lanes touches, in address order. -/
def touched (a : Nat) (lanes : List (Option Byte)) : List Nat := (wordsOf a lanes.length).filter (fun w => (wordLanes a lanes w).any Option.isSome)

theorem laneAt_outside {a : Nat} {lanes : List (Option Byte)} {x : Nat} (h : x < a ∨ a + lanes.length ≤ x) : laneAt a lanes x = none := by
  unfold laneAt
  split
  · rw [List.getElem?_eq_none (by omega)]
    rfl
  · rfl

theorem laneAt_map_some (a : Nat) (bs : List Byte) (x : Nat) : laneAt a (bs.map some) x = if a ≤ x then bs[x - a]? else none := by
  unfold laneAt
  split
  · rw [List.getElem?_map]
    cases bs[x - a]? <;> rfl
  · rfl

theorem mem_touched {a : Nat} {lanes : List (Option Byte)} {w : Nat} :
    w ∈ touched a lanes ↔ w ∈ wordsOf a lanes.length ∧ ∃ x, x / 64 = w ∧ (laneAt a lanes x).isSome = true := by
  simp only [touched, List.mem_filter, List.any_eq_true, wordLanes, List.mem_map, List.mem_range]
  refine and_congr_right (fun _ => ⟨?_, ?_⟩)
  · rintro ⟨_, ⟨j, hj, rfl⟩, hs⟩
    exact ⟨64 * w + j, by omega, hs⟩
  · rintro ⟨x, rfl, hs⟩
    exact ⟨_, ⟨x % 64, Nat.mod_lt _ (by decide), rfl⟩, by rwa [Nat.div_add_mod]⟩

theorem touched_nodup (a : Nat) (lanes : List (Option Byte)) : (touched a lanes).Nodup := (wordsOf_nodup a _).filter _

/-- The word of every byte that is written is touched. -/
theorem div_mem_touched {a : Nat} {lanes : List (Option Byte)} {x : Nat} (h : (laneAt a lanes x).isSome = true) : x / 64 ∈ touched a lanes := by
  refine mem_touched.2 ⟨?_, x, rfl, h⟩
  by_cases hout : x < a ∨ a + lanes.length ≤ x
  · rw [laneAt_outside hout] at h
    cases h
  · exact div_mem_wordsOf (by omega) (by omega)

theorem cutWords_eq (n w : Nat) (l : List (Option Byte)) : cutWords n w l = (List.range n).map (fun i => (i + w, (l.drop (64 * i)).take 64)) := by
  induction n generalizing w l with
  | zero => rfl
  | succ n ih =>
    rw [cutWords, ih, List.range_succ_eq_map, List.map_cons, List.map_map]
    congr 1
    · simp
    · refine List.map_congr_left (fun i _ => ?_)
      simp only [Function.comp, List.drop_drop, Prod.mk.injEq]
      exact ⟨by omega, by congr 2; omega⟩

/-- A write of lanes is cut into the words of its range, each with its own lanes (R121). -/
theorem wordWrites_eq (a : Nat) (lanes : List (Option Byte)) :
    wordWrites a lanes = (wordsOf a lanes.length).map (fun w => (w, wordLanes a lanes w)) := by
  by_cases h0 : lanes.length = 0
  · simp [wordWrites, wordsOf, h0, cutWords]
  have hwords : wordsOf a lanes.length = (List.range ((a + lanes.length - 1) / 64 - a / 64 + 1)).map (· + a / 64) := if_neg h0
  simp only [wordWrites, hwords, List.length_map, List.length_range, cutWords_eq, List.map_map]
  refine List.map_congr_left (fun i hi => ?_)
  have hi := List.mem_range.1 hi
  simp only [Function.comp, Prod.mk.injEq, true_and]
  refine List.ext_getElem ?_ (fun j h1 h2 => ?_)
  · simp only [wordLanes, List.length_take, List.length_drop, List.length_append, List.length_replicate, List.length_map, List.length_range]
    omega
  · have hj : j < 64 := by simpa [wordLanes] using h2
    rw [List.getElem_take, List.getElem_drop]
    simp only [wordLanes, List.getElem_map, List.getElem_range, laneAt]
    split
    · next hge =>
      by_cases hin : 64 * (i + a / 64) + j - a < lanes.length
      · rw [List.getElem_append_left (by simp; omega), List.getElem_append_right (by simp; omega), List.getElem?_eq_getElem hin]
        simp only [List.length_replicate, Option.join_some]
        congr 1
        omega
      · rw [List.getElem_append_right (by simp; omega), List.getElem?_eq_none (by omega)]
        simp
    · next hlt =>
      rw [List.getElem_append_left (by simp; omega), List.getElem_append_left (by simp; omega)]
      simp

theorem mergeLanes_wordLanes (b : Bank) (a : Nat) (lanes : List (Option Byte)) (w : Nat) :
    mergeLanes (wordLanes a lanes w) (b.word w) = b.merged a lanes w := by
  have hmerge : ∀ (l : List Nat) (g : Nat → Option Byte) (h : Nat → Byte), mergeLanes (l.map g) (l.map h) = l.map (fun j => (g j).getD (h j)) := by
    intro l g h
    induction l with
    | nil => rfl
    | cons j l ih => cases hg : g j <;> simp [mergeLanes, hg, ih]
  exact hmerge (List.range 64) (fun j => laneAt a lanes (64 * w + j)) (fun j => Tab.get 0 b.data (64 * w + j))

/-- A whole word needs no merge. -/
theorem map_getD_wordLanes (b : Bank) {a : Nat} {lanes : List (Option Byte)} {w : Nat} (h : (wordLanes a lanes w).all Option.isSome = true) :
    (wordLanes a lanes w).map (·.getD 0) = b.merged a lanes w := by
  rw [wordLanes, Bank.merged, List.map_map]
  refine List.map_congr_left (fun j hj => ?_)
  have hsome : (laneAt a lanes (64 * w + j)).isSome = true := List.all_eq_true.1 h _ (List.mem_map.2 ⟨j, hj, rfl⟩)
  obtain ⟨v, hv⟩ := Option.isSome_iff_exists.1 hsome
  simp [hv]

/-- Words that are admitted and free of error are prepared with the lanes merged over their bytes (R121). -/
theorem Bank.prepare_clear {b : Bank} {r : Req} {a : Nat} {lanes : List (Option Byte)} {ws : List Nat}
    (ht : ∀ w ∈ ws, (wordLanes a lanes w).any Option.isSome = true) (h : ∀ w ∈ ws, b.grant r w = .ok () ∧ b.errOf w = []) (now : Stamp) :
    Bank.prepare r now (ws.map (fun w => (w, wordLanes a lanes w))) b = (b, .ok (ws.map (fun w => (w, b.merged a lanes w)))) := by
  induction ws with
  | nil => rfl
  | cons w ws ih =>
    obtain ⟨hg, he⟩ := h w (List.mem_cons_self ..)
    have hnot : (wordLanes a lanes w).all Option.isNone = false := by
      obtain ⟨x, hx, hs⟩ := List.any_eq_true.1 (ht w (List.mem_cons_self ..))
      refine List.all_eq_false.2 ⟨x, hx, ?_⟩
      cases x <;> simp_all
    have ih := ih (fun v hv => ht v (List.mem_cons_of_mem _ hv)) (fun v hv => h v (List.mem_cons_of_mem _ hv))
    simp only [List.map_cons, Bank.prepare, hnot, Bool.false_eq_true, if_false]
    by_cases hwhole : (wordLanes a lanes w).all Option.isSome = true
    · simp only [hwhole, if_true, hg, ih, map_getD_wordLanes b hwhole]
    · simp only [hwhole, Bool.false_eq_true, if_false, Bank.readWord_clear hg he, ih, mergeLanes_wordLanes]

/-- The core once whole words have been stored (R121, R304). -/
theorem Core.foldl_storeWord (ps : List (Nat × List Byte)) (c : Core) : ps.foldl Core.storeWord c =
    { c with
      bank := { c.bank with
        data := ps.foldl (fun t p => Tab.setRange 0 t (64 * p.1) p.2) c.bank.data
        err := c.bank.err.filter (fun e => !(ps.map Prod.fst).contains (e.1 / 68))
        writeBack := (ps.map Prod.fst).foldl List.erase c.bank.writeBack }
      digest := ps.foldl (fun g p => g + crc64 (bytesLE p.1 8 ++ p.2)) c.digest } := by
  induction ps generalizing c with
  | nil => simp
  | cons p ps ih =>
    rw [List.foldl_cons, ih]
    simp only [Core.storeWord, Bank.store, List.foldl_cons, List.map_cons, List.filter_filter, Core.mk.injEq, Bank.mk.injEq, true_and, and_true]
    refine List.filter_congr (fun e _ => ?_)
    by_cases he : e.1 / 68 = p.1 <;> simp [he]

/-- What is read after distinct words have been stored. -/
theorem Tab.get_foldl_setRange (g : Nat → List Byte) (hg : ∀ w, (g w).length = 64) (ws : List Nat) (t : Tab Byte) (x : Nat) (hd : ws.Nodup) :
    Tab.get 0 (ws.foldl (fun t w => Tab.setRange 0 t (64 * w) (g w)) t) x =
      if x / 64 ∈ ws then (g (x / 64)).getD (x % 64) 0 else Tab.get 0 t x := by
  induction ws generalizing t with
  | nil => simp
  | cons w ws ih =>
    obtain ⟨hw, hd⟩ := List.nodup_cons.1 hd
    rw [List.foldl_cons, ih _ hd]
    by_cases hx : x / 64 ∈ ws
    · rw [if_pos hx, if_pos (List.mem_cons_of_mem _ hx)]
    · rw [if_neg hx]
      by_cases hxw : x / 64 = w
      · have hlt : x % 64 < (g w).length := by rw [hg]; exact Nat.mod_lt _ (by decide)
        rw [if_pos (hxw ▸ List.mem_cons_self ..), hxw, List.getD_eq_getElem _ _ hlt, ← Tab.get_setRange_at 0 (g w) (64 * w) (x % 64) hlt t, ← hxw,
          Nat.div_add_mod]
      · have hnot : x / 64 ∉ w :: ws := fun h => (List.mem_cons.1 h).elim hxw hx
        rw [if_neg hnot, Tab.get_setRange_other 0 (g w) (64 * w) x (by rw [hg]; omega)]

/-- The core once the lanes have been written at `a`: the data as they read then, no error and no write-back in a word that was
touched, and the tick digest with those words (R118, R121, R304). -/
structure Core.Wrote (c : Core) (a : Nat) (lanes : List (Option Byte)) (d : Core) : Prop where
  get : ∀ x, Tab.get 0 d.bank.data x = (laneAt a lanes x).getD (Tab.get 0 c.bank.data x)
  err : d.bank.err = c.bank.err.filter (fun e => !(touched a lanes).contains (e.1 / 68))
  writeBack : d.bank.writeBack = (touched a lanes).foldl List.erase c.bank.writeBack
  digest : d.digest = (touched a lanes).foldl (fun g w => g + crc64 (bytesLE w 8 ++ Tab.getRange 0 d.bank.data (64 * w) 64)) c.digest
  frame : d = { c with bank := { c.bank with data := d.bank.data, err := d.bank.err, writeBack := d.bank.writeBack }, digest := d.digest }

theorem foldl_congr_mem {α β : Type} {f g : β → α → β} {l : List α} (h : ∀ b, ∀ x ∈ l, f b x = g b x) (b : β) : l.foldl f b = l.foldl g b := by
  induction l generalizing b with
  | nil => rfl
  | cons x l ih => rw [List.foldl_cons, List.foldl_cons, h b x (List.mem_cons_self ..), ih (fun b y hy => h b y (List.mem_cons_of_mem _ hy))]

/-- A write of lanes whose touched words are admitted and free of error is carried out (R121). -/
theorem Core.writeLanes_clear {c : Core} {r : Req} {a : Nat} {lanes : List (Option Byte)}
    (h : ∀ w ∈ touched a lanes, c.bank.grant r w = .ok () ∧ c.bank.errOf w = []) (now : Stamp) :
    ∃ d, c.writeLanes r now a lanes = (d, .ok ()) ∧ c.Wrote a lanes d := by
  have hwr : (wordWrites a lanes).filter (fun p => p.2.any Option.isSome) = (touched a lanes).map (fun w => (w, wordLanes a lanes w)) := by
    rw [wordWrites_eq, List.filter_map]
    rfl
  have hadmit : Bank.admitAll r (((touched a lanes).map (fun w => (w, wordLanes a lanes w))).map
      (fun p => (64 * p.1 + p.2.findIdx Option.isSome, p.1))) c.bank = (c.bank, .ok ()) := by
    refine Bank.admitAll_ok (fun p hp => ?_)
    obtain ⟨q, hq, rfl⟩ := List.mem_map.1 hp
    obtain ⟨w, hw, rfl⟩ := List.mem_map.1 hq
    exact (h w hw).1
  have hprep := Bank.prepare_clear (ws := touched a lanes) (fun w hw => (List.mem_filter.1 hw).2) h now
  refine ⟨((touched a lanes).map (fun w => (w, c.bank.merged a lanes w))).foldl Core.storeWord c, ?_, ?_⟩
  · simp only [Core.writeLanes, hwr, hadmit, hprep]
  have hfst : ((touched a lanes).map (fun w => (w, c.bank.merged a lanes w))).map Prod.fst = touched a lanes := by
    rw [List.map_map]
    exact List.map_id _
  have hget : ∀ x, Tab.get 0 ((touched a lanes).foldl (fun t w => Tab.setRange 0 t (64 * w) (c.bank.merged a lanes w)) c.bank.data) x =
      (laneAt a lanes x).getD (Tab.get 0 c.bank.data x) := by
    intro x
    rw [Tab.get_foldl_setRange _ (fun w => by simp [Bank.merged]) _ _ _ (touched_nodup a lanes)]
    split
    · have hlt : x % 64 < 64 := Nat.mod_lt _ (by decide)
      simp [Bank.merged, List.getD_eq_getElem?_getD, hlt, Nat.div_add_mod]
    · next hx =>
      have hnone : laneAt a lanes x = none := Option.not_isSome_iff_eq_none.1 (fun hs => hx (div_mem_touched hs))
      rw [hnone, Option.getD_none]
  rw [Core.foldl_storeWord, hfst, List.foldl_map, List.foldl_map]
  refine ⟨hget, rfl, rfl, foldl_congr_mem (fun g w _ => ?_) c.digest, rfl⟩
  congr 3
  exact List.map_congr_left (fun j _ => (hget (64 * w + j)).symm)

end Sys2Proof.Machine
end

section
/-! LD, ST, VLD and VST, and the adapter side-path (R86, R94, R101 to R104, R121, R304). -/

namespace Sys2Proof.Machine

open Sys2Proof

/-! ### Whole bytes -/

theorem touched_map_some (a : Nat) (bs : List Byte) : touched a (bs.map some) = wordsOf a bs.length := by
  have hlen : (bs.map some).length = bs.length := List.length_map ..
  rw [touched, hlen, List.filter_eq_self]
  intro w hw
  obtain ⟨hpos, h1, h2⟩ := mem_wordsOf.1 hw
  have hx : (laneAt a (bs.map some) (max a (64 * w))).isSome = true := by
    rw [laneAt_map_some, if_pos (le_max_left ..), List.getElem?_eq_getElem (by omega)]
    rfl
  exact List.any_eq_true.2 ⟨_, List.mem_map.2 ⟨max a (64 * w) - 64 * w, by simp; omega, rfl⟩, by rwa [Nat.add_sub_cancel' (le_max_right ..)]⟩

theorem Core.writeBytes_clear {c : Core} {r : Req} {a : Nat} {bs : List Byte} (h : c.bank.clear r a bs.length = true) (now : Stamp) :
    ∃ d, c.writeBytes r now a bs = (d, .ok ()) ∧ c.Wrote a (bs.map some) d :=
  Core.writeLanes_clear (fun w hw => Bank.clear_iff.1 h w (by rwa [touched_map_some] at hw)) now

namespace Core.Wrote

variable {c d : Core} {a : Nat} {bs : List Byte}

theorem get_outside {lanes : List (Option Byte)} (h : c.Wrote a lanes d) {x : Nat} (hx : laneAt a lanes x = none) :
    Tab.get 0 d.bank.data x = Tab.get 0 c.bank.data x := by
  rw [h.get, hx, Option.getD_none]

theorem get_other (h : c.Wrote a (bs.map some) d) {x : Nat} (hx : x < a ∨ a + bs.length ≤ x) : Tab.get 0 d.bank.data x = Tab.get 0 c.bank.data x :=
  h.get_outside (laneAt_outside (by rwa [List.length_map]))

/-- What has been written is what is read (R121). -/
theorem getRange_same (h : c.Wrote a (bs.map some) d) : Tab.getRange 0 d.bank.data a bs.length = bs := by
  refine List.ext_getElem (Tab.length_getRange ..) (fun i h1 h2 => ?_)
  rw [Tab.getElem_getRange, h.get, laneAt_map_some, if_pos (Nat.le_add_right ..), Nat.add_sub_cancel_left, List.getElem?_eq_getElem h2, Option.getD_some]

end Core.Wrote

/-! ### LD and ST -/

theorem ldBody_clear {now : Stamp} {w : W64} {f : ScalarF} {c : Core} (hr : f.rsv = 0) (hf : c.freeS [f.sa] [f.sd] = true) (ha : ldAddr c f % 8 = 0)
    (hx : ldAddr c f + 7 ≤ 0x7FFFFF) (hc : c.bank.clear .scalar (ldAddr c f) 8 = true) :
    ldBody now w f c = (c.setS f.sd (BitVec.ofNat 64 (natLE (Tab.getRange 0 c.bank.data (ldAddr c f) 8))), .ok {}) := by
  rw [ldBody, scalarBody_run hr rfl hf]
  simp only [ldFault_none ha hx, Core.readBytes_clear hc]

theorem stBody_clear {now : Stamp} {w : W64} {f : ScalarF} {c d : Core} (hr : f.rsv = 0) (hf : c.freeS [f.sa, f.sb] [] = true) (ha : ldAddr c f % 8 = 0)
    (hx : ldAddr c f + 7 ≤ 0x7FFFFF) (hw : c.writeBytes .scalar now (ldAddr c f) (bytesLE (c.S f.sb).toNat 8) = (d, .ok ())) :
    stBody now w f c = (d, .ok {}) := by
  rw [stBody, scalarBody_run hr rfl hf]
  simp only [ldFault_none ha hx, hw]

/-- A write of bytes within one word. -/
theorem Core.Wrote.within {c d : Core} {a : Nat} {bs : List Byte} (h : c.Wrote a (bs.map some) d) (hn : 0 < bs.length) (hin : a % 64 + bs.length ≤ 64) :
    d.digest = c.digest + crc64 (bytesLE (a / 64) 8 ++ Tab.getRange 0 d.bank.data (64 * (a / 64)) 64) ∧
    d = { c with bank := { c.bank with data := d.bank.data, err := c.bank.err.filter (fun p => p.1 / 68 ≠ a / 64), writeBack := c.bank.writeBack.erase (a / 64) }, digest := d.digest } := by
  have ht : touched a (bs.map some) = [a / 64] := (touched_map_some a bs).trans (wordsOf_within hn hin)
  have herr : d.bank.err = c.bank.err.filter (fun p => p.1 / 68 ≠ a / 64) := by
    rw [h.err, ht]
    exact List.filter_congr (fun e _ => by simp)
  have hwb : d.bank.writeBack = c.bank.writeBack.erase (a / 64) := by rw [h.writeBack, ht]; rfl
  refine ⟨by rw [h.digest, ht]; rfl, ?_⟩
  rw [← herr, ← hwb]
  exact h.frame

/-! ### VLD and VST -/

theorem vAddrFault_none {a : Nat} (h : a % 64 = 0) (hx : a + 255 ≤ 0x7FFFFF) : vAddrFault a = none := by
  simp [vAddrFault, firstFault, h, Nat.not_lt.2 hx]

/-- The sixteen lanes of a word of a vector access, as its mask enables them (R86, R94). -/
def wordOn (m : W64) (i : Nat) : Bool := decide (m.toNat / 2 ^ (16 * i) % 65536 ≠ 0)

theorem wordOn_iff (m : W64) (i : Nat) : wordOn m i = true ↔ ∃ l, l / 16 = i ∧ m.getLsbD l = true := by
  have hbit : ∀ j, (m.toNat / 2 ^ (16 * i) % 2 ^ 16).testBit j = (decide (j < 16) && m.getLsbD (16 * i + j)) := by
    intro j
    rw [Nat.testBit_mod_two_pow, Nat.testBit_div_two_pow, Nat.add_comm]
    rfl
  simp only [wordOn, decide_eq_true_eq]
  constructor
  · intro h
    obtain ⟨j, hj⟩ := Nat.exists_testBit_of_ne_zero h
    rw [show (65536 : Nat) = 2 ^ 16 from rfl, hbit, Bool.and_eq_true, decide_eq_true_eq] at hj
    exact ⟨16 * i + j, by omega, hj.2⟩
  · rintro ⟨l, rfl, hl⟩ h0
    have hfalse := hbit (l % 16)
    rw [show (2 : Nat) ^ 16 = 65536 from rfl, h0, Nat.zero_testBit, Nat.div_add_mod, hl, decide_eq_true (Nat.mod_lt _ (by decide))] at hfalse
    cases hfalse

/-- An element of pieces of `n` elements each. -/
theorem getElem?_flatMap_range {α : Type} (g : Nat → List α) (n m j : Nat) (hg : ∀ i, (g i).length = n) (hj : j < n * m) :
    ((List.range m).flatMap g)[j]? = (g (j / n))[j % n]? := by
  have hlen : ∀ m, ((List.range m).flatMap g).length = n * m := by
    intro m
    simp [List.length_flatMap, hg, Nat.mul_comm]
  induction m with
  | zero => simp at hj
  | succ m ih =>
    rw [List.range_succ, List.flatMap_append, List.flatMap_singleton]
    by_cases hlt : j < n * m
    · rw [List.getElem?_append_left (by rwa [hlen]), ih hlt]
    · have hn : 0 < n := by
        rcases Nat.eq_zero_or_pos n with rfl | h
        · simp at hj
        · exact h
      rw [Nat.mul_succ] at hj
      have hdiv : j / n = m := by
        rw [Nat.div_eq_iff hn]
        constructor
        · rw [Nat.mul_comm]; omega
        · rw [Nat.mul_comm]; omega
      rw [List.getElem?_append_right (by rw [hlen]; omega), hlen, ← hdiv]
      congr 1
      have := Nat.div_add_mod j n
      omega

section Vld

variable {now : Stamp} {m : W64} {a : Nat} {b : Bank}

theorem vldWords_clear {is : List Nat} (h : ∀ i ∈ is, wordOn m i = true → b.grant .vector (a / 64 + i) = .ok () ∧ b.errOf (a / 64 + i) = []) :
    vldWords now m a is b = (b, .ok (is.flatMap (fun i => if wordOn m i then b.word (a / 64 + i) else List.replicate 64 0))) := by
  induction is with
  | nil => rfl
  | cons i is ih =>
    have ih := ih (fun j hj => h j (List.mem_cons_of_mem _ hj))
    by_cases hon : wordOn m i = true
    · obtain ⟨hg, he⟩ := h i (List.mem_cons_self ..) hon
      have hne : ¬m.toNat / 2 ^ (16 * i) % 65536 = 0 := of_decide_eq_true hon
      simp only [vldWords, if_neg hne, Bank.readWord_clear hg he, ih, List.flatMap_cons, hon, if_true]
    · have heq : m.toNat / 2 ^ (16 * i) % 65536 = 0 := by simpa [wordOn] using hon
      simp only [vldWords, if_pos heq, ih, List.flatMap_cons, hon, Bool.false_eq_true, if_false]

/-- An enabled lane of VLD takes its four bytes of the banks (R94). -/
theorem vld_lane (hal : a % 64 = 0) {l : Fin 64} (hl : m.getLsbD l.val = true) :
    (vregOf ((List.range 4).flatMap (fun i => if wordOn m i then b.word (a / 64 + i) else List.replicate 64 0)))[l] =
      BitVec.ofNat 32 (natLE (Tab.getRange 0 b.data (a + 4 * l.val) 4)) := by
  have hlen : ∀ i, (if wordOn m i then b.word (a / 64 + i) else List.replicate 64 0).length = 64 := by
    intro i
    split <;> simp [Bank.word, Tab.getRange]
  have hon : wordOn m (4 * l.val / 64) = true := (wordOn_iff m _).2 ⟨l.val, by omega, hl⟩
  have hbytes : (((List.range 4).flatMap (fun i => if wordOn m i then b.word (a / 64 + i) else List.replicate 64 0)).drop (4 * l.val)).take 4 =
      Tab.getRange 0 b.data (a + 4 * l.val) 4 := by
    refine List.ext_getElem? (fun j => ?_)
    by_cases hj : j < 4
    · have hdiv : (4 * l.val + j) / 64 = 4 * l.val / 64 := by omega
      have hin : (4 * l.val + j) % 64 < (b.word (a / 64 + 4 * l.val / 64)).length := by
        rw [Bank.word, Tab.length_getRange]
        omega
      rw [List.getElem?_take, if_pos hj, List.getElem?_drop, getElem?_flatMap_range _ 64 4 _ hlen (by omega), hdiv, if_pos hon,
        List.getElem?_eq_getElem hin, List.getElem?_eq_getElem (by rwa [Tab.length_getRange]), Tab.getElem_getRange]
      simp only [Bank.word, Tab.getElem_getRange]
      congr 2
      omega
    · rw [List.getElem?_eq_none (by rw [List.length_take]; omega), List.getElem?_eq_none (by rw [Tab.length_getRange]; omega)]
  simp only [vregOf, Fin.getElem_fin, Vector.getElem_ofFn, hbytes]

end Vld

/-- A masked write takes the enabled lanes of its result alone (R86). -/
theorem Core.putV_congr {c : Core} {f : VecF} {v w : VReg} (h : ∀ l : Fin 64, (c.M f.mask).getLsbD l.val = true → v[l] = w[l]) : c.putV f v = c.putV f w := by
  have hmask : maskWrite (c.V f.vd) v (c.M f.mask) (f.zm == 1) = maskWrite (c.V f.vd) w (c.M f.mask) (f.zm == 1) := by
    refine Vector.ext (fun i hi => ?_)
    have hlane := h ⟨i, hi⟩
    simp only [maskWrite, Vector.getElem_ofFn, Fin.getElem_fin] at hlane ⊢
    split
    · next hon => exact hlane hon
    · rfl
  rw [Core.putV, Core.putV, hmask]

/-- VLD where every word with an enabled lane is admitted and free of error (R86, R94). -/
theorem vldOp_clear {now : Stamp} {f : VecF} {c : Core} (hal : vAddr c f % 64 = 0) (hx : vAddr c f + 255 ≤ 0x7FFFFF)
    (h : ∀ i < 4, wordOn (c.M f.mask) i = true → c.bank.grant .vector (vAddr c f / 64 + i) = .ok () ∧ c.bank.errOf (vAddr c f / 64 + i) = []) :
    (vldOp now f).run c = (c.putV f (Vector.ofFn (fun i => BitVec.ofNat 32 (natLE (Tab.getRange 0 c.bank.data (vAddr c f + 4 * i.val) 4)))), .ok {}) := by
  have hadmit : Bank.admitAll .vector (((List.range 4).filter (fun i => (c.M f.mask).toNat / 2 ^ (16 * i) % 65536 ≠ 0)).map
      (fun i => (vAddr c f + 64 * i, vAddr c f / 64 + i))) c.bank = (c.bank, .ok ()) := by
    refine Bank.admitAll_ok (fun p hp => ?_)
    obtain ⟨i, hi, rfl⟩ := List.mem_map.1 hp
    obtain ⟨hi, hon⟩ := List.mem_filter.1 hi
    exact (h i (List.mem_range.1 hi) hon).1
  have hread := vldWords_clear (now := now) (is := List.range 4) (fun i hi => h i (List.mem_range.1 hi))
  simp only [vldOp, vAddrFault_none hal hx, hadmit, hread]
  refine congrArg (fun d : Core => (d, (Out.ok {} : Out Eff))) (Core.putV_congr (fun l hl => ?_))
  rw [vld_lane hal hl]
  simp

section Vst

variable {v : VReg} {m : W64} {a : Nat}

theorem storeLanes_eq (v : VReg) (m : W64) : storeLanes v m =
    (List.range 64).flatMap (fun i => (bytesLE (v.toList.getD i 0).toNat 4).map (fun b => if m.getLsbD i then some b else none)) := by
  rw [storeLanes, List.flatMap_def]
  congr 1
  refine List.ext_getElem (by simp) (fun i h1 h2 => ?_)
  have hi : i < 64 := by simpa using h2
  simp [List.getD_eq_getElem?_getD, hi]

theorem length_storeLanes (v : VReg) (m : W64) : (storeLanes v m).length = 256 := by
  simp [storeLanes_eq, List.length_flatMap, length_bytesLE]

/-- What a masked store writes at byte `j` of its 256 (R86, R94). -/
theorem laneAt_storeLanes {j : Nat} (hj : j < 256) : laneAt a (storeLanes v m) (a + j) =
    if m.getLsbD (j / 4) then some (BitVec.ofNat 8 ((v.toList.getD (j / 4) 0).toNat / 256 ^ (j % 4))) else none := by
  have hlt : j % 4 < 4 := Nat.mod_lt _ (by decide)
  rw [laneAt, if_pos (Nat.le_add_right ..), Nat.add_sub_cancel_left, storeLanes_eq,
    getElem?_flatMap_range _ 4 64 j (fun i => by rw [List.length_map, length_bytesLE]) hj]
  split <;> simp [bytesLE, hlt]

theorem laneAt_storeLanes_isSome (x : Nat) : (laneAt a (storeLanes v m) x).isSome = true ↔ a ≤ x ∧ x < a + 256 ∧ m.getLsbD ((x - a) / 4) = true := by
  by_cases hin : a ≤ x ∧ x < a + 256
  · obtain ⟨j, rfl⟩ := Nat.exists_eq_add_of_le hin.1
    rw [laneAt_storeLanes (by omega), Nat.add_sub_cancel_left]
    cases hm : m.getLsbD (j / 4) <;> simp
    omega
  · rw [laneAt_outside (by rw [length_storeLanes]; omega)]
    simp only [Option.isSome_none, Bool.false_eq_true, false_iff]
    tauto

/-- The words that a masked store touches are those with an enabled lane (R86). -/
theorem touched_storeLanes (hal : a % 64 = 0) : touched a (storeLanes v m) = ((List.range 4).filter (wordOn m)).map (fun i => a / 64 + i) := by
  have hwords : wordsOf a 256 = (List.range 4).map (fun i => a / 64 + i) := by
    have hfour : (a + 256 - 1) / 64 - a / 64 + 1 = 4 := by omega
    rw [wordsOf, if_neg (by decide), hfour]
    exact List.map_congr_left (fun i _ => Nat.add_comm _ _)
  have hon : ∀ i ∈ List.range 4, (wordLanes a (storeLanes v m) (a / 64 + i)).any Option.isSome = wordOn m i := by
    intro i hi
    have hi := List.mem_range.1 hi
    rw [Bool.eq_iff_iff, wordOn_iff]
    have hmem : a / 64 + i ∈ touched a (storeLanes v m) ↔ (wordLanes a (storeLanes v m) (a / 64 + i)).any Option.isSome = true := by
      rw [touched, List.mem_filter, length_storeLanes, hwords]
      exact and_iff_right (List.mem_map.2 ⟨i, List.mem_range.2 hi, rfl⟩)
    rw [← hmem, mem_touched, length_storeLanes, hwords]
    constructor
    · rintro ⟨-, x, hx, hs⟩
      obtain ⟨h1, h2, h3⟩ := (laneAt_storeLanes_isSome x).1 hs
      exact ⟨(x - a) / 4, by omega, h3⟩
    · rintro ⟨l, hl, hs⟩
      refine ⟨List.mem_map.2 ⟨i, List.mem_range.2 hi, rfl⟩, a + 4 * l, by omega, (laneAt_storeLanes_isSome _).2 ⟨by omega, by omega, ?_⟩⟩
      rwa [Nat.add_sub_cancel_left, Nat.mul_div_cancel_left _ (by decide)]
  rw [touched, length_storeLanes, hwords, List.filter_map]
  exact congrArg _ (List.filter_congr hon)

/-- The bytes of an enabled lane, read back after a masked store. -/
theorem Core.Wrote.lane {c d : Core} (h : c.Wrote a (storeLanes v m) d) (l : Fin 64) (hl : m.getLsbD l.val = true) :
    natLE (Tab.getRange 0 d.bank.data (a + 4 * l.val) 4) = v[l].toNat := by
  have hbytes : Tab.getRange 0 d.bank.data (a + 4 * l.val) 4 = bytesLE v[l].toNat 4 := by
    refine List.map_congr_left (fun j hj => ?_)
    have hj := List.mem_range.1 hj
    have hdiv : (4 * l.val + j) / 4 = l.val := by omega
    have hmod : (4 * l.val + j) % 4 = j := by omega
    rw [h.get, Nat.add_assoc, laneAt_storeLanes (by omega), hdiv, hmod, if_pos hl, getD_toList_fin]
    rfl
  have hlt : v[l].toNat < 2 ^ 32 := v[l].isLt
  rw [hbytes, natLE_bytesLE]
  omega

end Vst

theorem vstOp_run {now : Stamp} {f : VecF} {c d : Core} (hal : vAddr c f % 64 = 0) (hx : vAddr c f + 255 ≤ 0x7FFFFF)
    (hw : c.writeLanes .vector now (vAddr c f) (storeLanes (c.V f.va) (c.M f.mask)) = (d, .ok ())) : (vstOp now f).run c = (d, .ok {}) := by
  simp only [vstOp, vAddrFault_none hal hx, hw]

/-! ### The adapter side-path (R101 to R104) -/

theorem Core.readAdapter_clear {c : Core} {a n : Nat} (hx : n = 0 ∨ a + n ≤ 0x800000) (h : c.bank.clear .adapter a n = true) (now : Stamp) :
    c.readAdapter now a n = (c, .ok (Tab.getRange 0 c.bank.data a n)) := by
  unfold Core.readAdapter
  split
  · next h0 => rw [h0]; rfl
  · rw [if_neg (by omega), Core.readBytes_clear h]

/-- A valid descriptor under a row's tag is what the side-path reads (R102). -/
theorem Core.descriptor_clear {c : Core} {fmt img : Nat} (ht : recTag fmt img < c.adpLen) (hx : c.adpBase + 16 * recTag fmt img + 16 ≤ 0x800000)
    (h : c.bank.clear .adapter (c.adpBase + 16 * recTag fmt img) 16 = true)
    (hv : (adpDesc (Tab.getRange 0 c.bank.data (c.adpBase + 16 * recTag fmt img) 16)).valid = true)
    (hb : (adpDesc (Tab.getRange 0 c.bank.data (c.adpBase + 16 * recTag fmt img) 16)).bad fmt = false) (now : Stamp) :
    c.descriptor now fmt img = (c, .ok (adpDesc (Tab.getRange 0 c.bank.data (c.adpBase + 16 * recTag fmt img) 16))) := by
  simp only [Core.descriptor, if_neg (Nat.not_le.2 ht), Core.readAdapter_clear (.inr hx) h, hv, hb, Bool.not_true, Bool.false_eq_true, if_false]

end Sys2Proof.Machine

open Sys2Proof Sys2Proof.Machine

/-- Settles O10: the reads are `Core.readBytes_clear` and `vldOp_clear`, the writes what `Core.Wrote` says of their bytes and words. -/
theorem memoryInstructionsComplete : Obligations.MemoryInstructionsComplete := by
  unfold Obligations.MemoryInstructionsComplete
  refine ⟨fun k f s hr => ?_, fun k f s hr hn => ?_⟩
  · intro c w a ha hx hc
    refine ⟨fun h hf => next_congr (State.issue_row (.ld k f) rfl h (ldBody_clear hr hf ha hx hc)), fun h hf => ?_⟩
    have hlen : (bytesLE (c.S f.sb).toNat 8).length = 8 := length_bytesLE ..
    obtain ⟨d, hd, hw⟩ := Core.writeBytes_clear (bs := bytesLE (c.S f.sb).toNat 8) (by rwa [hlen]) s.coreNow
    obtain ⟨hdig, hframe⟩ := hw.within (by rw [hlen]; decide) (by rw [hlen]; omega)
    have hbytes := hw.getRange_same
    rw [hlen] at hbytes
    refine ⟨d, next_congr (State.issue_row (.st k f) rfl h (stBody_clear hr hf ha hx hd)), ?_, fun x hx => hw.get_other (by rwa [hlen]), hdig, hframe⟩
    have hlt : (c.S f.sb).toNat < 2 ^ 64 := (c.S f.sb).isLt
    rw [hbytes, natLE_bytesLE]
    omega
  · intro c a on ws hal hx hc
    have hclear : ∀ i < 4, wordOn (c.M f.mask) i = true → c.bank.grant .vector (a / 64 + i) = .ok () ∧ c.bank.errOf (a / 64 + i) = [] := by
      intro i hi hon
      have hword : (a + 64 * i) / 64 = a / 64 + i := by omega
      refine Bank.clear_iff.1 (hc i hi hon) _ ?_
      rw [wordsOf_within (by decide) (by omega), hword]
      exact List.mem_singleton.2 rfl
    refine ⟨fun h hf => next_congr (State.issue_vec (.vld k f) rfl h hr hn rfl rfl hf (vldOp_clear hal hx hclear)), fun h hf => ?_⟩
    have htouched : touched a (storeLanes (c.V f.va) (c.M f.mask)) = ws := touched_storeLanes hal
    obtain ⟨d, hd, hw⟩ := Core.writeLanes_clear (lanes := storeLanes (c.V f.va) (c.M f.mask)) (c := c) (r := .vector) (a := a) (fun w hw => by
      rw [htouched] at hw
      obtain ⟨i, hi, rfl⟩ := List.mem_map.1 hw
      obtain ⟨hi, hon⟩ := List.mem_filter.1 hi
      exact hclear i (List.mem_range.1 hi) hon) s.coreNow
    have herr : d.bank.err = c.bank.err.filter (fun p => !ws.contains (p.1 / 68)) := by rw [hw.err, htouched]
    refine ⟨d, next_congr (State.issue_vec (.vst k f) rfl h hr hn rfl rfl hf (vstOp_run hal hx hd)), hw.lane, fun x hx => hw.get_outside ?_, ?_, ?_, ?_⟩
    · refine Option.not_isSome_iff_eq_none.1 (fun hs => ?_)
      obtain ⟨h1, h2, h3⟩ := (laneAt_storeLanes_isSome x).1 hs
      rcases hx with hx | hx | hx
      · omega
      · omega
      · rw [h3] at hx
        cases hx
    · rw [hw.digest, htouched]
    · rw [← herr]
      exact hw.frame
    · rw [hw.writeBack, htouched]

/-- Settles O14: the side-path reads the descriptor and the slice, and each instruction writes its lanes from them. -/
theorem adapterCompletes : Obligations.AdapterCompletes := by
  unfold Obligations.AdapterCompletes
  intro k f s hr hn c img fmt tag at_ d pa na pb nb ht hx hc hv hb
  have hdesc : c.descriptor s.coreNow fmt img = (c, .ok d) := Core.descriptor_clear ht hx hc hv hb s.coreNow
  refine ⟨fun hm hf hxa hca h => ?_, fun hf hxb hcb h => ?_⟩
  · have hna : (if d.rank = 0 then 0 else 16 * d.rank * elemBits d.afmt + 4 * d.rank) = na := by
      split
      · next h0 => simp [na, h0]
      · rfl
    have hread : c.readAdapter s.coreNow pa (if d.rank = 0 then 0 else 16 * d.rank * elemBits d.afmt + 4 * d.rank) =
        (c, .ok (Tab.getRange 0 c.bank.data pa na)) := by rw [hna]; exact Core.readAdapter_clear hxa hca s.coreNow
    refine next_congr (State.issue_vec (.vadn k f) rfl h hr hn (decide_eq_true hm) rfl hf ?_)
    simp only [vadnOp]
    rw [hdesc]
    simp only
    rw [hread]
  · have hread : c.readAdapter s.coreNow pb nb = (c, .ok (Tab.getRange 0 c.bank.data pb nb)) := Core.readAdapter_clear hxb hcb s.coreNow
    refine next_congr (State.issue_vec (.vaup k f) rfl h hr hn rfl rfl hf ?_)
    simp only [vaupOp]
    rw [hdesc]
    simp only
    rw [hread]
end

section
/-! A ring window that holds more than its SIZE (R128 to R130): the model reads its bytes in two pieces, and the second piece does not wrap. -/

namespace Sys2Proof.Machine

open Sys2Proof

/-- A window whose positions lie in [0, 2 × SIZE) as R128 wants, and whose fill of 320 is above its SIZE of 192. -/
def overfullWin : Win := { base := 0x4000, size := 192, head := 64, tail := 128 }

/-- An HWR of 320 bytes from that window to stack unit 8192. -/
def overfullHwr : DmaOp := { op := 2, sb := 8192, sc := 320, sem := 63, win := 4, w := true }

/-- A module whose core 0 has this HWR under way; the first byte behind the window is 1, and every byte of the window is 0. -/
def overfullState : State :=
  { cores := [(0, { dma := [overfullHwr], win := (Vector.replicate 16 ({} : Win)).set 4 overfullWin, bank := { data := [(0x4000 + 192, 1)] } })] }

/-- A byte of field 0's stack in the state that a command answers. -/
def stackByte (r : Res) (a : Nat) : Byte :=
  match r with
  | .next t => Tab.get 0 (t.field 0).hbm a
  | _ => 0

/-- Byte 256 of the 320, at window position 0 again, is taken from behind the window: the second piece (0x4000, 256) is longer than the window. -/
theorem stackByte_overfull : stackByte (exec (.dmaComplete 0) overfullState) (64 * 8192 + 256) = 1 := by decide +kernel

end Sys2Proof.Machine

open Sys2Proof Sys2Proof.Machine

/-- Refutes O21: nothing bounds the fill of a source window by its SIZE. Where an HWR consumes 320 bytes from position 128 of a window of 192 bytes
whose fill is 320, the model's second piece runs past the window's end (`Win.pieces`), and the byte behind the window goes to the stack in place of
the one at the window's start, which the statement names (`Win.spots`). -/
theorem not_transfersAndLandingsComplete : ¬ Obligations.TransfersAndLandingsComplete := by
  unfold Obligations.TransfersAndLandingsComplete
  intro h
  obtain ⟨hdma, -⟩ := h
  obtain ⟨-, -, hhwr, -⟩ := hdma 0 overfullState overfullHwr [] rfl (fun g hg => nomatch hg) (by decide) (by decide) (by decide +kernel)
  obtain ⟨-, hwindow⟩ := hhwr rfl (by decide +kernel)
  have hstated := hwindow rfl (by decide +kernel) (by decide +kernel) (by decide +kernel)
  have hbyte := stackByte_overfull
  rw [hstated] at hbyte
  exact absurd hbyte (by decide +kernel)
end

section
/-! Bank addresses and owners (R116, R121, R123 to R125). -/

namespace Sys2Proof.Machine

open Sys2Proof

/-! ### Addresses -/

theorem wordOf_bankOf (w : Nat) : wordOf (bankOf w) (wordInBank w) = w := by
  simp only [wordOf, bankOf, wordInBank]
  omega

/-- The banks of a run of words that begin within one eight of them are neighbours. -/
theorem bankOf_run {a i : Nat} (h : a / 64 % 8 + i < 8) : bankOf ((a + 64 * i) / 64) = bankOf (a / 64) + i := by
  simp only [bankOf]
  omega

/-! ### Words -/

@[simp] theorem Bank.errOf_store (b : Bank) (w v : Nat) (bs : List Byte) : (b.store w bs).errOf v = if v = w then [] else b.errOf v := by
  show ((b.err.filter (fun p => p.1 / 68 ≠ w)).filter (fun p => p.1 / 68 = v)).map _ = _
  rw [List.filter_filter]
  split
  · next h =>
    subst h
    simp
  · next h =>
    refine congrArg _ (List.filter_congr (fun p _ => ?_))
    by_cases hp : p.1 / 68 = v <;> simp [hp, h]

theorem Bank.word_store (b : Bank) (w : Nat) (bs : List Byte) (h : bs.length = 64) : (b.store w bs).word w = bs := by
  show Tab.getRange 0 (Tab.setRange 0 b.data (64 * w) bs) (64 * w) 64 = bs
  rw [← h, Tab.getRange_setRange]

theorem Bank.decoded_clear {b : Bank} {w : Nat} (h : b.errOf w = []) : b.decoded w = some (b.word w, false) := by
  simp only [Bank.decoded, h]

/-! ### Owners -/

/-- Table 4.4, requester by requester. -/
theorem Req.admitted_iff (r : Req) (o : Nat) :
    r.admitted o = true ↔ (o = 0 ∧ r ≠ .host ∧ r ≠ .upe) ∨ (o = 1 ∧ (r = .dma ∨ r = .net)) ∨ (o = 2 ∧ r = .host) ∨ (o = 3 ∧ r = .upe) := by
  cases r <;> simp [Req.admitted]

theorem Bank.grant_busy {b : Bank} {w : Nat} (r : Req) (h : b.busy.getLsbD (bankOf w) = true) : b.grant r w = .fault r.ownerKind 0 := by
  simp only [Bank.grant, h, if_true]

/-- A bank that is neither BUSY nor being handed over answers by its owner alone. -/
theorem Bank.grant_settled {b : Bank} {w : Nat} (r : Req) (hb : b.busy.getLsbD (bankOf w) = false) (hp : b.pend.getLsbD (bankOf w) = false) :
    b.grant r w = if r.admitted (ownOf b.own (bankOf w)) then .ok () else .fault r.ownerKind 0 := by
  simp only [Bank.grant, hb, hp, Bool.false_eq_true, if_false]

end Sys2Proof.Machine

open Sys2Proof Sys2Proof.Machine

/-- Settles O23: a store leaves its word without error, and touches neither bytes nor errors of another word. -/
theorem bankReadAfterWrite : Obligations.BankReadAfterWrite := by
  unfold Obligations.BankReadAfterWrite
  intro b w bs hlen
  refine ⟨?_, fun x hx => b.store_other w bs x (by omega), fun v hv => ?_⟩
  · rw [Bank.decoded_clear (by simp), Bank.word_store b w bs hlen]
  · rw [Bank.errOf_store, if_neg hv]

/-- Settles O22: each part of the address is a quotient and a remainder, and a row that is aligned to its length crosses no group. -/
theorem bankAddressDecomposition : Obligations.BankAddressDecomposition := by
  unfold Obligations.BankAddressDecomposition
  intro a ha g
  have hbank : bankOf (a / 64) = 8 * g + a / 64 % 8 := by
    simp only [bankOf, g]
    omega
  have hword : wordInBank (a / 64) = a / 512 % 4096 := by
    simp only [wordInBank]
    omega
  refine ⟨fun x hx => ?_, ?_, by omega, by omega, by omega, by omega, fun h => ?_, fun h => ?_⟩
  · simp only [BitVec.extractLsb'_toNat, Nat.shiftRight_eq_div_pow, hx, hbank, hword, g, true_and]
    omega
  · exact wordOf_bankOf _
  · refine List.map_congr_left (fun i hi => ?_)
    have hi := List.mem_range.1 hi
    rw [bankOf_run (by omega)]
    omega
  · refine List.nodup_range.map_on (fun i hi j hj hij => ?_)
    have hi := List.mem_range.1 hi
    have hj := List.mem_range.1 hj
    rw [bankOf_run (by omega), bankOf_run (by omega)] at hij
    exact Nat.add_left_cancel hij

/-- Settles O25: a BUSY bank refuses everyone, and a settled one asks Table 4.4 of its owner (`Req.admitted_iff`). -/
theorem bankOwnerRule : Obligations.BankOwnerRule := by
  unfold Obligations.BankOwnerRule
  intro b r w o may
  have hmay : r.admitted o = true ↔ may := r.admitted_iff o
  refine ⟨Bank.grant_busy r, fun hb hp => ?_, fun hb hp hno => ?_⟩
  · rw [Bank.grant_settled r hb hp, ← hmay]
    cases r.admitted o <;> simp
  · rw [Bank.grant_settled r hb hp, if_neg (fun h => hno (hmay.1 h))]
end

section
/-! The word code (R117, R118): GF(2^8) as a commutative ring, the field elements of the 68 symbols, and the correction of one wrong symbol. -/

namespace Sys2Proof.Machine

open Sys2Proof

/-! ### Products -/

theorem gfX_xor (a b : Byte) : gfX (a ^^^ b) = gfX a ^^^ gfX b := by
  simp only [gfX, BitVec.msb_xor, BitVec.shiftLeft_xor_distrib]
  cases a.msb <;> cases b.msb <;> simp only [bne_self_eq_false, Bool.true_bne, Bool.false_bne, Bool.not_false, Bool.false_eq_true, if_true, if_false]
  · ac_rfl
  · ac_rfl
  · calc a <<< 1 ^^^ b <<< 1 = a <<< 1 ^^^ b <<< 1 ^^^ (0x1D#8 ^^^ 0x1D#8) := by rw [BitVec.xor_self, BitVec.xor_zero]
      _ = (a <<< 1 ^^^ 0x1D#8) ^^^ (b <<< 1 ^^^ 0x1D#8) := by ac_rfl

/-- A product is additive in its first factor. -/
theorem gfMulAux_xor (n : Nat) (a c b acc acc' : Byte) :
    gfMulAux n (a ^^^ c) b (acc ^^^ acc') = gfMulAux n a b acc ^^^ gfMulAux n c b acc' := by
  induction n generalizing a c b acc acc' with
  | zero => rfl
  | succ n ih =>
    rw [gfMulAux, gfMulAux, gfMulAux, gfX_xor, ← ih]
    cases b.getLsbD 0
    · rfl
    · refine congrArg _ ?_
      simp only [if_true]
      ac_rfl

theorem gfMul_xor (a c b : Byte) : gfMul (a ^^^ c) b = gfMul a b ^^^ gfMul c b := gfMulAux_xor 8 a c b 0 0

theorem gfMul_zero_left (b : Byte) : gfMul 0 b = 0 := by
  have h : gfMul (0 ^^^ 0) b = gfMul 0 b ^^^ gfMul 0 b := gfMul_xor 0 0 b
  rwa [BitVec.xor_self, BitVec.xor_self] at h

theorem gfMulAux_gfX (n : Nat) (a b acc : Byte) : gfMulAux n (gfX a) b (gfX acc) = gfX (gfMulAux n a b acc) := by
  induction n generalizing a b acc with
  | zero => rfl
  | succ n ih =>
    rw [gfMulAux, gfMulAux, ← ih]
    cases b.getLsbD 0
    · rfl
    · exact congrArg _ (gfX_xor acc a).symm

/-- α may be taken out of the first factor. -/
theorem gfMul_gfX (a b : Byte) : gfMul (gfX a) b = gfX (gfMul a b) := gfMulAux_gfX 8 a b 0

/-- Multiplying by one factor after another is the same in either order. -/
theorem gfMulAux_gfMul (n : Nat) (a b c acc : Byte) : gfMulAux n (gfMul a b) c (gfMul acc b) = gfMul (gfMulAux n a c acc) b := by
  induction n generalizing a c acc with
  | zero => rfl
  | succ n ih =>
    rw [gfMulAux, gfMulAux, ← ih, gfMul_gfX]
    cases c.getLsbD 0
    · rfl
    · exact congrArg _ (gfMul_xor acc a b).symm

theorem gfMul_right_comm (a b c : Byte) : gfMul (gfMul a b) c = gfMul (gfMul a c) b := by
  have h := gfMulAux_gfMul 8 a b c 0
  rwa [gfMul_zero_left] at h

/-- 1 × b adds up the powers of α at the bits of b, which are those bits. -/
theorem gfMul_one_left (b : Byte) : gfMul 1 b = b := by
  revert b
  decide +kernel

theorem gfMul_comm (a b : Byte) : gfMul a b = gfMul b a := by
  have h := gfMul_right_comm 1 a b
  rwa [gfMul_one_left, gfMul_one_left] at h

theorem gfMul_assoc (a b c : Byte) : gfMul (gfMul a b) c = gfMul a (gfMul b c) := by
  rw [gfMul_comm a b, gfMul_right_comm, gfMul_comm]

theorem gfMul_one (a : Byte) : gfMul a 1 = a := by rw [gfMul_comm, gfMul_one_left]

/-! ### The powers of α -/

/-- A power of α multiplies as so many steps by α. -/
theorem gfX_iterate_mul (n : Nat) (a b : Byte) : gfMul (gfX^[n] a) b = gfX^[n] (gfMul a b) := by
  induction n with
  | zero => rfl
  | succ n ih => rw [Function.iterate_succ_apply', Function.iterate_succ_apply', gfMul_gfX, ih]

theorem gfX_iterate (n : Nat) (a : Byte) : gfX^[n] a = gfMul (gfX^[n] 1) a := by rw [gfX_iterate_mul, gfMul_one_left]

theorem gfPow_two (n : Nat) : gfPow 2 n = gfX^[n] 1 := by
  induction n with
  | zero => rfl
  | succ n ih =>
    have h2 : (2 : Byte) = gfX 1 := by decide
    rw [gfPow, ih, h2, gfMul_gfX, gfMul_one_left, Function.iterate_succ_apply']

theorem gfX_periodic (a : Byte) : Function.IsPeriodicPt gfX 255 a := by
  have h1 : gfX^[255] (1 : Byte) = 1 := by decide +kernel
  show gfX^[255] a = a
  rw [gfX_iterate, h1, gfMul_one_left]

theorem gfX_injective : Function.Injective gfX := fun a b h =>
  calc a = gfX^[254] (gfX a) := (gfX_periodic a).symm
    _ = gfX^[254] (gfX b) := by rw [h]
    _ = b := gfX_periodic b

/-- Where α^n + 1 is itself a power of α, multiplying by α^n moves every element but 0. -/
theorem gfX_moves {n k : Nat} (hk : gfX^[n] (1 : Byte) ^^^ 1 = gfX^[k] 1) {a : Byte} (ha : a ≠ 0) : ¬ Function.IsPeriodicPt gfX n a := by
  intro h
  have hzero : gfX^[k] a = gfX^[k] 0 := by
    calc gfX^[k] a = gfMul (gfX^[n] 1 ^^^ 1) a := by rw [hk, ← gfX_iterate]
      _ = gfX^[n] a ^^^ a := by rw [gfMul_xor, gfMul_one_left, ← gfX_iterate]
      _ = 0 := by rw [h.eq]; exact BitVec.xor_self
      _ = gfX^[k] 0 := (Function.iterate_fixed (by decide) k).symm
  exact ha (gfX_injective.iterate k hzero)

/-- α has order 255 = 3 × 5 × 17, and neither α^15 nor α^51 fixes an element: 68 steps by α, one for each symbol, lead to 68 elements. -/
theorem gfX_minimalPeriod {a : Byte} (ha : a ≠ 0) : 68 ≤ Function.minimalPeriod gfX a := by
  have hfew : ∀ p < 68, p ∣ 255 → p ∣ 15 ∨ p ∣ 51 := by decide
  by_contra hlt
  rcases hfew _ (Nat.lt_of_not_le hlt) (gfX_periodic a).minimalPeriod_dvd with h | h
  · exact gfX_moves (k := 33) (by decide +kernel) ha ((Function.isPeriodicPt_minimalPeriod gfX a).trans_dvd h)
  · exact gfX_moves (k := 238) (by decide +kernel) ha ((Function.isPeriodicPt_minimalPeriod gfX a).trans_dvd h)

/-! ### Correction of one symbol -/

theorem gfMul_rsLoc (e : Byte) (i : Nat) : gfMul e (rsLoc i) = gfX^[67 - i] e := by
  have hloc : rsLoc i = gfX^[67 - i] 1 := gfPow_two _
  rw [hloc, gfMul_comm, ← gfX_iterate]

/-- No two of the 68 symbols take a difference to the same product (R117). -/
theorem rsLoc_separates {e : Byte} (he : e ≠ 0) {i j : Nat} (hi : i < 68) (hj : j < 68) (h : gfMul e (rsLoc i) = gfMul e (rsLoc j)) : i = j := by
  rw [gfMul_rsLoc, gfMul_rsLoc] at h
  have hperiod := gfX_minimalPeriod he
  have heq : 67 - i = 67 - j := Function.iterate_injOn_Iio_minimalPeriod (Set.mem_Iio.2 (by omega)) (Set.mem_Iio.2 (by omega)) h
  omega

/-- The syndromes of one wrong symbol are its difference times the powers of its field element. -/
theorem rsSyndrome_single (i : Nat) (e : Byte) (j : Nat) : rsSyndrome [(i, e)] j = gfMul e (gfPow (rsLoc i) j) := by simp [rsSyndrome]

/-- Of the 68 symbols only the wrong one fits its syndromes. -/
theorem rsFit1_single {i j : Nat} {e : Byte} (hi : i < 68) (hj : j < 68) (he : e ≠ 0) :
    rsFit1 (gfMul e (gfPow (rsLoc i) 0)) (gfMul e (gfPow (rsLoc i) 1)) (gfMul e (gfPow (rsLoc i) 2)) (gfMul e (gfPow (rsLoc i) 3)) j =
      if j = i then some [(i, e)] else none := by
  by_cases h : j = i
  · subst h
    simp only [rsFit1, gfPow, gfMul_one, gfMul_assoc, he, ne_eq, not_false_eq_true, and_self, if_true]
  · rw [if_neg h]
    simp only [rsFit1, gfPow, gfMul_one]
    refine if_neg (fun hfit => h ?_)
    obtain ⟨-, hloc, -⟩ := hfit
    exact rsLoc_separates he hj hi hloc

/-- The decoder finds the one wrong symbol and its difference (R118). -/
theorem rsCorrection_single {i : Nat} {e : Byte} (hi : i < 68) (he : e ≠ 0) : rsCorrection [(i, e)] = some [(i, e)] := by
  have hfind : (List.range 68).findSome? (rsFit1 (rsSyndrome [(i, e)] 0) (rsSyndrome [(i, e)] 1) (rsSyndrome [(i, e)] 2) (rsSyndrome [(i, e)] 3)) =
      some [(i, e)] := by
    simp only [rsSyndrome_single]
    cases h : (List.range 68).findSome? _ with
    | none =>
      have hnone := List.findSome?_eq_none_iff.1 h i (List.mem_range.2 hi)
      rw [rsFit1_single hi hi he, if_pos rfl] at hnone
      cases hnone
    | some c =>
      obtain ⟨j, hj, hfit⟩ := List.exists_of_findSome?_eq_some h
      rw [rsFit1_single hi (List.mem_range.1 hj) he] at hfit
      split at hfit
      · exact hfit.symm
      · cases hfit
  have hs : rsSyndrome [(i, e)] 0 = e := by rw [rsSyndrome_single, gfPow, gfMul_one]
  have hwrong : ¬(rsSyndrome [(i, e)] 0 = 0 ∧ rsSyndrome [(i, e)] 1 = 0 ∧ rsSyndrome [(i, e)] 2 = 0 ∧ rsSyndrome [(i, e)] 3 = 0) :=
    fun h => he (hs ▸ h.1)
  simp only [rsCorrection, hwrong, if_false, hfind]

/-- An error and its correction cancel. -/
theorem applyDelta_twice (i : Nat) (e : Byte) (bs : List Byte) : applyDelta [(i, e), (i, e)] bs = bs := by
  have hcancel : ∀ x : Byte, x ^^^ e ^^^ e = x := fun x => by rw [BitVec.xor_assoc, BitVec.xor_self, BitVec.xor_zero]
  refine List.ext_getElem (by simp [applyDelta]) (fun j h1 h2 => ?_)
  simp only [applyDelta, List.getElem_mapIdx, List.foldl_cons, List.foldl_nil]
  split
  · exact hcancel _
  · rfl

/-- One wrong symbol, data or check, is delivered correct (R118). -/
theorem Bank.decoded_single {b : Bank} {w i : Nat} {e : Byte} (hi : i < 68) (he : e ≠ 0) (h : b.errOf w = [(i, e)]) :
    b.decoded w = some (b.word w, true) := by
  simp only [Bank.decoded, h, rsCorrection_single hi he]
  exact congrArg (fun bs => some (bs, true)) (applyDelta_twice i e _)

/-! ### Reads of a corrected word -/

/-- A requester's own earlier read is none that it shares. -/
theorem Bank.shared_count (b : Bank) (r : Req) (now : Stamp) (w : Nat) (h : b.shared r now w = false) : (b.count r now w).shared r now w = false := by
  simp only [Bank.shared, Bank.count, List.any_cons, ne_eq, not_true_eq_false, decide_false, Bool.and_false, Bool.false_and, Bool.false_or]
  refine List.any_eq_false.2 (fun p hp => ?_)
  exact List.any_eq_false.1 h p (List.mem_filter.1 hp).1

theorem Bank.noteCorr_alone {b : Bank} {r : Req} {now : Stamp} {w : Nat} (h : b.shared r now w = false) :
    b.noteCorr r now w = { b with
      corr := satAdd b.corr 1
      writeBack := if b.writeBack.contains w then b.writeBack else w :: b.writeBack
      counted := (b.count r now w).counted } := by
  simp only [Bank.noteCorr, h, Bool.false_eq_true, if_false, Bank.count]

theorem Bank.noteCorr_shared {b : Bank} {r : Req} {now : Stamp} {w : Nat} (h : b.shared r now w = true) : b.noteCorr r now w = b := if_pos h

theorem Bank.readWord_corrected {b : Bank} {r : Req} {w : Nat} {bs : List Byte} (hg : b.grant r w = .ok ()) (hd : b.decoded w = some (bs, true))
    (now : Stamp) (addr : Nat) : b.readWord r now addr w = (b.noteCorr r now w, .ok bs) := by
  simp only [Bank.readWord, hg, hd]

end Sys2Proof.Machine

open Sys2Proof Sys2Proof.Machine

/-- Settles O24: the decoder finds the wrong symbol (`rsCorrection_single`), so the read is a corrected one, which counts unless it is shared. -/
theorem oneWrongSymbolCorrected : Obligations.OneWrongSymbolCorrected := by
  unfold Obligations.OneWrongSymbolCorrected
  intro b r now a w i e hi he herr hg
  have hread := Bank.readWord_corrected hg (Bank.decoded_single hi he herr) now a
  refine ⟨fun hs => ?_, fun hs => ?_⟩
  · rw [Bank.noteCorr_alone hs] at hread
    refine ⟨_, hread, rfl, fun v => ?_, Bank.shared_count b r now w hs, rfl⟩
    by_cases hw : w ∈ b.writeBack
    · simp only [List.contains_iff_mem, hw, if_true]
      exact ⟨.inr, fun hv => hv.elim (fun h => h ▸ hw) id⟩
    · simp [hw]
  · rw [Bank.noteCorr_shared hs] at hread
    exact hread
end

section
/-! The banks' control (R123 to R127, R135, R136): ownership fields, handovers, SECURE bits, wipes and zeroing, bank by bank. -/

namespace Sys2Proof.Machine

open Sys2Proof

/-! ### One bank's bit and one bank's owner -/

theorem getLsbD_bitOf (k : Nat) {i : Nat} (hi : i < 32) : (bitOf k).getLsbD i = decide (i = k) := by
  rw [bitOf, BitVec.getLsbD_ofNat, Nat.testBit_two_pow, decide_eq_true hi, Bool.true_and]
  exact decide_eq_decide.2 eq_comm

theorem getLsbD_or_bitOf (v : W32) (k : Nat) {i : Nat} (hi : i < 32) : (v ||| bitOf k).getLsbD i = (v.getLsbD i || decide (i = k)) := by
  rw [BitVec.getLsbD_or, getLsbD_bitOf k hi]

theorem getLsbD_clear_bitOf (v : W32) (k : Nat) {i : Nat} (hi : i < 32) : (v &&& ~~~bitOf k).getLsbD i = (v.getLsbD i && decide (i ≠ k)) := by
  rw [BitVec.getLsbD_and, BitVec.getLsbD_not, getLsbD_bitOf k hi, decide_eq_true hi, Bool.true_and, decide_not]

theorem ownOf_lt (o : W64) (b : Nat) : ownOf o b < 4 := Nat.mod_lt _ (by decide)

theorem ownOf_eq_extract (o : W64) (b : Nat) : ownOf o b = (o.extractLsb' (2 * b) 2).toNat := by
  rw [BitVec.extractLsb'_toNat, Nat.shiftRight_eq_div_pow, Nat.pow_mul]
  rfl

/-- The mask of one ownership field. -/
theorem testBit_three (i : Nat) : Nat.testBit 3 i = decide (i < 2) := Nat.testBit_two_pow_sub_one 2 i

/-- An ownership image after the write of one bank's code, bit by bit. -/
theorem getLsbD_setOwn (o : W64) {i j code t : Nat} (hi : i < 32) (hc : code < 4) (ht : t < 2) :
    (setOwn o j code).getLsbD (2 * i + t) = if i = j then code.testBit t else o.getLsbD (2 * i + t) := by
  have h64 : 2 * i + t < 64 := by omega
  simp only [setOwn, BitVec.getLsbD_or, BitVec.getLsbD_and, BitVec.getLsbD_not, BitVec.getLsbD_shiftLeft, BitVec.getLsbD_ofNat, testBit_three,
    Nat.mod_eq_of_lt hc, h64, decide_true, Bool.true_and]
  rcases Nat.lt_trichotomy i j with h | rfl | h
  · have hlow : 2 * i + t < 2 * j := by omega
    simp [hlow, h.ne]
  · have ht64 : t < 64 := by omega
    simp [ht, ht64]
  · have hlow : ¬ 2 * i + t < 2 * j := by omega
    have hhigh : ¬ 2 * i + t - 2 * j < 2 := by omega
    have hcode : code.testBit (2 * i + t - 2 * j) = false :=
      Nat.testBit_lt_two_pow (hc.trans_le (Nat.pow_le_pow_right (n := 2) (by decide) (Nat.le_of_not_lt hhigh)))
    simp [hlow, hhigh, hcode, h.ne']

theorem ownOf_setOwn (o : W64) {i j code : Nat} (hi : i < 32) (hc : code < 4) : ownOf (setOwn o j code) i = if i = j then code else ownOf o i := by
  have hbits : (setOwn o j code).extractLsb' (2 * i) 2 = if i = j then BitVec.ofNat 2 code else o.extractLsb' (2 * i) 2 := by
    refine BitVec.eq_of_getLsbD_eq (fun t ht => ?_)
    rw [BitVec.getLsbD_extractLsb', getLsbD_setOwn o hi hc ht, decide_eq_true ht, Bool.true_and]
    split
    · rw [BitVec.getLsbD_ofNat, decide_eq_true ht, Bool.true_and]
    · rw [BitVec.getLsbD_extractLsb', decide_eq_true ht, Bool.true_and]
  rw [ownOf_eq_extract, hbits]
  split
  · rw [BitVec.toNat_ofNat, Nat.mod_eq_of_lt hc]
  · rw [ownOf_eq_extract]

/-! ### Handovers (R125) -/

theorem Bank.handover_frame (b : Bank) (k code : Nat) :
    b.handover k code = { b with target := setOwn b.target k code, pend := (b.handover k code).pend, late := (b.handover k code).late } := by
  unfold Bank.handover
  split <;> rfl

/-- A handover pends, or waits for BUSY to clear. -/
theorem Bank.handover_marks (b : Bank) (k code : Nat) {i : Nat} (hi : i < 32) :
    (b.handover k code).pend.getLsbD i = (b.pend.getLsbD i || decide (i = k) && !b.busy.getLsbD k) ∧
    (b.handover k code).late.getLsbD i = (b.late.getLsbD i || decide (i = k) && b.busy.getLsbD k) := by
  unfold Bank.handover
  split
  · next h => simp only [h, getLsbD_or_bitOf _ k hi, Bool.not_true, Bool.and_false, Bool.or_false, Bool.and_true, and_self]
  · next h => simp only [h, getLsbD_or_bitOf _ k hi, Bool.not_false, Bool.and_false, Bool.or_false, Bool.and_true, and_self]

theorem Bank.target_handover (b : Bank) {i k code : Nat} (hi : i < 32) (hc : code < 4) :
    ownOf (b.handover k code).target i = if i = k then code else ownOf b.target i := by
  rw [Bank.handover_frame]
  exact ownOf_setOwn b.target hi hc

theorem Bank.writeOwn_host {b : Bank} {k : Nat} (h : b.secure.getLsbD k = true ∨ b.secSet.getLsbD k = true) :
    b.writeOwn k 2 = { b with rejects := satAdd b.rejects 1 } :=
  if_pos (Bool.and_eq_true_iff.2 ⟨rfl, Bool.or_eq_true_iff.2 h⟩)

/-- The owner that a bank has, or that a handover under way gives it: what a write of its ownership field is compared with. -/
def Bank.headedFor (b : Bank) (k : Nat) : Nat := if b.pend.getLsbD k || b.late.getLsbD k then ownOf b.target k else ownOf b.own k

theorem Bank.headedFor_open {b : Bank} {k : Nat} (h : b.pend.getLsbD k = true ∨ b.late.getLsbD k = true) : b.headedFor k = ownOf b.target k :=
  if_pos (Bool.or_eq_true_iff.2 h)

theorem Bank.headedFor_settled {b : Bank} {k : Nat} (h : ¬(b.pend.getLsbD k = true ∨ b.late.getLsbD k = true)) : b.headedFor k = ownOf b.own k :=
  if_neg (fun hopen => h (Bool.or_eq_true_iff.1 hopen))

theorem Bank.writeOwn_allowed {b : Bank} {k code : Nat} (h : code = 2 → b.secure.getLsbD k = false ∧ b.secSet.getLsbD k = false) :
    b.writeOwn k code = if b.headedFor k = code then b else b.handover k code := by
  refine if_neg (fun hrefused => ?_)
  obtain ⟨hcode, hsecure⟩ := Bool.and_eq_true_iff.1 hrefused
  obtain ⟨h1, h2⟩ := h (of_decide_eq_true hcode)
  rw [h1, h2] at hsecure
  cases hsecure

/-- The end of a handover sets a SECURE bit that waits for it (R126). -/
theorem Bank.handoverDone_marks {b : Bank} {k : Nat} (h : b.pend.getLsbD k = true) {i : Nat} (hi : i < 32) :
    (b.handoverDone k).pend.getLsbD i = (b.pend.getLsbD i && decide (i ≠ k)) ∧
    (b.handoverDone k).secure.getLsbD i = (b.secure.getLsbD i || decide (i = k) && b.secSet.getLsbD k) ∧
    (b.handoverDone k).secSet.getLsbD i = (b.secSet.getLsbD i && decide (i ≠ k)) := by
  simp only [Bank.handoverDone, h, if_true, getLsbD_clear_bitOf _ k hi, true_and, and_true]
  cases b.secSet.getLsbD k
  · simp
  · simp only [if_true, getLsbD_or_bitOf _ k hi, Bool.and_true]

theorem Bank.handoverDone_frame {b : Bank} {k : Nat} (h : b.pend.getLsbD k = true) : b.handoverDone k =
    { b with own := setOwn b.own k (ownOf b.target k), pend := (b.handoverDone k).pend, secure := (b.handoverDone k).secure, secSet := (b.handoverDone k).secSet } := by
  simp only [Bank.handoverDone, h, if_true]

theorem Bank.handoverDone_none {b : Bank} {k : Nat} (h : b.pend.getLsbD k = false) : b.handoverDone k = b := by
  simp only [Bank.handoverDone, h, Bool.false_eq_true, if_false]

/-! ### SECURE bits that rise (R126) -/

/-- HOST owns the bank, or a handover gives it to HOST. -/
def Bank.hostHeld (b : Bank) (k : Nat) : Bool := ownOf b.own k = 2 || ((b.pend.getLsbD k || b.late.getLsbD k) && ownOf b.target k = 2)

theorem Bank.hostHeld_iff (b : Bank) (k : Nat) :
    b.hostHeld k = true ↔ ownOf b.own k = 2 ∨ (b.pend.getLsbD k = true ∨ b.late.getLsbD k = true) ∧ ownOf b.target k = 2 := by
  simp only [Bank.hostHeld, Bool.or_eq_true, Bool.and_eq_true, decide_eq_true_eq]

/-- What one bank takes of a write whose rising bits are `rise`. -/
def Bank.raiseSecure (rise : W32) (b : Bank) (k : Nat) : Bank :=
  if !rise.getLsbD k then b
  else if b.hostHeld k then { b.handover k 0 with secSet := b.secSet ||| bitOf k }
  else { b with secure := b.secure ||| bitOf k }

/-- What a write of BNK_SECURE leaves before its falling bits wipe. -/
def Bank.raised (b : Bank) (v : W32) : Bank := (List.range 32).foldl (Bank.raiseSecure (v &&& ~~~b.secure)) { b with secClr := b.secClr &&& ~~~v }

theorem Bank.writeSecure_eq (b : Bank) (v : W32) (dark : Bool) : b.writeSecure v dark =
    if b.secure &&& ~~~v = 0 then b.raised v
    else ({ b.raised v with secClr := (b.raised v).secClr ||| (b.secure &&& ~~~v) } : Bank).startWipe (b.secure &&& ~~~v) dark := rfl

theorem getLsbD_and_not (v w : W32) {i : Nat} (hi : i < 32) : (v &&& ~~~w).getLsbD i = (v.getLsbD i && !w.getLsbD i) := by
  rw [BitVec.getLsbD_and, BitVec.getLsbD_not, decide_eq_true hi, Bool.true_and]

/-- Bank j's owner, handover and SECURE bits, and the contents and wipes of all banks, are the same in both. -/
structure Bank.Agrees (j : Nat) (b d : Bank) : Prop where
  own : ownOf d.own j = ownOf b.own j
  target : ownOf d.target j = ownOf b.target j
  pend : d.pend.getLsbD j = b.pend.getLsbD j
  late : d.late.getLsbD j = b.late.getLsbD j
  secure : d.secure.getLsbD j = b.secure.getLsbD j
  secSet : d.secSet.getLsbD j = b.secSet.getLsbD j
  data : d.data = b.data
  wiping : d.wiping = b.wiping

namespace Bank.Agrees

variable {j : Nat} {b c d : Bank}

theorem refl (j : Nat) (b : Bank) : Bank.Agrees j b b := ⟨rfl, rfl, rfl, rfl, rfl, rfl, rfl, rfl⟩

theorem trans (h1 : Bank.Agrees j b c) (h2 : Bank.Agrees j c d) : Bank.Agrees j b d :=
  ⟨h2.own.trans h1.own, h2.target.trans h1.target, h2.pend.trans h1.pend, h2.late.trans h1.late, h2.secure.trans h1.secure,
    h2.secSet.trans h1.secSet, h2.data.trans h1.data, h2.wiping.trans h1.wiping⟩

theorem hostHeld (h : Bank.Agrees j b d) : d.hostHeld j = b.hostHeld j := by
  simp only [Bank.hostHeld, h.own, h.pend, h.late, h.target]

end Bank.Agrees

/-- A rising bit of another bank. -/
theorem Bank.raiseSecure_other (rise : W32) (b : Bank) {j k : Nat} (hj : j < 32) (h : j ≠ k) : Bank.Agrees j b (b.raiseSecure rise k) := by
  unfold Bank.raiseSecure
  split
  · exact .refl j b
  · split
    · obtain ⟨hpend, hlate⟩ := b.handover_marks k 0 hj
      have htarget := b.target_handover (k := k) (code := 0) hj (by decide)
      rw [Bank.handover_frame] at htarget ⊢
      simp only [h, decide_false, Bool.false_and, Bool.or_false] at hpend hlate
      exact ⟨rfl, htarget.trans (if_neg h), hpend, hlate, rfl, by simp [getLsbD_or_bitOf _ k hj, h], rfl, rfl⟩
    · exact ⟨rfl, rfl, rfl, rfl, by simp [getLsbD_or_bitOf _ k hj, h], rfl, rfl, rfl⟩

theorem Bank.raiseSecure_others (rise : W32) {j : Nat} (hj : j < 32) {l : List Nat} (hl : j ∉ l) (b : Bank) :
    Bank.Agrees j b (l.foldl (Bank.raiseSecure rise) b) := by
  induction l generalizing b with
  | nil => exact .refl j b
  | cons k l ih =>
    obtain ⟨hk, hl⟩ := List.ne_and_not_mem_of_not_mem_cons hl
    exact (Bank.raiseSecure_other rise b hj hk).trans (ih hl _)

/-- A write of BNK_SECURE meets bank j once, as it stood before the write. -/
theorem Bank.raised_bank (b : Bank) (v : W32) {j : Nat} (hj : j < 32) :
    ∃ c, Bank.Agrees j b c ∧ Bank.Agrees j (c.raiseSecure (v &&& ~~~b.secure) j) (b.raised v) := by
  obtain ⟨pre, post, hsplit⟩ := List.append_of_mem (List.mem_range.2 hj)
  have hnodup : (pre ++ j :: post).Nodup := hsplit ▸ List.nodup_range
  obtain ⟨-, hpost, hdisj⟩ := List.nodup_append'.1 hnodup
  have hpre : j ∉ pre := fun h => hdisj h (List.mem_cons_self ..)
  let b0 : Bank := { b with secClr := b.secClr &&& ~~~v }
  have h0 : Bank.Agrees j b b0 := ⟨rfl, rfl, rfl, rfl, rfl, rfl, rfl, rfl⟩
  refine ⟨_, h0.trans (Bank.raiseSecure_others (v &&& ~~~b.secure) hj hpre b0), ?_⟩
  rw [Bank.raised, hsplit, List.foldl_append, List.foldl_cons]
  exact Bank.raiseSecure_others _ hj (List.nodup_cons.1 hpost).1 _

/-- A SECURE bit that does not rise. -/
theorem Bank.raised_unchanged {b : Bank} {v : W32} {j : Nat} (hj : j < 32) (h : v.getLsbD j = false ∨ b.secure.getLsbD j = true) :
    Bank.Agrees j b (b.raised v) := by
  obtain ⟨c, hc, hd⟩ := b.raised_bank v hj
  have hrise : (v &&& ~~~b.secure).getLsbD j = false := by
    rw [getLsbD_and_not _ _ hj]
    rcases h with h | h <;> simp [h]
  rw [Bank.raiseSecure, hrise] at hd
  exact hc.trans hd

/-- A rising SECURE bit of a bank that is not HOST's sets. -/
theorem Bank.raised_sets {b : Bank} {v : W32} {j : Nat} (hj : j < 32) (hv : v.getLsbD j = true) (hs : b.secure.getLsbD j = false) (hheld : b.hostHeld j = false) :
    (b.raised v).secure.getLsbD j = true ∧ (b.raised v).data = b.data ∧ (b.raised v).wiping = b.wiping := by
  obtain ⟨c, hc, hd⟩ := b.raised_bank v hj
  have hrise : (v &&& ~~~b.secure).getLsbD j = true := by rw [getLsbD_and_not _ _ hj, hv, hs]; rfl
  simp only [Bank.raiseSecure, hrise, hc.hostHeld, hheld, Bool.not_true, Bool.false_eq_true, if_false] at hd
  exact ⟨hd.secure.trans (by simp [getLsbD_or_bitOf _ j hj]), hd.data.trans hc.data, hd.wiping.trans hc.wiping⟩

/-- A rising SECURE bit of a bank that is HOST's waits for its handover to CORE. -/
theorem Bank.raised_waits {b : Bank} {v : W32} {j : Nat} (hj : j < 32) (hv : v.getLsbD j = true) (hs : b.secure.getLsbD j = false) (hheld : b.hostHeld j = true) :
    (b.raised v).secure.getLsbD j = false ∧ (b.raised v).secSet.getLsbD j = true ∧ ownOf (b.raised v).target j = 0 ∧
    ownOf (b.raised v).own j = ownOf b.own j ∧ (b.raised v).data = b.data ∧ (b.raised v).wiping = b.wiping := by
  obtain ⟨c, hc, hd⟩ := b.raised_bank v hj
  have hrise : (v &&& ~~~b.secure).getLsbD j = true := by rw [getLsbD_and_not _ _ hj, hv, hs]; rfl
  have htarget := c.target_handover (k := j) (code := 0) hj (by decide)
  rw [if_pos rfl] at htarget
  simp only [Bank.raiseSecure, hrise, hc.hostHeld, hheld, Bool.not_true, Bool.false_eq_true, if_false, if_true] at hd
  rw [Bank.handover_frame] at hd htarget
  exact ⟨hd.secure.trans (hc.secure.trans hs), hd.secSet.trans (by simp [getLsbD_or_bitOf _ j hj]), hd.target.trans htarget, hd.own.trans hc.own,
    hd.data.trans hc.data, hd.wiping.trans hc.wiping⟩

/-- A write without a falling bit, bank by bank (R126). -/
theorem Bank.raised_marks (b : Bank) (v : W32) {j : Nat} (hj : j < 32) :
    ((b.raised v).secure.getLsbD j = true ↔ b.secure.getLsbD j = true ∨ v.getLsbD j = true ∧ ¬b.hostHeld j = true) ∧
    (v.getLsbD j = true → b.secure.getLsbD j = false → b.hostHeld j = true →
      (b.raised v).secSet.getLsbD j = true ∧ ownOf (b.raised v).target j = 0 ∧ ownOf (b.raised v).own j = ownOf b.own j) ∧
    (b.raised v).data = b.data ∧ (b.raised v).wiping = b.wiping := by
  by_cases hrise : v.getLsbD j = true ∧ b.secure.getLsbD j = false
  · obtain ⟨hv, hs⟩ := hrise
    cases hheld : b.hostHeld j with
    | true =>
      obtain ⟨hsec, hset, htarget, hown, hdata, hwiping⟩ := Bank.raised_waits hj hv hs hheld
      exact ⟨by simp only [hsec, hs, not_true_eq_false, and_false, or_false], fun _ _ _ => ⟨hset, htarget, hown⟩, hdata, hwiping⟩
    | false =>
      obtain ⟨hsec, hdata, hwiping⟩ := Bank.raised_sets hj hv hs hheld
      exact ⟨iff_of_true hsec (.inr ⟨hv, Bool.false_ne_true⟩), fun _ _ h => absurd h Bool.false_ne_true, hdata, hwiping⟩
  · have hstays : v.getLsbD j = false ∨ b.secure.getLsbD j = true :=
      (not_and_or.1 hrise).imp Bool.eq_false_iff.2 Bool.eq_true_of_not_eq_false
    have hd : Bank.Agrees j b (b.raised v) := Bank.raised_unchanged hj hstays
    refine ⟨?_, fun hv hs _ => absurd ⟨hv, hs⟩ hrise, hd.data, hd.wiping⟩
    rw [hd.secure]
    exact ⟨.inl, fun h => h.elim id (fun h => Bool.eq_true_of_not_eq_false (fun hs => hrise ⟨h.1, hs⟩))⟩

/-! ### SECURE bits that fall, and wipes (R126, R136) -/

theorem Bank.wipeMarch_frame (b : Bank) (set : W32) : b.wipeMarch set = { b with march := (b.wipeMarch set).march } := by
  unfold Bank.wipeMarch
  split <;> rfl

theorem Bank.startWipe_lit (b : Bank) (set : W32) :
    b.startWipe set false = { b with march := (b.wipeMarch set).march, wiping := b.wiping ||| set, busy := b.busy ||| set } := by
  simp only [Bank.startWipe, Bool.false_eq_true, if_false]
  rw [Bank.wipeMarch_frame]

theorem Bank.startWipe_dark (b : Bank) (set : W32) :
    b.startWipe set true = { b with secure := b.secure &&& ~~~(b.secClr &&& set), secClr := b.secClr &&& ~~~set } := by
  simp only [Bank.startWipe, if_true]

theorem getLsbD_falling {b : Bank} {v : W32} {j : Nat} (hj : j < 32) (hv : v.getLsbD j = false) (hs : b.secure.getLsbD j = true) :
    (b.secure &&& ~~~v).getLsbD j = true := by
  rw [getLsbD_and_not _ _ hj, hs, hv]
  rfl

theorem Bank.writeSecure_falling {b : Bank} {v : W32} {j : Nat} (hj : j < 32) (hv : v.getLsbD j = false) (hs : b.secure.getLsbD j = true) (dark : Bool) :
    b.writeSecure v dark = ({ b.raised v with secClr := (b.raised v).secClr ||| (b.secure &&& ~~~v) } : Bank).startWipe (b.secure &&& ~~~v) dark := by
  have hbit := getLsbD_falling hj hv hs
  have hfall : b.secure &&& ~~~v ≠ 0 := fun h => by simp [h] at hbit
  rw [Bank.writeSecure_eq, if_neg hfall]

/-- A SECURE bit that falls stays while its bank is wiped. -/
theorem Bank.writeSecure_wipes {b : Bank} {v : W32} {j : Nat} (hj : j < 32) (hv : v.getLsbD j = false) (hs : b.secure.getLsbD j = true) :
    (b.writeSecure v false).wiping.getLsbD j = true ∧ (b.writeSecure v false).busy.getLsbD j = true ∧
    (b.writeSecure v false).secure.getLsbD j = true ∧ (b.writeSecure v false).secClr.getLsbD j = true := by
  have hkept : (b.raised v).secure.getLsbD j = true := (Bank.raised_unchanged hj (.inl hv)).secure.trans hs
  simp only [Bank.writeSecure_falling hj hv hs, Bank.startWipe_lit, BitVec.getLsbD_or, getLsbD_falling hj hv hs, Bool.or_true, hkept, and_self]

/-- On a dark terrace there is nothing to wipe: the bit falls at once. -/
theorem Bank.writeSecure_dark {b : Bank} {v : W32} {j : Nat} (hj : j < 32) (hv : v.getLsbD j = false) (hs : b.secure.getLsbD j = true) :
    (b.writeSecure v true).secure.getLsbD j = false := by
  simp only [Bank.writeSecure_falling hj hv hs, Bank.startWipe_dark]
  rw [getLsbD_and_not _ _ hj, BitVec.getLsbD_and, BitVec.getLsbD_or, getLsbD_falling hj hv hs, Bool.or_true, Bool.and_true, Bool.not_true, Bool.and_false]

theorem Bank.noteZ_if (b : Bank) (k : Nat) (differs : Bool) :
    (if differs then b.noteZ k else b) = { b with zfail := b.zfail || differs, zbank := if differs = true ∧ b.zfail = false then k else b.zbank } := by
  cases differs
  · simp
  · cases h : b.zfail <;> simp [Bank.noteZ, h]
    rw [← h]

theorem Bank.unbusy_marks (b : Bank) (k : Nat) {i : Nat} (hi : i < 32) :
    (b.unbusy k).busy.getLsbD i = (b.busy.getLsbD i && decide (i ≠ k)) ∧
    (b.unbusy k).late.getLsbD i = (b.late.getLsbD i && decide (i ≠ k)) ∧
    (b.unbusy k).pend.getLsbD i = (b.pend.getLsbD i || decide (i = k) && b.late.getLsbD k) := by
  simp only [Bank.unbusy, getLsbD_clear_bitOf _ k hi, true_and]
  cases b.late.getLsbD k
  · simp
  · simp only [if_true, getLsbD_or_bitOf _ k hi, Bool.and_true]

theorem Tab.get_filter {α : Type} (d : α) (t : Tab α) (p : Nat → Bool) (x : Nat) :
    Tab.get d (t.filter (fun q => p q.1)) x = if p x then Tab.get d t x else d := by
  induction t with
  | nil => simp [Tab.get]
  | cons q t ih =>
    obtain ⟨k, v⟩ := q
    rw [List.filter_cons]
    by_cases hx : x = k
    · subst hx
      cases hp : p x <;> simp [hp, ih, Tab.get]
    · cases p k <;> simp [ih, Tab.get, hx]

/-- A zeroed bank reads zero (R135), and no other bank's bytes change. -/
theorem Bank.get_zeroBank (b : Bank) (k x : Nat) : Tab.get 0 (b.zeroBank k).data x = if bankOf (x / 64) = k then 0 else Tab.get 0 b.data x := by
  have h := Tab.get_filter 0 b.data (fun a => !bankWordsHas k (a / 64)) x
  refine h.trans ?_
  by_cases hk : bankOf (x / 64) = k <;> simp [bankWordsHas, hk]

theorem Bank.errOf_zeroBank (b : Bank) (k w : Nat) : (b.zeroBank k).errOf w = if bankOf w = k then [] else b.errOf w := by
  show ((b.err.filter (fun p => !bankWordsHas k (p.1 / 68))).filter (fun p => p.1 / 68 = w)).map _ = _
  rw [List.filter_filter]
  by_cases hk : bankOf w = k
  · rw [if_pos hk, List.map_eq_nil_iff, List.filter_eq_nil_iff]
    intro p _ h
    obtain ⟨h1, h2⟩ := Bool.and_eq_true_iff.1 h
    rw [of_decide_eq_true h1] at h2
    simp [bankWordsHas, hk] at h2
  · rw [if_neg hk]
    refine congrArg _ (List.filter_congr (fun p _ => ?_))
    by_cases hp : p.1 / 68 = w <;> simp [hp, bankWordsHas, hk]

theorem Bank.mem_writeBack_zeroBank (b : Bank) (k w : Nat) : w ∈ (b.zeroBank k).writeBack ↔ w ∈ b.writeBack ∧ bankOf w ≠ k := by
  simp [Bank.zeroBank, bankWordsHas]

/-- The bank whose wipe ends: zero, and no longer secure where the wipe was for that (R126); a read-back that differs is noted (R135). -/
def Bank.wiped (b : Bank) (k : Nat) (differs : Bool) : Bank :=
  { b.zeroBank k with
    wiping := b.wiping &&& ~~~bitOf k
    secure := if b.secClr.getLsbD k then b.secure &&& ~~~bitOf k else b.secure
    secClr := b.secClr &&& ~~~bitOf k
    zfail := b.zfail || differs
    zbank := if differs = true ∧ b.zfail = false then k else b.zbank }

theorem Bank.wiped_marks (b : Bank) (k : Nat) (differs : Bool) {i : Nat} (hi : i < 32) :
    (b.wiped k differs).wiping.getLsbD i = (b.wiping.getLsbD i && decide (i ≠ k)) ∧
    (b.wiped k differs).secure.getLsbD i = (b.secure.getLsbD i && !(decide (i = k) && b.secClr.getLsbD k)) ∧
    (b.wiped k differs).secClr.getLsbD i = (b.secClr.getLsbD i && decide (i ≠ k)) := by
  simp only [Bank.wiped, getLsbD_clear_bitOf _ k hi, true_and, and_true]
  cases b.secClr.getLsbD k
  · simp
  · simp only [if_true, getLsbD_clear_bitOf _ k hi, Bool.and_true, decide_not]

/-- Wipes end in ascending order of the banks. -/
theorem Bank.wipeDone_eq {b : Bank} {k : Nat} (hw : b.wiping.getLsbD k = true) (hfirst : ∀ i, i < k → b.wiping.getLsbD i = false)
    (hwake : b.waking = false) (hmarch : b.march.running = false) (differs : Bool) : b.wipeDone k differs = (b.wiped k differs).unbusy k := by
  have hlow : (List.range k).any b.wiping.getLsbD = false :=
    List.any_eq_false.2 (fun i hi => by simp [hfirst i (List.mem_range.1 hi)])
  have hz : (b.zeroBank k).march.running = false := hmarch
  simp only [Bank.wipeDone, hw, hwake, hlow, Bool.not_false, Bool.and_true, if_true, Bank.noteZ_if, hz, Bool.false_and, Bool.false_eq_true, if_false]
  rfl

/-! ### Zeroing on wake (R135) -/

theorem Bank.unbusyAll_frame (l : List Nat) (b : Bank) : l.foldl Bank.unbusy b =
    { b with busy := (l.foldl Bank.unbusy b).busy, late := (l.foldl Bank.unbusy b).late, pend := (l.foldl Bank.unbusy b).pend } := by
  induction l generalizing b with
  | nil => rfl
  | cons k l ih =>
    rw [List.foldl_cons, ih]
    rfl

theorem Bank.unbusyAll_marks (l : List Nat) (b : Bank) {i : Nat} (hi : i < 32) :
    (l.foldl Bank.unbusy b).busy.getLsbD i = (b.busy.getLsbD i && decide (i ∉ l)) ∧
    (l.foldl Bank.unbusy b).late.getLsbD i = (b.late.getLsbD i && decide (i ∉ l)) ∧
    (l.foldl Bank.unbusy b).pend.getLsbD i = (b.pend.getLsbD i || decide (i ∈ l) && b.late.getLsbD i) := by
  induction l generalizing b with
  | nil => simp
  | cons k l ih =>
    obtain ⟨hbusy, hlate, hpend⟩ := b.unbusy_marks k hi
    obtain ⟨ih1, ih2, ih3⟩ := ih (b.unbusy k)
    rw [List.foldl_cons, ih1, ih2, ih3, hbusy, hlate, hpend]
    by_cases hk : i = k
    · subst hk
      simp
    · simp [hk]

/-- Every bank is free at once, and the handovers that waited begin (R125). -/
theorem Bank.unbusyAll_eq (b : Bank) : (List.range 32).foldl Bank.unbusy b = { b with busy := 0, late := 0, pend := b.pend ||| b.late } := by
  have hmarks (i : Nat) (hi : i < 32) := Bank.unbusyAll_marks (List.range 32) b hi
  have hbusy : ((List.range 32).foldl Bank.unbusy b).busy = 0 := BitVec.eq_of_getLsbD_eq (fun i hi => by
    rw [(hmarks i hi).1, BitVec.ofNat_eq_ofNat, BitVec.getLsbD_zero, decide_eq_false (not_not.2 (List.mem_range.2 hi)), Bool.and_false])
  have hlate : ((List.range 32).foldl Bank.unbusy b).late = 0 := BitVec.eq_of_getLsbD_eq (fun i hi => by
    rw [(hmarks i hi).2.1, BitVec.ofNat_eq_ofNat, BitVec.getLsbD_zero, decide_eq_false (not_not.2 (List.mem_range.2 hi)), Bool.and_false])
  have hpend : ((List.range 32).foldl Bank.unbusy b).pend = b.pend ||| b.late := BitVec.eq_of_getLsbD_eq (fun i hi => by
    rw [(hmarks i hi).2.2, BitVec.getLsbD_or, decide_eq_true (List.mem_range.2 hi), Bool.true_and])
  rw [Bank.unbusyAll_frame, hbusy, hlate, hpend]

/-- A bank under no march keeps no BUSY bit. -/
theorem Bank.unbusyAll_idle (l : List Nat) {b : Bank} (h : b.march.running = false) :
    l.foldl (fun (z : Bank) k => if z.march.running && z.march.bank = k then z else z.unbusy k) b = l.foldl Bank.unbusy b := by
  induction l generalizing b with
  | nil => rfl
  | cons k l ih =>
    simp only [List.foldl_cons, h, Bool.false_and, Bool.false_eq_true, if_false]
    exact ih (b := b.unbusy k) h

theorem Bank.waking_foldl {g : Bank → Nat → Bank} (hg : ∀ b k, (g b k).waking = b.waking) (l : List Nat) (b : Bank) : (l.foldl g b).waking = b.waking := by
  induction l generalizing b with
  | nil => rfl
  | cons k l ih => exact (ih (g b k)).trans (hg b k)

theorem Bank.waking_noteZ (b : Bank) (k : Nat) : (b.noteZ k).waking = b.waking := by
  unfold Bank.noteZ
  split <;> rfl

/-- No zeroing goes on after its end, march or not. -/
theorem Bank.waking_wakeDone (b : Bank) (differs : Option Nat) : (b.wakeDone differs).waking = false := by
  have hfold (z : Bank) := Bank.waking_foldl (g := fun z k => if z.march.running && z.march.bank = k then z else z.unbusy k)
    (fun z k => by split <;> rfl) (List.range 32) z
  cases differs with
  | none => simp only [Bank.wakeDone, hfold]
  | some k => simp only [Bank.wakeDone, Bank.waking_noteZ, hfold]

theorem Bank.wakeDone_eq {b : Bank} (hmarch : b.march.running = false) (differs : Option Nat) : b.wakeDone differs = { b with
    data := [], err := [], writeBack := [], waking := false, wiping := 0, busy := 0, late := 0, pend := b.pend ||| b.late
    secure := b.secure &&& ~~~(b.secClr &&& b.wiping), secClr := b.secClr &&& ~~~b.wiping
    zfail := b.zfail || differs.isSome, zbank := if b.zfail then b.zbank else differs.getD b.zbank } := by
  have hfold := Bank.unbusyAll_idle (List.range 32) (b := { b with
    data := [], err := [], writeBack := [], waking := false, wiping := 0
    secure := b.secure &&& ~~~(b.secClr &&& b.wiping), secClr := b.secClr &&& ~~~b.wiping }) hmarch
  simp only [Bank.wakeDone, hfold, Bank.unbusyAll_eq]
  cases differs with
  | none => simp
  | some k => cases b.zfail <;> simp [Bank.noteZ]

/-! ### The commands -/

theorem State.allows_agent (s : State) (a : Fin 3) : s.allows (some a) = true ↔ s.host.owner = a.val ∧ s.rck.ready = true := by
  simp only [State.allows, Bool.and_eq_true, decide_eq_true_eq]

/-- Where no march runs none ends with a change of the banks. -/
theorem State.onMarch_idle {s : State} {k : Nat} (h : (s.core k).bank.march.running = false) (g : Bank → Bank) : s.onMarch k g = s.onBank k g := by
  simp only [State.onMarch, h, Bool.false_eq_true, if_false]

/-- A terrace lights with its last core, and a command of it waits for nothing where none is under way (R326). -/
theorem State.checkLit_lights {s : State} {t : Nat} (hz : (s.ter t).st = .zeroing) (hw : ∀ j ∈ s.enabledOn t, (s.core j).bank.waking = false) (hf : s.fw.flight = []) :
    s.checkLit t = { s.withTer t (fun x => { x with st := .lit }) with out := .event 0xFF 0x26 [t] :: s.out } := by
  have hall : (s.enabledOn t).all (fun k => !(s.core k).bank.waking) = true := List.all_eq_true.2 (fun j hj => by rw [hw j hj]; rfl)
  have hfree : ∀ u : State, u.fw.flight = [] → u.settleTer t 0 = u := fun u hu => by
    simp only [State.settleTer, State.long?, hu, List.find?_nil]
  simp only [State.checkLit, hz, hall, decide_true, Bool.and_self, if_true]
  exact hfree _ hf

theorem State.checkLit_waits {s : State} {t : Nat} (h : ¬((s.ter t).st = .zeroing ∧ ∀ j ∈ s.enabledOn t, (s.core j).bank.waking = false)) :
    s.checkLit t = s := by
  refine if_neg (fun hlit => h ?_)
  obtain ⟨hz, hall⟩ := Bool.and_eq_true_iff.1 hlit
  exact ⟨of_decide_eq_true hz, fun j hj => by simpa using List.all_eq_true.1 hall j hj⟩

theorem State.envAdvance_settled {s : State} (h : s.pwr.env.pending = false) : s.envAdvance = s := by
  simp only [State.envAdvance, h, Bool.not_false, if_true]

theorem State.partOfTer_lt {s : State} {t p : Nat} (h : s.partOfTer t = some p) : p < 16 := List.mem_range.1 (List.mem_of_find?_eq_some h)

theorem State.retire_eq (s : State) (k : Nat) : s.retire k =
    { s with sites := if s.site k = .enabled ∨ s.site k = .spare then Tab.set .enabled s.sites k .retired else s.sites } := by
  simp only [State.retire, Bool.or_eq_true, decide_eq_true_eq]

/-- In no recovery a wake that failed adds nothing to one (R293). -/
theorem State.wakeFailed_idle {s : State} (h : ∀ p < 16, (s.part p).rcv.active = false) (k : Nat) : s.wakeFailed k = s := by
  unfold State.wakeFailed
  split
  · rfl
  · next p hp =>
    have hlt : p < 16 := State.partOfTer_lt hp
    simp only [h p hlt, Bool.false_eq_true, if_false]

/-- With core k released, no core of terrace t zeroes where no other one does. -/
theorem State.wokenOn_iff (s : State) (k t : Nat) (differs : Option Nat) :
    (∀ j ∈ (s.onBank k (fun b => b.wakeDone differs)).enabledOn t, ((s.onBank k (fun b => b.wakeDone differs)).core j).bank.waking = false) ↔
      ∀ j ∈ s.enabledOn t, j ≠ k → (s.core j).bank.waking = false := by
  refine forall₂_congr (fun j _ => ?_)
  rw [State.core_onBank]
  split
  · next h => exact iff_of_true (Bank.waking_wakeDone _ _) (absurd h)
  · next h => exact ⟨fun hj _ => hj, fun hj => hj h⟩

/-- The end of zeroing on wake outside a recovery, a bring-up and a move of the envelope: what the banks, the core's retirement and
the terrace's light leave. -/
theorem State.wakeDone_eq {s t u : State} {k : Nat} {differs : Option Nat} (hwaking : (s.core k).bank.waking = true) (hstage : s.rck.stage ≠ 9)
    (hspare : ∀ p < 16, (s.part p).rcv.spares = [])
    (ht : (if differs.isSome then ((s.onBank k (fun b => b.wakeDone differs)).retire k).wakeFailed k else s.onBank k (fun b => b.wakeDone differs)) = t)
    (hu : t.checkLit (k / 32) = u) (henv : u.pwr.env.pending = false) : s.wakeDone k differs = u := by
  have hnone : (List.range 16).find? (fun p => (s.part p).rcv.spares.any (fun e => e.2 = k)) = none :=
    List.find?_eq_none.2 (fun p hp => by simp [hspare p (List.mem_range.1 hp)])
  simp only [State.wakeDone, hwaking, hnone, ht, hu, hstage, Bool.not_true, Bool.false_eq_true, if_false, decide_false, Bool.false_and,
    State.envAdvance_settled henv]

end Sys2Proof.Machine

open Sys2Proof Sys2Proof.Machine

/-- Settles O26: which banks a command acts on follows from the commands' own guards, and what it leaves there bank by bank from the
lemmas on each operation. -/
theorem bankControlCompletes : Obligations.BankControlCompletes := by
  unfold Obligations.BankControlCompletes
  refine ⟨fun k s => ?commands, fun b j hj => ?banks⟩
  case commands =>
    intro c b bank
    refine ⟨fun who hi v h => next_congr (if_pos h), fun who hi v h => next_congr (if_neg (by simp [h])), ⟨rfl, s.allows_agent⟩, fun j => rfl,
      fun v h => next_congr (State.onMarch_idle h _), fun j differs h => next_congr (State.onMarch_idle h _),
      fun h z => next_congr (by simp only [State.wakeDone, b, c, h, Bool.not_false, if_true]), ?wake⟩
    intro hwaking henv hstage hflight hrcv lights u
    have hspare (p) (hp : p < 16) := (hrcv p hp).1
    have hactive (p) (hp : p < 16) := (hrcv p hp).2
    have hlights : lights ↔ (u.ter (k / 32)).st = .zeroing ∧ ∀ j ∈ u.enabledOn (k / 32), (u.core j).bank.waking = false :=
      and_congr Iff.rfl (s.wokenOn_iff k (k / 32) none).symm
    refine ⟨fun h => ?_, fun h => ?_, fun z hz => ?_⟩
    · have hdark : u.checkLit (k / 32) = u := State.checkLit_waits (fun hl => h (hlights.2 hl))
      exact next_congr (State.wakeDone_eq hwaking hstage hspare rfl hdark henv)
    · obtain ⟨hz, hw⟩ := hlights.1 h
      exact next_congr (State.wakeDone_eq hwaking hstage hspare rfl (State.checkLit_lights hz hw hflight) henv)
    · have hretired := State.retire_eq (s.onBank k (fun b => b.wakeDone (some z.val))) k
      have hfailed := State.wakeFailed_idle (s := (s.onBank k (fun b => b.wakeDone (some z.val))).retire k) hactive k
      exact next_congr (State.wakeDone_eq hwaking hstage hspare (hfailed.trans hretired) (State.checkLit_waits (fun hl => hz hl.1)) henv)
  case banks =>
    refine ⟨fun code hcode hhost => ?own, Bank.writeOwn_host, fun hpend => ?done, Bank.handoverDone_none, fun v hfall => ?rises, fun v hv hs => ?falls,
      fun hw hfirst hwake hmarch differs => ?wipe, fun hwaking hmarch differs => ?zeroing⟩
    case own =>
      have hwrite := Bank.writeOwn_allowed hhost
      intro pends d
      have hd : d = if b.headedFor j = code then b else b.handover j code := hwrite
      refine ⟨fun hp ht => hd.trans (if_pos ((Bank.headedFor_open hp).trans ht)), fun hp ho => hd.trans (if_pos ((Bank.headedFor_settled hp).trans ho)), fun hnew => ?_⟩
      have hne : b.headedFor j ≠ code := by
        rcases hnew with ⟨hp, ht⟩ | ⟨hp, ho⟩
        · rwa [Bank.headedFor_open hp]
        · rwa [Bank.headedFor_settled hp]
      rw [if_neg hne] at hd
      rw [hd]
      exact ⟨fun i hi => ⟨b.target_handover hi hcode, b.handover_marks j code hi⟩, by rw [Bank.handover_frame]⟩
    case done =>
      refine ⟨fun i hi => ⟨?_, Bank.handoverDone_marks hpend hi⟩, ?_⟩
      · rw [Bank.handoverDone_frame hpend]
        exact ownOf_setOwn b.own hi (ownOf_lt _ _)
      · rw [Bank.handoverDone_frame hpend]
    case rises =>
      rw [Bank.writeSecure_eq, if_pos hfall]
      simpa only [Bank.hostHeld_iff] using b.raised_marks v hj
    case falls =>
      obtain ⟨hwiping, hbusy, hsecure, hclr⟩ := Bank.writeSecure_wipes hj hv hs
      exact ⟨hwiping, hbusy, hsecure, hclr, Bank.writeSecure_dark hj hv hs⟩
    case wipe =>
      rw [Bank.wipeDone_eq hw hfirst hwake hmarch differs]
      refine ⟨fun i hi => ?_, b.get_zeroBank j, b.errOf_zeroBank j, b.mem_writeBack_zeroBank j, rfl, rfl, rfl⟩
      obtain ⟨hwiping, hsecure, hclr⟩ := b.wiped_marks j differs hi
      obtain ⟨hbusy, hlate, hpend⟩ := (b.wiped j differs).unbusy_marks j hi
      exact ⟨hwiping, hbusy, hsecure, hclr, hlate, hpend⟩
    case zeroing =>
      rw [Bank.wakeDone_eq hmarch differs]
      refine ⟨fun i hi => ⟨?_, getLsbD_and_not _ _ hi, BitVec.getLsbD_or⟩, rfl, rfl, rfl⟩
      exact (getLsbD_and_not _ _ hi).trans (by rw [BitVec.getLsbD_and])
end

section
/-! Bytes put at the head of a ring window (R128 to R130, R121): where they land, and what the core is then. -/

namespace Sys2Proof.Machine

open Sys2Proof

/-! ### What a write of bytes leaves -/

theorem Core.bytesAt_range' (c : Core) (a n : Nat) : c.bytesAt (List.range' a n) = Tab.getRange 0 c.bank.data a n := by
  rw [Core.bytesAt, Tab.getRange, List.range'_eq_map_range, List.map_map]
  rfl

theorem Core.bytesAt_congr {c d : Core} {l : List Nat} (h : ∀ x ∈ l, Tab.get 0 d.bank.data x = Tab.get 0 c.bank.data x) : d.bytesAt l = c.bytesAt l :=
  List.map_congr_left h

theorem Core.bytesAt_append (c : Core) (l r : List Nat) : c.bytesAt (l ++ r) = c.bytesAt l ++ c.bytesAt r := List.map_append

theorem mem_foldl_erase {ws l : List Nat} {w : Nat} (h : w ∉ ws) : w ∈ ws.foldl List.erase l ↔ w ∈ l := by
  induction ws generalizing l with
  | nil => rfl
  | cons v ws ih =>
    obtain ⟨hv, hws⟩ := not_or.1 (mt List.mem_cons.2 h)
    rw [List.foldl_cons, ih hws, List.mem_erase_of_ne hv]

namespace Core.Wrote

variable {c d : Core} {a : Nat} {lanes : List (Option Byte)} {bs : List Byte}

/-- A word that a write does not touch keeps its errors. -/
theorem errOf_untouched (h : c.Wrote a lanes d) {w : Nat} (hw : w ∉ touched a lanes) : d.bank.errOf w = c.bank.errOf w := by
  rw [Bank.errOf, Bank.errOf, h.err, List.filter_filter]
  refine congrArg _ (List.filter_congr (fun e _ => ?_))
  by_cases he : e.1 / 68 = w <;> simp [he, hw]

/-- A write brings no error into a word. -/
theorem errOf_nil (h : c.Wrote a lanes d) {w : Nat} (hw : c.bank.errOf w = []) : d.bank.errOf w = [] := by
  rw [Bank.errOf, List.map_eq_nil_iff, List.filter_eq_nil_iff] at hw ⊢
  intro e he
  rw [h.err] at he
  exact hw e (List.mem_of_mem_filter he)

/-- Ownership is as it was, so a range that is clear stays so. -/
theorem clear (h : c.Wrote a lanes d) {r : Req} {b n : Nat} (hc : c.bank.clear r b n = true) : d.bank.clear r b n = true := by
  have hgrant (w : Nat) : d.bank.grant r w = c.bank.grant r w := by rw [h.frame]; rfl
  exact Bank.clear_iff.2 (fun w hw => ⟨(hgrant w).trans (Bank.clear_iff.1 hc w hw).1, h.errOf_nil (Bank.clear_iff.1 hc w hw).2⟩)

theorem stored (h : c.Wrote a (bs.map some) d) : c.stored d (· ∈ List.range' a bs.length) := by
  refine ⟨fun x hx => h.get_other ?_, fun w hw => ?_, h.frame⟩
  · exact Decidable.not_and_iff_not_or_not'.1 (mt List.mem_range'_1.2 hx) |>.imp Nat.not_le.1 Nat.not_lt.1
  · have hnot : w ∉ touched a (bs.map some) := by
      rw [touched_map_some, mem_wordsOf]
      rintro ⟨hpos, h1, h2⟩
      exact hw (max a (64 * w)) (by omega) (List.mem_range'_1.2 (by omega))
    rw [h.writeBack]
    exact ⟨h.errOf_untouched hnot, mem_foldl_erase hnot⟩

theorem bytesAt_same (h : c.Wrote a (bs.map some) d) : d.bytesAt (List.range' a bs.length) = bs := by
  rw [Core.bytesAt_range', h.getRange_same]

end Core.Wrote

theorem Core.stored.refl (c : Core) (P : Nat → Prop) : c.stored c P := ⟨fun _ _ => rfl, fun _ _ => ⟨rfl, Iff.rfl⟩, rfl⟩

theorem Core.stored.get_other {c d : Core} {a n : Nat} (h : c.stored d (· ∈ List.range' a n)) {x : Nat} (hx : x < a ∨ a + n ≤ x) :
    Tab.get 0 d.bank.data x = Tab.get 0 c.bank.data x :=
  h.1 x (fun hmem => by have := List.mem_range'_1.1 hmem; omega)

/-- Two stores after one another. -/
theorem Core.stored.trans {c d e : Core} {P Q R : Nat → Prop} (h1 : c.stored d P) (h2 : d.stored e Q) (hR : ∀ x, P x ∨ Q x → R x) : c.stored e R := by
  obtain ⟨hdata1, hword1, hframe1⟩ := h1
  obtain ⟨hdata2, hword2, hframe2⟩ := h2
  have hP (x : Nat) (hx : ¬R x) : ¬P x := fun h => hx (hR x (.inl h))
  have hQ (x : Nat) (hx : ¬R x) : ¬Q x := fun h => hx (hR x (.inr h))
  refine ⟨fun x hx => (hdata2 x (hQ x hx)).trans (hdata1 x (hP x hx)), fun w hw => ?_, ?_⟩
  · obtain ⟨herr1, hwb1⟩ := hword1 w (fun x hx => hP x (hw x hx))
    obtain ⟨herr2, hwb2⟩ := hword2 w (fun x hx => hQ x (hw x hx))
    exact ⟨herr2.trans herr1, hwb2.trans hwb1⟩
  · rw [hframe1] at hframe2
    exact hframe2

/-! ### Windows -/

/-- The offset of a position in its window (R128). -/
def Win.ofs (w : Win) (p : Nat) : Nat := if p < w.size then p else p - w.size

/-- The bytes from a position on that lie before the window's end, at most `n`. -/
def Win.run (w : Win) (p n : Nat) : Nat := min n (w.size - w.ofs p)

section

variable {w : Win} {p n : Nat}

theorem Win.ofs_lt (hp : p < 2 * w.size) : w.ofs p < w.size := by
  unfold Win.ofs
  split <;> omega

theorem Win.addr_eq (w : Win) (p : Nat) : w.addr p = w.base + w.ofs p := rfl

/-- The position `i` further on stands `i` further, or back at the window's start (R129). -/
theorem Win.ofs_advance (hp : p < 2 * w.size) {i : Nat} (hi : i < w.size) :
    w.ofs (w.advance p i) = if w.ofs p + i < w.size then w.ofs p + i else w.ofs p + i - w.size := by
  have hadv : w.advance p i = if p + i < 2 * w.size then p + i else p + i - 2 * w.size := by
    rw [Win.advance, if_neg (by omega)]
    split
    · next h => exact Nat.mod_eq_of_lt h
    · next h => rw [Nat.mod_eq_sub_mod (Nat.not_lt.1 h), Nat.mod_eq_of_lt (by omega)]
  rw [hadv]
  unfold Win.ofs
  split_ifs <;> omega

/-- The addresses of no more than SIZE bytes: a run up to the window's end, and the rest from its start (R129). -/
theorem Win.spots_eq (hp : p < 2 * w.size) (hn : n ≤ w.size) :
    w.spots p n = List.range' (w.base + w.ofs p) (w.run p n) ++ List.range' w.base (n - w.run p n) := by
  have hofs := Win.ofs_lt hp
  have hrun : w.run p n ≤ n := Nat.min_le_left ..
  refine List.ext_getElem (by simp only [Win.spots, List.length_map, List.length_range, List.length_append, List.length_range']; omega) (fun i h1 h2 => ?_)
  have hi : i < n := by simpa [Win.spots] using h1
  have haddr : (w.spots p n)[i] = w.base + (if w.ofs p + i < w.size then w.ofs p + i else w.ofs p + i - w.size) := by
    rw [← Win.ofs_advance hp (by omega), ← Win.addr_eq]
    simp [Win.spots]
  rw [haddr]
  by_cases hfirst : i < w.run p n
  · rw [List.getElem_append_left (by simpa using hfirst), List.getElem_range', if_pos (by unfold Win.run at hfirst; omega)]
    omega
  · rw [List.getElem_append_right (by simpa using hfirst), List.getElem_range', List.length_range', if_neg (by unfold Win.run at hfirst; omega)]
    unfold Win.run at hfirst ⊢
    omega

theorem Win.pieces_eq (hp : p < 2 * w.size) (hn : 0 < n) :
    w.pieces p n = (w.base + w.ofs p, w.run p n) :: if n - w.run p n = 0 then [] else [(w.base, n - w.run p n)] := by
  have hofs := Win.ofs_lt hp
  have hrun : w.run p n ≠ 0 := by
    unfold Win.run
    omega
  exact congrArg (· ++ _) (if_neg hrun)

theorem Win.space_le (w : Win) : w.space ≤ w.size := Nat.sub_le ..

/-- No more than SIZE bytes from a position on do not run into one another. -/
theorem Win.wrapped_le_ofs (hp : p < 2 * w.size) (hn : n ≤ w.size) : n - w.run p n ≤ w.ofs p := by
  have hofs := Win.ofs_lt hp
  unfold Win.run
  omega

end

/-! ### Producing -/

/-- The bytes behind the window's end, if there are any, go to its start (R129). -/
theorem Core.writeWrapped {c : Core} {r : Req} {a : Nat} {bs : List Byte} (h : bs ≠ [] → c.bank.clear r a bs.length = true) (now : Stamp) :
    ∃ d, (if bs = [] then (c, .ok ()) else c.writeBytes r now a bs) = (d, .ok ()) ∧ c.stored d (· ∈ List.range' a bs.length) ∧
      d.bytesAt (List.range' a bs.length) = bs := by
  split
  · next hnil => exact ⟨c, rfl, Core.stored.refl .., by rw [hnil]; rfl⟩
  · next hbs =>
    obtain ⟨d, hwrite, hd⟩ := Core.writeBytes_clear (h hbs) now
    exact ⟨d, hwrite, hd.stored, hd.bytesAt_same⟩

theorem Core.window_congr {c d : Core} (h : d.win = c.win) (k : Nat) : d.window k = c.window k := by
  rw [Core.window, Core.window, h]

theorem Core.stored.win {c d : Core} {P : Nat → Prop} (h : c.stored d P) : d.win = c.win := by
  obtain ⟨-, -, hframe⟩ := h
  rw [hframe]

/-- Bytes for which a window has space land behind one another from its head on, and its head moves behind them (R129, R130). -/
theorem Core.produce_clear {c : Core} {r : Req} {k : Nat} {bs : List Byte} (hpos : 0 < bs.length) (hspace : bs.length ≤ (c.window k).space)
    (hhead : (c.window k).head < 2 * (c.window k).size) (hclear : c.windowClear r (c.window k) (c.window k).head bs.length = true) (now : Stamp) :
    ∃ d, c.produce r now k bs = (d.headOn k bs.length, .ok ()) ∧ c.stored d (· ∈ (c.window k).spots (c.window k).head bs.length) ∧
      d.bytesAt ((c.window k).spots (c.window k).head bs.length) = bs := by
  generalize hw : c.window k = w at hspace hhead hclear
  have hsize : bs.length ≤ w.size := hspace.trans w.space_le
  have hpieces := Win.pieces_eq hhead hpos
  have hspots := Win.spots_eq hhead hsize
  have hapart := Win.wrapped_le_ofs hhead hsize
  have hrun : w.run w.head bs.length ≤ bs.length := Nat.min_le_left ..
  generalize w.run w.head bs.length = m at hpieces hspots hapart hrun
  have htake : (bs.take m).length = m := List.length_take_of_le hrun
  have hdrop : (bs.drop m).length = bs.length - m := List.length_drop
  have hnil : bs.length ≤ m ↔ bs.drop m = [] := List.drop_eq_nil_iff.symm
  rw [Core.windowClear, hpieces, List.all_cons, Bool.and_eq_true] at hclear
  obtain ⟨hclear1, hclear2⟩ := hclear
  obtain ⟨d1, hwrite1, hd1⟩ := Core.writeBytes_clear (bs := bs.take m) (by rwa [htake]) now
  have hrest : bs.drop m ≠ [] → d1.bank.clear r w.base (bs.drop m).length = true := fun hne => by
    rw [if_neg (by rw [← hdrop]; exact mt List.length_eq_zero_iff.1 hne)] at hclear2
    rw [hdrop]
    exact hd1.clear (by simpa using hclear2)
  obtain ⟨d2, hwrite2, hstored2, hbytes2⟩ := Core.writeWrapped hrest now
  have hstored1 := hd1.stored
  have hbytes1 := hd1.bytesAt_same
  rw [htake] at hstored1 hbytes1
  rw [hdrop] at hstored2 hbytes2
  have hstored : c.stored d2 (· ∈ w.spots w.head bs.length) :=
    hstored1.trans hstored2 (fun x hx => by rw [hspots]; exact List.mem_append.2 hx)
  refine ⟨d2, ?_, hstored, ?_⟩
  · have hhead : d2.headOn k bs.length = d2.setWindow k { w with head := w.advance w.head bs.length } := by
      rw [Core.headOn, Core.window_congr hstored.win, hw]
    rw [hhead]
    simp only [Core.produce, hw, hpieces, List.head?_cons, Option.map_some, Option.getD_some, hwrite1, hnil, hwrite2]
  · have hkept : d2.bytesAt (List.range' (w.base + w.ofs w.head) m) = d1.bytesAt (List.range' (w.base + w.ofs w.head) m) :=
      Core.bytesAt_congr (fun x hx => hstored2.get_other (.inr (by have := List.mem_range'_1.1 hx; omega)))
    rw [hspots, Core.bytesAt_append, hkept, hbytes1, hbytes2, List.take_append_drop]

end Sys2Proof.Machine
end

section
/-! Watershed slots (R156 to R162): masks and their blocks, the audit draw, the fetch list of a micro-batch, and what its reports leave. -/

namespace Sys2Proof.Machine

open Sys2Proof

/-! ### Masks -/

theorem mem_maskBits {n m i : Nat} : i ∈ maskBits n m ↔ i < n ∧ m.testBit i = true := by
  rw [maskBits, List.mem_filter, List.mem_range]

theorem maskBits_nodup (n m : Nat) : (maskBits n m).Nodup := List.nodup_range.filter _

/-- Of disjoint masks the blocks add up. -/
theorem length_maskBits_or {n a b : Nat} (h : a &&& b = 0) : (maskBits n (a ||| b)).length = (maskBits n a).length + (maskBits n b).length := by
  have hdisjoint (i : Nat) (ha : a.testBit i = true) (hb : b.testBit i = true) : False := by
    have hbit := congrArg (Nat.testBit · i) h
    simp [ha, hb] at hbit
  have hperm : (maskBits n (a ||| b)).Perm (maskBits n a ++ maskBits n b) := by
    have hnodup : (maskBits n a ++ maskBits n b).Nodup :=
      (maskBits_nodup n a).append (maskBits_nodup n b) (fun i hi hj => hdisjoint i (mem_maskBits.1 hi).2 (mem_maskBits.1 hj).2)
    refine (List.perm_ext_iff_of_nodup (maskBits_nodup ..) hnodup).2 (fun i => ?_)
    simp only [List.mem_append, mem_maskBits, Nat.testBit_or, Bool.or_eq_true]
    tauto
  rw [hperm.length_eq, List.length_append]

/-- The mask of every block. -/
theorem maskBits_all (n : Nat) : maskBits n (2 ^ n - 1) = List.range n :=
  List.filter_eq_self.2 (fun i hi => by rw [Nat.testBit_two_pow_sub_one]; exact decide_eq_true (List.mem_range.1 hi))

theorem testBit_maskOf (l : List Nat) (i : Nat) : (maskOf l).testBit i = true ↔ i ∈ l := by
  have hfold : ∀ a, (l.foldl (fun a i => a ||| 2 ^ i) a).testBit i = true ↔ a.testBit i = true ∨ i ∈ l := by
    induction l with
    | nil => simp
    | cons j l ih =>
      intro a
      rw [List.foldl_cons, ih, Nat.testBit_or, Nat.testBit_two_pow, Bool.or_eq_true, decide_eq_true_eq, List.mem_cons, or_assoc, eq_comm (a := j)]
  simp [maskOf, hfold]

theorem maskOf_lt {n : Nat} {l : List Nat} (h : ∀ i ∈ l, i < n) : maskOf l < 2 ^ n :=
  Nat.lt_pow_two_of_testBit _ (fun i hi => Bool.eq_false_iff.2 (fun hbit => Nat.not_lt.2 hi (h i ((testBit_maskOf l i).1 hbit))))

/-- A mask has as many blocks as went into it. -/
theorem length_maskBits_maskOf {n : Nat} {l : List Nat} (hd : l.Nodup) (h : ∀ i ∈ l, i < n) : (maskBits n (maskOf l)).length = l.length := by
  refine ((List.perm_ext_iff_of_nodup (maskBits_nodup ..) hd).2 (fun i => ?_)).length_eq
  rw [mem_maskBits, testBit_maskOf]
  exact ⟨And.right, fun hi => ⟨h i hi, hi⟩⟩

/-! ### The audit draw (R158, R159) -/

theorem swapAt_perm {l : List Nat} {i x : Nat} (hi : i < l.length) (hx : x < l.length) : (swapAt l i x).Perm l := by
  rw [swapAt, List.getD_eq_getElem _ _ hi, List.getD_eq_getElem _ _ hx]
  exact List.set_set_perm hi hx

/-- A 16-bit draw picks an element that is not behind the end. -/
theorem draw_lt {d i u : Nat} (hd : d < 2 ^ 16) (hi : i < u) : i + d * (u - i) / 2 ^ 16 < u := by
  have hlt : d * (u - i) / 2 ^ 16 < u - i := Nat.div_lt_of_lt_mul (Nat.mul_lt_mul_of_pos_right hd (Nat.sub_pos_of_lt hi))
  omega

/-- The swaps of the draw keep the elements. -/
theorem auditSwaps_perm {draw : Nat → Nat} (hd : ∀ j, draw j < 2 ^ 16) (a i : Nat) (l : List Nat) (h : i + a ≤ l.length) :
    (auditSwaps l.length draw a i l).Perm l := by
  induction a generalizing i l with
  | zero => exact List.Perm.refl _
  | succ a ih =>
    have hi : i < l.length := by omega
    have hswap := swapAt_perm hi (draw_lt (hd i) hi)
    have hrest := ih (i + 1) (swapAt l i (i + draw i * (l.length - i) / 2 ^ 16)) (by rw [hswap.length_eq]; omega)
    rw [hswap.length_eq] at hrest
    exact hrest.trans hswap

theorem laneDraw_lt (key : W64) (stream : W32) (base : BitVec 48) (l : Nat) : laneDraw key stream base l < 2 ^ 16 := Nat.mod_lt _ (by decide)

/-- One unselected block in 16, rounded up, is audited, and none twice. -/
theorem auditOf_draws {un : List Nat} (hd : un.Nodup) (key : W64) (stream : W32) (ctr : BitVec 48) :
    (auditOf key stream ctr un).length = (un.length + 15) / 16 ∧ (auditOf key stream ctr un).Nodup ∧ ∀ i ∈ auditOf key stream ctr un, i ∈ un := by
  have hle : (un.length + 15) / 16 ≤ un.length := by omega
  have hperm := auditSwaps_perm (laneDraw_lt key stream ctr) ((un.length + 15) / 16) 0 un (by omega)
  refine ⟨?_, (hperm.nodup_iff.2 hd).sublist (List.take_sublist ..), fun i hi => hperm.mem_iff.1 (List.mem_of_mem_take hi)⟩
  rw [auditOf, List.length_take, hperm.length_eq]
  exact Nat.min_eq_left hle

/-! ### The fetch list of a micro-batch (R158, R161) -/

/-- The blocks that a selection leaves out. -/
def unselected (nblk : Nat) (sel : BitVec 1024) : List Nat := (List.range nblk).filter (fun i => !sel.getLsbD i)

theorem unselected_eq (nblk : Nat) (sel : BitVec 1024) : (List.range nblk).filter (fun i => !(sel.toNat % 2 ^ nblk).testBit i) = unselected nblk sel := by
  refine List.filter_congr (fun i hi => ?_)
  rw [Nat.testBit_mod_two_pow, decide_eq_true (List.mem_range.1 hi), Bool.true_and]
  rfl

theorem unselected_nodup (nblk : Nat) (sel : BitVec 1024) : (unselected nblk sel).Nodup := List.nodup_range.filter _

theorem mem_unselected {nblk i : Nat} {sel : BitVec 1024} : i ∈ unselected nblk sel ↔ i < nblk ∧ (sel.toNat % 2 ^ nblk).testBit i = false := by
  rw [← unselected_eq, List.mem_filter, List.mem_range, Bool.not_eq_true']

theorem length_maskBits_sel (nblk : Nat) (sel : BitVec 1024) : (maskBits nblk (sel.toNat % 2 ^ nblk)).length = nblk - (unselected nblk sel).length := by
  have hsplit := List.length_eq_length_filter_add (l := List.range nblk) (sel.toNat % 2 ^ nblk).testBit
  rw [unselected_eq, List.length_range] at hsplit
  rw [maskBits]
  omega

/-- The micro-batch that a selection forms outside a dense period. -/
def WsSlot.batchOf (w : WsSlot) (key : W64) (stream : W32) (step : W64) (m : Nat) (sel : BitVec 1024) : WsBatch :=
  { step := step, mb := m, sel := sel.toNat % 2 ^ w.nblk, audited := maskOf (auditOf key stream w.ctr (unselected w.nblk sel)),
    aCount := ((unselected w.nblk sel).length + 15) / 16 }

section Form

variable {w : WsSlot} {sel : BitVec 1024} (key : W64) (stream : W32) (step : W64) (m : Nat)

theorem WsSlot.form_audits (h : w.fallback = false) : w.form key stream step m sel.toNat =
    { w with
      batches := w.batches ++ [w.batchOf key stream step m sel], formed := w.formed ++ [m]
      sel := satAdd w.sel (w.nblk - (unselected w.nblk sel).length), ctr := w.ctr + BitVec.ofNat 48 ((((unselected w.nblk sel).length + 15) / 16 + 3) / 4) } := by
  obtain ⟨hlen, -, -⟩ := auditOf_draws (unselected_nodup w.nblk sel) key stream w.ctr
  simp only [WsSlot.form, h, Bool.false_eq_true, if_false, unselected_eq, length_maskBits_sel, hlen]
  rfl

theorem WsSlot.form_dense (h : w.fallback = true) : w.form key stream step m sel.toNat =
    { w with
      batches := w.batches ++ [{ step := step, mb := m, sel := sel.toNat % 2 ^ w.nblk, dense := true }], formed := w.formed ++ [m]
      remain := w.remain - 1, fallback := decide (1 < w.remain) } := by
  have hleft : decide (0 < w.remain - 1) = decide (1 < w.remain) := decide_eq_decide.2 (by omega)
  simp only [WsSlot.form, h, if_true, hleft]

/-- The audited blocks are blocks of the layer that the selection leaves out, as many as the draw says. -/
theorem WsSlot.batchOf_audited (w : WsSlot) (sel : BitVec 1024) :
    let b := w.batchOf key stream step m sel
    b.audited &&& b.sel = 0 ∧ b.audited < 2 ^ w.nblk ∧ (maskBits w.nblk b.audited).length = b.aCount := by
  intro b
  obtain ⟨hlen, hnodup, hmem⟩ := auditOf_draws (unselected_nodup w.nblk sel) key stream w.ctr
  have hblock : ∀ i ∈ auditOf key stream w.ctr (unselected w.nblk sel), i < w.nblk := fun i hi => (mem_unselected.1 (hmem i hi)).1
  refine ⟨Nat.eq_of_testBit_eq (fun i => ?_), maskOf_lt hblock, (length_maskBits_maskOf hnodup hblock).trans hlen⟩
  rw [Nat.testBit_and, Nat.zero_testBit, Bool.and_eq_false_iff, or_iff_not_imp_left, Bool.not_eq_false]
  exact fun hi => (mem_unselected.1 (hmem i ((testBit_maskOf _ i).1 hi))).2

/-- The final mask counts the selected and the audited blocks. -/
theorem WsSlot.length_batchOf_final (w : WsSlot) (sel : BitVec 1024) :
    (maskBits w.nblk ((w.batchOf key stream step m sel).final w.nblk)).length = w.nblk - (unselected w.nblk sel).length + ((unselected w.nblk sel).length + 15) / 16 := by
  obtain ⟨hdisjoint, -, hcount⟩ := w.batchOf_audited key stream step m sel
  rw [← length_maskBits_sel]
  exact (length_maskBits_or (by rwa [Nat.and_comm] at hdisjoint)).trans (congrArg _ hcount)

end Form

/-! ### The slots of a field -/

theorem Field.slot_fin (x : Field) (n : SlotIx) : x.slot n = x.ws[n] := getD_toList_fin x.ws n {}

theorem Field.setSlot_fin (x : Field) (n : SlotIx) (w : WsSlot) : x.setSlot n w = { x with ws := x.ws.set n.val w } := by
  rw [Field.setSlot, vset_fin]

theorem State.updField_setSlot (s : State) (f : Nat) (n : SlotIx) (g : WsSlot → WsSlot) :
    s.updField f (fun x => x.setSlot n (g (x.slot n))) = s.withField f (fun x => { x with ws := x.ws.set n.val (g (s.field f).ws[n]) }) := by
  have hset : ∀ x : Field, x = s.field f → x.setSlot n (g (x.slot n)) = { x with ws := x.ws.set n.val (g (s.field f).ws[n]) } := by
    rintro x rfl
    rw [Field.setSlot_fin, Field.slot_fin]
  simp only [State.updField, Tab.upd, State.withField, ← hset (s.field f) rfl]
  rfl

theorem State.updField_eq_withField (s : State) (f : Nat) (g : Field → Field) : s.updField f g = s.withField f g := rfl

/-! ### WS_SELECTION -/

/-- The packets that carry the fetch record of a micro-batch to the cores of slot n's layer (R158). -/
def State.records (s : State) (f n : Nat) (w : WsSlot) (m mask : Nat) (dense : Bool) : List MeshPkt :=
  (w.cores.filterMap (fun l => (s.part w.part).siteOf (s.part w.part).placement l)).map (fun k =>
    { src := 4096 + f, kind := 0, dst := k, addr := w.frecAddr, bytes := fetchRecord n m (maskBits w.nblk mask).length dense mask, rsemEn := true, rsem := w.frecSem })

/-- The fields of the record that such a packet carries (Table 5.6). -/
theorem State.records_eq (s : State) (f n : Nat) {w : WsSlot} {mask len : Nat} (h : (maskBits w.nblk mask).length = len) (m : Nat) (dense : Bool) :
    s.records f n w m mask dense = (w.cores.filterMap (fun l => (s.part w.part).siteOf (s.part w.part).placement l)).map (fun k =>
      { src := 4096 + f, kind := 0, dst := k, addr := w.frecAddr, rsemEn := true, rsem := w.frecSem,
        bytes := bytesLE m 2 ++ bytesLE n 1 ++ [2] ++ bytesLE len 2 ++ bytesLE (if dense then 1 else 0) 1 ++ List.replicate 9 0 ++ bytesLE mask 128 }) := by
  subst h
  rfl

/-- The field once slot n has become `w` and the final mask of micro-batch m stands in the stack. -/
def Field.listed (x : Field) (n : SlotIx) (w : WsSlot) (m mask : Nat) : Field :=
  { x.hbmWrite (w.maskAddr m) (bytesLE mask 128) with ws := x.ws.set n.val w }

/-- The module once field f has the list of micro-batch m and its fetch records are on their way. -/
def State.listed (s : State) (f : FieldIx) (n : SlotIx) (w : WsSlot) (m mask : Nat) (dense : Bool) : State :=
  { s.withField f (fun x => x.listed n w m mask) with mesh := s.mesh ++ s.records f n w m mask dense }

theorem State.sendRecord_eq {s : State} {f n : Nat} {w : WsSlot} (h : (s.field f).slot n = w) (m mask : Nat) (dense : Bool) :
    s.sendRecord f n m mask dense = { s with mesh := s.mesh ++ s.records f n w m mask dense } := by
  subst h
  rfl

section Listed

variable (s : State) (f : FieldIx) (n : SlotIx) (w : WsSlot) (m mask : Nat) (dense : Bool)

theorem State.field_listed : (s.listed f n w m mask dense).field f = (s.field f).listed n w m mask :=
  (State.field_withField s f f (fun x => x.listed n w m mask)).trans (if_pos rfl)

theorem State.field_listed_other {g : Nat} (h : g ≠ f.val) : (s.listed f n w m mask dense).field g = s.field g :=
  (State.field_withField s f g (fun x => x.listed n w m mask)).trans (if_neg h)

theorem State.slot_listed : ((s.listed f n w m mask dense).field f).ws[n] = w := by
  rw [State.field_listed]
  exact Vector.getElem_set_self n.isLt

/-- The mask stands in the stack, and nothing else of the module has changed but the slot and the mesh. -/
theorem State.listed_frame :
    let t := s.listed f n w m mask dense
    Tab.getRange 0 (t.field f).hbm (w.maskAddr m) 128 = bytesLE mask 128 ∧
    (∀ x, x < w.maskAddr m ∨ w.maskAddr m + 128 ≤ x → Tab.get 0 (t.field f).hbm x = Tab.get 0 (s.field f).hbm x) ∧
    t = { s with fields := t.fields, mesh := t.mesh } ∧ (∀ g, g ≠ f.val → t.field g = s.field g) ∧
    t.field f = { s.field f with hbm := (t.field f).hbm, hbmBad := (t.field f).hbmBad, ws := (s.field f).ws.set n.val (t.field f).ws[n] } := by
  intro t
  have hlen : (bytesLE mask 128).length = 128 := length_bytesLE mask 128
  have ht : t.field f = (s.field f).listed n w m mask := s.field_listed f n w m mask dense
  refine ⟨?_, fun x hx => ?_, rfl, fun g hg => s.field_listed_other f n w m mask dense hg, ?_⟩
  · have hsame := Field.hbmWrite_same (s.field f) (w.maskAddr m) (bytesLE mask 128)
    rw [hlen] at hsame
    rw [ht]
    exact hsame
  · rw [ht]
    exact Field.hbmWrite_other (s.field f) (w.maskAddr m) (bytesLE mask 128) x (by rwa [hlen])
  · rw [show (t.field f).ws[n] = w from s.slot_listed f n w m mask dense, ht]
    rfl

end Listed

section Selection

variable {s : State} {f : FieldIx} {n : SlotIx} {m sel : Nat} {w : WsSlot}

theorem State.wsSelection_refused (hw : (s.field f).ws[n] = w) (h : w.en = false ∨ m ∈ w.formed) :
    s.wsSelection f n m sel = s.withField f (fun x => { x with ws := x.ws.set n.val { w with badmsg := true } }) := by
  have hbad : (!w.en || w.formed.contains m) = true := by
    rcases h with h | h <;> simp [h]
  have hput := s.updField_setSlot f n (fun _ => w.bad)
  simp only [State.wsSelection, Field.slot_fin, hw, hbad, if_true, hput]
  rfl

/-- A selection whose list a slot forms as `w1`, with the micro-batch `b` as its last one. -/
theorem State.wsSelection_forms (hw : (s.field f).ws[n] = w) (hen : w.en = true) (hnew : m ∉ w.formed) {b : WsBatch} {rem : Nat} {fb : Bool} {sl : W32}
    {ct : BitVec 48} {w1 : WsSlot}
    (hform : w.form (auditKey (s.part w.part)) (BitVec.ofNat 32 (32 * f + n)) (s.part w.part).stepNow m sel = w1)
    (hw1 : w1 = { w with batches := w.batches ++ [b], formed := w.formed ++ [m], sel := sl, ctr := ct, remain := rem, fallback := fb }) :
    s.wsSelection f n m sel = s.listed f n w1 m (b.final w.nblk) b.dense := by
  have hgood : (!w.en || w.formed.contains m) = false := by simp [hen, hnew]
  have hlast : w1.batches.getLast?.getD {} = b := by simp [hw1]
  have hfield : (fun x : Field => (x.hbmWrite (w.maskAddr m) (bytesLE (b.final w.nblk) 128)).setSlot n w1) = fun x => x.listed n w1 m (b.final w.nblk) := by
    funext x
    rw [Field.setSlot_fin, Field.listed, hw1]
    rfl
  have hslot : ((s.withField f (fun x => x.listed n w1 m (b.final w.nblk))).field f).slot n = w1 :=
    (Field.slot_fin _ n).trans (s.slot_listed f n w1 m (b.final w.nblk) b.dense)
  simp only [State.wsSelection, Field.slot_fin, hw, hgood, Bool.false_eq_true, if_false, hform, hlast, hfield, State.updField_eq_withField]
  exact State.sendRecord_eq hslot m (b.final w.nblk) b.dense

end Selection

/-! ### WS_ACTIVITY_REPORT (R160 to R162) -/

section Report

variable {w : WsSlot} {b : WsBatch} {m : Nat}

theorem WsSlot.report_unknown (h : ∀ b ∈ w.batches, b.mb ≠ m) (act : Nat) : w.report m act = { w with badmsg := true } := by
  have hnone : w.batches.find? (fun b => b.mb = m) = none := List.find?_eq_none.2 (fun b hb => by simpa using h b hb)
  simp only [WsSlot.report, hnone]
  rfl

theorem WsSlot.find?_single (hb : w.batches = [b]) (hm : b.mb = m) : w.batches.find? (fun b => b.mb = m) = some b := by simp [hb, hm]

theorem WsSlot.report_refused (hb : w.batches = [b]) (hm : b.mb = m) (h : w.en = false ∨ w.reports ≤ b.reports) (act : Nat) :
    w.report m act = { w with badmsg := true } := by
  have hfind := WsSlot.find?_single hb hm
  have hbad : (!w.en || decide (w.reports ≤ b.reports)) = true := by
    rcases h with h | h <;> simp [h]
  simp only [WsSlot.report, hfind, hbad, if_true]
  rfl

/-- A report that a slot awaits is ORed into those of its micro-batch; the last one is followed by the evaluation. -/
theorem WsSlot.report_kept (hen : w.en = true) (hb : w.batches = [b]) (hm : b.mb = m) (h : b.reports < w.reports) (act : Nat) :
    let y := b.y ||| act % 2 ^ w.nblk
    let w1 : WsSlot := { w with batches := [{ b with reports := b.reports + 1, y := y }] }
    w.report m act = if b.reports + 1 = w.reports then w1.evaluate b y else w1 := by
  have hfind := WsSlot.find?_single hb hm
  have hgood : (!w.en || decide (w.reports ≤ b.reports)) = false := by simp [hen, h]
  subst hm
  simp only [WsSlot.report, hfind, hgood, Bool.false_eq_true, if_false]
  simp only [hb, List.map_cons, List.map_nil, if_true]

theorem WsSlot.evaluate_dense (h : b.dense = true) (y : Nat) : w.evaluate b y = w := if_pos h

/-- The audited blocks that were active, and the selected ones that were not (R160). -/
def WsSlot.counted (w : WsSlot) (b : WsBatch) (y : Nat) : WsSlot :=
  { w with
    lastA := b.aCount, lastMiss := (maskBits w.nblk (y &&& b.audited)).length, aud := satAdd w.aud b.aCount
    miss := satAdd w.miss (maskBits w.nblk (y &&& b.audited)).length
    false_ := satAdd w.false_ ((List.range w.nblk).filter (fun i => b.sel.testBit i && !y.testBit i)).length }

/-- The evaluation compares the misses with the bound unless a dense period runs; the fourth exceedance in a row starts one (R161). -/
theorem WsSlot.evaluate_sparse (h : b.dense = false) (y : Nat) :
    let misses := (maskBits w.nblk (y &&& b.audited)).length
    (w.fallback = true → w.evaluate b y = w.counted b y) ∧
    (w.fallback = false → 256 * misses ≤ w.missBound * b.aCount → w.evaluate b y = { w.counted b y with run := 0 }) ∧
    (w.fallback = false → w.missBound * b.aCount < 256 * misses → w.run ≠ 3 → w.evaluate b y = { w.counted b y with run := w.run + 1 }) ∧
    (w.fallback = false → w.missBound * b.aCount < 256 * misses → w.run = 3 →
      w.evaluate b y = { w.counted b y with run := 0, fallback := true, remain := w.denseSlots, fallbacks := satAdd w.fallbacks 1 }) := by
  intro misses
  have hidle : (maskBits w.nblk b.sel).filter (fun i => !y.testBit i) = (List.range w.nblk).filter (fun i => b.sel.testBit i && !y.testBit i) := by
    rw [maskBits, List.filter_filter]
    exact List.filter_congr (fun i _ => Bool.and_comm ..)
  simp only [WsSlot.evaluate, h, hidle, Bool.false_eq_true, if_false]
  refine ⟨fun hf => if_pos hf, fun hf hle => ?_, fun hf hlt hrun => ?_, fun hf hlt hrun => ?_⟩
  · rw [if_neg (by simp [hf]), if_neg (Nat.not_lt.2 hle)]
    rfl
  · rw [if_neg (by simp [hf]), if_pos hlt, if_neg (by omega)]
    rfl
  · rw [if_neg (by simp [hf]), if_pos hlt, if_pos (by rw [hrun])]
    rfl

end Report

end Sys2Proof.Machine
end

section
/-! Stream lists (R163, R203 to R206, R232): how a pass is prepared, and what a tile that is sent leaves. -/

namespace Sys2Proof

variable {α : Type}

theorem Tab.del_ins (t : Tab α) (x : Nat) (v : α) : Tab.del (Tab.ins t x v) x = Tab.del t x := by
  induction t with
  | nil => simp [Tab.ins, Tab.del]
  | cons p t ih =>
    unfold Tab.ins
    split
    · simp [Tab.del]
    · simp only [Tab.del, List.filter_cons] at ih ⊢
      rw [ih]

theorem Tab.del_del (t : Tab α) (x : Nat) : Tab.del (Tab.del t x) x = Tab.del t x := by simp [Tab.del]

/-- A second write of a key takes the place of the first. -/
theorem Tab.set_set [DecidableEq α] (d : α) (t : Tab α) (x : Nat) (v w : α) : Tab.set d (Tab.set d t x v) x w = Tab.set d t x w := by
  have hdel : Tab.del (Tab.set d t x v) x = Tab.del t x := by
    rw [Tab.set]
    split
    · exact Tab.del_del t x
    · rw [Tab.del_ins, Tab.del_del]
  rw [Tab.set, hdel]
  rfl

end Sys2Proof

namespace Sys2Proof.Machine

open Sys2Proof

/-! ### A core put in place twice -/

section

variable (s : State) (k : Nat) (c d : Core)

theorem State.core_setCore_same : (s.setCore k c).core k = c := (s.core_setCore k k c).trans (if_pos rfl)

theorem State.setCore_setCore : (s.setCore k c).setCore k d = s.setCore k d := by simp only [State.setCore, Tab.set_set]

theorem State.raiseFault_setCore (kind detail pc : Nat) : (s.setCore k c).raiseFault k d kind detail pc = s.raiseFault k d kind detail pc := by
  simp only [State.raiseFault, State.setCore, Tab.set_set]
  rfl

theorem State.putCore_setCore : (s.setCore k c).putCore k d = s.putCore k d := by
  have hnow : (s.setCore k c).coreNow = s.coreNow := rfl
  obtain ⟨c1, hpump, -⟩ | ⟨c1, kind, det, pc, hpump, -⟩ := State.putCore_cases s k d
  · simp only [State.putCore, hnow, hpump, State.setCore_setCore]
  · simp only [State.putCore, hnow, hpump, State.raiseFault_setCore]

end

/-! ### The start of an entry (R203) -/

/-- The core with its entry in its first pass. -/
def Core.onPass (c : Core) (step : Option W64) (ready : Bool) (l : List Nat) : Core :=
  { c with stream := { c.stream with step := step, active := true, pass := 0, ready := ready, todo := l, moved := 0 } }

/-- The core with the tiles of its present pass listed. -/
def Core.prepared (c : Core) (l : List Nat) : Core := { c with stream := { c.stream with ready := true, todo := l, moved := 0 } }

/-- The fetch record of a backward pass for site k, with the mask that the stack holds for micro-batch m of a slot. -/
def backwardRecord (k : Nat) (w : WsSlot) (slot m mask : Nat) : MeshPkt :=
  { src := 4096 + k / 64, kind := 0, dst := k, addr := w.frecAddr, rsemEn := true, rsem := w.frecSem,
    bytes := bytesLE m 2 ++ bytesLE slot 1 ++ [2] ++ bytesLE (maskBits w.nblk mask).length 2 ++
      [if ((w.batches.find? (fun b => b.mb = m)).map WsBatch.dense).getD false then 1 else 0] ++ List.replicate 9 0 ++ bytesLE mask 128 }

/-- Byte 6 of a fetch record tells a dense period (Table 5.6). -/
theorem fetchRecord_flag (slot mb n : Nat) (dense : Bool) (mask : Nat) : fetchRecord slot mb n dense mask =
    bytesLE mb 2 ++ bytesLE slot 1 ++ [2] ++ bytesLE n 2 ++ [if dense then 1 else 0] ++ List.replicate 9 0 ++ bytesLE mask 128 := by
  cases dense <;> rfl

theorem State.preparePass_ready {s : State} {k : Nat} (h : (s.core k).stream.ready = true) : s.preparePass k = s := if_pos h

section PreparePass

variable {s : State} {k : Nat} {c : Core} (hr : c.stream.ready = false)
include hr

theorem State.preparePass_all (hw : c.streamEntry.wsen = false) :
    (s.setCore k c).preparePass k = s.setCore k (c.prepared (List.range c.streamEntry.ntile)) := by
  simp only [State.preparePass, State.core_setCore_same, hr, hw, Bool.not_false, Bool.false_eq_true, if_false, if_true, State.setCore_setCore]
  rfl

section Forward

variable (hw : c.streamEntry.wsen = true) (hx : c.streamEntry.xp = 0)
include hw hx

/-- A forward pass waits for its list (R158). -/
theorem State.preparePass_unformed
    (hl : ((s.field (k / 64)).slot c.streamEntry.wslot).listOf (c.stream.step.getD 0) (c.streamEntry.mb0 + c.stream.pass) = none) :
    (s.setCore k c).preparePass k = s.setCore k c := by
  have hfield : (s.setCore k c).field (k / 64) = s.field (k / 64) := rfl
  have hforward : c.streamEntry.backward = false := by simp [StreamEntry.backward, hx]
  simp only [State.preparePass, State.core_setCore_same, hfield, hr, hw, hforward, hl, Bool.not_false, Bool.not_true, Bool.false_eq_true, if_false, if_true]

theorem State.preparePass_formed {bs : List Nat}
    (hl : ((s.field (k / 64)).slot c.streamEntry.wslot).listOf (c.stream.step.getD 0) (c.streamEntry.mb0 + c.stream.pass) = some bs) :
    (s.setCore k c).preparePass k =
      s.setCore k (c.prepared (bs.flatMap (blockTiles c.streamEntry ((s.field (k / 64)).slot c.streamEntry.wslot).nblk))) := by
  have hfield : (s.setCore k c).field (k / 64) = s.field (k / 64) := rfl
  have hforward : c.streamEntry.backward = false := by simp [StreamEntry.backward, hx]
  simp only [State.preparePass, State.core_setCore_same, hfield, hr, hw, hforward, hl, Bool.not_false, Bool.not_true, Bool.false_eq_true, if_false, if_true,
    State.setCore_setCore]
  rfl

end Forward

section Backward

variable (hw : c.streamEntry.wsen = true) (hx : c.streamEntry.xp ≠ 0)
include hw hx

/-- A backward pass takes the blocks of the mask in the stack, and its fetch record goes to the streaming core alone (R163; the model's choice, log 71). -/
theorem State.preparePass_mask {w : WsSlot} {m : Nat} {bytes : List Byte} (hslot : (s.field (k / 64)).slot c.streamEntry.wslot = w)
    (hm : c.streamEntry.mb0 + c.stream.pass = m) (hread : (s.field (k / 64)).hbmRead (w.maskAddr m) 128 = .ok bytes) :
    (s.setCore k c).preparePass k =
      { s.setCore k (c.prepared ((maskBits w.nblk (natLE bytes % 2 ^ w.nblk)).flatMap (blockTiles c.streamEntry w.nblk))) with
        mesh := s.mesh ++ [backwardRecord k w c.streamEntry.wslot m (natLE bytes % 2 ^ w.nblk)] } := by
  have hfield : (s.setCore k c).field (k / 64) = s.field (k / 64) := rfl
  have hback : c.streamEntry.backward = true := decide_eq_true hx
  simp only [State.preparePass, State.core_setCore_same, hfield, hslot, hm, hr, hw, hback, hread, Bool.not_true, Bool.false_eq_true, if_false]
  simp only [State.setCore, Tab.set_set, fetchRecord_flag]
  rfl

theorem State.preparePass_unread {u : Nat}
    (hread : (s.field (k / 64)).hbmRead (((s.field (k / 64)).slot c.streamEntry.wslot).maskAddr (c.streamEntry.mb0 + c.stream.pass)) 128 = .error u) :
    (s.setCore k c).preparePass k = (s.setCore k c).trap k 0x51 u := by
  have hfield : (s.setCore k c).field (k / 64) = s.field (k / 64) := rfl
  have hback : c.streamEntry.backward = true := decide_eq_true hx
  simp only [State.preparePass, State.trap, State.core_setCore_same, hfield, hr, hw, hback, hread, Bool.not_true, Bool.false_eq_true, if_false]

end Backward

end PreparePass

section StreamStart

variable {s : State} {k p : Nat}

theorem State.streamStart_idle (hp : s.runsOn k = none) : s.streamStart k = s := by simp only [State.streamStart, hp]

theorem State.streamStart_busy (hp : s.runsOn k = some p) (h : (s.core k).stream.active = true ∨ (s.core k).streams = [] ∨ (s.core k).seq.st = .faulted) :
    s.streamStart k = s := by
  have hbusy : ((s.core k).stream.active || (s.core k).streams.isEmpty || decide ((s.core k).seq.st = .faulted)) = true := by
    simpa [or_assoc] using h
  simp only [State.streamStart, hp, hbusy, if_true]

/-- A STEP entry waits while its partition is held. -/
theorem State.streamStart_held (hp : s.runsOn k = some p) (hstep : (s.core k).streamEntry.step = true) (h : (s.part p).hold ≠ [] ∨ (s.core k).held = true) :
    s.streamStart k = s := by
  have hheld : ((s.core k).streamEntry.step && (!(s.part p).hold.isEmpty || (s.core k).held)) = true := by simpa [hstep] using h
  simp only [State.streamStart, hp, hheld, if_true, ite_self]

theorem State.streamStart_begins (hp : s.runsOn k = some p) (ha : (s.core k).stream.active = false) (hl : (s.core k).streams ≠ [])
    (hf : (s.core k).seq.st ≠ .faulted) (h : (s.core k).streamEntry.step = false ∨ (s.part p).hold = [] ∧ (s.core k).held = false) :
    s.streamStart k = (s.setCore k ((s.core k).onPass ((s.core k).nextStream (s.part p).step) false [])).preparePass k := by
  have hfree : ((s.core k).stream.active || (s.core k).streams.isEmpty || decide ((s.core k).seq.st = .faulted)) = false := by simp [ha, hl, hf]
  have hopen : ((s.core k).streamEntry.step && (!(s.part p).hold.isEmpty || (s.core k).held)) = false := by
    rcases h with h | ⟨h1, h2⟩
    · simp [h]
    · simp [h1, h2]
  simp only [State.streamStart, hp, hfree, hopen, Bool.false_eq_true, if_false]
  rfl

end StreamStart

/-! ### A tile that is sent (R203 to R206) -/

theorem State.streamFail_eq (s : State) (k kind d : Nat) :
    s.streamFail k kind d = (s.withCore k (fun c => { c with stream := { c.stream with active := false } })).trap k kind d := by
  have hpc : ((s.withCore k (fun c => { c with stream := { c.stream with active := false } })).core k).seq.pc = (s.core k).seq.pc := by
    rw [State.core_withCore, if_pos rfl]
  rw [State.trap, hpc]
  rfl

theorem Core.post_one {c : Core} {k : Nat} (h : (c.L k).toNat < 65535) : c.post k 1 = (c.posted k, .ok ()) :=
  Core.post_ok (Nat.succ_le_of_lt h)

/-- Where the list stands after the last tile of a pass (R203). -/
def Core.nextPos (c : Core) : StreamPos :=
  if c.stream.pass + 1 < c.streamEntry.rep then { c.stream with pass := c.stream.pass + 1, ready := false, todo := [], moved := 0 }
  else { step := c.stream.step, entry := if c.streamEntry.last || c.streams.length ≤ c.stream.entry + 1 then 0 else c.stream.entry + 1 }

theorem Core.streamEntry_congr {c d : Core} (hs : d.stream = c.stream) (hl : d.streams = c.streams) : d.streamEntry = c.streamEntry := by
  simp only [Core.streamEntry, hs, hl]

theorem Core.nextPos_congr {c d : Core} (hs : d.stream = c.stream) (hl : d.streams = c.streams) : d.nextPos = c.nextPos := by
  simp only [Core.nextPos, Core.streamEntry_congr hs hl, hs, hl]

section TileGone

variable {s : State} {k count : Nat} {c : Core}

theorem State.tileGone_more (h : c.stream.todo.drop count ≠ []) :
    (s.setCore k c).tileGone k count = s.putCore k { c with stream := { c.stream with todo := c.stream.todo.drop count, moved := 0 } } := by
  have hleft : (!(c.stream.todo.drop count).isEmpty) = true := by simpa using h
  simp only [State.tileGone, State.core_setCore_same, hleft, if_true, State.putCore_setCore]

/-- The last tile of a pass posts the entry's semaphore. -/
theorem State.tileGone_last (h : c.stream.todo.drop count = []) (hsem : (c.L c.streamEntry.sem).toNat < 65535) :
    (s.setCore k c).tileGone k count = s.putCore k (({ c with stream := c.nextPos } : Core).posted c.streamEntry.sem) := by
  have hpost : ({ c with stream := c.nextPos } : Core).post c.streamEntry.sem 1 = _ := Core.post_one hsem
  unfold Core.nextPos at hpost
  simp only [State.tileGone, State.core_setCore_same, h, List.isEmpty_nil, Bool.not_true, Bool.false_eq_true, if_false, hpost, State.putCore_setCore]
  rfl

end TileGone

/-- Producing leaves the stream lists and the semaphores alone. -/
theorem Core.stored.headOn_keeps {c d : Core} {P : Nat → Prop} (h : c.stored d P) (k n : Nat) :
    (d.headOn k n).stream = c.stream ∧ (d.headOn k n).streams = c.streams ∧ (d.headOn k n).sem = c.sem := by
  obtain ⟨-, -, hframe⟩ := h
  rw [Core.headOn, Core.setWindow]
  split <;> rw [hframe] <;> exact ⟨rfl, rfl, rfl⟩

/-- The list of site k is under way, with the tile x as the next one of its pass, and no fetch record of it is on its way. -/
structure State.SendsTile (s : State) (k x : Nat) (r : List Nat) : Prop where
  runs : (s.runsOn k).isSome = true
  active : (s.core k).stream.active = true
  ready : (s.core k).stream.ready = true
  arrived : ((s.core k).streamEntry.wsen && s.mesh.any (fun m => m.dst = k && m.src = controllerSrc (k / 64))) = false
  todo : (s.core k).stream.todo = x :: r

theorem State.SendsTile.drop_todo {s : State} {k x : Nat} {r : List Nat} (h : s.SendsTile k x r) {count : Nat} (hcount : 1 ≤ count) :
    (s.core k).stream.todo.drop count = r.drop (count - 1) := by
  obtain ⟨j, rfl⟩ := Nat.exists_eq_add_of_le' hcount
  rw [h.todo, List.drop_succ_cons, Nat.add_sub_cancel]

theorem noRecord_iff (wsen : Bool) (l : List MeshPkt) (k : Nat) :
    (wsen && l.any (fun m => m.dst = k && m.src = controllerSrc (k / 64))) = false ↔ (wsen = true → ∀ m ∈ l, m.dst ≠ k ∨ m.src ≠ controllerSrc (k / 64)) := by
  simp only [ne_eq, Bool.and_eq_false_imp, List.any_eq_false, Bool.and_eq_true, decide_eq_true_eq, not_and_or]

section StreamSend

variable {s : State} {k : Nat}

theorem State.streamSend_idle (h : s.runsOn k = none ∨ (s.core k).stream.active = false) : s.streamSend k = s := by
  unfold State.streamSend
  split
  · rfl
  · next hp =>
    have ha : (s.core k).stream.active = false := h.resolve_left (by rw [hp]; exact Option.some_ne_none _)
    rw [if_pos (by rw [ha]; rfl)]

/-- A watershed stream waits while its fetch record is on its way. -/
theorem State.streamSend_awaits {p : Nat} (hp : s.runsOn k = some p) (ha : (s.core k).stream.active = true) (hr : (s.core k).stream.ready = true)
    (h : ((s.core k).streamEntry.wsen && s.mesh.any (fun m => m.dst = k && m.src = controllerSrc (k / 64))) = true) : s.streamSend k = s := by
  simp only [State.streamSend, hp, ha, State.preparePass_ready hr, h, Bool.not_true, Bool.false_eq_true, if_false, Bool.or_true, if_true]

variable {x : Nat} {r : List Nat} {u : StreamUnit} (h : s.SendsTile k x r) (hu : (s.core k).streamEntry.unitAt (s.field (k / 64)) x = u)
include h hu

theorem State.streamSend_bad (hb : u.bad = true) :
    s.streamSend k = s.streamFail k 0x52 (256 * (s.core k).stream.entry + (s.core k).streamEntry.xp) := by
  obtain ⟨p, hp⟩ := Option.isSome_iff_exists.1 h.runs
  simp only [State.streamSend, hp, h.active, State.preparePass_ready h.ready, h.ready, h.arrived, h.todo, hu, hb, Bool.not_true, Bool.or_self, Bool.false_eq_true,
    if_false, if_true]

theorem State.streamSend_pending (hb : u.bad = false) (hm : (s.core k).stream.moved = 0) (hpend : u.addrs.any (s.field (k / 64)).tilePending = true) :
    s.streamSend k = s := by
  obtain ⟨p, hp⟩ := Option.isSome_iff_exists.1 h.runs
  simp only [State.streamSend, hp, h.active, State.preparePass_ready h.ready, h.ready, h.arrived, h.todo, hu, hb, hm, hpend, Bool.not_true, Bool.or_self,
    Bool.false_eq_true, if_false, decide_true, Bool.and_self, if_true]

variable (hb : u.bad = false) (hpend : (decide ((s.core k).stream.moved = 0) && u.addrs.any (s.field (k / 64)).tilePending) = false)
include hb hpend

theorem State.streamSend_unread {a : Nat} (hread : (s.field (k / 64)).readAll u.len u.addrs = .error a) : s.streamSend k = s.streamFail k 0x51 a := by
  obtain ⟨p, hp⟩ := Option.isSome_iff_exists.1 h.runs
  simp only [State.streamSend, hp, h.active, State.preparePass_ready h.ready, h.ready, h.arrived, h.todo, hu, hb, hpend, hread, Bool.not_true, Bool.or_self,
    Bool.false_eq_true, if_false]

variable {raws : List Nat} {bytes : List Byte} {n : Nat} (hread : (s.field (k / 64)).readAll u.len u.addrs = .ok raws)
  (hbytes : (u.out raws).drop (s.core k).stream.moved = bytes) (hn : min bytes.length ((s.core k).window (s.core k).streamEntry.win).space = n)
include hread hbytes hn

theorem State.streamSend_full (h0 : n = 0) (hne : bytes ≠ []) : s.streamSend k = s := by
  obtain ⟨p, hp⟩ := Option.isSome_iff_exists.1 h.runs
  have hfull : (decide (n = 0) && !bytes.isEmpty) = true := by simp [h0, hne]
  simp only [State.streamSend, hp, h.active, State.preparePass_ready h.ready, h.ready, h.arrived, h.todo, hu, hb, hpend, hread, hbytes, hn, hfull, Bool.not_true,
    Bool.or_self, Bool.false_eq_true, if_false, if_true]

theorem State.streamSend_moves (h0 : 0 < n) {c1 : Core}
    (hprod : (s.core k).produce .dma s.coreNow (s.core k).streamEntry.win (bytes.take n) = (c1, .ok ())) :
    s.streamSend k = if n < bytes.length then s.putCore k { c1 with stream := { c1.stream with moved := c1.stream.moved + n } }
      else (s.setCore k c1).tileGone k u.count := by
  obtain ⟨p, hp⟩ := Option.isSome_iff_exists.1 h.runs
  have hspace : (decide (n = 0) && !bytes.isEmpty) = false := by simp [Nat.pos_iff_ne_zero.1 h0]
  simp only [State.streamSend, hp, h.active, State.preparePass_ready h.ready, h.ready, h.arrived, h.todo, hu, hb, hpend, hread, hbytes, hn, hspace, hprod,
    Bool.not_true, Bool.or_self, Bool.false_eq_true, if_false]

/-- The tile goes into its window as far as that has space, where the words there can be written (R130). -/
theorem State.streamSend_produces (h0 : 0 < n)
    (hhead : ((s.core k).window (s.core k).streamEntry.win).head < 2 * ((s.core k).window (s.core k).streamEntry.win).size)
    (hclear : (s.core k).windowClear .dma ((s.core k).window (s.core k).streamEntry.win) ((s.core k).window (s.core k).streamEntry.win).head n = true) :
    let w := (s.core k).window (s.core k).streamEntry.win
    ∃ d, (s.core k).stored d (· ∈ w.spots w.head n) ∧ d.bytesAt (w.spots w.head n) = bytes.take n ∧
      s.streamSend k = if n < bytes.length then
          s.putCore k { d.headOn (s.core k).streamEntry.win n with stream := { (s.core k).stream with moved := (s.core k).stream.moved + n } }
        else (s.setCore k (d.headOn (s.core k).streamEntry.win n)).tileGone k u.count := by
  have hlen : (bytes.take n).length = n := List.length_take_of_le (hn ▸ Nat.min_le_left ..)
  obtain ⟨d, hprod, hstored, hput⟩ := Core.produce_clear (r := .dma) (bs := bytes.take n) (by rwa [hlen])
    (by rw [hlen, ← hn]; exact Nat.min_le_right ..) hhead (by rwa [hlen]) s.coreNow
  rw [hlen] at hprod hstored hput
  obtain ⟨hstream, -, -⟩ := hstored.headOn_keeps (s.core k).streamEntry.win n
  have hmoves := State.streamSend_moves h hu hb hpend hread hbytes hn h0 hprod
  rw [hstream] at hmoves
  exact ⟨d, hstored, hput, hmoves⟩

end StreamSend

end Sys2Proof.Machine

open Sys2Proof Sys2Proof.Machine

/-- Settles O39: the start of an entry prepares its first pass; a tile that is sent is produced into its window; a selection forms its list by the audit
draw, and a report is kept or evaluated. -/
theorem streamsAndWatershedComplete : Obligations.StreamsAndWatershedComplete := by
  unfold Obligations.StreamsAndWatershedComplete
  refine ⟨fun k s => ?streams, fun f n m s => ?slots⟩
  case streams =>
    intro c e f off
    refine ⟨fun hp => ⟨next_congr (State.streamStart_idle hp), next_congr (State.streamSend_idle (.inl hp))⟩, fun p hp => ?_⟩
    refine ⟨fun h => next_congr (State.streamStart_busy hp h), fun hstep h => next_congr (State.streamStart_held hp hstep h), ?start,
      fun ha => next_congr (State.streamSend_idle (.inr ha)), ?await, ?send⟩
    case start =>
      intro ha hl hf hopen step w go tiles b
      let d := c.onPass step false []
      have hbegin : s.streamStart k = (s.setCore k d).preparePass k := State.streamStart_begins hp ha hl hf hopen
      have hready : d.stream.ready = false := rfl
      refine ⟨fun hw => ?_, fun hw hx hb => ?_, fun x hw hx hb => ?_, fun bytes hw hx hread => ?_, fun u hw hx hread => ?_⟩
      · exact next_congr (hbegin.trans (State.preparePass_all hready hw))
      · have hlist : w.listOf (step.getD 0) (e.mb0 + 0) = none := congrArg (Option.map _) hb
        exact next_congr (hbegin.trans (State.preparePass_unformed hready hw hx hlist))
      · have hlist : w.listOf (step.getD 0) (e.mb0 + 0) = some (maskBits w.nblk (x.final w.nblk)) := congrArg (Option.map _) hb
        exact next_congr (hbegin.trans (State.preparePass_formed hready hw hx hlist))
      · have hmask := State.preparePass_mask (s := s) (k := k) (c := d) (m := e.mb0) hready hw hx rfl rfl hread
        exact next_congr (hbegin.trans hmask)
      · exact next_congr (hbegin.trans (State.preparePass_unread hready hw hx hread))
    case await =>
      intro ha hr hw hm
      refine next_congr (State.streamSend_awaits hp ha hr (Bool.and_eq_true_iff.2 ⟨hw, List.any_eq_true.2 ?_⟩))
      obtain ⟨m, hmem, hdst, hsrc⟩ := hm
      exact ⟨m, hmem, Bool.and_eq_true_iff.2 ⟨decide_eq_true hdst, decide_eq_true hsrc⟩⟩
    case send =>
      intro ha hr hm x r hx u w
      have h : s.SendsTile k x r := ⟨by rw [hp]; rfl, ha, hr, (noRecord_iff _ _ _).2 hm, hx⟩
      refine ⟨fun hb => ?_, fun hb hmoved hpend => next_congr (State.streamSend_pending h rfl hb hmoved hpend), fun hb hgo => ?_⟩
      · exact next_congr ((State.streamSend_bad h rfl hb).trans (State.streamFail_eq ..))
      have hpend : (decide (c.stream.moved = 0) && u.addrs.any f.tilePending) = false := by
        rcases hgo with hmoved | hdone
        · rw [decide_eq_false (Nat.pos_iff_ne_zero.1 hmoved), Bool.false_and]
        · rw [hdone, Bool.and_false]
      refine ⟨fun a hread => ?_, fun raws hread => ?_⟩
      · exact next_congr ((State.streamSend_unread h rfl hb hpend hread).trans (State.streamFail_eq ..))
      intro bytes n
      refine ⟨fun h0 hne => next_congr (State.streamSend_full h rfl hb hpend hread rfl rfl h0 hne), fun h0 hwin hhead hclear => ?_⟩
      obtain ⟨d, hstored, hput, hmoves⟩ := State.streamSend_produces h rfl hb hpend hread rfl rfl h0 hhead hclear
      obtain ⟨hstream, hstreams, hsem⟩ := hstored.headOn_keeps e.win n
      have hentry : (d.headOn e.win n).streamEntry = e := Core.streamEntry_congr hstream hstreams
      have hdrop (hcount : 1 ≤ u.count) : (d.headOn e.win n).stream.todo.drop u.count = r.drop (u.count - 1) := by rw [hstream, h.drop_todo hcount]
      refine ⟨d, hstored, hput, fun hpart => next_congr (hmoves.trans (if_pos hpart)), fun hall hmore hcount => ?more, fun hall hlast hcount _ hpost => ?last⟩
      case more =>
        rw [if_neg hall.not_lt, State.tileGone_more (by rwa [hdrop hcount]), hdrop hcount, hstream] at hmoves
        exact next_congr hmoves
      case last =>
        have hL : ((d.headOn e.win n).L (d.headOn e.win n).streamEntry.sem).toNat < 65535 := by rwa [hentry, Core.L, hsem]
        rw [if_neg hall.not_lt, State.tileGone_last ((hdrop hcount).trans hlast) hL, hentry, Core.nextPos_congr hstream hstreams] at hmoves
        exact next_congr hmoves
  case slots =>
    intro w put part record sends stack
    have hreport (act : BitVec 1024) : exec (.wsActivityReport f n m act) s = .next (put (w.report m.toNat act.toNat)) :=
      next_congr (s.updField_setSlot f n (fun w => w.report m.toNat act.toNat))
    refine ⟨fun sel h => next_congr (State.wsSelection_refused rfl h), fun sel hen hnew _ hfb => ?sparse, fun sel hen hnew hfb => ?dense,
      fun act h => ?unknown, fun act b hb hm h => ?refused, fun act b hen hb hm h => ?kept⟩
    case sparse =>
      let b := w.batchOf (auditKey part) (BitVec.ofNat 32 (32 * f + n)) part.stepNow m.toNat sel
      have hform := w.form_audits (sel := sel) (auditKey part) (BitVec.ofNat 32 (32 * f + n)) part.stepNow m.toNat hfb
      obtain ⟨hdisjoint, hlt, hcount⟩ := w.batchOf_audited (auditKey part) (BitVec.ofNat 32 (32 * f + n)) part.stepNow m.toNat sel
      have hlen := w.length_batchOf_final (auditKey part) (BitVec.ofNat 32 (32 * f + n)) part.stepNow m.toNat sel
      exact ⟨_, b, next_congr (State.wsSelection_forms rfl hen hnew hform rfl), ⟨s.slot_listed .., rfl, hdisjoint, hlt, hcount, s.listed_frame ..,
        congrArg _ (s.records_eq f n hlen m.toNat false)⟩⟩
    case dense =>
      have hform := w.form_dense (sel := sel) (auditKey part) (BitVec.ofNat 32 (32 * f + n)) part.stepNow m.toNat hfb
      have hlen : (maskBits w.nblk (2 ^ w.nblk - 1)).length = w.nblk := by rw [maskBits_all, List.length_range]
      exact ⟨_, next_congr (State.wsSelection_forms rfl hen hnew hform rfl), s.slot_listed .., s.listed_frame .., congrArg _ (s.records_eq f n hlen m.toNat true)⟩
    case unknown => exact (hreport act).trans (next_congr (congrArg put (w.report_unknown h act.toNat)))
    case refused => exact (hreport act).trans (next_congr (congrArg put (WsSlot.report_refused hb hm h act.toNat)))
    case kept =>
      intro y misses idle w1 w2
      have hkept := WsSlot.report_kept hen hb hm h act.toNat
      refine ⟨fun hmore => ?_, fun hlast hsparse => ?_⟩
      · refine (hreport act).trans (next_congr (congrArg put (hkept.trans ?_)))
        rcases hmore with hmore | hdense
        · exact if_neg hmore.ne
        · rw [WsSlot.evaluate_dense hdense, ite_self]
      · have hvalue : w.report m.toNat act.toNat = w1.evaluate b y := hkept.trans (if_pos hlast)
        obtain ⟨hfallback, hwithin, habove, hfourth⟩ := WsSlot.evaluate_sparse (w := w1) hsparse y
        exact ⟨fun hfb => (hreport act).trans (next_congr (congrArg put (hvalue.trans (hfallback hfb)))),
          fun hfb hle => (hreport act).trans (next_congr (congrArg put (hvalue.trans (hwithin hfb hle)))),
          fun hfb hlt hrun => (hreport act).trans (next_congr (congrArg put (hvalue.trans (habove hfb hlt hrun)))),
          fun hfb hlt hrun => (hreport act).trans (next_congr (congrArg put (hvalue.trans (hfourth hfb hlt hrun))))⟩
end

section
/-! Cols (R190 to R193): what an arrival's deadline sets, and what the evaluation that follows leaves. -/

namespace Sys2Proof.Machine

open Sys2Proof

/-! ### The deadline of a round (R192) -/

theorem Col.takeDl_none (c : Col) : c.takeDl none = c := rfl

theorem Col.takeDl_first {c : Col} (h : c.dl = none) (d : Stamp) : c.takeDl (some d) = { c with dl := some d } := by
  simp only [Col.takeDl, h]

theorem Col.takeDl_same {c : Col} {d : Stamp} (h : c.dl = some d) : c.takeDl (some d) = c := by
  simp only [Col.takeDl, h, if_true]

theorem Col.takeDl_differs {c : Col} {y d : Stamp} (h : c.dl = some y) (hne : y ≠ d) : c.takeDl (some d) = { c with mismatch := true } := by
  simp only [Col.takeDl, h, if_neg hne.symm]

/-- A deadline changes D and DL_MISMATCH only. -/
theorem Col.takeDl_frame (c : Col) (d : Option Stamp) : c.takeDl d = { c with dl := (c.takeDl d).dl, mismatch := (c.takeDl d).mismatch } := by
  unfold Col.takeDl
  split
  · rfl
  · rfl
  · split <;> rfl

@[simp] theorem Col.takeDl_part (c : Col) (d : Option Stamp) : (c.takeDl d).part = c.part := by rw [Col.takeDl_frame]

@[simp] theorem Col.takeDl_count (c : Col) (d : Option Stamp) : (c.takeDl d).count = c.count := by rw [Col.takeDl_frame]

/-- A second deadline leaves D, and sets DL_MISMATCH where it differs. -/
theorem Col.takeDl_second {c : Col} {y : Stamp} (h : c.dl = some y) (d : Stamp) :
    (c.takeDl (some d)).dl = some y ∧ (c.takeDl (some d)).mismatch = (c.mismatch || decide (y ≠ d)) := by
  by_cases hd : y = d
  · rw [Col.takeDl_same (hd ▸ h)]
    simp [h, hd]
  · rw [Col.takeDl_differs h hd]
    simp [h, hd]

/-! ### Evaluation and resolution (R193, R194) -/

/-- A col in place of another in the table of cols. -/
theorem State.col_set (s : State) (k : Nat) (c : Col) : ({ s with cols := Tab.set {} s.cols k c } : State).col k = c :=
  (Tab.get_set ({} : Col) s.cols k k c).trans (if_pos rfl)

/-- The resolution of a col that is no fence moves its status, EXCESS and re-arm edge, sends its flit and reports its fault. -/
theorem State.resolve_frame {k : Nat} {c : Col} (hk : k ≠ fenceCol c.part) (s : State) (st : ColSt) :
    ∃ x r res reports, s.resolve k c st = { s with cols := Tab.set {} s.cols k { c with st := st, excess := x, rearm := r }, res := res, fw := { s.fw with reports := reports } } := by
  simp only [State.resolve, if_neg hk]
  split
  · exact ⟨_, _, _, _, rfl⟩
  · exact ⟨_, _, _, _, rfl⟩

/-- The evaluation of a col that is no fence keeps its count and deadline, and the arrivals that still wait. -/
theorem State.evalCol_keeps {k : Nat} {c : Col} (hk : k ≠ fenceCol c.part) (s : State) :
    (s.evalCol k c).arrivals = s.arrivals ∧ ∃ st x r, (s.evalCol k c).col k = { c with st := st, excess := x, rearm := r } := by
  unfold State.evalCol
  split
  · exact ⟨rfl, c.st, c.excess, c.rearm, s.col_set k c⟩
  · obtain ⟨x, r, res, reports, h⟩ := State.resolve_frame hk s (c.eval s.now)
    rw [h]
    exact ⟨rfl, _, x, r, s.col_set k _⟩

/-- The arrival in front of all others is taken by its ARMED col. -/
theorem State.colArrival_armed {s : State} {k : Nat} {a : Arrival} {r : List Arrival} (hs : s.arrivals = a :: r) (ha : a.col = k) (hst : (s.col k).st = .armed) :
    s.colArrival k = ({ s with arrivals := r } : State).evalCol k ({ s.col k with count := (s.col k).count + a.count }.takeDl (a.dl.map (dlStamp s.tg.tick))) := by
  simp only [State.colArrival, hs, List.find?_cons, ha, decide_true, hst, List.erase_cons_head]

end Sys2Proof.Machine

open Sys2Proof Sys2Proof.Machine

/-- Settles O38: the deadline by `takeDl`'s own cases; what an arrival sets stands behind the evaluation, which keeps count and deadline. -/
theorem colDeadlineRule : Obligations.ColDeadlineRule := by
  unfold Obligations.ColDeadlineRule
  refine ⟨fun c d => ⟨fun h => Col.takeDl_first h d, fun y h hne => Col.takeDl_differs h hne, Col.takeDl_same, c.takeDl_none⟩, ?_⟩
  intro k a r s hs ha hk hst
  let c : Col := { s.col k with count := (s.col k).count + a.count }
  have hfence : k.val ≠ fenceCol (c.takeDl (a.dl.map (dlStamp s.tg.tick))).part := by
    unfold fenceCol
    omega
  obtain ⟨harrivals, st, x, re, hcol⟩ := State.evalCol_keeps hfence { s with arrivals := r }
  refine ⟨_, next_congr (State.colArrival_armed hs ha hst), harrivals, ?_, fun h => ?_, fun w h hnone => ?_, fun w y h hsome => ?_⟩ <;> rw [hcol]
  · exact c.takeDl_count _
  · rw [h]
    exact ⟨rfl, rfl⟩
  · rw [h, Option.map_some, Col.takeDl_first (c := c) hnone]
    exact ⟨rfl, rfl⟩
  · rw [h]
    exact Col.takeDl_second (c := c) hsome _
end

section
/-! The time base across a tick edge (R184, R185): what an edge starts, stops and settles keeps it. -/

namespace Sys2Proof.Machine

open Sys2Proof

/-- What every step of a fold keeps, the fold keeps. -/
theorem foldl_keeps {α β γ : Type} (g : β → γ) {f : β → α → β} (h : ∀ b x, g (f b x) = g b) (l : List α) (b : β) : g (l.foldl f b) = g b := by
  induction l generalizing b with
  | nil => rfl
  | cons x l ih => exact (ih (f b x)).trans (h b x)

/-! ### Replies and cols -/

/-- The end of a long command is firmware's and the ports' own. -/
theorem State.endLong_frame (s : State) (k : LongKind → Bool) (st : W16) (r : W64) (n : Nat) :
    ∃ fw host out, s.endLong k st r n = { s with fw := fw, host := host, out := out } := by
  unfold State.endLong
  split
  · exact ⟨_, _, _, rfl⟩
  · exact ⟨_, _, _, rfl⟩

@[simp] theorem State.endLong_tg (s : State) (k : LongKind → Bool) (st : W16) (r : W64) (n : Nat) : (s.endLong k st r n).tg = s.tg := by
  obtain ⟨fw, host, out, h⟩ := s.endLong_frame k st r n
  rw [h]

@[simp] theorem State.fenceResolved_tg (s : State) (p : Nat) (st : ColSt) : (s.fenceResolved p st).tg = s.tg := by
  unfold State.fenceResolved State.failReshard
  split
  · rfl
  · split <;> rw [State.updPart_tg]

@[simp] theorem State.resolve_tg (s : State) (k : Nat) (c : Col) (st : ColSt) : (s.resolve k c st).tg = s.tg := by
  unfold State.resolve
  extract_lets e c1 t u
  have hreported : u.tg = s.tg := by
    simp only [u]
    split <;> rfl
  split
  · rw [State.fenceResolved_tg, hreported]
  · exact hreported

@[simp] theorem State.expireCols_tg (s : State) : s.expireCols.tg = s.tg := by
  refine foldl_keeps State.tg (fun t c => ?_) _ s
  split
  · exact State.resolve_tg ..
  · rfl

@[simp] theorem State.rearmCols_tg (s : State) : s.rearmCols.tg = s.tg := by
  unfold State.rearmCols
  extract_lets due
  split <;> rfl

/-! ### The stop of a partition -/

@[simp] theorem State.startMarches_tg (s : State) (p : Nat) : (s.startMarches p).tg = s.tg := by
  unfold State.startMarches
  split <;> rfl

@[simp] theorem State.endStop_tg (s : State) (p : Nat) : (s.endStop p).tg = s.tg := by
  unfold State.endStop
  extract_lets x cut cleared _ partials ended rebased planned
  have hended : ended.tg = s.tg := State.endLong_tg ..
  have hrebased : rebased.tg = ended.tg := by
    simp only [rebased]
    split
    · exact State.endLong_tg ..
    · rfl
  have hplanned : planned.tg = rebased.tg := by
    simp only [planned]
    split <;> rfl
  rw [State.startMarches_tg, State.endLong_tg, hplanned, hrebased, hended]

@[simp] theorem State.stopPart_tg (s : State) (p : Nat) : (s.stopPart p).tg = s.tg := State.endStop_tg _ p

/-! ### The start of a partition, and its edges -/

@[simp] theorem State.armCols_tg (s : State) (p : Nat) : (s.armCols p).tg = s.tg := by
  unfold State.armCols
  rw [State.updCores_tg]

@[simp] theorem State.logDigests_tg (s : State) (p : Nat) : (s.logDigests p).tg = s.tg := rfl

@[simp] theorem State.endRecovery_tg (s : State) (p : Nat) : (s.endRecovery p).tg = s.tg := by
  unfold State.endRecovery
  extract_lets x ms t
  rw [State.endLong_tg, State.endLong_tg]
  simp only [t]
  split <;> rfl

@[simp] theorem State.startPart_tg (s : State) (p : Nat) : (s.startPart p).tg = s.tg := by
  unfold State.startPart
  extract_lets x k fresh started placed
  have hfresh : fresh.tg = s.tg := by
    simp only [fresh]
    split <;> rfl
  rw [State.endLong_tg, State.endRecovery_tg, State.armCols_tg]
  exact hfresh

@[simp] theorem State.settleUnits_tg (s : State) (p : Nat) : (s.settleUnits p).tg = s.tg := by
  unfold State.settleUnits
  extract_lets x t
  have hmoved : t.tg = s.tg := by
    refine foldl_keeps State.tg (fun u i => ?_) _ s
    split <;> rfl
  refine (foldl_keeps State.tg (fun u e => ?_) _ t).trans hmoved
  split <;> rfl

@[simp] theorem State.tryResume_tg (s : State) (p : Nat) : (s.tryResume p).tg = s.tg := by
  unfold State.tryResume
  extract_lets x t
  split <;> rfl

@[simp] theorem State.settle_tg (s : State) (p : Nat) : (s.settle p).tg = s.tg := by
  unfold State.settle
  extract_lets x
  split
  · rw [State.tryResume_tg, State.emit_tg, State.updPart_tg, State.settleUnits_tg]
  · rfl

@[simp] theorem State.epochEdge_tg (s : State) (p : Nat) : (s.epochEdge p).tg = s.tg := by
  unfold State.epochEdge
  split
  · rw [State.settle_tg]
    rfl
  · rfl

@[simp] theorem State.beginStep_tg (s : State) (p : Nat) : (s.beginStep p).tg = s.tg := by
  obtain ⟨cs, fs, ps, n, h⟩ := s.beginStep_frame p
  rw [h]

@[simp] theorem State.partEdge_tg (s : State) (p : Nat) : (s.partEdge p).tg = s.tg := by
  unfold State.partEdge
  extract_lets lifted advanced ks x due free rs begun taken latched
  have hbegun : begun.tg = advanced.tg := by
    simp only [begun]
    split
    · exact State.beginStep_tg ..
    · split <;> rfl
  rw [State.report_tg, State.logDigests_tg]
  exact hbegun.trans (State.epochEdge_tg lifted p)

/-! ### New route tables -/

/-- The time base without what TCL tells of the route tables (R168, R197). -/
def TickGen.timeOnly (g : TickGen) : TickGen := { g with routed := false, detourDraw := none, hops := 0, cross := 0, bound := 0, routesFor := [] }

theorem State.loadRoutes_time (s : State) : s.loadRoutes.tg.timeOnly = s.tg.timeOnly := by
  unfold State.loadRoutes
  split <;> rfl

/-- New tables are written by the last stop that they wait for, and leave the time as it is. -/
theorem State.rerouted_time (s : State) (p : Nat) : (s.rerouted p).tg.timeOnly = s.tg.timeOnly := by
  unfold State.rerouted
  split
  · rfl
  · extract_lets left
    split
    · exact s.loadRoutes_time
    · rfl

theorem State.edgeOf_time (s : State) (p : Nat) : (s.edgeOf p).tg.timeOnly = s.tg.timeOnly := by
  unfold State.edgeOf
  extract_lets x stopped
  split
  · have hlogged : stopped.tg = s.tg := by
      simp only [stopped]
      split <;> rfl
    rw [State.rerouted_time, State.stopPart_tg, hlogged]
  · split
    · rw [State.updPart_tg, State.partEdge_tg, State.startPart_tg]
    · split
      · rfl
      · split
        · rw [State.partEdge_tg]
        · rfl

/-! ### Terraces -/

@[simp] theorem State.endRetest_tg (s : State) (t : Nat) (bad laneOk : List Nat) : (s.endRetest t bad laneOk).tg = s.tg := by
  unfold State.endRetest
  rw [State.updCores_tg]

@[simp] theorem State.endMarches_tg (s : State) : s.endMarches.tg = s.tg := by
  refine foldl_keeps State.tg (fun t l => ?_) _ s
  split
  · extract_lets m
    split
    · rfl
    · rw [State.endLong_tg]
  · split
    · rfl
    · rw [State.endLong_tg, State.endRetest_tg]
  · rfl

@[simp] theorem State.updTer_tg (s : State) (t : Nat) (g : Ter → Ter) : (s.updTer t g).tg = s.tg := rfl

@[simp] theorem State.beginDark_tg (s : State) (t : Nat) : (s.beginDark t).tg = s.tg := by
  unfold State.beginDark State.darkCores
  rw [State.updTer_tg, State.endMarches_tg]
  exact foldl_keeps State.tg State.stopPart_tg _ _

@[simp] theorem State.releaseTer_tg (s : State) (t : Nat) : (s.releaseTer t).tg = s.tg := by
  unfold State.releaseTer
  split <;> rfl

@[simp] theorem State.terEdge_tg (s : State) : s.terEdge.tg = s.tg := by
  refine foldl_keeps State.tg (fun u t => ?_) _ s
  split
  · exact u.beginDark_tg t
  · exact u.releaseTer_tg t

/-! ### The edge -/

/-- Everything that falls on an edge at which the fields agree leaves the time of the new tick. -/
theorem State.edge_time (s : State) : (s.edge []).tg.timeOnly = s.newTick.tg.timeOnly := by
  unfold State.edge
  extract_lets opened rearmed messaged edges dark
  have hopened : opened.tg = s.newTick.tg := State.expireCols_tg _
  have hmessaged : messaged.tg = opened.tg := State.rearmCols_tg opened
  have hedges : edges.tg.timeOnly = messaged.tg.timeOnly := foldl_keeps (fun t : State => t.tg.timeOnly) State.edgeOf_time _ _
  rw [List.foldl_nil, State.terEdge_tg, hedges, hmessaged, hopened]

/-- The first of the fields that disagree is the one recorded (R185). -/
theorem State.fieldsTickLost_tg (d : List Nat) (s : State) : (d.foldl State.fieldTickLost s).tg =
    { s.tg with lost := s.tg.lost || !d.isEmpty, lostField := if s.tg.lost then s.tg.lostField else d.head?.getD s.tg.lostField } := by
  induction d generalizing s with
  | nil => simp
  | cons f d ih =>
    rw [List.foldl_cons, ih]
    cases hl : s.tg.lost <;> simp [State.fieldTickLost, hl]

theorem State.edge_eq (s : State) (d : List Nat) : s.edge d = d.foldl State.fieldTickLost (s.edge []) := by
  simp only [State.edge, List.foldl_nil]

end Sys2Proof.Machine
end

section
/-! Module time (R183, R184, R187, R358, R359): the tick period, the divider, the frequency counter, the quiet tick edge and tick messages. -/

namespace Sys2Proof.Machine

open Sys2Proof

/-! ### The tick period (R184) -/

theorem State.tickPeriod_outside (s : State) {us : Nat} (h : us < 20 ∨ 50000 < us) : s.tickPeriod us = s := if_pos (by simpa using h)

section Period

variable {s : State} {us : Nat} (hlow : 20 ≤ us) (hhigh : us ≤ 50000)
include hlow hhigh

theorem period_inside : ¬ (decide (us < 20) || decide (50000 < us)) = true := by
  simp only [Bool.or_eq_true, decide_eq_true_eq]
  omega

theorem State.tickPeriod_refused {p : Nat} (hp : p < 16) (h : (s.part p).started = true) : s.tickPeriod us = { s with tg := { s.tg with refused := true } } := by
  have hany : (List.range 16).any (fun p => (s.part p).started) = true := List.any_eq_true.2 ⟨p, List.mem_range.2 hp, h⟩
  rw [State.tickPeriod, if_neg (period_inside hlow hhigh), if_pos hany]

theorem State.tickPeriod_taken (h : ∀ p, p < 16 → (s.part p).started = false) : s.tickPeriod us = { s with tg :=
    if s.tg.running then { s.tg with nextPeriod := some us } else { s.tg with running := true, period := us, ofs := 0 } } := by
  have hany : ¬ (List.range 16).any (fun p => (s.part p).started) = true := by
    simpa using h
  rw [State.tickPeriod, if_neg (period_inside hlow hhigh), if_neg hany]
  cases s.tg.running <;> rfl

end Period

/-! ### The dividers (R339, R345, R358) -/

theorem Divider.write_eq (d : Divider) (n : Nat) : d.write n = if 16 ≤ n ∧ n ≤ 32 then { d with target := n } else { d with bad := true } := by
  by_cases h : 16 ≤ n ∧ n ≤ 32
  · rw [if_pos h]
    exact if_neg (by simp only [Bool.or_eq_true, decide_eq_true_eq]; omega)
  · rw [if_neg h]
    exact if_pos (by simp only [Bool.or_eq_true, decide_eq_true_eq]; omega)

@[simp] theorem Divider.write_current (d : Divider) (n : Nat) : (d.write n).current = d.current := by
  unfold Divider.write
  split <;> rfl

/-- The dividers of Table 10.6 lie in the range that RCK_DIV takes. -/
theorem Divider.write_point (d : Divider) {p : Nat} (h : p < 5) : d.write (pointDiv p) = { d with target := 32 - 4 * p } := by
  rw [Divider.write_eq, pointDiv, if_pos (by omega)]

/-- Steering writes VDD's target and the divider's. -/
theorem State.steerClock_frame (s : State) : ∃ v d, s.steerClock = { s with pwr := { s.pwr with vddTarget := v }, div := d } ∧
    (d = s.div ∨ d = s.div.write (pointDiv s.pwr.env.tPoint)) := by
  unfold State.steerClock
  extract_lets p d down mv t
  split
  · exact ⟨_, _, rfl, .inr rfl⟩
  · exact ⟨_, _, rfl, .inl rfl⟩

theorem State.steerClock_current (s : State) : s.steerClock.div.current = s.div.current := by
  obtain ⟨v, d, h, rfl | rfl⟩ := s.steerClock_frame <;> rw [h]
  exact Divider.write_current ..

theorem State.paceDark_div (ts : List Nat) (sum ofs : Nat) (s : State) : (State.paceDark ts sum ofs s).div = s.div := by
  induction ts generalizing sum ofs s with
  | nil => rfl
  | cons t ts ih =>
    rw [State.paceDark, ih]
    show (s.orderDark t false).div = s.div
    unfold State.orderDark
    split <;> rfl

/-- The envelope moves the divider's target only. -/
theorem State.envAdvance_current (s : State) : s.envAdvance.div.current = s.div.current := by
  unfold State.envAdvance
  extract_lets e placed lower t pwr env u v late
  have hsteered : t.div.current = s.div.current := by
    simp only [t]
    split
    · exact s.steerClock_current
    · rfl
  have hpaced : v.div = t.div := State.paceDark_div ..
  split
  · rfl
  · split
    · exact hsteered
    · obtain ⟨fw, host, out, h⟩ := v.endLong_frame (fun k => k = .envelope) (if late then stOkLate else stOk) 0 0
      rw [h]
      exact (congrArg Divider.current hpaced).trans hsteered

theorem State.dividerStep_free {s : State} (hp : s.pwr.env.pending = false) (hf : s.pwr.env.forced = false) : s.dividerStep = { s with div := s.div.step } := by
  simp [State.dividerStep, State.afterStep, hp, hf]

/-- A step that the pace does not allow waits (R345). -/
theorem State.dividerStep_waits {s : State} (h : s.pwr.env.pending = true ∨ s.pwr.env.forced = true) (hne : s.div.current ≠ s.div.target)
    (hpace : s.paceOk s.dividerDraw = false) : s.dividerStep = s := by
  have hmoves : (s.pwr.env.pending || s.pwr.env.forced) = true := Bool.or_eq_true_iff.2 h
  simp [State.dividerStep, hmoves, hne, hpace]

/-- A step that stands, or that the pace allows, is made and recorded, and firmware moves on. -/
theorem State.dividerStep_steps {s : State} (h : s.div.current = s.div.target ∨ s.paceOk s.dividerDraw = true) :
    ∃ paced, s.dividerStep = ({ s with pwr := { s.pwr with paced := paced }, div := s.div.step } : State).afterStep := by
  have hgo : ((s.pwr.env.pending || s.pwr.env.forced) && decide (s.div.current ≠ s.div.target) && !s.paceOk s.dividerDraw) = false := by
    rcases h with h | h <;> simp [h]
  have hpaced : ∃ l, (if ((s.pwr.env.pending || s.pwr.env.forced) && decide (s.div.current ≠ s.div.target)) = true then s.pace s.dividerDraw else s) =
      { s with pwr := { s.pwr with paced := l } } := by
    split
    · exact ⟨_, rfl⟩
    · exact ⟨_, rfl⟩
  obtain ⟨l, hl⟩ := hpaced
  refine ⟨l, ?_⟩
  simp only [State.dividerStep, hgo, hl, Bool.false_eq_true, if_false]

/-- A forced envelope steers behind the step. -/
theorem State.dividerStep_forced {s : State} (hp : s.pwr.env.pending = false) (hf : s.pwr.env.forced = true) (hpoint : s.pwr.env.tPoint < 5)
    (h : s.div.current = s.div.target ∨ s.paceOk s.dividerDraw = true) :
    ∃ v paced n, s.dividerStep = { s with pwr := { s.pwr with vddTarget := v, paced := paced }, div := { s.div.step with target := n } } ∧
      (n = s.div.target ∨ n = 32 - 4 * s.pwr.env.tPoint) := by
  obtain ⟨paced, hstep⟩ := State.dividerStep_steps h
  have hafter : s.dividerStep = ({ s with pwr := { s.pwr with paced := paced }, div := s.div.step } : State).steerClock := by
    rw [hstep, State.afterStep, if_neg (Bool.eq_false_iff.1 hp), if_pos hf]
  obtain ⟨v, d, hsteer, hd⟩ := ({ s with pwr := { s.pwr with paced := paced }, div := s.div.step } : State).steerClock_frame
  rw [hafter, hsteer]
  rcases hd with rfl | rfl
  · exact ⟨v, paced, s.div.target, rfl, .inl rfl⟩
  · exact ⟨v, paced, 32 - 4 * s.pwr.env.tPoint, by rw [Divider.write_point _ hpoint], .inr rfl⟩

theorem State.dividerStep_pending {s : State} (hp : s.pwr.env.pending = true) (h : s.div.current = s.div.target ∨ s.paceOk s.dividerDraw = true) :
    s.dividerStep.div.current = s.div.step.current := by
  obtain ⟨paced, hstep⟩ := State.dividerStep_steps h
  rw [hstep, State.afterStep, if_pos hp, State.envAdvance_current, State.steerClock_current]

/-! ### The frequency counter (R359) -/

theorem State.fmcStart_eq (s : State) : s.fmcStart = { s with rck := { s.rck with fmcRunning := s.rck.fmcRunning || decide (s.rck.fmcGate ≠ 0) } } := by
  unfold State.fmcStart
  split
  · next h =>
    have hsame : (s.rck.fmcRunning || decide (s.rck.fmcGate ≠ 0)) = s.rck.fmcRunning := by
      rcases (Bool.or_eq_true_iff.1 h) with hrun | hgate
      · rw [hrun, Bool.true_or]
      · simp [of_decide_eq_true hgate]
    rw [hsame]
  · next h =>
    have hstarts : (s.rck.fmcRunning || decide (s.rck.fmcGate ≠ 0)) = true := by
      simp only [Bool.or_eq_true, decide_eq_true_eq, not_or] at h
      simp [h.2]
    rw [hstarts]

/-- The clocks of Table 11.1 by their code. -/
theorem State.fmcClock_eq (s : State) : let k := s.rck.fmcSel
    s.fmcClock = ((decide (k < 48) && (s.field k).pwr.pll) || (decide (k = 48) && s.rck.valePll) || (decide (k = 49) && s.rck.oscRun) ||
      (decide (k = 50) && s.rck.a3) || (decide (k = 51) && s.rck.h4) || decide (k = 52) || (decide (k = 53) && decide ((s.port s.rck.fmcPort).link = .on)) ||
      (decide (k = 54) && decide ((s.ring 0).pcie = .on)) || (decide (k = 55) && decide ((s.ring 1).pcie = .on))) := by
  intro k
  have hcode : k < 48 ∨ k ∈ [48, 49, 50, 51, 52, 53, 54, 55] ∨ 55 < k := by
    simp only [List.mem_cons, List.not_mem_nil, or_false]
    omega
  rcases hcode with hfield | hnamed | hbeyond
  · have hother (n : Nat) (hn : 48 ≤ n) : k ≠ n := by omega
    simp [State.fmcClock, k, hfield, hother]
  · simp only [List.mem_cons, List.not_mem_nil, or_false, k] at hnamed
    rcases hnamed with h | h | h | h | h | h | h | h <;> simp [State.fmcClock, k, h]
  · have hother (n : Nat) (hn : n ≤ 55) : k ≠ n := by omega
    simp [State.fmcClock, k, hother, show ¬ k < 48 by omega]

/-! ### An edge on which nothing falls -/

/-- Nothing waits for a tick edge: no tick message, no long command, no col to re-arm, no partition that runs, starts or stops, and no terrace to
light or darken. -/
structure State.NothingDue (s : State) : Prop where
  msgs : ∀ k, (s.core k).msgs = []
  flight : s.fw.flight = []
  rearm : ∀ c ∈ s.cols, c.2.rearm = none
  parts : ∀ p, p < 16 → (s.part p).started = false ∧ (s.part p).startAt = none ∧ (s.part p).stopAt = none
  ters : ∀ x, x < 96 → (s.ter x).st ≠ .ready ∧ (s.ter x).darkAt = none

theorem Core.startMsg_none {c : Core} (h : c.msgs = []) (tick : BitVec 48) (n : Nat) : c.startMsg tick n = c := by
  simp [Core.startMsg, h]

theorem Core.runMsgs_none {c : Core} (h : c.msgs = []) (tick : BitVec 48) : c.runMsgs tick = c := by
  cases c
  simp_all [Core.runMsgs]

theorem Core.tickIdle_msgs (n : Nat) (c : Core) : (c.tickIdle n).msgs = c.msgs := by
  unfold Core.tickIdle
  extract_lets i
  split <;> rfl

/-- Rewriting every entry to itself leaves a canonical table. -/
theorem mapV_self {α : Type} [DecidableEq α] {d : α} {t : Tab α} {f : Nat → α → α} (hwf : Tab.wf d t = true) (h : ∀ p ∈ t, f p.1 p.2 = p.2) : Tab.mapV d t f = t := by
  have hmap : t.map (fun p => (p.1, f p.1 p.2)) = t.map id := List.map_congr_left (fun p hp => by rw [h p hp, id])
  rw [Tab.mapV, hmap, List.map_id]
  exact List.filter_eq_self.2 (fun p hp => decide_eq_true (((Tab.wf_iff d t).1 hwf).2 p hp))

theorem State.edgeOf_idle {s : State} {p : Nat} (hst : (s.part p).started = false) (hstart : (s.part p).startAt = none) (hstop : (s.part p).stopAt = none) :
    s.edgeOf p = s := by
  simp [State.edgeOf, hst, hstart, hstop]

theorem State.openTele_none {s : State} (h : s.fw.flight = []) : s.openTele = s := by
  unfold State.openTele
  extract_lets cores fab
  rw [h, List.map_nil, ← h]

theorem State.rearmCols_none {s : State} (h : ∀ c ∈ s.cols, c.2.rearm = none) : s.rearmCols = s := by
  have hnone : s.cols.filter (fun c => c.2.rearm = some s.tg.tick) = [] := List.filter_eq_nil_iff.2 (fun c hc => by simp [h c hc])
  simp [State.rearmCols, hnone]

theorem State.terEdge_none {s : State} (h : ∀ x, x < 96 → (s.ter x).st ≠ .ready ∧ (s.ter x).darkAt = none) : s.terEdge = s := by
  have hnone : (List.range 96).filter (fun t => (s.ter t).st = .ready || (s.ter t).darkAt = some s.tg.tick) = [] :=
    List.filter_eq_nil_iff.2 (fun t ht => by simp [h t (List.mem_range.1 ht)])
  simp [State.terEdge, hnone]

/-- Where nothing waits for it, an edge is the new tick (R184). -/
theorem State.edge_nothingDue {s : State} (hwf : Tab.wf {} s.cores = true) (hq : s.quiet = true) (h : s.NothingDue) : s.edge [] = s.newTick := by
  have hexpire : s.newTick.expireCols = s.newTick := State.expireCols_quiet _ hq
  have htele : s.newTick.openTele = s.newTick := State.openTele_none h.flight
  have hrearm : s.newTick.rearmCols = s.newTick := State.rearmCols_none h.rearm
  have hcores : Tab.mapV {} s.newTick.cores (fun k c => (c.startMsg s.newTick.tg.tick (s.newTick.multOf k)).runMsgs s.newTick.tg.tick) = s.newTick.cores := by
    refine mapV_self hwf (fun p hp => ?_)
    have hget : s.core p.1 = p.2 := Tab.get_of_mem ({} : Core) s.cores p.1 p.2 ((Tab.wf_iff _ _).1 hwf).1 hp
    have hmsgs : p.2.msgs = [] := hget ▸ h.msgs p.1
    rw [Core.startMsg_none hmsgs, Core.runMsgs_none hmsgs]
  have hparts : (List.range 16).foldl State.edgeOf s.newTick = s.newTick :=
    List.foldlRecOn (motive := fun u => u = s.newTick) _ _ rfl (fun u hu p hp => by
      obtain ⟨hst, hstart, hstop⟩ := h.parts p (List.mem_range.1 hp)
      rw [hu]
      exact State.edgeOf_idle hst hstart hstop)
  have hters : s.newTick.terEdge = s.newTick := State.terEdge_none h.ters
  simp only [State.edge, hexpire, htele, hrearm, hcores, hparts, hters, List.foldl_nil]

/-- Where no partition runs, cycles pass for the cores, the divider and the time base only. -/
theorem State.passCycles_stopped {s : State} (n : Nat) (h : ∀ p, p < 16 → (s.part p).started = false) : s.passCycles n = { s with
    cores := (s.passCycles n).cores, div := s.div.pass n, tg := { s.tg with ofs := s.tg.ofs + n, cyc := s.tg.cyc + BitVec.ofNat 64 n } } := by
  have hparts : (s.passCycles n).parts = s.parts := by
    rw [State.parts_passCycles]
    refine Vector.ext (fun p hp => ?_)
    have hpart : s.part p = s.parts[p] := getD_toList_fin s.parts ⟨p, hp⟩ {}
    rw [Vector.getElem_map, Part.passed_stopped n _ (hpart ▸ h p hp)]
  exact congrArg (fun ps => { s.passCycles n with parts := ps }) hparts

theorem State.NothingDue.passCycles {s : State} (hwf : s.wf = true) (h : s.NothingDue) (n : Nat) : (s.passCycles n).NothingDue := by
  have hpass := State.passCycles_stopped n (fun p hp => (h.parts p hp).1)
  refine ⟨fun k => ?_, h.flight, h.rearm, fun p hp => ?_, h.ters⟩
  · rw [State.core_passCycles s hwf, Core.tickIdle_msgs]
    exact h.msgs k
  · rw [hpass]
    exact h.parts p hp

theorem State.tickEdge_runs {s : State} (hrun : s.tg.running = true) (hper : s.tg.period ≠ 0) (d : List Nat) :
    s.tickEdge d = (s.passCycles s.toEdge).edge d := if_pos (by simp [hrun, hper])

theorem State.tickEdge_stands {s : State} (h : s.tg.running = false ∨ s.tg.period = 0) (d : List Nat) : s.tickEdge d = s := by
  refine if_neg (fun hall => ?_)
  rcases h with h | h <;> simp [h] at hall

theorem State.tickEdge_nothingDue {s : State} (hrun : s.tg.running = true) (hper : s.tg.period ≠ 0) (hwf : s.wf = true) (hq : s.quiet = true) (h : s.NothingDue) :
    s.tickEdge [] = (s.passCycles s.toEdge).newTick := by
  have hcores : Tab.wf {} s.cores = true ∧ Tab.wf {} s.fields = true := by
    simp only [State.wf, Bool.and_eq_true] at hwf
    exact hwf.1
  have hpassed : Tab.wf {} (s.passCycles s.toEdge).cores = true :=
    Tab.wf_mapV ({} : Core) s.cores (fun _ c => c.tickIdle (s.div.cycles s.toEdge)) hcores.1
  rw [State.tickEdge_runs hrun hper]
  exact State.edge_nothingDue hpassed (s.quiet_passCycles _ hq) (h.passCycles hwf _)

/-- The time base behind an edge: that of the new tick, and the first field that disagrees. -/
theorem State.tickEdge_tg {s : State} (hrun : s.tg.running = true) (hper : s.tg.period ≠ 0) (d : List Nat) :
    ∃ g : TickGen, g.timeOnly = (s.passCycles s.toEdge).newTick.tg.timeOnly ∧
      (s.tickEdge d).tg = { g with lost := g.lost || !d.isEmpty, lostField := if g.lost then g.lostField else d.head?.getD g.lostField } := by
  refine ⟨((s.passCycles s.toEdge).edge []).tg, State.edge_time _, ?_⟩
  rw [State.tickEdge_runs hrun hper, State.edge_eq, State.fieldsTickLost_tg]

/-! ### Tick messages (R187) -/

theorem State.tickMessage_early {s : State} {e : BitVec 48} (h : s.tg.tick.toNat < e.toNat) (k : Nat) (m : TickMsg) :
    s.tickMessage k m e = s.withCore k (fun c => { c with msgs := c.msgs ++ [(m, e)] }) := if_neg (Nat.not_le.2 h)

theorem State.tickMessage_late {s : State} {e : BitVec 48} (h : e.toNat ≤ s.tg.tick.toNat) (k : Nat) (m : TickMsg) :
    s.tickMessage k m e = s.trap k 0x43 (e.toNat % 2 ^ 32) := if_pos h

/-- A stop discards the run, and with it the messages that still wait. -/
theorem Core.runMsgs_stop {c : Core} {e : BitVec 48} (h : c.msgs = [(.stop, e)]) : c.runMsgs e = c.discard := by
  simp [Core.runMsgs, h, Core.discard]

theorem Core.runMsgs_hold {c : Core} {e : BitVec 48} (h : c.msgs = [(.hold, e)]) : c.runMsgs e = { c with msgs := [], held := true } := by
  simp [Core.runMsgs, h]

theorem Core.runMsgs_lift {c : Core} {e : BitVec 48} (h : c.msgs = [(.lift, e)]) : c.runMsgs e = { c with msgs := [], held := false } := by
  simp [Core.runMsgs, h]

theorem Core.runMsgs_other {c : Core} {e e' : BitVec 48} {m : TickMsg} (hne : e' ≠ e) (h : c.msgs = [(m, e')]) : c.runMsgs e = c := by
  cases c
  simp_all [Core.runMsgs]

theorem Core.startMsg_starts {c : Core} {e : BitVec 48} (h : c.msgs = [(.start, e)]) (hst : c.seq.st = .stopped) (hs : c.sched ≠ []) (n : Nat) :
    c.startMsg e n = { ({ c with seq := { c.seq with mult := n } } : Core).startRun 0 0 with win := c.win.map (fun w => { w with head := 0, tail := 0 }), sem := Vector.replicate 64 0 } :=
  if_pos (by simp [h, hst, hs])

end Sys2Proof.Machine

open Sys2Proof Sys2Proof.Machine

/-- Settles O29: each command is its one operation. At an edge the time base is `edge_time`'s, whatever falls on it, with the fields that disagree behind;
where nothing waits for the edge, `tickEdge_nothingDue` gives the whole state. Ignoring a period outside its range (log 72), the core-cycle phase
(log 75) and passing the rest of the tick at once (log 4) are the model's choice. -/
theorem timeCommandsComplete : Obligations.TimeCommandsComplete := by
  unfold Obligations.TimeCommandsComplete
  refine ⟨fun s => ?_, ?messages⟩
  case messages =>
    refine ⟨fun k m e s h => next_congr (State.tickMessage_early h k m), fun k m e s h => next_congr (State.tickMessage_late h k m), fun c e => ⟨fun h => ?_,
      Core.runMsgs_hold, Core.runMsgs_lift, fun m e' hne h => Core.runMsgs_other hne h, fun n h hst hs => ?_⟩⟩
    · exact Core.runMsgs_stop h
    · intro d
      have hd : d = _ := Core.startMsg_starts h hst hs n
      rw [hd]
      exact ⟨rfl, rfl, rfl, rfl, rfl, rfl, rfl, fun j => Vector.getElem_map ..⟩
  refine ⟨fun us h => next_congr (s.tickPeriod_outside h), fun us p hlow hhigh hp h => next_congr (State.tickPeriod_refused hlow hhigh hp h),
    fun us hlow hhigh h => next_congr (State.tickPeriod_taken hlow hhigh h), fun n => next_congr (congrArg (fun d => { s with div := d }) (s.div.write_eq n.toNat)),
    ?divider, fun who h => (next_congr (if_pos h)).trans (next_congr s.fmcStart_eq), fun who h => next_congr (if_neg (Bool.eq_false_iff.1 h)), ?counter,
    fun d h => next_congr (State.tickEdge_stands h _), ?edge, ?quiet⟩
  case divider =>
    intro one
    refine ⟨fun hp hf => next_congr (State.dividerStep_free hp hf), fun hp hf hpoint h => ?_, fun hp h => ⟨_, rfl, State.dividerStep_pending hp h⟩,
      fun h hne hpace => next_congr (State.dividerStep_waits h hne hpace)⟩
    obtain ⟨v, paced, n, hstep, hn⟩ := State.dividerStep_forced hp hf hpoint h
    exact ⟨_, next_congr hstep, rfl, hn, rfl⟩
  case counter =>
    intro k on n m
    have hclock : s.fmcClock = on := s.fmcClock_eq
    refine ⟨fun hrun => ?_, fun hrun => next_congr (if_neg (Bool.eq_false_iff.1 hrun))⟩
    refine (next_congr (if_pos hrun)).trans ?_
    rw [hclock]
  case edge =>
    intro d hrun hper
    obtain ⟨g, htime, htg⟩ := State.tickEdge_tg hrun hper (d.map Fin.val)
    refine ⟨_, rfl, ?_⟩
    rw [htg]
    refine ⟨congrArg TickGen.tick htime, congrArg TickGen.ofs htime, congrArg TickGen.cyc htime, congrArg TickGen.period htime, congrArg TickGen.nextPeriod htime,
      fun f hf => ⟨?_, fun hl hd => ?_⟩⟩
    · obtain ⟨x, l, rfl⟩ := List.exists_cons_of_ne_nil (List.ne_nil_of_mem hf)
      exact Bool.or_true _
    · have hbefore : g.lost = false := (congrArg TickGen.lost htime).trans hl
      simp [hbefore, hd]
  case quiet =>
    intro hrun hper hwf hq hmsgs hflight hrearm hparts hters
    refine ⟨_, next_congr (State.tickEdge_nothingDue hrun hper hwf hq ⟨hmsgs, hflight, hrearm, hparts, hters⟩), rfl, fun k => s.core_passCycles hwf _ k, ?_⟩
    rw [State.passCycles_stopped s.toEdge (fun p hp => (hparts p hp).1)]
    rfl
end

section
/-! Routers over a table that lists a field twice. Nothing in `RoutersAndColsComplete` asks its tables to be canonical (`State.wf`), and the write of a
field takes the place of every entry of its key, where a read sees the first one only. -/

namespace Sys2Proof.Machine

open Sys2Proof

/-- Field 0 listed twice: in the first entry port M of every router stands up, one failure before the end of its run; the second holds the region by
which partition 0, which runs, uses the field. -/
def twiceListed : State :=
  { fields := [(0, { routers := Vector.replicate 16 { port := Vector.replicate 10 1, streak := Vector.replicate 10 15 } }), (0, { regions := [(0, { en := true, part := 0 })] })]
    parts := Vector.replicate 16 { started := true } }

theorem twiceListed_port : (twiceListed.field 0).routers[0].streak[8] = 15 ∧ (twiceListed.field 0).routers[0].port[8] = 1 := by decide +kernel

/-- Partition 0 uses port M of router 0 before the failure. -/
theorem twiceListed_users : twiceListed.usersOfRouterPort 0 0 8 = [0] := by decide +kernel

/-- The failure is counted in the field's one entry that is left, without the region: no partition is told. -/
theorem twiceListed_reports : (twiceListed.meshCrc 0 0 8).fw.reports = [] := by decide +kernel

end Sys2Proof.Machine

open Sys2Proof Sys2Proof.Machine

/-- Refutes O37: the clause on a port that leads to no router fails at `twiceListed`. The sixteenth failure at port M of router 0 writes that router
back, the write of field 0 drops its second entry, and partition 0, which uses the field by that entry's region, is not among those that fault. -/
theorem not_routersAndColsComplete : ¬ Obligations.RoutersAndColsComplete := by
  unfold Obligations.RoutersAndColsComplete
  intro h
  obtain ⟨-, -, -, hdown, -⟩ := h.1 0 0 8 twiceListed
  have hstate := Host.Outcome.next.inj (hdown twiceListed_port.1 (Or.inr (by decide)) twiceListed_port.2)
  have hreports := congrArg (fun t : State => t.fw.reports) hstate
  have htold : (twiceListed.meshCrc 0 0 8).fw.reports = (twiceListed.usersOfRouterPort 0 0 8).map (fun i => { part := i, what := .meshLink 0 0, addr := 8 }) := hreports
  rw [twiceListed_reports, twiceListed_users] at htold
  exact List.cons_ne_nil _ _ htold.symm
end

section
/-! The recurrence of a rule (R222, R224, R225): a term word taken apart, and what one slot and two output terms give. -/

namespace Sys2Proof

/-- The exact order is asymmetric. -/
theorem Dy.lt_asymm {a b : Dy} (h : Dy.lt a b = true) : Dy.lt b a = false := by
  have hlt : (Dy.add a b.neg).m < 0 := of_decide_eq_true h
  have hneg : (Dy.add b a.neg).m = -(Dy.add a b.neg).m := by
    simp only [Dy.add, Dy.neg, min_comm b.e a.e]
    ring
  exact decide_eq_false (by omega)

theorem dec32_zero : dec32 0#32 = .fin false 0 (-149) := by decide

theorem isNan32_eq_false_of_pos {a : W32} (h : flt32 0#32 a = true) : isNan32 a = false := by
  cases hd : dec32 a <;> simp_all [flt32, isNan32, dec32_zero]

theorem isNan32_eq_false_of_neg {a : W32} (h : flt32 a 0#32 = true) : isNan32 a = false := by
  cases hd : dec32 a <;> simp_all [flt32, isNan32]

/-- A number below zero is not above it. -/
theorem flt32_zero_of_neg {a : W32} (h : flt32 a 0#32 = true) : flt32 0#32 a = false := by
  cases hd : dec32 a with
  | nan => simp [flt32, hd, dec32_zero]
  | inf s => simp_all [flt32, dec32_zero]
  | fin s m e =>
    simp only [flt32, hd, dec32_zero] at h ⊢
    exact Dy.lt_asymm h

end Sys2Proof

namespace Sys2Proof.Machine

open Sys2Proof

/-! ### Terms (Table 7.9) -/

/-- FUNC 2 is the sign of its operand. -/
theorem termValue_sign (a b eps : W32) :
    (isNan32 a = true → termValue 2 a b eps = qnan32) ∧ (flt32 0#32 a = true → termValue 2 a b eps = one32) ∧
    (flt32 a 0#32 = true → termValue 2 a b eps = 0xBF800000#32) ∧ ((a = 0#32 ∨ a = 0x80000000#32) → termValue 2 a b eps = 0#32) := by
  have hsign : termValue 2 a b eps = if isNan32 a then qnan32 else if flt32 0#32 a then one32 else if flt32 a 0#32 then 0xBF800000#32 else 0#32 := rfl
  rw [hsign]
  refine ⟨fun h => if_pos h, fun h => ?_, fun h => ?_, ?_⟩
  · rw [isNan32_eq_false_of_pos h, h]
    rfl
  · rw [isNan32_eq_false_of_neg h, flt32_zero_of_neg h, h]
    rfl
  · rintro (rfl | rfl) <;> decide

/-- The fields of a term word (R222). -/
theorem termOf_fields {func ca cb : Nat} (rest : Nat) (hf : func < 4) (ha : ca < 8) (hb : cb < 8) (eps : W32) (read : Nat → W32) (g : W32) :
    termOf (256 * rest + 64 * func + 8 * cb + ca) eps read g = termValue func (operand ca read g) (operand cb read g) eps := by
  have hfunc : (256 * rest + 64 * func + 8 * cb + ca) / 64 % 4 = func := by omega
  have hca : (256 * rest + 64 * func + 8 * cb + ca) % 8 = ca := by omega
  have hcb : (256 * rest + 64 * func + 8 * cb + ca) / 8 % 8 = cb := by omega
  rw [termOf, hfunc, hca, hcb]

theorem operand_le_four {code : Nat} (h : code ≤ 4) (read : Nat → W32) (g : W32) : operand code read g = if code = 4 then g else read code := by
  rcases Nat.lt_or_eq_of_le h with hlt | rfl
  · rw [operand, if_pos hlt, if_neg hlt.ne]
  · rfl

/-! ### One slot, two terms (R224) -/

theorem Rule.storeSlot_fp32 {rule : Rule} (h : rule.sbf16 = 0) (d : Draws) (x k : Nat) (v : W32) : rule.storeSlot d x k v = v := by
  simp [Rule.storeSlot, h]

theorem Rule.newSlots_one {rule : Rule} {sl : RuleSlot} (hslots : rule.slots = [sl]) (hn : rule.nslot = 1) (hfp : rule.sbf16 = 0) (d : Draws) (x : Nat) (g : W32)
    {old : List W32} (hold : old.length = 1) :
    rule.newSlots d x g old = [ffma32 sl.beta (termOf sl.term sl.eps (fun i => old.getD i 0) g) (fmul32 sl.alpha (old.getD 0 0))] := by
  obtain ⟨v, rfl⟩ := List.length_eq_one_iff.1 hold
  simp [Rule.newSlots, hn, hslots, Rule.storeSlot_fp32 hfp]

theorem Rule.updateOf_two {rule : Rule} {a b : RuleTerm} (hterms : rule.terms = [a, b]) (hn : rule.nterm = 2) (hbca : rule.bca = 0) (bc : List W32) (g : W32) (s : List W32) :
    rule.updateOf bc g s = ffma32 b.gamma (termOf b.term b.eps (fun i => s.getD i 0) g) (ffma32 a.gamma (termOf a.term a.eps (fun i => s.getD i 0) g) 0) := by
  simp [Rule.updateOf, hn, hterms, hbca, List.range_succ]

theorem Rule.getElem_advance (rule : Rule) (ps : Vector W32 4) (i : Fin 4) :
    (rule.advance ps)[i] = if i.val < rule.nslot then fmul32 ps[i] ((rule.slots.getD i.val {}).alpha) else ps[i] := Vector.getElem_ofFn ..

end Sys2Proof.Machine

open Sys2Proof Sys2Proof.Machine

/-- Settles O41: the word's fields are `termOf_fields`, the sign function `termValue_sign`; the other functions are Table 7.9's own expressions. -/
theorem termFunctions : Obligations.TermFunctions := by
  unfold Obligations.TermFunctions
  intro func ca cb rest eps g slot hfunc hca hcb x a b
  have hx : x = termValue func a b eps := by
    rw [← show operand ca slot g = a from operand_le_four hca slot g, ← show operand cb slot g = b from operand_le_four hcb slot g]
    exact termOf_fields rest hfunc (by omega) (by omega) eps slot g
  rw [hx]
  refine ⟨?_, ?_, ?_, ?_⟩ <;> rintro rfl
  · rfl
  · rfl
  · exact termValue_sign a b eps
  · rfl

/-- Settles O42: one slot is one round of the fold of `Rule.newSlots`, two terms are two rounds of that of `Rule.updateOf`. -/
theorem recurrenceRule : Obligations.RecurrenceRule := by
  unfold Obligations.RecurrenceRule
  exact fun rule g p old d x => ⟨fun sl hslots hn hfp hold => Rule.newSlots_one hslots hn hfp d x g hold,
    fun a b bc hterms hn hbca => Rule.updateOf_two hterms hn hbca bc g old, fun u => rfl, rule.getElem_advance⟩
end

section
/-! A gradient write that is accepted (R218): its values in the stack, then the marks of the blocks it meets. -/

namespace Sys2Proof.Machine

open Sys2Proof

/-! ### Words and bits of the stack -/

theorem Field.f32_congr {f g : Field} {a : Nat} (h : ∀ y, a ≤ y → y < a + 4 → Tab.get 0 g.hbm y = Tab.get 0 f.hbm y) : g.f32 a = f.f32 a := by
  rw [Field.f32, Field.f32, Tab.getRange_congr 0 h]

theorem Field.bit_congr {f g : Field} {a i : Nat} (h : Tab.get 0 g.hbm (a + i / 8) = Tab.get 0 f.hbm (a + i / 8)) : g.bit a i = f.bit a i := by
  rw [Field.bit, Field.bit, h]

/-- What a field holds beside the bytes of its stack. -/
def Field.offStack (f : Field) : Field := { f with hbm := [] }

theorem Field.eq_of_offStack {f g : Field} (h : g.offStack = f.offStack) : g = { f with hbm := g.hbm } :=
  congrArg (fun y : Field => { y with hbm := g.hbm }) h

/-- Four bytes make no unit whole: the write leaves what is known of unreadable units. -/
theorem Field.offStack_setF32 (f : Field) (a : Nat) (v : W32) : (f.setF32 a v).offStack = f.offStack := by
  have hbad : f.hbmBad.filter (fun u => u * 64 < a || a + (bytesLE v.toNat 4).length < u * 64 + 64) = f.hbmBad :=
    List.filter_eq_self.2 (fun u _ => by
      rw [length_bytesLE, Bool.or_eq_true, decide_eq_true_eq, decide_eq_true_eq]
      omega)
  exact congrArg (fun l => { f.offStack with hbmBad := l }) hbad

theorem Field.f32_setF32 (f : Field) (a : Nat) (v : W32) : (f.setF32 a v).f32 a = v := by
  have hbytes : Tab.getRange 0 (f.setF32 a v).hbm a 4 = bytesLE v.toNat 4 := f.hbmWrite_same a (bytesLE v.toNat 4)
  rw [Field.f32, hbytes, natLE_bytesLE]
  exact BitVec.eq_of_toNat_eq (by simp [v.isLt])

theorem Field.setF32_other (f : Field) (a : Nat) (v : W32) {x : Nat} (hx : x < a ∨ a + 4 ≤ x) : Tab.get 0 (f.setF32 a v).hbm x = Tab.get 0 f.hbm x :=
  f.hbmWrite_other a _ x (by rwa [length_bytesLE])

theorem Field.setBit_other (f : Field) (a i : Nat) (v : Bool) {x : Nat} (hx : x ≠ a + i / 8) : Tab.get 0 (f.setBit a i v).hbm x = Tab.get 0 f.hbm x := by
  rw [Field.setBit, Tab.get_set, if_neg hx]

/-- A bit that is set reads set, and no other bit of its area changes. -/
theorem Field.bit_setBit_true (f : Field) (a i j : Nat) : (f.setBit a i true).bit a j = (decide (j = i) || f.bit a j) := by
  by_cases hbyte : j / 8 = i / 8
  · have hbit : (BitVec.ofNat 8 (2 ^ (i % 8))).getLsbD (j % 8) = decide (j = i) := by
      rw [BitVec.getLsbD_ofNat, Nat.testBit_two_pow, decide_eq_true (Nat.mod_lt j (by decide)), Bool.true_and]
      exact decide_eq_decide.2 (by omega)
    rw [Field.bit, Field.bit, Field.setBit, hbyte, Tab.get_set, if_pos rfl, if_pos rfl, BitVec.getLsbD_or, hbit, Bool.or_comm]
  · have hne : j ≠ i := fun h => hbyte (by rw [h])
    rw [Field.bit_congr (f.setBit_other a i true (by omega)), decide_eq_false hne, Bool.false_or]

/-! ### The values -/

section Values

variable (f g : Field) (r : Region) (u : Nat) (add : Bool) (vals : List W32)

/-- What value i of a gradient unit leaves in the stack (R218). -/
def Field.gradResult (i : Nat) (v : W32) : W32 :=
  let b := (r.unitBlocks u).getD i 0
  let old := f.f32 (64 * (r.grad + u) + 4 * i)
  if f.masked r b then old else if add then fadd32 (if f.touched r b then old else 0#32) v else v

theorem Region.getD_unitBlocks {i : Nat} (hi : i < 16) : (r.unitBlocks u).getD i 0 =
    r.blockIx ((u * 16 + i) / (16384 * r.g)) ((u * 16 + i) % (128 * r.g)) ((u * 16 + i) % (16384 * r.g) / (128 * r.g) / 32) := by
  simp [Region.unitBlocks, List.getD_eq_getElem?_getD, hi]

/-- Each value of a unit takes its place there, unless FMASK holds its block back. -/
theorem Field.gradValue_eq {i : Nat} (hi : i < 16) (v : W32) : f.gradValue r add u (i, v) =
    if f.masked r ((r.unitBlocks u).getD i 0) then f else f.setF32 (64 * (r.grad + u) + 4 * i) (f.gradResult r u add i v) := by
  have haddr : 64 * (r.grad + u) + 4 * i = 64 * r.grad + 4 * (u * 16 + i) := by omega
  rw [Field.gradResult, Region.getD_unitBlocks r u hi, haddr]
  split
  · next hm => exact if_pos hm
  · next hm => exact if_neg hm

/-- The first n values of a gradient unit stand in the stack of `g`, and nothing else of `f` has changed. -/
structure Field.ValuesTo (n : Nat) : Prop where
  rest : g.offStack = f.offStack
  value : ∀ i, i < n → g.f32 (64 * (r.grad + u) + 4 * i) = f.gradResult r u add i (vals.getD i 0#32)
  other : ∀ a, a < 64 * (r.grad + u) ∨ 64 * (r.grad + u) + 4 * n ≤ a → Tab.get 0 g.hbm a = Tab.get 0 f.hbm a

/-- The unit lies below the MAP area, and that below the FMASK area where one is in use (R437). -/
structure Region.GradApart : Prop where
  map : r.grad + u < r.map
  fmask : r.fmen = true → r.map + (r.blocks + 255) / 256 ≤ r.fmask

end Values

section Store

variable {f g : Field} {r : Region} {u : Nat} {add : Bool} {vals : List W32}

theorem Field.touched_of_other (hapart : r.GradApart u) (h : ∀ a, 64 * (r.grad + u) + 64 ≤ a → Tab.get 0 g.hbm a = Tab.get 0 f.hbm a) (b : Nat) :
    g.touched r b = f.touched r b ∧ g.pendingBit r b = f.pendingBit r b := by
  have hmap := hapart.map
  exact ⟨Field.bit_congr (h _ (by omega)), Field.bit_congr (h _ (by omega))⟩

theorem Field.masked_of_other (hapart : r.GradApart u) (h : ∀ a, 64 * (r.grad + u) + 64 ≤ a → Tab.get 0 g.hbm a = Tab.get 0 f.hbm a) (b : Nat) :
    g.masked r b = f.masked r b := by
  unfold Field.masked
  by_cases hfm : r.fmen = true
  · have hmap := hapart.map
    have hfmask := hapart.fmask hfm
    rw [Field.bit_congr (h _ (by omega))]
  · simp [hfm]

theorem Field.gradResult_congr (hapart : r.GradApart u) {i : Nat} (h : ∀ a, 64 * (r.grad + u) + 4 * i ≤ a → Tab.get 0 g.hbm a = Tab.get 0 f.hbm a) (hi : i < 16)
    (v : W32) : g.gradResult r u add i v = f.gradResult r u add i v := by
  have hold : g.f32 (64 * (r.grad + u) + 4 * i) = f.f32 (64 * (r.grad + u) + 4 * i) := Field.f32_congr (fun y hy _ => h y hy)
  have habove : ∀ a, 64 * (r.grad + u) + 64 ≤ a → Tab.get 0 g.hbm a = Tab.get 0 f.hbm a := fun a ha => h a (by omega)
  simp only [Field.gradResult, hold, Field.masked_of_other hapart habove, (Field.touched_of_other hapart habove _).1]

theorem Field.ValuesTo.zero : Field.ValuesTo f f r u add vals 0 := ⟨rfl, fun _ hi => absurd hi (Nat.not_lt_zero _), fun _ _ => rfl⟩

/-- The next value joins the ones that stand. -/
theorem Field.ValuesTo.succ (hapart : r.GradApart u) {n : Nat} (hn : n < 16) (h : Field.ValuesTo f g r u add vals n) :
    Field.ValuesTo f (g.gradValue r add u (n, vals.getD n 0#32)) r u add vals (n + 1) := by
  have hres : g.gradResult r u add n (vals.getD n 0#32) = f.gradResult r u add n (vals.getD n 0#32) :=
    Field.gradResult_congr hapart (fun a ha => h.other a (.inr ha)) hn _
  rw [Field.gradValue_eq g r u add hn, hres]
  split
  · next hm =>
    have hmf : f.gradResult r u add n (vals.getD n 0#32) = g.f32 (64 * (r.grad + u) + 4 * n) := hres ▸ if_pos hm
    refine ⟨h.rest, fun i hi => ?_, fun a ha => h.other a (by omega)⟩
    rcases Nat.lt_succ_iff_lt_or_eq.1 hi with hlt | rfl
    · exact h.value i hlt
    · exact hmf.symm
  · refine ⟨?_, fun i hi => ?_, fun a ha => (g.setF32_other _ _ (by omega)).trans (h.other a (by omega))⟩
    · exact (g.offStack_setF32 _ _).trans h.rest
    · rcases Nat.lt_succ_iff_lt_or_eq.1 hi with hlt | rfl
      · exact (Field.f32_congr (fun y _ hy => g.setF32_other _ _ (.inl (by omega)))).trans (h.value i hlt)
      · exact g.f32_setF32 _ _

theorem Field.valuesTo_foldl (hapart : r.GradApart u) {n : Nat} (hn : n ≤ 16) :
    Field.ValuesTo f ((List.range n).foldl (fun y i => y.gradValue r add u (i, vals.getD i 0#32)) f) r u add vals n := by
  induction n with
  | zero => exact .zero
  | succ n ih =>
    rw [List.range_succ, List.foldl_append]
    exact (ih (by omega)).succ hapart hn

/-- The sixteen values of a unit, each with its place. -/
theorem mapIdx_take_sixteen (h : 16 ≤ vals.length) : (vals.take 16).mapIdx (fun i v => (i, v)) = (List.range 16).map (fun i => (i, vals.getD i 0#32)) := by
  refine List.ext_getElem (by simp [h]) (fun i hi _ => ?_)
  have hlt : i < vals.length := by
    simp only [List.length_mapIdx, List.length_take] at hi
    omega
  simp [hlt]

end Store
/-! ### The marks -/

section Marks

variable (r : Region) (f : Field)

/-- TOUCHED and PENDING of a block set. -/
def Field.mark (b : Nat) : Field := (f.setBit (64 * r.map) (2 * b) true).setBit (64 * r.map) (2 * b + 1) true

theorem Field.bit_mark (b j : Nat) : (f.mark r b).bit (64 * r.map) j = (decide (j / 2 = b) || f.bit (64 * r.map) j) := by
  rw [Field.mark, Field.bit_setBit_true, Field.bit_setBit_true, ← Bool.or_assoc, ← Bool.decide_or]
  exact congrArg (· || _) (decide_eq_decide.2 (by omega))

theorem Field.bit_foldl_mark (bs : List Nat) (j : Nat) :
    (bs.foldl (Field.mark r) f).bit (64 * r.map) j = (decide (j / 2 ∈ bs) || f.bit (64 * r.map) j) := by
  induction bs generalizing f with
  | nil => simp
  | cons b bs ih => rw [List.foldl_cons, ih, Field.bit_mark, ← Bool.or_assoc, ← Bool.decide_or, decide_eq_decide.2 (List.mem_cons.trans or_comm)]

theorem Field.touched_foldl_mark (bs : List Nat) (b : Nat) :
    (bs.foldl (Field.mark r) f).touched r b = (decide (b ∈ bs) || f.touched r b) ∧
    (bs.foldl (Field.mark r) f).pendingBit r b = (decide (b ∈ bs) || f.pendingBit r b) := by
  have heven : 2 * b / 2 = b := by omega
  have hodd : (2 * b + 1) / 2 = b := by omega
  have hbit := f.bit_foldl_mark r bs (2 * b)
  have hbit' := f.bit_foldl_mark r bs (2 * b + 1)
  rw [heven] at hbit
  rw [hodd] at hbit'
  exact ⟨hbit, hbit'⟩

theorem Field.offStack_foldl_mark (bs : List Nat) : (bs.foldl (Field.mark r) f).offStack = f.offStack :=
  foldl_keeps Field.offStack (f := Field.mark r) (fun _ _ => rfl) bs f

/-- The marks of blocks that a region has lie in its MAP area. -/
theorem Field.foldl_mark_other {bs : List Nat} (hbs : ∀ b ∈ bs, b < r.blocks) {a : Nat} (ha : a < 64 * r.map ∨ 64 * r.map + (r.blocks + 3) / 4 ≤ a) :
    Tab.get 0 (bs.foldl (Field.mark r) f).hbm a = Tab.get 0 f.hbm a := by
  induction bs generalizing f with
  | nil => rfl
  | cons b bs ih =>
    have hb := hbs b (.head _)
    rw [List.foldl_cons, ih _ (fun c hc => hbs c (.tail _ hc)), Field.mark, Field.setBit_other _ _ _ _ (by omega), Field.setBit_other _ _ _ _ (by omega)]

end Marks

/-- G is 1, 2 or 4 (Table 5.3). -/
theorem Region.g_cases (r : Region) : r.g = 1 ∨ r.g = 2 ∨ r.g = 4 := by
  unfold Region.g sfmtG
  split <;> simp

/-- The blocks of a unit of the GRAD area are blocks of the region (R201). -/
theorem Region.unitBlocks_lt {r : Region} {u b : Nat} (hu : u < r.gradUnits) (hb : b ∈ r.unitBlocks u) : b < r.blocks := by
  obtain ⟨i, hi, rfl⟩ := List.mem_map.1 hb
  have hi := List.mem_range.1 hi
  unfold Region.gradUnits at hu
  simp only [Region.blockIx, Region.blocks]
  rcases r.g_cases with hg | hg | hg <;> rw [hg] at hu ⊢ <;> omega

/-! ### The write -/

section Write

variable {f : Field} {r : Region} {u : Nat} {add : Bool} {vals : List W32}

/-- What an accepted gradient write leaves of a field (R218). -/
structure Field.GradWritten (f g : Field) (r : Region) (u : Nat) (add : Bool) (vals : List W32) : Prop where
  rest : g = { f with hbm := g.hbm, upe := { f.upe with discard := if (r.unitBlocks u).any (f.masked r) then satAdd f.upe.discard 1 else f.upe.discard } }
  value : ∀ i, i < 16 → g.f32 (64 * (r.grad + u) + 4 * i) = f.gradResult r u add i (vals.getD i 0#32)
  marked : ∀ b ∈ r.unitBlocks u, f.masked r b = false → g.touched r b = true ∧ g.pendingBit r b = true
  unmarked : ∀ b, b ∉ r.unitBlocks u ∨ f.masked r b = true → g.touched r b = f.touched r b ∧ g.pendingBit r b = f.pendingBit r b
  other : ∀ a, (a < 64 * (r.grad + u) ∨ 64 * (r.grad + u) + 64 ≤ a) → (a < 64 * r.map ∨ 64 * r.map + (r.blocks + 3) / 4 ≤ a) →
    Tab.get 0 g.hbm a = Tab.get 0 f.hbm a

/-- The stack once a unit is written: its values, then the marks of its blocks that are not masked. -/
def Field.gradStack (f : Field) (r : Region) (u : Nat) (add : Bool) (vals : List W32) : Field :=
  ((r.unitBlocks u).filter (fun i => !f.masked r i)).foldl (Field.mark r) ((List.range 16).foldl (fun y i => y.gradValue r add u (i, vals.getD i 0#32)) f)

theorem Field.gradStack_eq (hapart : r.GradApart u) : f.gradStack r u add vals = { f with hbm := (f.gradStack r u add vals).hbm } :=
  Field.eq_of_offStack ((Field.offStack_foldl_mark r _ _).trans (Field.valuesTo_foldl hapart le_rfl).rest)

theorem Field.gradWrite_eq (hapart : r.GradApart u) (h : 16 ≤ vals.length) : f.gradWrite r u add (vals.take 16) = { f with
    hbm := (f.gradStack r u add vals).hbm
    upe := { f.upe with discard := if (r.unitBlocks u).any (f.masked r) then satAdd f.upe.discard 1 else f.upe.discard } } := by
  have hwrite : f.gradWrite r u add (vals.take 16) = if (r.unitBlocks u).any (f.masked r) then
      { f.gradStack r u add vals with upe := { (f.gradStack r u add vals).upe with discard := satAdd (f.gradStack r u add vals).upe.discard 1 } }
      else f.gradStack r u add vals := by
    rw [Field.gradWrite, mapIdx_take_sixteen h, List.foldl_map]
    rfl
  rw [hwrite, Field.gradStack_eq hapart]
  split <;> rfl

theorem Field.touched_gradStack (hapart : r.GradApart u) (b : Nat) :
    (f.gradStack r u add vals).touched r b = (decide (b ∈ r.unitBlocks u ∧ f.masked r b = false) || f.touched r b) ∧
    (f.gradStack r u add vals).pendingBit r b = (decide (b ∈ r.unitBlocks u ∧ f.masked r b = false) || f.pendingBit r b) := by
  have hval := Field.valuesTo_foldl (f := f) (add := add) (vals := vals) hapart le_rfl
  obtain ⟨ht, hp⟩ := Field.touched_of_other hapart (fun a ha => hval.other a (.inr ha)) b
  obtain ⟨hmt, hmp⟩ := Field.touched_foldl_mark r ((List.range 16).foldl (fun y i => y.gradValue r add u (i, vals.getD i 0#32)) f)
    ((r.unitBlocks u).filter (fun i => !f.masked r i)) b
  have hmem : b ∈ (r.unitBlocks u).filter (fun i => !f.masked r i) ↔ b ∈ r.unitBlocks u ∧ f.masked r b = false := by
    rw [List.mem_filter, Bool.not_eq_true']
  rw [ht, decide_eq_decide.2 hmem] at hmt
  rw [hp, decide_eq_decide.2 hmem] at hmp
  exact ⟨hmt, hmp⟩

theorem Field.gradWritten (hu : u < r.gradUnits) (hapart : r.GradApart u) (h : 16 ≤ vals.length) :
    f.GradWritten (f.gradWrite r u add (vals.take 16)) r u add vals := by
  have hmap := hapart.map
  have hval := Field.valuesTo_foldl (f := f) (add := add) (vals := vals) hapart le_rfl
  have hmarks : ∀ a, (a < 64 * r.map ∨ 64 * r.map + (r.blocks + 3) / 4 ≤ a) → Tab.get 0 (f.gradStack r u add vals).hbm a = Tab.get 0 (_ : Field).hbm a :=
    fun a => Field.foldl_mark_other r _ (fun b hb => Region.unitBlocks_lt hu (List.mem_filter.1 hb).1)
  rw [Field.gradWrite_eq hapart h]
  refine ⟨rfl, fun i hi => ?_, fun b hb hm => ?_, fun b hb => ?_, fun a ha hm => (hmarks a hm).trans (hval.other a ha)⟩
  · exact (Field.f32_congr (fun y _ hy => hmarks y (.inl (by omega)))).trans (hval.value i hi)
  · obtain ⟨ht, hp⟩ := Field.touched_gradStack (f := f) (add := add) (vals := vals) hapart b
    rw [decide_eq_true ⟨hb, hm⟩, Bool.true_or] at ht hp
    exact ⟨ht, hp⟩
  · obtain ⟨ht, hp⟩ := Field.touched_gradStack (f := f) (add := add) (vals := vals) hapart b
    have hnot : ¬(b ∈ r.unitBlocks u ∧ f.masked r b = false) := by
      rintro ⟨hmem, hfalse⟩
      exact hb.elim (fun h => h hmem) (fun h => Bool.noConfusion (hfalse.symm.trans h))
    rw [decide_eq_false hnot, Bool.false_or] at ht hp
    exact ⟨ht, hp⟩

end Write

/-! ### The command (R214, R219, R254) -/

section Command

variable {s : State} {f n u : Nat} {add : Bool} {vals : List W32} {k : Site} {port : PortIx} {src : Nat} {e : W16}

theorem ite_some_eq_none_iff {α : Type} {c : Prop} [Decidable c] {a : α} {o : Option α} : (if c then some a else o) = none ↔ ¬c ∧ o = none := by
  split <;> simp [*]

theorem Field.gradBad_none_iff (x : Field) (n u : Nat) : x.gradBad n u = none ↔ (x.region n).en = true ∧ (x.region n).kind = 1 ∧
    u < 1024 * (x.region n).g * (x.region n).len ∧ (x.region n).frozen = false ∧ x.phase (x.region n).part = .collect := by
  rw [Field.gradBad, ite_some_eq_none_iff, ite_some_eq_none_iff, ite_some_eq_none_iff]
  have hrange : (x.region n).gradUnits ≤ u ↔ ¬u < 1024 * (x.region n).g * (x.region n).len := Nat.not_lt.symm
  simp [hrange, and_assoc]

/-- What an accepted write does: the engine's fault where a unit that it needs cannot be read, or the write. -/
def State.gradAccepted (s : State) (f n u : Nat) (add : Bool) (vals : List W32) : State :=
  let r := (s.field f).region n
  match (s.field f).gradUnread r u add with
  | some a => s.engineFault f r.part 3 n a
  | none => s.updField f (fun y => y.gradWrite r u add (vals.take 16))

/-- A write from outside the module's cores: one outside its area is discarded, a frozen or late one is the engine's fault. -/
def State.gradReceived (s : State) (f n u : Nat) (add : Bool) (vals : List W32) : State :=
  let r := (s.field f).region n
  match (s.field f).gradBad n u with
  | some .range => s
  | some .frozen => s.engineFault f r.part 2 n (r.grad + u)
  | some .late => s.engineFault f r.part 1 n (r.grad + u)
  | none => s.gradAccepted f n u add vals

theorem State.gradAccepted_unread {a : Nat} (h : (s.field f).gradUnread ((s.field f).region n) u add = some a) :
    s.gradAccepted f n u add vals = s.engineFault f ((s.field f).region n).part 3 n a := by simp only [State.gradAccepted, h]

theorem State.gradAccepted_read (h : (s.field f).gradUnread ((s.field f).region n) u add = none) :
    s.gradAccepted f n u add vals = s.withField f (fun y => y.gradWrite ((s.field f).region n) u add (vals.take 16)) := by
  simp only [State.gradAccepted, h]
  rfl

theorem State.gradReceived_range (h : (s.field f).gradBad n u = some .range) : s.gradReceived f n u add vals = s := by
  simp only [State.gradReceived, h]

theorem State.gradReceived_frozen (h : (s.field f).gradBad n u = some .frozen) :
    s.gradReceived f n u add vals = s.engineFault f ((s.field f).region n).part 2 n (((s.field f).region n).grad + u) := by simp only [State.gradReceived, h]

theorem State.gradReceived_late (h : (s.field f).gradBad n u = some .late) :
    s.gradReceived f n u add vals = s.engineFault f ((s.field f).region n).part 1 n (((s.field f).region n).grad + u) := by simp only [State.gradReceived, h]

theorem State.gradReceived_good (h : (s.field f).gradBad n u = none) : s.gradReceived f n u add vals = s.gradAccepted f n u add vals := by
  simp only [State.gradReceived, h]

theorem State.gradientWrite_core_idle (h : s.runsOn k = none) : s.gradientWrite f n u add vals (.core k) = s := by
  simp [State.gradientWrite, h]

theorem State.gradientWrite_core_other {p : Nat} (h : s.runsOn k = some p) (hp : p ≠ ((s.field f).region n).part) :
    s.gradientWrite f n u add vals (.core k) = s.trap k 0x50 (((s.field f).region n).grad + u) := by
  simp [State.gradientWrite, h, hp, State.trap]

/-- A core that runs the region's partition writes, or stops on the fault of its write. -/
theorem State.gradientWrite_core (h : s.runsOn k = some ((s.field f).region n).part) :
    ((s.field f).gradBad n u = some .range → s.gradientWrite f n u add vals (.core k) = s.trap k 0x50 (((s.field f).region n).grad + u)) ∧
    ((s.field f).gradBad n u = some .frozen → s.gradientWrite f n u add vals (.core k) = s.trap k 0x53 n) ∧
    ((s.field f).gradBad n u = some .late → s.gradientWrite f n u add vals (.core k) = s.trap k 0x54 n) ∧
    ((s.field f).gradBad n u = none → s.gradientWrite f n u add vals (.core k) = s.gradAccepted f n u add vals) := by
  unfold State.gradientWrite
  simp only [h, ne_eq, not_true_eq_false, if_false]
  refine ⟨?_, ?_, ?_, ?_⟩ <;> intro hb <;> rw [hb] <;> rfl

theorem State.gradientWrite_tree_idle (h : (s.part ((s.field f).region n).part).started = false) : s.gradientWrite f n u add vals .tree = s := by
  simp [State.gradientWrite, h]

theorem State.gradientWrite_tree (h : (s.part ((s.field f).region n).part).started = true) :
    s.gradientWrite f n u add vals .tree = s.gradReceived f n u add vals := by
  rw [State.gradientWrite]
  simp only [h, Bool.not_true, Bool.false_eq_true, if_false]
  rfl

/-- The packet by which the fabric brings a gradient unit (R254). -/
def gradPacket (p src : Nat) (e : W16) : FabPkt := { vc := 1, part := p, src := src, epoch := e, tkind := 1 }

theorem State.judgePacket_gradPacket (s : State) (p src : Nat) (e : W16) : s.judgePacket (gradPacket p src e) =
    if (s.part p).started = false then some fkClosed else if e ≠ (s.part p).epoch then some fkStale else none := by
  rw [State.judgePacket, gradPacket]
  cases (s.part p).started
  · simp
  · by_cases he : e = (s.part p).epoch <;> simp [he]

theorem State.gradientWrite_fabric_passes (hst : (s.part ((s.field f).region n).part).started = true) (he : e = (s.part ((s.field f).region n).part).epoch) :
    s.gradientWrite f n u add vals (.fabric port src e) = s.gradReceived f n u add vals := by
  have h := s.judgePacket_gradPacket ((s.field f).region n).part src e
  rw [if_neg (by simp [hst]), if_neg (by simp [he]), gradPacket] at h
  rw [State.gradientWrite]
  simp only [h]
  rfl

/-- A packet that fails is the fabric's fault; one of the epoch before ends a re-shard besides (R266). -/
theorem State.gradientWrite_fabric_fails {kind : Nat} (h : s.judgePacket (gradPacket ((s.field f).region n).part src e) = some kind)
    (hstale : kind = fkStale → e + 1 ≠ (s.part ((s.field f).region n).part).epoch) :
    s.gradientWrite f n u add vals (.fabric port src e) = s.fabFault ((s.field f).region n).part port kind src e 0 .none := by
  rw [gradPacket] at h
  simp only [State.gradientWrite, h]
  refine if_neg (fun hc => ?_)
  simp only [Bool.and_eq_true, decide_eq_true_eq] at hc
  obtain ⟨⟨hkind, -⟩, hepoch⟩ := hc
  exact hstale hkind hepoch

end Command

end Sys2Proof.Machine
end

section
/-! The norm and the update (R220, R225, R230, R231): what a norm message sends, and what the start of an APPLY and the work on the blocks leave. -/

namespace Sys2Proof

variable {α : Type}

/-- Rewriting the entries that meet a condition rewrites what every key reads, where an unlisted key does not meet it. -/
theorem Tab.get_map_if (d : α) (t : Tab α) (c : α → Bool) (g : α → α) (hd : c d = false) (x : Nat) :
    Tab.get d (t.map (fun p => if c p.2 then (p.1, g p.2) else p)) x = if c (Tab.get d t x) then g (Tab.get d t x) else Tab.get d t x := by
  induction t with
  | nil => simp [Tab.get, hd]
  | cons p t ih =>
    by_cases hx : x = p.1 <;> by_cases hc : c p.2 = true <;> simp_all [Tab.get]

end Sys2Proof

namespace Sys2Proof.Machine

open Sys2Proof

/-! ### Two changes of one field -/

theorem State.updField_updField (s : State) (f : Nat) (g h : Field → Field) : (s.updField f g).updField f h = s.updField f (fun x => h (g x)) := by
  simp only [State.updField, Tab.upd, Tab.get_set, if_true, Tab.set_set]

theorem Field.setPhase_fin (x : Field) (p : PartIx) (y : UpePhase) : x.setPhase p y = { x with upe := { x.upe with phase := x.upe.phase.set p.val y } } := by
  rw [Field.setPhase, vset_fin]

/-! ### NORM_MESSAGE -/

section Norm

variable {s : State} {f : Nat} {p : PartIx}

theorem State.normMessage_idle (h : (s.part p).started = false ∨ (s.field f).halted p = true) : s.normMessage f p = s := by
  refine if_pos ?_
  rcases h with h | h <;> simp [h]

theorem State.normMessage_late (hlive : (s.part p).started = true ∧ (s.field f).halted p = false) (h : (s.field f).phase p ≠ .collect) :
    s.normMessage f p = s.engineFault f p 6 0 0 := by
  simp [State.normMessage, hlive, h, ekBadMsg]

theorem State.normMessage_unread {n u : Nat} (hlive : (s.part p).started = true ∧ (s.field f).halted p = false) (h : (s.field f).phase p = .collect)
    (hnorm : (s.field f).normRegions ((s.field f).trained p) 0#32 = .error (n, u)) :
    s.normMessage f p = (s.updField f (fun y => y.setPhase p .norm)).engineFault f p 3 n u := by
  simp [State.normMessage, hlive, h, hnorm, ekHbmUncorr]

theorem State.normMessage_sends {v : W32} (hlive : (s.part p).started = true ∧ (s.field f).halted p = false) (h : (s.field f).phase p = .collect)
    (hnorm : (s.field f).normRegions ((s.field f).trained p) 0#32 = .ok v) :
    s.normMessage f p = { s.updField f (fun y => { y.setPhase p .norm with upe := { (y.setPhase p .norm).upe with ssq := v } }) with
      mesh := s.mesh ++ [normPacket f (s.field f).upe.redId v] } := by
  simp only [State.normMessage, hlive, h, hnorm, State.updField_updField]
  rfl

end Norm

/-! ### The clip (Table 7.7) -/

theorem clipScale_notFinite {v : W32} (h : isFin32 v = false) (c : W32) : clipScale v c = none := by simp [clipScale, h]

theorem clipScale_finite {v : W32} (h : isFin32 v = true) (c : W32) : clipScale v c =
    some (if flt32 (fmul32 c c) v = false ∧ isNan32 (fmul32 c c) = false then one32 else fmul32 c (rsqrt32 v)) := by
  simp only [clipScale, h, Bool.not_true, Bool.false_eq_true, if_false, Bool.and_eq_true, Bool.not_eq_true', apply_ite some]

/-! ### What the work on the blocks keeps -/

/-- What a field holds beside its stack, its engine's count of blocks and draws, and the engine's record of its faults. -/
def Field.offUpdate (f : Field) : Field :=
  { f with hbm := [], hbmBad := [], upe := { f.upe with blocks := 0, srCtr := [], fault := { body := {} }, halted := 0 } }

theorem Field.upe_of_offUpdate {f g : Field} (h : g.offUpdate = f.offUpdate) : g.upe.scale = f.upe.scale ∧ g.upe.nonfinite = f.upe.nonfinite ∧
    g.upe.skips = f.upe.skips ∧ g.upe.powers = f.upe.powers := by
  have hupe : g.offUpdate.upe = f.offUpdate.upe := congrArg Field.upe h
  simp only [Field.offUpdate, Upe.mk.injEq] at hupe
  simp [hupe]

theorem Field.offUpdate_foldl {α : Type} {g : Field → α → Field} (h : ∀ y a, (g y a).offUpdate = y.offUpdate) (l : List α) (f : Field) :
    (l.foldl g f).offUpdate = f.offUpdate := foldl_keeps Field.offUpdate h l f

theorem Field.offUpdate_putBits (f : Field) (a o w v : Nat) : (f.putBits a o w v).offUpdate = f.offUpdate := rfl

theorem Field.offUpdate_encodeBlock (f : Field) (r : Region) (i : Nat) (cs : List (Nat × Nat)) (rs : List Rnd) (ps : List W32) :
    (f.encodeBlock r i cs rs ps).offUpdate = f.offUpdate := by
  unfold Field.encodeBlock
  extract_lets p lay base w mx g
  have hg : g.offUpdate = f.offUpdate := Field.offUpdate_foldl (fun y q => y.offUpdate_putBits ..) _ f
  split <;> exact hg

theorem Field.offUpdate_slotOut (f : Field) (r : Region) (rule : Rule) (i x k : Nat) (v : W32) : (f.slotOut r rule i x k v).offUpdate = f.offUpdate := by
  unfold Field.slotOut
  split <;> rfl

theorem Field.offUpdate_applyBlock (f : Field) (n : Nat) (r : Region) (ctx : ApplyCtx) (i : Nat) : (f.applyBlock n r ctx i).offUpdate = f.offUpdate := by
  unfold Field.applyBlock
  extract_lets rule base draws cs news f1 f2 rs f3 f4
  have h1 : f1.offUpdate = f.offUpdate := Field.offUpdate_foldl (fun y e => Field.offUpdate_foldl (fun z q => z.offUpdate_slotOut ..) _ y) _ f
  have h2 : f2.offUpdate = f1.offUpdate := by
    simp only [f2]
    split
    · exact Field.offUpdate_foldl (g := fun y e => y.setF32 _ _) (fun _ _ => rfl) _ f1
    · rfl
  have h3 : f3.offUpdate = f2.offUpdate := f2.offUpdate_encodeBlock ..
  exact h3.trans (h2.trans h1)

theorem Field.offUpdate_applyBlocks (n : Nat) (r : Region) (ctx : ApplyCtx) (l : List Nat) (f : Field) :
    (Field.applyBlocks n r ctx l f).1.offUpdate = f.offUpdate := by
  induction l generalizing f with
  | nil => rfl
  | cons i l ih =>
    unfold Field.applyBlocks
    split
    · rfl
    · exact (ih _).trans (f.offUpdate_applyBlock ..)

theorem Field.offUpdate_precArea (f : Field) (r : Region) (b : Binding) (c : W32) (stat : Bool) (a : Nat) : (f.precArea r b c stat a).1.offUpdate = f.offUpdate := by
  cases stat <;> rfl

theorem Field.offUpdate_precAreas (f : Field) (r : Region) (b : Binding) (c : W32) (stat : Bool) : (f.precAreas r b c stat).1.offUpdate = f.offUpdate :=
  foldl_keeps (fun acc : Field × List (Nat × List (List W32)) => acc.1.offUpdate) (fun acc a => acc.1.offUpdate_precArea r b c stat a) _ (f, [])

theorem Field.offUpdate_applyRegion (f : Field) (n : Nat) (r : Region) (c : W32) (key : W64) (stepNo : Nat) :
    (f.applyRegion n r c key stepNo).1.offUpdate = f.offUpdate := by
  unfold Field.applyRegion
  extract_lets rule live b pc stat gc areas q ctx
  split
  · rfl
  · refine (Field.offUpdate_applyBlocks ..).trans ?_
    simp only [q]
    split
    · exact f.offUpdate_precAreas ..
    · rfl

theorem Field.offUpdate_applyRegions (c : W32) (key : W64) (stepNo : Nat) (l : List (Nat × Region)) (f : Field) :
    (Field.applyRegions c key stepNo l f).1.offUpdate = f.offUpdate := by
  induction l generalizing f with
  | nil => rfl
  | cons q l ih =>
    obtain ⟨n, r⟩ := q
    have hregion := f.offUpdate_applyRegion n r c key stepNo
    unfold Field.applyRegions
    split
    · next g e h => exact (congrArg (fun o => o.1.offUpdate) h.symm).trans hregion
    · next g h => exact (ih g).trans ((congrArg (fun o => o.1.offUpdate) h.symm).trans hregion)

/-! ### Where no block is live -/

theorem Field.applyRegion_noBlock {f : Field} {r : Region} (hlive : f.liveBlocks r = []) (hpc : r.pcen = false) (hread : f.badUnit (f.mapUnits r) = none)
    (n : Nat) (c : W32) (key : W64) (stepNo : Nat) : f.applyRegion n r c key stepNo = (f, none) := by
  simp [Field.applyRegion, hlive, hpc, hread, Field.applyBlocks]

theorem Field.applyRegions_noBlock {f : Field} {l : List (Nat × Region)}
    (h : ∀ r ∈ l, f.liveBlocks r.2 = [] ∧ r.2.pcen = false ∧ f.badUnit (f.mapUnits r.2) = none) (c : W32) (key : W64) (stepNo : Nat) :
    Field.applyRegions c key stepNo l f = (f, none) := by
  induction l with
  | nil => rfl
  | cons q l ih =>
    obtain ⟨n, r⟩ := q
    obtain ⟨hlive, hpc, hread⟩ := h _ (.head _)
    simp only [Field.applyRegions, Field.applyRegion_noBlock hlive hpc hread]
    exact ih (fun q hq => h q (.tail _ hq))

/-! ### The start of APPLY (R225, R230) -/

section Start

variable (x : Field) (p : PartIx) (v : W32)

/-- The field as APPLY begins with N² = v. -/
def Field.begun (skip : Bool) : Field := { x with upe := { x.upe with total := v } }.startApply p skip

/-- Beside its stack and its powers, what a field holds in an APPLY of partition p (R220, R230). -/
structure Field.Applying (g : Field) : Prop where
  total : g.upe.total = v
  phase : g.phase p = .apply
  part : g.upe.part = p.val
  others : ∀ q : PartIx, q ≠ p → g.phase q = x.phase q
  bindings : ∀ i, Tab.get {} g.bindings i = let b : Binding := Tab.get {} x.bindings i
    if b.en = true ∧ b.part = p.val ∧ b.newroot = true then { b with active := !b.active, newroot := false } else b

theorem Field.phase_fin (g : Field) (q : PartIx) : g.phase q = g.upe.phase[q] := getD_toList_fin ..

theorem Field.applying_begun (skip : Bool) : x.Applying p v (x.begun p v skip) := by
  have hphase : (x.begun p v skip).upe.phase = x.upe.phase.set p.val .apply := vset_fin ..
  refine ⟨rfl, ?_, rfl, fun q hq => ?_, fun i => ?_⟩
  · rw [Field.phase_fin, hphase]
    exact Vector.getElem_set_self ..
  · rw [Field.phase_fin, Field.phase_fin, hphase]
    exact Vector.getElem_set_ne _ _ (fun h => hq (Fin.ext h.symm))
  · refine (Tab.get_map_if ({} : Binding) x.bindings (fun b => b.en && b.part = p.val && b.newroot)
      (fun b => { b with active := !b.active, newroot := false }) rfl i).trans ?_
    simp only [Bool.and_eq_true, decide_eq_true_eq, and_assoc]

/-- The powers of the rules in use advance (R225). -/
theorem Field.powers_begun (i : Nat) : Tab.get onePowers (x.begun p v false).upe.powers i =
    if (∃ r ∈ x.trained p, r.2.rule = i) then (x.rule i).advance (Tab.get onePowers x.upe.powers i) else Tab.get onePowers x.upe.powers i := by
  have hmem : i ∈ ((x.trained p).map (fun r => r.2.rule)).dedup ↔ ∃ r ∈ x.trained p, r.2.rule = i := by rw [List.mem_dedup, List.mem_map]
  refine (Tab.get_updAll onePowers _ (fun k => (x.rule k).advance) i (List.nodup_dedup _) x.upe.powers).trans ?_
  exact if_congr hmem rfl rfl

variable {x p v}

theorem Field.Applying.of_offUpdate {g h : Field} (hg : x.Applying p v g) (heq : h.offUpdate = g.offUpdate) : x.Applying p v h := by
  have hoff : x.Applying p v g.offUpdate := ⟨hg.total, hg.phase, hg.part, hg.others, hg.bindings⟩
  rw [← heq] at hoff
  exact ⟨hoff.total, hoff.phase, hoff.part, hoff.others, hoff.bindings⟩

end Start

/-! ### A skipped update (Table 7.7) -/

section Skip

variable (f : Field) (p : Nat)

/-- The MAP area of a region cleared, and those of several. -/
def Field.clearMap (r : Region) : Field := f.hbmWrite (64 * r.map) (List.replicate (up64 ((r.blocks + 3) / 4)) 0#8)
def Field.clearMaps (l : List (Nat × Region)) : Field := l.foldl (fun y r => y.clearMap r.2) f

theorem Field.offUpdate_clearMap (r : Region) : (f.clearMap r).offUpdate = f.offUpdate := rfl

theorem Field.offUpdate_clearMaps (l : List (Nat × Region)) : (f.clearMaps l).offUpdate = f.offUpdate :=
  Field.offUpdate_foldl (fun (y : Field) (r : Nat × Region) => y.offUpdate_clearMap r.2) l f

theorem Field.skipApply_eq : f.skipApply p = { f.clearMaps (f.trained p) with
    upe := { (f.clearMaps (f.trained p)).upe with nonfinite := true, skips := satAdd (f.clearMaps (f.trained p)).upe.skips 1 } } := rfl

/-- A skipped update changes the stack and its count only. -/
theorem Field.Applying.skipApply {x g : Field} {q : PartIx} {v : W32} (h : x.Applying q v g) : x.Applying q v (g.skipApply q) := by
  obtain ⟨htotal, hphase, hpart, hothers, hbind⟩ := h.of_offUpdate (g.offUpdate_clearMaps (g.trained q))
  exact ⟨htotal, hphase, hpart, hothers, hbind⟩

/-- The engine behind a skipped update. -/
theorem Field.upe_skipApply : (f.skipApply p).upe.nonfinite = true ∧ (f.skipApply p).upe.skips = satAdd f.upe.skips 1 ∧ (f.skipApply p).upe.powers = f.upe.powers := by
  obtain ⟨-, -, hskips, hpowers⟩ := Field.upe_of_offUpdate (f.offUpdate_clearMaps (f.trained p))
  exact ⟨rfl, congrArg (satAdd · 1) hskips, hpowers⟩

/-- A byte that is zero, or in an area that is cleared, reads zero behind the clearing. -/
theorem Field.hbmWrite_zeros {a n x : Nat} (h : Tab.get 0 f.hbm x = 0 ∨ (a ≤ x ∧ x < a + n)) : Tab.get 0 (f.hbmWrite a (List.replicate n 0#8)).hbm x = 0 := by
  by_cases hin : a ≤ x ∧ x < a + n
  · obtain ⟨i, rfl⟩ := Nat.exists_eq_add_of_le hin.1
    exact (Tab.get_setRange_at 0 (List.replicate n 0#8) a i (by simpa using hin.2) f.hbm).trans (by simp)
  · rw [Field.hbmWrite_other f a _ x (by rw [List.length_replicate]; omega)]
    exact h.resolve_right hin

theorem Field.clearMaps_zero {l : List (Nat × Region)} {a : Nat}
    (h : Tab.get 0 f.hbm a = 0 ∨ ∃ r ∈ l, 64 * r.2.map ≤ a ∧ a < 64 * r.2.map + (r.2.blocks + 3) / 4) : Tab.get 0 (f.clearMaps l).hbm a = 0 := by
  induction l generalizing f with
  | nil => exact h.resolve_right (by simp)
  | cons q l ih =>
    have hup : (q.2.blocks + 3) / 4 ≤ up64 ((q.2.blocks + 3) / 4) := by
      unfold up64
      omega
    refine ih _ ?_
    rcases h with h | ⟨r, hr, hlo, hhi⟩
    · exact .inl (f.hbmWrite_zeros (.inl h))
    · rcases List.mem_cons.1 hr with rfl | hr
      · exact .inl (f.hbmWrite_zeros (.inr ⟨hlo, by omega⟩))
      · exact .inr ⟨r, hr, hlo, hhi⟩

end Skip

/-! ### SCALAR_BROADCAST -/

section Scalar

variable {s : State} {f : Nat} {p : PartIx} {v : W32}

theorem State.scalarBroadcast_idle (h : (s.part p).started = false ∨ (s.field f).halted p = true) : s.scalarBroadcast f p v = s := by
  refine if_pos ?_
  rcases h with h | h <;> simp [h]

theorem State.scalarBroadcast_late (hlive : (s.part p).started = true ∧ (s.field f).halted p = false) (h : (s.field f).phase p ≠ .norm) :
    s.scalarBroadcast f p v = s.engineFault f p 6 0 0 := by
  simp [State.scalarBroadcast, hlive, h, ekBadMsg]

theorem State.scalarBroadcast_skips (hlive : (s.part p).started = true ∧ (s.field f).halted p = false) (h : (s.field f).phase p = .norm)
    (hv : isFin32 v = false) : s.scalarBroadcast f p v = s.setField f (((s.field f).begun p v true).skipApply p) := by
  simp [State.scalarBroadcast, hlive, h, clipScale_notFinite hv, Field.begun]

/-- The clip scale of an update that is not skipped (Table 7.7). -/
def Field.clipFor (x : Field) (p : PartIx) (v : W32) : W32 :=
  let c := x.upe.clip[p]
  if flt32 (fmul32 c c) v = false ∧ isNan32 (fmul32 c c) = false then one32 else fmul32 c (rsqrt32 v)

/-- The field as the work on its blocks begins. -/
def Field.readied (x : Field) (p : PartIx) (v : W32) : Field := { x.begun p v false with upe := { (x.begun p v false).upe with scale := x.clipFor p v } }

theorem Field.applying_readied (x : Field) (p : PartIx) (v : W32) : x.Applying p v (x.readied p v) := by
  obtain ⟨htotal, hphase, hpart, hothers, hbind⟩ := x.applying_begun p v false
  exact ⟨htotal, hphase, hpart, hothers, hbind⟩

/-- What the work on the blocks leaves, and the unit at which it ended early. -/
def State.applyWork (s : State) (f : Nat) (p : PartIx) (v : W32) : Field × Option (Nat × Nat) :=
  Field.applyRegions ((s.field f).clipFor p v) (stepSeed (s.part p).seed (s.part p).stepNow) (s.part p).stepNow.toNat ((s.field f).trained p) ((s.field f).readied p v)

/-- The work's field takes its place, and a unit that could not be read is the engine's fault (R206, R231). -/
def State.settleWork (s : State) (f p : Nat) : Field × Option (Nat × Nat) → State
  | (g, none) => s.setField f g
  | (g, some (n, u)) => (s.setField f g).engineFault f p 3 n u

theorem State.scalarBroadcast_applies (hlive : (s.part p).started = true ∧ (s.field f).halted p = false) (h : (s.field f).phase p = .norm)
    (hv : isFin32 v = true) : s.scalarBroadcast f p v = s.settleWork f p (s.applyWork f p v) := by
  have hclip : clipScale v ((s.field f).upe.clip.toList.getD p 0x7F800000#32) = some ((s.field f).clipFor p v) := by
    rw [getD_toList_fin]
    exact clipScale_finite hv _
  unfold State.scalarBroadcast
  simp only [hlive, h, hclip, Bool.not_true, Bool.or_false, Bool.false_eq_true, if_false, ne_eq, not_true_eq_false]
  rfl

/-- The engine's record of its fault, and its halt for a partition (R231). -/
def Field.faulted (x : Field) (now : Stamp) (q kind region addr : Nat) : Field := { x with upe := { x.upe with
  fault := x.upe.fault.note UpeFaultBody.lower now { part := q, kind := kind, region := region, addr := BitVec.ofNat 32 addr }
  halted := x.upe.halted ||| BitVec.ofNat 16 (2 ^ q) } }

theorem State.field_engineFault (s : State) (f j q kind region addr : Nat) :
    (s.engineFault f q kind region addr).field j = if j = f then (s.field f).faulted s.now q kind region addr else s.field j :=
  s.field_updField f j (fun x => x.faulted s.now q kind region addr)

/-- From `s` to `t` field f has become a field that agrees with g off the work on the blocks, and faults may have been reported. -/
structure State.Worked (s t : State) (f : Nat) (g : Field) : Prop where
  field : (t.field f).offUpdate = g.offUpdate
  others : ∀ j, j ≠ f → t.field j = s.field j
  frame : t = { s with fields := t.fields, fw := { s.fw with reports := t.fw.reports } }

theorem State.worked_setField (s : State) (f : Nat) (g : Field) : s.Worked (s.setField f g) f g :=
  ⟨by rw [State.field_setField, if_pos rfl], fun j hj => by rw [State.field_setField, if_neg hj], rfl⟩

theorem State.worked_engineFault (s : State) (f : Nat) (g : Field) (q kind region addr : Nat) :
    s.Worked ((s.setField f g).engineFault f q kind region addr) f g := by
  refine ⟨?_, fun j hj => ?_, rfl⟩
  · rw [State.field_engineFault, if_pos rfl, State.field_setField, if_pos rfl]
    rfl
  · rw [State.field_engineFault, if_neg hj, State.field_setField, if_neg hj]

theorem State.worked_settleWork (s : State) (f p : Nat) (w : Field × Option (Nat × Nat)) : s.Worked (s.settleWork f p w) f w.1 :=
  match w with
  | (g, none) => s.worked_setField f g
  | (g, some (n, u)) => s.worked_engineFault f g p 3 n u

theorem State.worked_scalarBroadcast (hlive : (s.part p).started = true ∧ (s.field f).halted p = false) (h : (s.field f).phase p = .norm)
    (hv : isFin32 v = true) : s.Worked (s.scalarBroadcast f p v) f ((s.field f).readied p v) := by
  have hkept : (s.applyWork f p v).1.offUpdate = ((s.field f).readied p v).offUpdate := Field.offUpdate_applyRegions ..
  obtain ⟨hfield, hothers, hframe⟩ := s.worked_settleWork f p (s.applyWork f p v)
  rw [State.scalarBroadcast_applies hlive h hv]
  exact ⟨hfield.trans hkept, hothers, hframe⟩

/-- Where no trained region has a live block, no binding in use and no unit that cannot be read, the start is the whole APPLY. -/
theorem State.scalarBroadcast_noBlock (hlive : (s.part p).started = true ∧ (s.field f).halted p = false) (h : (s.field f).phase p = .norm)
    (hv : isFin32 v = true) (hblocks : ((s.field f).trained p).flatMap (fun r => (s.field f).liveBlocks r.2) = [])
    (hread : ∀ r ∈ (s.field f).trained p, r.2.pcen = false ∧ (s.field f).badUnit ((s.field f).mapUnits r.2) = none) :
    s.scalarBroadcast f p v = s.setField f ((s.field f).readied p v) := by
  have hwork : s.applyWork f p v = ((s.field f).readied p v, none) :=
    Field.applyRegions_noBlock (f := (s.field f).readied p v) (fun r hr => ⟨List.flatMap_eq_nil_iff.1 hblocks r hr, (hread r hr).1, (hread r hr).2⟩) _ _ _
  rw [State.scalarBroadcast_applies hlive h hv, hwork, State.settleWork]

end Scalar

/-! ### APPLY_DONE -/

theorem State.applyDone_returns {s : State} {f : Nat} {p : PartIx} (h : (s.field f).phase p = .apply) (hh : (s.field f).halted p = false) :
    s.applyDone f p = (s.updField f (fun x => x.setPhase p .collect)).withPart p (fun y => { y with
      enginesDone := if y.enginesDone.contains f then y.enginesDone else f :: y.enginesDone }) := by
  rw [State.applyDone, if_neg (by simp [h, hh]), State.updPart_eq_withPart]

theorem State.applyDone_idle {s : State} {f : Nat} {p : PartIx} (h : (s.field f).phase p ≠ .apply ∨ (s.field f).halted p = true) : s.applyDone f p = s :=
  if_pos (by simpa using h)

end Sys2Proof.Machine
end

section
/-! The update engine's commands (R206, R214 to R231). -/

open Sys2Proof Sys2Proof.Machine

/-- Settles O40: a gradient write is judged by its source and then by `gradBad`, and one that is accepted leaves what `Field.gradWritten` says; of the
engine, an APPLY keeps what `Field.Applying` names through all the work on the blocks, for that work changes nothing off the stack but counts and faults.
The norm's packet entering the mesh at quad 0 (log 78), discarding what names a partition that has not started (log 28) and toggling the roots in a
skipped APPLY (log 27) are the model's choice. -/
theorem updateEngineCompletes : Obligations.UpdateEngineCompletes := by
  unfold Obligations.UpdateEngineCompletes
  refine ⟨fun f n u add vals s => ?gradient, fun f p s => ?engine⟩
  case gradient =>
    intro x r engine written apart bad
    have hunread : ∀ a, x.gradUnread r u add = some a → s.gradAccepted f n u add vals = engine 3 a := fun a h => State.gradAccepted_unread h
    have hwritten : bad = none → x.gradUnread r u add = none → apart → written (s.gradAccepted f n u add vals) := by
      rintro hb hread ⟨hlen, hmap, hfmask⟩
      obtain ⟨-, -, hu, -⟩ := (x.gradBad_none_iff n u).1 hb
      have hfield : (s.gradAccepted f n u add vals).field f = x.gradWrite r u add (vals.take 16) := by
        rw [State.gradAccepted_read hread, State.field_withField, if_pos rfl]
      obtain ⟨hrest, hvalue, hmarked, hunmarked, hother⟩ := hfield ▸ Field.gradWritten (f := x) (add := add) hu ⟨hmap, hfmask⟩ hlen
      refine ⟨?_, fun g hg => ?_, hrest, hvalue, hmarked, hunmarked, hother⟩
      · rw [State.gradAccepted_read hread]
        rfl
      · rw [State.gradAccepted_read hread, State.field_withField, if_neg hg]
    refine ⟨x.gradBad_none_iff n u, fun k => ?core, ?tree, fun port src e => ?fabric⟩
    case core =>
      refine ⟨fun h => next_congr (State.gradientWrite_core_idle h), fun p h hp => next_congr (State.gradientWrite_core_other h hp), fun h => ?_⟩
      obtain ⟨hrange, hfrozen, hlate, hgood⟩ := State.gradientWrite_core (n := n) (u := u) (add := add) (vals := vals) h
      exact ⟨fun hb => next_congr (hrange hb), fun hb => next_congr (hfrozen hb), fun hb => next_congr (hlate hb),
        fun a hb ha => next_congr ((hgood hb).trans (hunread a ha)), fun hb hread ha => ⟨_, next_congr (hgood hb), hwritten hb hread ha⟩⟩
    case tree =>
      refine ⟨fun h => next_congr (State.gradientWrite_tree_idle h), fun h => ?_⟩
      have htree := State.gradientWrite_tree (u := u) (add := add) (vals := vals) h
      exact ⟨fun hb => next_congr (htree.trans (State.gradReceived_range hb)), fun hb => next_congr (htree.trans (State.gradReceived_frozen hb)),
        fun hb => next_congr (htree.trans (State.gradReceived_late hb)),
        fun a hb ha => next_congr (htree.trans ((State.gradReceived_good hb).trans (hunread a ha))),
        fun hb hread ha => ⟨_, next_congr (htree.trans (State.gradReceived_good hb)), hwritten hb hread ha⟩⟩
    case fabric =>
      have hjudged := s.judgePacket_gradPacket r.part src.toNat e
      refine ⟨fun _ h he => ?_, fun h hne hpast => ?_, fun h => ?_⟩
      · have hpass := State.gradientWrite_fabric_passes (u := u) (add := add) (vals := vals) (port := port) (src := src.toNat) h he
        exact ⟨fun hb => next_congr (hpass.trans (State.gradReceived_range hb)), fun hb => next_congr (hpass.trans (State.gradReceived_frozen hb)),
          fun hb => next_congr (hpass.trans (State.gradReceived_late hb)),
          fun hb hread ha => ⟨_, next_congr (hpass.trans (State.gradReceived_good hb)), hwritten hb hread ha⟩⟩
      · rw [if_neg (by simp [h]), if_pos hne] at hjudged
        exact next_congr (State.gradientWrite_fabric_fails hjudged (fun _ => hpast))
      · rw [if_pos h] at hjudged
        exact next_congr (State.gradientWrite_fabric_fails hjudged (fun hk => absurd hk (by decide)))
  case engine =>
    intro x fault phase idle live
    have hphase : ∀ y, s.updField f (fun z => z.setPhase p y) = s.withField f (phase y) := fun y =>
      congrArg (s.withField f) (funext (fun z => z.setPhase_fin p y))
    refine ⟨fun h => ⟨next_congr (State.normMessage_idle h), fun v => next_congr (State.scalarBroadcast_idle h)⟩,
      fun hlive h => next_congr (State.normMessage_late hlive h), fun hlive h v hv => next_congr ?sends,
      fun hlive h n u he => next_congr ?unread, fun h => by rw [h]; rfl, fun hlive v h => next_congr (State.scalarBroadcast_late hlive h),
      fun hlive v h => ⟨_, rfl, ?scalar⟩, fun h hh => next_congr ?done, fun h => next_congr (State.applyDone_idle h)⟩
    case sends =>
      rw [State.normMessage_sends hlive h hv]
      simp only [Field.setPhase_fin]
      rfl
    case unread =>
      rw [State.normMessage_unread hlive h he, hphase]
      rfl
    case done =>
      rw [State.applyDone_returns h hh, hphase]
    case scalar =>
      cases hv : isFin32 v with
      | false =>
        have hskip := State.scalarBroadcast_skips hlive h hv
        have hfield : (s.scalarBroadcast f p v).field f = (x.begun p v true).skipApply p := by rw [hskip, State.field_setField, if_pos rfl]
        obtain ⟨htotal, hph, hpart, hphases, hbind⟩ := (x.applying_begun p v true).skipApply
        obtain ⟨hnonfinite, hskips, hpowers⟩ := (x.begun p v true).upe_skipApply p
        rw [hfield]
        refine ⟨htotal, hph, hpart, hphases, hbind, fun j hj => ?_, ?_,
          fun _ => ⟨hnonfinite, hskips, hpowers, ?_, fun r hr a hlo hhi => ?_⟩, fun htrue => Bool.noConfusion htrue⟩
        · rw [hskip, State.field_setField, if_neg hj]
        · rw [hskip]
          rfl
        · rw [hskip]
          rfl
        · exact Field.clearMaps_zero _ (.inr ⟨r, hr, hlo, hhi⟩)
      | true =>
        obtain ⟨hfield, hothers, hframe⟩ := State.worked_scalarBroadcast hlive h hv
        obtain ⟨htotal, hph, hpart, hphases, hbind⟩ := (x.applying_readied p v).of_offUpdate hfield
        obtain ⟨hscale, hnonfinite, hskips, hpowers⟩ := Field.upe_of_offUpdate hfield
        refine ⟨htotal, hph, hpart, hphases, hbind, hothers, hframe, fun hfalse => Bool.noConfusion hfalse,
          fun _ => ⟨hscale, hnonfinite, hskips, fun i => ?_, fun hblocks hread => ?_⟩⟩
        · exact (congrArg (Tab.get onePowers · i) hpowers).trans (x.powers_begun p v i)
        · rw [State.scalarBroadcast_noBlock hlive h hv hblocks hread, State.field_setField, if_pos rfl]
          exact ⟨rfl, rfl, rfl⟩
end

section
/-! Fabric ports: reads after a change of one port, and which change of a port changes the view of its links (R236, R270). -/

namespace Sys2Proof.Machine

open Sys2Proof

variable {s : State} {p : PortIx}

/-! ### One port, one partition -/

theorem State.updPort_eq_withPort (s : State) (p : PortIx) (g : FabPort → FabPort) : s.updPort p g = s.withPort p g := by
  simp only [State.updPort, State.withPort, vset_fin]

theorem State.port_withPort (s : State) (p : PortIx) (j : Nat) (g : FabPort → FabPort) :
    (s.withPort p g).port j = if j = p.val then g (s.port p) else s.port j := by
  simp only [State.port, State.withPort, Vector.toList_set, List.getD_eq_getElem?_getD, List.getElem?_set, Vector.length_toList, p.isLt, if_true]
  split
  · next h => simp [h]
  · next h => simp [Ne.symm h]

@[simp] theorem State.port_withPort_self (s : State) (p : PortIx) (g : FabPort → FabPort) : (s.withPort p g).port p = g (s.port p) := by
  rw [State.port_withPort, if_pos rfl]

theorem State.port_withPort_other (s : State) {p : PortIx} {j : Nat} (g : FabPort → FabPort) (h : j ≠ p.val) : (s.withPort p g).port j = s.port j := by
  rw [State.port_withPort, if_neg h]

/-- Two changes of one port are one. -/
theorem State.withPort_withPort (s : State) (p : PortIx) (g h : FabPort → FabPort) : (s.withPort p g).withPort p h = s.withPort p (fun q => h (g q)) := by
  have hread := s.port_withPort_self p g
  simp only [State.withPort] at hread ⊢
  simp only [hread, Vector.set_set]

/-- A change of a port is its value at the port as it stands. -/
theorem State.withPort_congr {g h : FabPort → FabPort} (hgh : g (s.port p) = h (s.port p)) : s.withPort p g = s.withPort p h := by
  simp only [State.withPort, hgh]

/-- A change that leaves the port as it stands is none. -/
theorem State.withPort_same {g : FabPort → FabPort} (h : g (s.port p) = s.port p) : s.withPort p g = s := by
  have hport : s.port p = s.fab.ports[p.val] := getD_toList_fin s.fab.ports p {}
  simp only [State.withPort, h.trans hport, Vector.set_getElem_self]

theorem State.part_withPart (s : State) (p : PartIx) (j : Nat) (g : Part → Part) : (s.withPart p g).part j = if j = p.val then g (s.part p) else s.part j := by
  rw [← State.updPart_eq_withPart, State.part_updPart s p j g p.isLt]

@[simp] theorem State.part_withPart_self (s : State) (p : PartIx) (g : Part → Part) : (s.withPart p g).part p = g (s.part p) := by
  rw [State.part_withPart, if_pos rfl]

theorem State.withPart_withPart (s : State) (p : PartIx) (g h : Part → Part) : (s.withPart p g).withPart p h = s.withPart p (fun x => h (g x)) := by
  have hread := s.part_withPart_self p g
  simp only [State.withPart] at hread ⊢
  simp only [hread, Vector.set_set]

theorem State.withPart_congr {p : PartIx} {g h : Part → Part} (hgh : g (s.part p) = h (s.part p)) : s.withPart p g = s.withPart p h := by
  simp only [State.withPart, hgh]

theorem State.withPart_same {p : PartIx} {g : Part → Part} (h : g (s.part p) = s.part p) : s.withPart p g = s := by
  have hpart : s.part p = s.parts[p.val] := getD_toList_fin s.parts p {}
  simp only [State.withPart, h.trans hpart, Vector.set_getElem_self]

/-! ### The ports that carry fabric routes -/

/-- A port that carries fabric routes: UP, in fabric mode, and not down for membership. -/
def FabPort.routes (q : FabPort) : Bool := q.st = .up && !q.eth && !q.memberDown

theorem FabPort.routes_iff (q : FabPort) : q.routes = true ↔ q.st = .up ∧ q.eth = false ∧ q.memberDown = false := by
  simp [FabPort.routes, and_assoc]

theorem State.upPorts_eq (s : State) : s.upPorts = ((List.range 28).filter (fun p => (s.port p).routes)).map (fun p => (p, (s.port p).peer)) := rfl

theorem State.mem_upPorts (s : State) (e : Nat × Nat) : e ∈ s.upPorts ↔ e.1 < 28 ∧ (s.port e.1).routes = true ∧ e.2 = (s.port e.1).peer := by
  simp only [State.upPorts_eq, List.mem_map, List.mem_filter, List.mem_range]
  constructor
  · rintro ⟨j, ⟨hj, hr⟩, rfl⟩
    exact ⟨hj, hr, rfl⟩
  · rintro ⟨hj, hr, he⟩
    exact ⟨e.1, ⟨hj, hr⟩, Prod.ext rfl he.symm⟩

/-- The ports that carry routes stay where every port keeps its part in them. -/
theorem State.upPorts_congr {t : State} (h : ∀ j < 28, (t.port j).routes = (s.port j).routes ∧ ((s.port j).routes = true → (t.port j).peer = (s.port j).peer)) :
    t.upPorts = s.upPorts := by
  have hfilter : (List.range 28).filter (fun p => (t.port p).routes) = (List.range 28).filter (fun p => (s.port p).routes) :=
    List.filter_congr (fun j hj => (h j (List.mem_range.1 hj)).1)
  rw [State.upPorts_eq, State.upPorts_eq, hfilter]
  refine List.map_congr_left (fun j hj => ?_)
  obtain ⟨hj, hr⟩ := List.mem_filter.1 hj
  rw [(h j (List.mem_range.1 hj)).2 hr]

theorem State.upPorts_withPort {g : FabPort → FabPort} (hr : (g (s.port p)).routes = (s.port p).routes)
    (hp : (s.port p).routes = true → (g (s.port p)).peer = (s.port p).peer) : (s.withPort p g).upPorts = s.upPorts := by
  refine State.upPorts_congr (fun j _ => ?_)
  rw [State.port_withPort]
  split
  · next h => rw [h]; exact ⟨hr, hp⟩
  · exact ⟨rfl, fun _ => rfl⟩

/-- A port that begins or ceases to carry routes changes the list of those that do. -/
theorem State.upPorts_flip {t : State} {j : Nat} (hj : j < 28) (h : (t.port j).routes ≠ (s.port j).routes) : t.upPorts ≠ s.upPorts := by
  intro he
  refine h (Bool.eq_iff_iff.2 ⟨fun ht => ?_, fun hs => ?_⟩)
  · exact ((s.mem_upPorts _).1 (he ▸ (t.mem_upPorts (j, (t.port j).peer)).2 ⟨hj, ht, rfl⟩)).2.1
  · exact ((t.mem_upPorts _).1 (he ▸ (s.mem_upPorts (j, (s.port j).peer)).2 ⟨hj, hs, rfl⟩)).2.1

/-! ### A change of the module's own ports -/

theorem State.onLinks_same {g : State → State} (h : (g s).upPorts = s.upPorts) : s.onLinks g = g s := if_pos h

theorem State.onLinks_changed {g : State → State} (h : (g s).upPorts ≠ s.upPorts) :
    s.onLinks g = ((g s).review s.fab.view s.upPorts).floodLinks := if_neg h

/-- A change of one port that leaves its part in the routes. -/
theorem State.onLinks_updPort_same {g : FabPort → FabPort} (hr : (g (s.port p)).routes = (s.port p).routes)
    (hp : (s.port p).routes = true → (g (s.port p)).peer = (s.port p).peer) : s.onLinks (fun t => t.updPort p g) = s.withPort p g := by
  rw [State.onLinks_same] <;> rw [State.updPort_eq_withPort]
  exact State.upPorts_withPort hr hp

/-- A change by which one port begins or ceases to carry routes. -/
theorem State.onLinks_updPort_flip {g : FabPort → FabPort} (hr : (g (s.port p)).routes ≠ (s.port p).routes) :
    s.onLinks (fun t => t.updPort p g) = ((s.withPort p g).review s.fab.view s.upPorts).floodLinks := by
  rw [State.onLinks_changed] <;> rw [State.updPort_eq_withPort]
  exact State.upPorts_flip p.isLt (by rwa [State.port_withPort_self])

/-- What a review and its flood leave of the state: the ports with all of the module but firmware's reports, the view and the output. -/
theorem State.onLinks_frame (s : State) (g : State → State) :
    ∃ fab more out, s.onLinks g = { g s with fab := fab, fw := { (g s).fw with reports := (g s).fw.reports ++ more }, out := out } ∧
      fab.ports = (g s).fab.ports ∧ fab.addr = (g s).fab.addr ∧ fab.hb = (g s).fab.hb ∧ fab.targets = (g s).fab.targets := by
  unfold State.onLinks
  extract_lets t
  split
  · exact ⟨t.fab, [], t.out, by rw [List.append_nil], rfl, rfl, rfl, rfl⟩
  · exact ⟨_, _, _, rfl, rfl, rfl, rfl, rfl⟩

@[simp] theorem State.onLinks_cores (s : State) (g : State → State) : (s.onLinks g).cores = (g s).cores := by
  obtain ⟨_, _, _, h, -⟩ := s.onLinks_frame g
  rw [h]

@[simp] theorem State.onLinks_fields (s : State) (g : State → State) : (s.onLinks g).fields = (g s).fields := by
  obtain ⟨_, _, _, h, -⟩ := s.onLinks_frame g
  rw [h]

@[simp] theorem State.onLinks_parts (s : State) (g : State → State) : (s.onLinks g).parts = (g s).parts := by
  obtain ⟨_, _, _, h, -⟩ := s.onLinks_frame g
  rw [h]

theorem State.onLinks_reports (s : State) (g : State → State) : ∃ more, (s.onLinks g).fw.reports = (g s).fw.reports ++ more := by
  obtain ⟨_, more, _, h, -⟩ := s.onLinks_frame g
  exact ⟨more, by rw [h]⟩

theorem State.port_congr {s t : State} (h : t.fab.ports = s.fab.ports) (j : Nat) : t.port j = s.port j := by
  simp only [State.port, h]

@[simp] theorem State.onLinks_port (s : State) (g : State → State) (j : Nat) : (s.onLinks g).port j = (g s).port j := by
  obtain ⟨_, _, _, h, hports, -⟩ := s.onLinks_frame g
  exact State.port_congr (by rw [h, hports]) j

end Sys2Proof.Machine
end

section
/-! The bytes of a control flit, and those of an INIT flit (R237, Table 8.2). -/

namespace Sys2Proof.Machine

open Sys2Proof

theorem fieldLE_left {a : List Byte} {i n : Nat} (h : i + n ≤ a.length) (b : List Byte) : fieldLE (a ++ b) i n = fieldLE a i n := by
  rw [fieldLE, fieldLE, List.drop_append_of_le_length (by omega), List.take_append_of_le_length (by rw [List.length_drop]; omega)]

theorem fieldLE_right {a : List Byte} {m : Nat} (h : a.length = m) (b : List Byte) (i n : Nat) : fieldLE (a ++ b) (m + i) n = fieldLE b i n := by
  rw [fieldLE, fieldLE, ← h, List.drop_length_add_append]

/-- A number that stands little-endian behind `m` bytes reads back. -/
theorem fieldLE_bytesLE {a : List Byte} {m : Nat} (h : a.length = m) (v n : Nat) (b : List Byte) : fieldLE (a ++ (bytesLE v n ++ b)) m n = v % 256 ^ n := by
  have hfield := fieldLE_right h (bytesLE v n ++ b) 0 n
  rw [Nat.add_zero] at hfield
  rw [hfield, fieldLE_left (by rw [length_bytesLE, Nat.zero_add]), fieldLE, List.drop_zero, List.take_of_length_le (by rw [length_bytesLE]), natLE_bytesLE]

/-- Bytes 0 to 7 of a control flit and its credit counts. -/
def FabPort.controlHead (q : FabPort) (ctype : Nat) (nak : Bool) (counts : List Nat) : List Byte :=
  bytesLE 16 1 ++ (bytesLE (16 * ctype) 1 ++ (bytesLE 0 2 ++ (bytesLE (q.lastGood.toNat + (if nak then 2 ^ 15 else 0)) 2 ++ (bytesLE 0 2 ++ counts.flatMap (fun n => bytesLE n 2)))))

section
variable (q : FabPort) (ctype : Nat) (nak : Bool) (counts : List Nat) (tail : List Byte)

theorem FabPort.control_bytes : (q.control ctype nak counts tail).bytes =
    q.controlHead ctype nak counts ++ (tail ++ (List.replicate (12 - tail.length) 0#8 ++ List.replicate 220 0#8)) := by
  simp only [FabPort.control, FabFlit.seal, FabPort.controlHead, List.append_assoc]

theorem FabPort.length_controlHead : (q.controlHead ctype nak counts).length = 8 + 2 * counts.length := by
  have hcounts : (counts.flatMap (fun n => bytesLE n 2)).length = 2 * counts.length := by
    simp only [List.length_flatMap, length_bytesLE, List.map_const', List.sum_replicate, smul_eq_mul, Nat.mul_comm]
  simp only [FabPort.controlHead, List.length_append, length_bytesLE, hcounts]
  omega

theorem FabPort.kind_control : (q.control ctype nak counts tail).kind = 1 := by
  rw [FabFlit.kind, FabPort.control_bytes, fieldLE_left (by rw [FabPort.length_controlHead]; omega)]
  exact congrArg (· / 16) (fieldLE_bytesLE (a := []) rfl 16 1 _)

theorem FabPort.ctype_control (h : ctype < 16) : (q.control ctype nak counts tail).ctype = ctype := by
  rw [FabFlit.ctype, FabPort.control_bytes, fieldLE_left (by rw [FabPort.length_controlHead]; omega), FabPort.controlHead,
    fieldLE_bytesLE (length_bytesLE 16 1)]
  omega

theorem FabPort.nak_control : (q.control ctype nak counts tail).nak = nak := by
  have hseq : q.lastGood.toNat < 2 ^ 15 := Nat.lt_of_lt_of_le q.lastGood.isLt (by decide)
  have hfield : fieldLE (q.control ctype nak counts tail).bytes 4 2 = q.lastGood.toNat + (if nak then 2 ^ 15 else 0) := by
    rw [FabPort.control_bytes, fieldLE_left (by rw [FabPort.length_controlHead]; omega), FabPort.controlHead, ← List.append_assoc, ← List.append_assoc,
      fieldLE_bytesLE (by simp only [List.length_append, length_bytesLE])]
    split <;> omega
  rw [FabFlit.nak, hfield]
  cases nak
  · exact Nat.testBit_lt_two_pow hseq
  · rw [if_pos rfl, Nat.add_comm, Nat.testBit_two_pow_add_eq, Nat.testBit_lt_two_pow hseq]
    rfl

/-- Behind six credit counts stand the bytes 20 to 31 of the flit. -/
theorem FabPort.fieldLE_control_tail (h : counts.length = 6) (i n : Nat) : fieldLE (q.control ctype nak counts tail).bytes (20 + i) n =
    fieldLE (tail ++ (List.replicate (12 - tail.length) 0#8 ++ List.replicate 220 0#8)) i n := by
  rw [FabPort.control_bytes, fieldLE_right (by rw [FabPort.length_controlHead, h])]

theorem FabPort.crc_control : crc32 (q.control ctype nak counts tail).bytes = (q.control ctype nak counts tail).crc := rfl

/-- An INIT flit grants the full credits. -/
theorem FabPort.counts_control_full : (q.control ctype nak fullCredit tail).counts = fullCredit := by
  have hcount : ∀ i ∈ List.range 6, fieldLE (q.control ctype nak fullCredit tail).bytes (8 + 2 * i) 2 = fieldLE (fullCredit.flatMap (fun n => bytesLE n 2)) (2 * i) 2 := by
    intro i hi
    have hi := List.mem_range.1 hi
    rw [FabPort.control_bytes, fieldLE_left (by rw [FabPort.length_controlHead]; show _ ≤ 8 + 2 * 6; omega), FabPort.controlHead,
      ← List.append_assoc, ← List.append_assoc, ← List.append_assoc, ← List.append_assoc, fieldLE_right (by simp only [List.length_append, length_bytesLE])]
  rw [FabFlit.counts, List.map_congr_left hcount]
  decide

end

/-- Address, port, version and module ID of an INIT flit (R237). -/
theorem State.initFlitOf_fields (s : State) (p : PortIx) : let f := s.initFlitOf p
    f.kind = 1 ∧ f.ctype = 1 ∧ f.nak = false ∧ f.counts = fullCredit ∧ f.initAddr = s.fab.addr % 4096 ∧ f.initPort = p.val ∧
      f.initVersion = 1 ∧ (f.bytes.drop 24).take 8 = bytesLE s.sec.ident.moduleId.toNat 8 ∧ crc32 f.bytes = f.crc := by
  have hport : p.val < 256 := Nat.lt_trans p.isLt (by decide)
  have htail := fun i n => FabPort.fieldLE_control_tail (s.port p) 1 false fullCredit
    (bytesLE s.fab.addr 2 ++ bytesLE p 1 ++ bytesLE linkVersion 1 ++ bytesLE s.sec.ident.moduleId.toNat 8) rfl i n
  simp only [List.append_assoc] at htail
  refine ⟨FabPort.kind_control .., FabPort.ctype_control _ _ _ _ _ (by decide), FabPort.nak_control .., FabPort.counts_control_full .., ?_, ?_, ?_, ?_, FabPort.crc_control ..⟩
  · rw [FabFlit.initAddr, State.initFlitOf, List.append_assoc, List.append_assoc]
    refine (congrArg (· % 4096) ((htail 0 2).trans (fieldLE_bytesLE (a := []) rfl s.fab.addr 2 _))).trans ?_
    show s.fab.addr % 65536 % 4096 = _
    omega
  · rw [FabFlit.initPort, State.initFlitOf, List.append_assoc, List.append_assoc]
    refine (htail 2 1).trans ((fieldLE_bytesLE (length_bytesLE s.fab.addr 2) p 1 _).trans ?_)
    exact Nat.mod_eq_of_lt hport
  · rw [FabFlit.initVersion, State.initFlitOf, List.append_assoc, List.append_assoc]
    refine (htail 3 1).trans ?_
    rw [← List.append_assoc]
    exact fieldLE_bytesLE (by simp only [List.length_append, length_bytesLE]) linkVersion 1 _
  · have hbytes : (s.initFlitOf p).bytes = ((s.port p).controlHead 1 false fullCredit ++ bytesLE s.fab.addr 2 ++ bytesLE p 1 ++ bytesLE linkVersion 1) ++
        (bytesLE s.sec.ident.moduleId.toNat 8 ++ (List.replicate 0 0#8 ++ List.replicate 220 0#8)) := by
      simp only [State.initFlitOf, FabPort.control_bytes, List.append_assoc]
      rfl
    rw [hbytes, List.drop_left' (by simp only [List.length_append, FabPort.length_controlHead, length_bytesLE]; rfl), List.take_left' (length_bytesLE ..)]

end Sys2Proof.Machine
end

section
/-! A port that trains, and the flits that come in: codewords, a wrong CRC, credits and acknowledgements (R236 to R238, R240, R241). -/

namespace Sys2Proof.Machine

open Sys2Proof

variable {s : State} {p : PortIx}

/-! ### Training (R236, R237) -/

/-- A port can train: enabled, powered, and with power enough for its assembly. -/
def FabPort.trains (q : FabPort) : Prop := q.en = true ∧ q.link = .on ∧ q.lowPower = false

theorem State.trainPort_starts (h : (s.port p).trains) (hst : (s.port p).st = .down ∨ (s.port p).st = .training) :
    s.trainPort p = s.withPort p (fun q => { q with st := .training }) := by
  obtain ⟨hen, hlink, hlow⟩ := h
  obtain hst | hst := hst
  · rw [State.trainPort, if_pos (by simp [hen, hlink, hlow, hst]), State.updPort_eq_withPort]
  · rw [State.trainPort, if_neg (by simp [hst]), State.withPort_same (congrArg (fun x => { s.port p with st := x }) hst.symm)]

theorem State.portTrained_eth (h : (s.port p).trains) (hst : (s.port p).st = .down ∨ (s.port p).st = .training) (heth : (s.port p).eth = true) :
    s.portTrained p = s.withPort p (fun q => { q with st := .up }) := by
  obtain ⟨hen, hlink, hlow⟩ := id h
  simp [State.portTrained, State.trainPort_starts h hst, hen, hlink, hlow, heth, State.updPort_eq_withPort, State.withPort_withPort]

theorem State.portTrained_fabric (h : (s.port p).trains) (hst : (s.port p).st = .down ∨ (s.port p).st = .training) (heth : (s.port p).eth = false) :
    s.portTrained p = { s.withPort p (fun q => { q with st := .init }) with out := .flit p (.data (s.initFlitOf p)) :: s.out } := by
  obtain ⟨hen, hlink, hlow⟩ := id h
  have hinit : (s.withPort p (fun q => { q with st := .training })).initFlitOf p = s.initFlitOf p := by
    rw [State.initFlitOf, State.port_withPort_self]
    rfl
  simp [State.portTrained, State.trainPort_starts h hst, hen, hlink, hlow, heth, State.updPort_eq_withPort, State.withPort_withPort, State.emit, hinit]

theorem State.portTrained_idle (h : ¬((s.port p).en = true ∧ (s.port p).link = .on ∧ (s.port p).lowPower = false ∧ ((s.port p).st = .down ∨ (s.port p).st = .training))) :
    s.portTrained p = s := by
  have hstay : s.trainPort p = s := if_neg (fun hc => h (by simp only [Bool.and_eq_true, Bool.not_eq_true', decide_eq_true_eq] at hc; tauto))
  rw [State.portTrained, hstay]
  exact if_neg (fun hc => h (by simp only [Bool.and_eq_true, Bool.not_eq_true', decide_eq_true_eq] at hc; tauto))

/-! ### Flits that come in (R237, R238, R240, R241) -/

/-- The codewords of a flit, counted. -/
def FabPort.fec (f : FabFlit) (q : FabPort) : FabPort := { q with
  fecCorr := BitVec.ofNat 32 (min (2 ^ 32 - 1) (q.fecCorr.toNat + f.corr))
  fecUncorr := BitVec.ofNat 32 (min (2 ^ 32 - 1) (q.fecUncorr.toNat + f.uncorr)) }

/-- A flit with a wrong CRC, counted. -/
def FabPort.miscounted (q : FabPort) : FabPort := { q with crc := satAdd q.crc 1 }

/-- The port once a NAK has left it. -/
def FabPort.naking (q : FabPort) : FabPort := { q with ret := Vector.replicate 6 0, ackDue := false, nakSent := true }

/-- The port with credits returned to it. -/
def FabPort.credited (l : List Nat) (q : FabPort) : FabPort := { q with credit := Vector.ofFn (fun i => q.credit[i] + l.getD i.val 0) }

theorem satCount_zero (x : W32) : BitVec.ofNat 32 (min (2 ^ 32 - 1) (x.toNat + 0)) = x := by
  rw [Nat.add_zero, Nat.min_eq_right (Nat.le_sub_one_of_lt x.isLt), BitVec.ofNat_toNat, BitVec.setWidth_eq]

theorem State.countFec_eq (s : State) (p : PortIx) (f : FabFlit) : s.countFec p f = s.withPort p (FabPort.fec f) := by
  unfold State.countFec
  split
  · next h =>
    obtain ⟨hc, hu⟩ : f.corr = 0 ∧ f.uncorr = 0 := by simpa using h
    rw [State.withPort_same]
    simp only [FabPort.fec, hc, hu, satCount_zero]
  · rw [State.updPort_eq_withPort]
    rfl

theorem State.addCredit_eq (s : State) (p : PortIx) (l : List Nat) : s.addCredit p l = s.withPort p (FabPort.credited l) := s.updPort_eq_withPort p _

theorem State.flitIn_good {f : FabFlit} (h : crc32 f.bytes = f.crc) (g : State → State) : s.flitIn p f g = g (s.withPort p (FabPort.fec f)) := by
  rw [State.flitIn, if_neg (not_not.2 h), State.countFec_eq]

theorem State.sendNak_eq (s : State) (p : PortIx) : s.sendNak p =
    { s.withPort p FabPort.naking with out := .flit p (.data ((s.port p).control 0 true (s.port p).ret.toList [])) :: s.out } := by
  simp only [State.sendNak, State.updPort_eq_withPort]
  rfl

/-- A NAK that a flit brings on after its counts says what the port held before them. -/
theorem State.sendNak_counted {g : FabPort → FabPort} (hret : (g (s.port p)).ret = (s.port p).ret) (hexp : (g (s.port p)).rxExp = (s.port p).rxExp) :
    (s.withPort p g).sendNak p =
      { (s.withPort p g).withPort p FabPort.naking with out := .flit p (.data ((s.port p).control 0 true (s.port p).ret.toList [])) :: s.out } := by
  rw [State.sendNak_eq, State.port_withPort_self, hret]
  simp only [FabPort.control, FabPort.lastGood, hexp, State.withPort_out]

/-- A flit with a wrong CRC: one NAK until the SEQ that the port expects arrives, and again for an error of that one (R241). -/
theorem State.flitIn_bad {f : FabFlit} (h : crc32 f.bytes ≠ f.crc) (hst : (s.port p).st = .up) (g : State → State) :
    let u := (s.withPort p (FabPort.fec f)).withPort p FabPort.miscounted
    s.flitIn p f g = if (s.port p).nakSent = true ∧ f.seq ≠ (s.port p).rxExp then u
      else { u.withPort p FabPort.naking with out := .flit p (.data ((s.port p).control 0 true (s.port p).ret.toList [])) :: s.out } := by
  intro u
  have hu : u = s.withPort p (fun q => (q.fec f).miscounted) := State.withPort_withPort ..
  simp only [State.flitIn, h, not_false_eq_true, if_true, hst, State.badFlit, State.countFec_eq, State.port_withPort_self, State.updPort_eq_withPort, ne_eq,
    Bool.and_eq_true, decide_not, Bool.not_eq_true', decide_eq_false_iff_not]
  show (if _ ∧ _ then u else u.sendNak p) = _
  refine if_congr Iff.rfl rfl ?_
  rw [hu]
  exact State.sendNak_counted rfl rfl

theorem State.flitIn_bad_down {f : FabFlit} (h : crc32 f.bytes ≠ f.crc) (hst : (s.port p).st ≠ .up) (g : State → State) :
    s.flitIn p f g = (s.withPort p (FabPort.fec f)).withPort p FabPort.miscounted := by
  rw [State.flitIn, if_pos h, if_neg hst, State.countFec_eq, State.updPort_eq_withPort]
  rfl

/-- The acknowledgement that a good flit carries: flits up to it leave the replay buffer; with NAK set all that follow go again,
and the 32nd in a row of one SEQ loses the link (R241). -/
theorem State.takeAck_eq (s : State) (p : PortIx) (f : FabFlit) : (Host.Outcome.next (s.takeAck p f) : Res) =
    if f.nak = false then .next ((s.withPort p (fun q => q.acked f.ack)).pumpPort p)
    else
      let a := (s.port p).acked f.ack
      let run := if a.nakSeq = some (f.ack + 1) then a.nakRun + 1 else 1
      let v := s.withPort p (fun _ => { a with replay := satAdd a.replay 1, nakSeq := some (f.ack + 1), nakRun := run })
      if run = 32 then exec (.laneAlignmentLost p) v else .next ({ v with out := (a.buffer.map (fun f => Output.flit p (.data f))).reverse ++ s.out }.pumpPort p) := by
  by_cases hn : f.nak = false
  · rw [if_pos hn, State.takeAck, if_neg (by simp [hn]), State.updPort_eq_withPort]
  · rw [if_neg hn, State.takeAck, if_pos (by simpa using hn)]
    simp only [State.gotNak, State.updPort_eq_withPort]
    generalize (if ((s.port p).acked f.ack).nakSeq = some (f.ack + 1) then ((s.port p).acked f.ack).nakRun + 1 else 1) = run
    split
    · rfl
    · rfl

end Sys2Proof.Machine
end

section
/-! What INIT, data and control flits do to their port, and the loss of a link (R236, R237, R240, R241, R266). -/

namespace Sys2Proof.Machine

open Sys2Proof

variable {s : State} {p : PortIx} {f : FabFlit}

/-! ### INIT_FLIT, FABRIC_DATA_FLIT and the control flits -/

theorem State.upPorts_fec (s : State) (p : PortIx) (f : FabFlit) : (s.withPort p (FabPort.fec f)).upPorts = s.upPorts :=
  State.upPorts_withPort rfl (fun _ => rfl)

theorem State.initFlit_ignored (h : (s.port p).st ≠ .init ∨ f.kind ≠ 1 ∨ f.ctype ≠ 1) : s.initFlit p f = s :=
  if_pos (by simpa [or_assoc] using h)

/-- The port that an INIT flit brings up, with the peer and the credits that it names (R237). -/
def FabPort.opened (f : FabFlit) (cyc : W64) (q : FabPort) : FabPort := { q with
  st := .up, peer := f.initAddr, peerPort := f.initPort, credit := Vector.ofFn (fun i => f.counts.getD i.val 0), txSeq := 0, txAck := 0, buffer := [], txq := [], rxExp := 0
  rxb := [], ret := Vector.replicate 6 0, ackDue := false, nakSent := false, nakSeq := none, nakRun := 0, memberDown := false, lastHb := cyc }

section
variable (hst : (s.port p).st = .init) (hk : f.kind = 1) (hc : f.ctype = 1)
include hst hk hc

theorem State.initFlit_heard : s.initFlit p f = s.flitIn p f (fun t =>
    if f.initVersion ≠ linkVersion then t.updPort p (fun x => { x with st := .failed }) else t.onLinks (fun u => u.updPort p (FabPort.opened f s.tg.cyc))) :=
  if_neg (by simp [hst, hk, hc])

theorem State.initFlit_bad (h : crc32 f.bytes ≠ f.crc) : s.initFlit p f = (s.withPort p (FabPort.fec f)).withPort p FabPort.miscounted := by
  rw [State.initFlit_heard hst hk hc, State.flitIn_bad_down h (by simp [hst])]

theorem State.initFlit_version (h : crc32 f.bytes = f.crc) (hv : f.initVersion ≠ 1) :
    s.initFlit p f = (s.withPort p (FabPort.fec f)).withPort p (fun q => { q with st := .failed }) := by
  rw [State.initFlit_heard hst hk hc, State.flitIn_good h]
  exact (if_pos hv).trans (State.updPort_eq_withPort ..)

theorem State.initFlit_agreed (h : crc32 f.bytes = f.crc) (hv : f.initVersion = 1) :
    s.initFlit p f = (s.withPort p (FabPort.fec f)).onLinks (fun u => u.updPort p (FabPort.opened f s.tg.cyc)) := by
  rw [State.initFlit_heard hst hk hc, State.flitIn_good h]
  exact if_neg (not_not.2 hv)

/-- A fabric port that comes UP carries routes from then on: the view follows, and the change is flooded. -/
theorem State.initFlit_opens (h : crc32 f.bytes = f.crc) (hv : f.initVersion = 1) (heth : (s.port p).eth = false) : s.initFlit p f =
    (((s.withPort p (FabPort.fec f)).withPort p (FabPort.opened f s.tg.cyc)).review s.fab.view s.upPorts).floodLinks := by
  have hclosed : ((s.withPort p (FabPort.fec f)).port p).routes = false := by simp [FabPort.routes, FabPort.fec, hst]
  have hopen : (FabPort.opened f s.tg.cyc ((s.withPort p (FabPort.fec f)).port p)).routes = true := by
    simp [FabPort.routes, FabPort.opened, FabPort.fec, heth]
  rw [State.initFlit_agreed hst hk hc h hv, State.onLinks_updPort_flip (by rw [hclosed, hopen]; decide), State.upPorts_fec]
  rfl

theorem State.initFlit_opens_eth (h : crc32 f.bytes = f.crc) (hv : f.initVersion = 1) (heth : (s.port p).eth = true) :
    s.initFlit p f = (s.withPort p (FabPort.fec f)).withPort p (FabPort.opened f s.tg.cyc) := by
  have hclosed : ((s.withPort p (FabPort.fec f)).port p).routes = false := by simp [FabPort.routes, FabPort.fec, heth]
  have hopen : (FabPort.opened f s.tg.cyc ((s.withPort p (FabPort.fec f)).port p)).routes = false := by
    simp [FabPort.routes, FabPort.opened, FabPort.fec, heth]
  rw [State.initFlit_agreed hst hk hc h hv, State.onLinks_updPort_same (hopen.trans hclosed.symm) (by rw [hclosed]; exact nofun)]

end

theorem State.fabricDataFlit_ignored (h : (s.port p).st ≠ .up ∨ (s.port p).eth = true ∨ f.kind ≠ 0) : s.fabricDataFlit p f = s :=
  if_pos (by simpa [or_assoc] using h)

theorem State.controlFlit_ignored (h : (s.port p).st ≠ .up ∨ (s.port p).eth = true ∨ f.kind ≠ 1 ∨ f.ctype ≠ 0) : s.controlFlit p f = s :=
  if_pos (by simpa [or_assoc] using h)

theorem State.controlFlit_heard (hst : (s.port p).st = .up) (heth : (s.port p).eth = false) (hk : f.kind = 1) (hc : f.ctype = 0) :
    s.controlFlit p f = s.flitIn p f (fun t => (t.addCredit p f.counts).takeAck p f) := if_neg (by simp [hst, heth, hk, hc])

/-- The port once the data flit of the SEQ that it expects stands in its receive buffers (R240). -/
def FabPort.received (f : FabFlit) (q : FabPort) : FabPort := { q with rxExp := q.rxExp + 1, rxb := q.rxb ++ [f], ackDue := true, nakSent := false }

section
variable (hst : (s.port p).st = .up) (heth : (s.port p).eth = false) (hk : f.kind = 0)
include hst heth hk

theorem State.fabricDataFlit_heard : s.fabricDataFlit p f = s.flitIn p f (fun t =>
    if f.seq ≠ (t.port p).rxExp then (if (t.port p).nakSent then t else t.sendNak p)
    else ((t.updPort p (FabPort.received f)).addCredit p f.credits).takeAck p f) := if_neg (by simp [hst, heth, hk])

theorem State.fabricDataFlit_outOfSequence (h : crc32 f.bytes = f.crc) (hseq : f.seq ≠ (s.port p).rxExp) :
    let c := s.withPort p (FabPort.fec f)
    s.fabricDataFlit p f = if (s.port p).nakSent = true then c
      else { c.withPort p FabPort.naking with out := .flit p (.data ((s.port p).control 0 true (s.port p).ret.toList [])) :: s.out } := by
  intro c
  rw [State.fabricDataFlit_heard hst heth hk, State.flitIn_good h, State.port_withPort_self]
  exact (if_pos hseq).trans (if_congr Iff.rfl rfl (State.sendNak_counted rfl rfl))

theorem State.fabricDataFlit_expected (h : crc32 f.bytes = f.crc) (hseq : f.seq = (s.port p).rxExp) :
    s.fabricDataFlit p f = ((s.withPort p (FabPort.fec f)).withPort p (fun q => (q.received f).credited f.credits)).takeAck p f := by
  rw [State.fabricDataFlit_heard hst heth hk, State.flitIn_good h, State.port_withPort_self, State.addCredit_eq, State.updPort_eq_withPort,
    State.withPort_withPort _ _ (FabPort.received f)]
  exact if_neg (not_not.2 hseq)

end

/-! ### The loss of a link (R236, R237, R241, R266) -/

/-- The port once its link is lost: its sequence, buffers and credits are cleared, and the error counters stay. -/
def FabPort.lost (q : FabPort) : FabPort := { q with
  st := .down, downs := satAdd q.downs 1, memberDown := true, txSeq := 0, txAck := 0, buffer := [], txq := [], rxExp := 0,
  rxb := [], ret := Vector.replicate 6 0, ackDue := false, nakSent := false, nakSeq := none, nakRun := 0, credit := Vector.replicate 6 0, roceq := [] }

/-- A user of a lost link faults with LINK_DOWN, and its re-shard fails. -/
def State.losesLink (p : PortIx) (peer : Nat) (u : State) (x : Nat) : State :=
  (u.fabFault x p fkLink peer (u.part x).epoch 0 .none).updPart x (fun y => { y with resharding := false, rs := {} })

theorem State.linkDown_none (h : (s.port p).st = .down ∨ (s.port p).st = .failed) : s.linkDown p = s := if_pos (by simpa using h)

theorem State.linkDown_starting (h : (s.port p).st = .training ∨ (s.port p).st = .init) : s.linkDown p = s.withPort p (fun q => { q with st := .down }) := by
  rw [State.linkDown, if_neg (by rcases h with h | h <;> simp [h]), if_pos (by rcases h with h | h <;> simp [h]), State.updPort_eq_withPort]

theorem State.linkDown_up (h : (s.port p).st = .up) :
    s.linkDown p = (if (s.port p).eth then [] else s.usersOfPort p).foldl (State.losesLink p (s.port p).peer) (s.withPort p FabPort.lost) := by
  rw [State.linkDown, if_neg (by simp [h]), if_neg (not_not.2 h), State.updPort_eq_withPort]
  rfl

theorem State.linkDown_unused (h : (s.port p).st = .up) (hu : (s.port p).eth = true ∨ s.usersOfPort p = []) : s.linkDown p = s.withPort p FabPort.lost := by
  rw [State.linkDown_up h]
  obtain hu | hu := hu
  · rw [hu]
    rfl
  · rw [hu, ite_self]
    rfl

theorem FabPort.lost_routes (q : FabPort) : q.lost.routes = false := rfl

/-- A port that carries no routes takes none with it. -/
theorem State.linkLost_unrouted {g : FabPort → FabPort} (hdown : s.linkDown p = s.withPort p g) (h : (s.port p).routes = false) (hg : (g (s.port p)).routes = false) :
    s.linkLost p = s.withPort p g := by
  have hups : (s.linkDown p).upPorts = s.upPorts := by
    rw [hdown]
    exact State.upPorts_withPort (hg.trans h.symm) (by simp [h])
  exact (State.onLinks_same hups).trans hdown

theorem State.linkLost_routed (hst : (s.port p).st = .up) (heth : (s.port p).eth = false) (hm : (s.port p).memberDown = false) (hu : s.usersOfPort p = []) :
    s.linkLost p = ((s.withPort p FabPort.lost).review s.fab.view s.upPorts).floodLinks := by
  have hdown := State.linkDown_unused hst (.inr hu)
  have hups : (s.linkDown p).upPorts ≠ s.upPorts := by
    rw [hdown]
    exact State.upPorts_flip p.isLt (by rw [State.port_withPort_self, FabPort.lost_routes, ne_comm]; simp [FabPort.routes, hst, heth, hm])
  rw [State.linkLost, State.onLinks_changed hups, hdown]

theorem State.linkLost_none (h : (s.port p).st = .down ∨ (s.port p).st = .failed) : s.linkLost p = s := by
  have hdown := State.linkDown_none h
  exact (State.onLinks_same (congrArg State.upPorts hdown)).trans hdown

theorem State.linkLost_starting (h : (s.port p).st = .training ∨ (s.port p).st = .init) : s.linkLost p = s.withPort p (fun q => { q with st := .down }) :=
  State.linkLost_unrouted (State.linkDown_starting h) (by rcases h with h | h <;> simp [FabPort.routes, h]) (by simp [FabPort.routes])

/-! The users of a lost link, one after another. -/

theorem State.ports_losesLink (p : PortIx) (peer : Nat) (u : State) (x : Nat) : (u.losesLink p peer x).fab.ports = u.fab.ports := rfl

theorem State.part_losesLink (p : PortIx) (peer : Nat) (u : State) {x : Nat} (hx : x < 16) (y : Nat) :
    (u.losesLink p peer x).part y = if y = x then { u.part x with resharding := false, rs := {} } else u.part y :=
  State.part_updPart _ x y _ hx

theorem State.reports_losesLink (p : PortIx) (peer : Nat) (u : State) {x : Nat} (h : (u.part x).started = true) :
    (u.losesLink p peer x).fw.reports = u.fw.reports ++ [{ part := x, what := .fabric fkLink p, addr := p }] := by
  show (if (u.part x).started then _ else _) = _
  rw [if_pos h]

theorem State.part_loseLinks (p : PortIx) (peer : Nat) (l : List Nat) (hl : ∀ x ∈ l, x < 16) (u : State) (y : Nat) :
    (l.foldl (State.losesLink p peer) u).part y = if y ∈ l then { u.part y with resharding := false, rs := {} } else u.part y := by
  induction l generalizing u with
  | nil => simp
  | cons x l ih =>
    obtain ⟨hx, hl⟩ := List.forall_mem_cons.1 hl
    rw [List.foldl_cons, ih hl, State.part_losesLink p peer u hx]
    by_cases hy : y = x
    · subst hy
      simp
    · simp [hy]

theorem State.reports_loseLinks (p : PortIx) (peer : Nat) (l : List Nat) (hl : ∀ x ∈ l, x < 16) (u : State) (hs : ∀ x ∈ l, (u.part x).started = true) :
    (l.foldl (State.losesLink p peer) u).fw.reports = u.fw.reports ++ l.map (fun x => { part := x, what := .fabric fkLink p, addr := p }) := by
  induction l generalizing u with
  | nil => simp
  | cons x l ih =>
    obtain ⟨hx, hl⟩ := List.forall_mem_cons.1 hl
    obtain ⟨hsx, hs⟩ := List.forall_mem_cons.1 hs
    have hkeeps : ∀ y ∈ l, ((u.losesLink p peer x).part y).started = true := by
      intro y hy
      rw [State.part_losesLink p peer u hx]
      split
      · exact hsx
      · exact hs y hy
    rw [List.foldl_cons, ih hl _ hkeeps, State.reports_losesLink p peer u hsx, List.append_assoc, List.map_cons, List.singleton_append]

theorem State.mem_usersOfPort {x q : Nat} (h : x ∈ s.usersOfPort q) : x < 16 ∧ (s.part x).started = true := by
  obtain ⟨hx, hs⟩ := List.mem_filter.1 h
  exact ⟨List.mem_range.1 hx, (Bool.and_eq_true_iff.1 hs).1⟩

/-- What the loss of a link in use leaves of the state. -/
theorem State.linkLost_up (hst : (s.port p).st = .up) :
    (s.linkLost p).port p = (s.port p).lost ∧ (∀ j : Nat, j ≠ p.val → (s.linkLost p).port j = s.port j) ∧ (s.linkLost p).cores = s.cores ∧ (s.linkLost p).fields = s.fields ∧
      (∃ more, (s.linkLost p).fw.reports = s.fw.reports ++ (if (s.port p).eth then [] else (s.usersOfPort p).map (fun x => { part := x, what := .fabric fkLink p, addr := p })) ++ more) ∧
      ((s.port p).eth = false → ∀ x ∈ s.usersOfPort p, ((s.linkLost p).part x).rs = {} ∧ ((s.linkLost p).part x).resharding = false) := by
  let users := if (s.port p).eth then [] else s.usersOfPort p
  have husers : ∀ x ∈ users, x < 16 ∧ (s.part x).started = true := by
    intro x hx
    simp only [users] at hx
    split at hx
    · simp at hx
    · exact State.mem_usersOfPort hx
  have hdown : s.linkDown p = users.foldl (State.losesLink p (s.port p).peer) (s.withPort p FabPort.lost) := State.linkDown_up hst
  have hports : (s.linkDown p).fab.ports = (s.withPort p FabPort.lost).fab.ports := by
    rw [hdown]
    exact foldl_keeps (fun u : State => u.fab.ports) (State.ports_losesLink p _) users _
  have hport : ∀ j, (s.linkLost p).port j = (s.withPort p FabPort.lost).port j := fun j => (State.onLinks_port s _ j).trans (State.port_congr hports j)
  refine ⟨by rw [hport, State.port_withPort_self], fun j hj => by rw [hport, State.port_withPort_other _ _ hj], ?_, ?_, ?_, fun heth x hx => ?_⟩
  · rw [State.linkLost, State.onLinks_cores, hdown]
    exact foldl_keeps State.cores (f := State.losesLink p _) (fun _ _ => rfl) users _
  · rw [State.linkLost, State.onLinks_fields, hdown]
    exact foldl_keeps State.fields (f := State.losesLink p _) (fun _ _ => rfl) users _
  · obtain ⟨more, hmore⟩ := s.onLinks_reports (fun t => t.linkDown p)
    refine ⟨more, ?_⟩
    rw [State.linkLost, hmore, hdown, State.reports_loseLinks p _ users (fun x hx => (husers x hx).1) (s.withPort p FabPort.lost) (fun x hx => (husers x hx).2)]
    simp only [users, State.withPort_fw]
    split <;> rfl
  · have hmem : x ∈ users := by simpa [users, heth] using hx
    have hpart : (s.linkLost p).part x = { s.part x with resharding := false, rs := {} } := by
      rw [State.linkLost, State.part_congr (s.onLinks_parts _), hdown, State.part_loseLinks p _ users (fun x hx => (husers x hx).1), if_pos hmem]
      rfl
    rw [hpart]
    exact ⟨rfl, rfl⟩

end Sys2Proof.Machine
end

section
/-! The rest of the ports' commands: timeouts, cages and Ethernet frames (R241, R243, R424, R425). -/

namespace Sys2Proof.Machine

open Sys2Proof

variable {s : State} {p : PortIx}

/-- A port that was not UP, once its link is lost: DOWN, or FAILED as before. -/
def FabPort.dropped (q : FabPort) : FabPort := { q with st := if q.st = .failed then .failed else .down }

theorem FabPort.dropped_same {q : FabPort} (h : q.st = .down ∨ q.st = .failed) : q.dropped = q := by
  obtain ⟨en, eth, st⟩ := q
  obtain h | h := h <;> cases h <;> rfl

theorem FabPort.dropped_starting {q : FabPort} (h : q.st = .training ∨ q.st = .init) : q.dropped = { q with st := .down } := by
  simp only [FabPort.dropped, if_neg (show q.st ≠ .failed by rcases h with h | h <;> simp [h])]

theorem State.linkLost_notUp (h : (s.port p).st ≠ .up) : s.linkLost p = s.withPort p FabPort.dropped := by
  have hcases : ((s.port p).st = .down ∨ (s.port p).st = .failed) ∨ (s.port p).st = .training ∨ (s.port p).st = .init := by
    cases hst : (s.port p).st <;> simp_all
  obtain hst | hst := hcases
  · rw [State.linkLost_none hst, State.withPort_same (FabPort.dropped_same hst)]
  · rw [State.linkLost_starting hst, State.withPort_congr (FabPort.dropped_starting hst).symm]

theorem State.ackTimeout_lost (hst : (s.port p).st = .up) (hb : (s.port p).buffer ≠ []) : s.ackTimeout p = s.linkLost p := if_pos (by simp [hst, hb])

theorem State.ackTimeout_none (h : (s.port p).st ≠ .up ∨ (s.port p).buffer = []) : s.ackTimeout p = s :=
  if_neg (by rcases h with h | h <;> simp [h])

/-! ### Cages (R424, R425) -/

/-- The port with an assembly of a power class, or with none: above 1.5 W it stays in low power. -/
def FabPort.fitted (a : Option Nat) (q : FabPort) : FabPort := match a with
  | none => { q with present := false, powerClass := 0, lowPower := true, st := .down }
  | some mw => { q with present := true, powerClass := mw, lowPower := decide (1500 < mw), st := if q.en = true ∧ q.link = .on ∧ mw ≤ 1500 then .training else .down }

theorem State.cage_eq (s : State) (p : PortIx) (a : Option Nat) : s.cage p a = (s.linkLost p).withPort p (FabPort.fitted a) := by
  cases a with
  | none => exact (s.linkLost p).updPort_eq_withPort p (FabPort.fitted none)
  | some mw =>
    rw [State.cage, State.updPort_eq_withPort]
    simp only [Bool.and_eq_true, decide_eq_true_eq, Bool.not_eq_true', decide_eq_false_iff_not, Nat.not_lt, and_assoc]
    rfl

theorem State.cage_notUp (h : (s.port p).st ≠ .up) (a : Option Nat) : s.cage p a = s.withPort p (FabPort.fitted a) := by
  rw [State.cage_eq, State.linkLost_notUp h, State.withPort_withPort]
  cases a <;> rfl

/-! ### Ethernet frames (R243) -/

theorem State.ethernetFrame_other (h : (s.port p).eth = false ∨ (s.port p).st ≠ .up) (k : EthKind) : s.ethernetFrame p k = s :=
  if_pos (by rcases h with h | h <;> simp [h])

section
variable (heth : (s.port p).eth = true) (hst : (s.port p).st = .up)
include heth hst

theorem FabPort.ethUp : ¬(!(s.port p).eth || decide ((s.port p).st ≠ .up)) = true := by simp [heth, hst]

theorem State.ethernetFrame_answers : s.ethernetFrame p .arp = { s with out := .eth p 1 :: s.out } ∧ s.ethernetFrame p .neighbour = { s with out := .eth p 2 :: s.out } ∧
    s.ethernetFrame p .roceRequest = { s with out := .eth p 3 :: s.out } ∧ s.ethernetFrame p .other = s :=
  have h := FabPort.ethUp heth hst
  ⟨if_neg h, if_neg h, if_neg h, if_neg h⟩

theorem State.ethernetFrame_pfc {pr : Nat} (hen : s.fab.pfcEn = true) (hpr : pr = s.fab.pfcPri) (b : Bool) : s.ethernetFrame p (.pfc pr b) = s.pfc p b :=
  (if_neg (FabPort.ethUp heth hst)).trans (if_pos (by simp [hen, hpr]))

theorem State.ethernetFrame_pfc_other {pr : Nat} (h : s.fab.pfcEn = false ∨ pr ≠ s.fab.pfcPri) (b : Bool) : s.ethernetFrame p (.pfc pr b) = s :=
  (if_neg (FabPort.ethUp heth hst)).trans (if_neg (by rcases h with h | h <;> simp [h]))

/-- The rate after a congestion mark is one below the present (R243). -/
theorem State.ethernetFrame_ecn : ∃ r, (r < (s.port p).ethRate ∨ (s.port p).ethRate = 0 ∧ r = 0) ∧
    s.ethernetFrame p .ecnMarked = { s.withPort p (fun q => { q with ethRate := r }) with freeCtr := s.freeCtr + 1 } := by
  refine ⟨s.draw.toNat % max 1 (s.port p).ethRate, ?_, ?_⟩
  · have hlt := Nat.mod_lt s.draw.toNat (Nat.lt_of_lt_of_le Nat.one_pos (Nat.le_max_left 1 (s.port p).ethRate))
    omega
  · refine (if_neg (FabPort.ethUp heth hst)).trans ?_
    simp only [State.updPort_eq_withPort]
    rw [State.withPort_congr (h := fun q => { q with ethRate := s.draw.toNat % max 1 (s.port p).ethRate }) rfl]

end

theorem State.pfc_pauses (s : State) (p : PortIx) : s.pfc p true = s.withPort p (fun q => { q with pfcPaused := true }) :=
  s.updPort_eq_withPort p (fun q => { q with pfcPaused := true })

theorem State.pfc_resumes (s : State) (p : PortIx) : s.pfc p false =
    { s.withPort p (fun q => { q with pfcPaused := false, roceq := [] }) with out := ((s.port p).roceq.map (fun o => Output.roce p o)).reverse ++ s.out } := by
  rw [State.pfc, State.updPort_eq_withPort]
  rfl

end Sys2Proof.Machine

open Sys2Proof Sys2Proof.Machine

/-- Settles O44: a flit is judged by its CRC, then by its SEQ, and every loss of a link is `linkLost`, whose users one fold takes in turn. -/
theorem portCommandsComplete : Obligations.PortCommandsComplete := by
  unfold Obligations.PortCommandsComplete
  constructor
  · intro p s q train init
    refine ⟨fun ht heth => ?_, fun ht heth => ?_, s.initFlitOf_fields p, fun ht => next_congr (State.portTrained_idle ht), fun hst => ?_, fun hst => ?_, fun hst hen => ?_, fun h => ?_, ?_⟩
    · obtain ⟨hen, hlink, hlow, hst⟩ := ht
      exact next_congr (State.portTrained_eth ⟨hen, hlink, hlow⟩ hst heth)
    · obtain ⟨hen, hlink, hlow, hst⟩ := ht
      exact next_congr (State.portTrained_fabric ⟨hen, hlink, hlow⟩ hst heth)
    · exact next_congr ((if_pos hst).trans (s.updPort_eq_withPort p _))
    · exact next_congr (if_neg hst)
    · exact next_congr ((if_pos (by simp [q] at hst hen; simp [hst, hen])).trans (s.updPort_eq_withPort p _))
    · exact next_congr (if_neg (by rcases h with h | h <;> simp [q] at h <;> simp [h]))
    · intro f c bad nakOf add acks
      refine ⟨fun hst hk hc => ⟨fun hcrc => ?_, fun hcrc hv => ?_, fun hcrc hv heth => ?_, fun hcrc hv heth => ?_⟩, fun h => next_congr (State.initFlit_ignored h),
        fun hst heth hk => ⟨fun hcrc => ?_, fun hcrc hseq => ?_, fun hcrc hseq => ?_⟩, fun h => next_congr (State.fabricDataFlit_ignored h), fun cmd hcmd => ?_⟩
      · exact next_congr (State.initFlit_bad hst hk hc hcrc)
      · exact next_congr (State.initFlit_version hst hk hc hcrc hv)
      · exact next_congr (State.initFlit_opens hst hk hc hcrc hv heth)
      · exact next_congr (State.initFlit_opens_eth hst hk hc hcrc hv heth)
      · exact next_congr ((State.fabricDataFlit_heard hst heth hk).trans (State.flitIn_bad hcrc hst _))
      · exact next_congr (State.fabricDataFlit_outOfSequence hst heth hk hcrc hseq)
      · exact (next_congr (State.fabricDataFlit_expected hst heth hk hcrc hseq)).trans (State.takeAck_eq ..)
      · have hexec : exec cmd s = .next (s.controlFlit p f) := by
          obtain rfl | rfl : cmd = .creditFlit p f ∨ cmd = .nakReceived p f := by simpa using hcmd
          · rfl
          · rfl
        refine ⟨fun hst heth hk hc => ⟨fun hcrc => ?_, fun hcrc => ?_⟩, fun h => hexec.trans (next_congr (State.controlFlit_ignored h))⟩
        · exact hexec.trans (next_congr ((State.controlFlit_heard hst heth hk hc).trans (State.flitIn_bad hcrc hst _)))
        · rw [hexec, State.controlFlit_heard hst heth hk hc, State.flitIn_good hcrc, State.addCredit_eq]
          exact State.takeAck_eq ..
  · intro p s q off fit
    refine ⟨fun hst heth => ?_, fun hst heth hm hu => ?_, fun hst heth hm hu => next_congr (State.linkLost_routed hst heth hm hu), fun hst => ?_, fun hst => next_congr (State.linkLost_starting hst),
      fun hst => next_congr (State.linkLost_none hst), fun hst hb => next_congr (State.ackTimeout_lost hst hb), fun h => next_congr (State.ackTimeout_none h),
      fun a => ⟨fun hst => next_congr (State.cage_notUp hst a), fun _ => ⟨_, rfl, next_congr (State.cage_eq s p a)⟩⟩, fun heth hst => ?_, fun h k => next_congr (State.ethernetFrame_other h k)⟩
    · exact next_congr (State.linkLost_unrouted (State.linkDown_unused hst (.inl heth)) (by simp [q] at heth; simp [FabPort.routes, heth]) rfl)
    · exact next_congr (State.linkLost_unrouted (State.linkDown_unused hst (.inr hu)) (by simp [q] at hm; simp [FabPort.routes, hm]) rfl)
    · obtain ⟨hport, hothers, hcores, hfields, ⟨more, hreports⟩, husers⟩ := State.linkLost_up hst
      exact ⟨s.linkLost p, more, rfl, hport, fun j _ hj => hothers j hj, hcores, hfields, hreports, husers⟩
    · obtain ⟨r, hr, hecn⟩ := State.ethernetFrame_ecn heth hst
      obtain ⟨harp, hneighbour, hroce, hother⟩ := State.ethernetFrame_answers heth hst
      exact ⟨next_congr harp, next_congr hneighbour, next_congr hroce, next_congr hother,
        fun pr hen hpr => ⟨next_congr ((State.ethernetFrame_pfc heth hst hen hpr true).trans (s.pfc_pauses p)),
          next_congr ((State.ethernetFrame_pfc heth hst hen hpr false).trans (s.pfc_resumes p))⟩,
        fun pr b h => next_congr (State.ethernetFrame_pfc_other heth hst h b), r, hr, next_congr hecn⟩
end

section
/-! Packets between modules: how one leaves its port's buffers, how it is judged, and what becomes of it (R240, R242, R252, R254, R266, R270). -/

namespace Sys2Proof.Machine

open Sys2Proof

variable {s : State} {p : PortIx}

/-! ### A packet in the receive buffers -/

theorem natLE_lt (l : List Byte) : natLE l < 256 ^ l.length := by
  induction l with
  | nil => simp [natLE]
  | cons b l ih =>
    have hb : b.toNat < 256 := b.isLt
    simp only [natLE, List.length_cons, Nat.pow_succ]
    omega

theorem fieldLE_lt (bs : List Byte) (i n : Nat) : fieldLE bs i n < 256 ^ n :=
  Nat.lt_of_lt_of_le (natLE_lt _) (Nat.pow_le_pow_right (by decide) (List.length_take_le ..))

/-- The partition field of a packet has four bits (Table 8.2). -/
theorem FabPort.firstPacket_part {q : FabPort} {k : FabPkt} {n : Nat} {rest : List FabFlit} (h : q.firstPacket = some (k, n, rest)) : k.part < 16 := by
  obtain ⟨i, -, he⟩ := Option.map_eq_some_iff.1 h
  have hk : k = FabPkt.ofFlits _ := (congrArg Prod.fst he).symm
  rw [hk]
  exact Nat.div_lt_of_lt_mul (fieldLE_lt _ 10 2)

theorem State.updPart_eq_ofNat (s : State) {n : Nat} (h : n < 16) (g : Part → Part) : s.updPart n g = s.withPart (.ofNat 16 n) g := by
  have hval : (Fin.ofNat 16 n).val = n := Nat.mod_eq_of_lt h
  have heq := s.updPart_eq_withPart (.ofNat 16 n) g
  rwa [hval] at heq

theorem State.popPacket_none (h : (s.port p).st ≠ .up ∨ (s.port p).firstPacket = none) (g : State → FabPkt → State) : s.popPacket p g = s := by
  unfold State.popPacket
  split
  · rfl
  · next hst =>
    rw [h.resolve_left hst]

theorem State.popPacket_some {k : FabPkt} {n : Nat} {rest : List FabFlit} (hst : (s.port p).st = .up) (hk : (s.port p).firstPacket = some (k, n, rest))
    (g : State → FabPkt → State) : s.popPacket p g = (g (s.withPort p (fun q => q.takePacket k n rest)) k).pumpPort p := by
  unfold State.popPacket
  rw [if_neg (not_not.2 hst), hk, ← State.updPort_eq_withPort]

/-! ### Its judgement (R254, R266) -/

/-- The packet is of an epoch that its partition does not take now. -/
def Part.outdates (x : Part) (k : FabPkt) : Prop :=
  (k.vc = 1 ∨ k.vc = 4) ∧ k.epoch ≠ x.epoch ∧ ¬(k.epoch = x.epoch + 1 ∧ k.vc = 4 ∧ x.inStaging k = true ∧ x.resharding = true ∧ x.rs.sentFence = true)

/-- The packet belongs to no collective, or to one of its partition's plan. -/
def Part.knows (x : Part) (k : FabPkt) : Prop := k.coll = 0 ∨ ∃ pl c, x.plan = some pl ∧ c ∈ pl.colls ∧ c.coll = k.coll.toNat

theorem Part.knows_iff (x : Part) (k : FabPkt) :
    x.knows k ↔ ¬(k.coll ≠ 0 && !((x.plan.map Plan.colls).getD []).any (fun c => c.coll = k.coll.toNat)) = true := by
  cases hp : x.plan <;> simp [Part.knows, hp, or_iff_not_imp_left]

section
variable {k : FabPkt}

theorem State.judgePacket_eq (s : State) (h : k.tkind ≠ 3) [Decidable ((s.part k.part).outdates k)] [Decidable ((s.part k.part).knows k)] :
    s.judgePacket k = if (s.part k.part).started = false then some fkClosed else if (s.part k.part).outdates k then some fkStale
      else if ¬(s.part k.part).knows k then some fkColl else none := by
  rw [State.judgePacket, if_neg h]
  refine if_congr (by simp) rfl (if_congr ?_ rfl (if_congr ?_ rfl rfl))
  · simp only [Part.outdates, Bool.and_eq_true, Bool.or_eq_true, decide_eq_true_eq, Bool.not_eq_eq_eq_not, Bool.not_true, ← Bool.not_eq_true, and_assoc, ne_eq]
  · rw [Part.knows_iff, not_not]

theorem State.judgePacket_closed (h : k.tkind ≠ 3) (hst : (s.part k.part).started = false) : s.judgePacket k = some fkClosed := by
  classical rw [State.judgePacket_eq s h, if_pos hst]

theorem State.judgePacket_stale (h : k.tkind ≠ 3) (hst : (s.part k.part).started = true) (hold : (s.part k.part).outdates k) : s.judgePacket k = some fkStale := by
  classical rw [State.judgePacket_eq s h, if_neg (by simp [hst]), if_pos hold]

theorem State.judgePacket_unknown (h : k.tkind ≠ 3) (hst : (s.part k.part).started = true) (hold : ¬(s.part k.part).outdates k) (hknown : ¬(s.part k.part).knows k) :
    s.judgePacket k = some fkColl := by
  classical rw [State.judgePacket_eq s h, if_neg (by simp [hst]), if_neg hold, if_pos hknown]

theorem State.judgePacket_passes (h : k.tkind = 3 ∨ (s.part k.part).started = true ∧ ¬(s.part k.part).outdates k ∧ (s.part k.part).knows k) : s.judgePacket k = none := by
  by_cases h3 : k.tkind = 3
  · exact if_pos h3
  · obtain ⟨hst, hold, hknown⟩ := h.resolve_left h3
    classical rw [State.judgePacket_eq s h3, if_neg (by simp [hst]), if_neg hold, if_neg (not_not.2 hknown)]

/-! ### What becomes of it -/

/-- A fault of the fabric that ends no re-shard. -/
theorem State.staleFails_other {kind : Nat} (h : kind ≠ fkStale) : s.staleFails k kind = s := if_neg (by simp [h])

theorem State.staleFails_stale (hk : k.part < 16) : s.staleFails k fkStale =
    if (s.part k.part).resharding = true ∧ k.epoch + 1 = (s.part k.part).epoch then s.withPart (.ofNat 16 k.part) (fun x => { x with resharding := false, rs := {} }) else s := by
  unfold State.staleFails
  rw [State.updPart_eq_ofNat s hk]
  exact if_congr (by simp) rfl rfl

/-- A packet that is judged is discarded: the fabric's fault, and that of a re-shard that it fails. -/
def State.discards (s : State) (p : PortIx) (k : FabPkt) (kind : Nat) : State := (s.fabFault k.part p kind k.src k.epoch k.coll .none).staleFails k kind

theorem State.acceptPacket_elsewhere (h : k.dst ≠ s.fab.addr) : s.acceptPacket p k = { s with mesh := s.mesh ++ s.flitsIn p k } := if_pos h
theorem State.acceptTrailer_elsewhere (h : k.dst ≠ s.fab.addr) : s.acceptTrailer p k = { s with mesh := s.mesh ++ s.flitsIn p k } := if_pos h

theorem State.acceptPacket_judged {kind : Nat} (h : k.dst = s.fab.addr) (hj : s.judgePacket k = some kind) : s.acceptPacket p k = s.discards p k kind := by
  rw [State.acceptPacket, if_neg (not_not.2 h), hj]
  rfl

theorem State.acceptTrailer_judged {kind : Nat} (h : k.dst = s.fab.addr) (hj : s.judgePacket k = some kind) : s.acceptTrailer p k = s.discards p k kind := by
  rw [State.acceptTrailer, if_neg (not_not.2 h), hj]
  rfl

theorem State.acceptPacket_passes (h : k.dst = s.fab.addr) (hj : s.judgePacket k = none) : s.acceptPacket p k =
    if k.tkind = 3 then (if k.vc = 0 then s.heartbeat p else s) else { s.updPart k.part (fun x => x.takeContrib p k) with mesh := s.mesh ++ s.flitsIn p k } := by
  rw [State.acceptPacket, if_neg (not_not.2 h), hj]

theorem State.acceptTrailer_passes (h : k.dst = s.fab.addr) (hj : s.judgePacket k = none) :
    let t := s.updPart k.part (fun x => { x with contribs := x.contribs.filter (fun c => c.1 ≠ k.contrib p) })
    s.acceptTrailer p k = if BitVec.ofNat 64 (fieldLE (k.payload.flatMap (fun w => bytesLE w.toNat 4)) 0 8) = (s.part k.part).digestOf (k.contrib p) then t
      else t.fabFault k.part p fkContrib k.src k.epoch k.coll .none := by
  rw [State.acceptTrailer, if_neg (not_not.2 h), hj]

end

/-- A heartbeat: a port that counted as down for membership carries routes again. -/
theorem State.heartbeat_eq (hst : (s.port p).st = .up) :
    let heard := s.withPort p (fun q => { q with lastHb := s.tg.cyc, memberDown := false })
    s.heartbeat p = if (s.port p).eth = false ∧ (s.port p).memberDown = true then (heard.review s.fab.view s.upPorts).floodLinks else heard := by
  intro heard
  show s.onLinks (fun t => t.updPort p (fun x => { x with lastHb := s.tg.cyc, memberDown := false })) = _
  split
  · next h => exact State.onLinks_updPort_flip (by simp [FabPort.routes, hst, h])
  · next h =>
    refine State.onLinks_updPort_same ?_ (fun _ => rfl)
    cases heth : (s.port p).eth <;> cases hm : (s.port p).memberDown <;> simp_all [FabPort.routes]

/-- The flits of a packet enter the mesh at the port's pass router, on the packet's channel (R242). -/
theorem mem_wholePacket {m x : MeshPkt} {n : Nat} (h : x ∈ wholePacket m n) : x.at_ = m.at_ ∧ x.from_ = m.from_ ∧ x.vc = m.vc := by
  obtain h | h := List.mem_append.1 h
  · rw [List.eq_of_mem_replicate h]
    exact ⟨rfl, rfl, rfl⟩
  · rw [List.mem_singleton.1 h]
    exact ⟨rfl, rfl, rfl⟩

theorem mem_cutFlits {m x : MeshPkt} {bs : List Byte} {last : Bool} (h : x ∈ cutFlits m bs last) : x.at_ = m.at_ ∧ x.from_ = m.from_ ∧ x.vc = m.vc := by
  obtain ⟨i, -, rfl⟩ := List.mem_map.1 h
  exact ⟨rfl, rfl, rfl⟩

theorem State.mem_flitsIn {k : FabPkt} {m : MeshPkt} (h : m ∈ s.flitsIn p k) :
    m.at_ = 16 * fieldAt (passRouter p).1 (passRouter p).2 + quadAt (passRouter p).1 (passRouter p).2 ∧ m.from_ = 9 ∧ m.vc = k.vc := by
  unfold State.flitsIn at h
  extract_lets at_ bs n m0 pr at h
  split at h
  · split at h
    · exact mem_wholePacket h
    · exact absurd h List.not_mem_nil
  · split at h
    · exact mem_cutFlits h
    · split at h
      · exact mem_wholePacket h
      · split at h
        · exact mem_wholePacket h
        · exact absurd h List.not_mem_nil

end Sys2Proof.Machine
end

section
/-! Packets that are discarded, contributions and their trailers, result digests, heartbeats and the view (R252 to R254, R266, R270). -/

namespace Sys2Proof.Machine

open Sys2Proof

variable {s : State} {p : PortIx}

/-- A fault of the fabric in a state that agrees with `s` on firmware, the record, the time and the partition. -/
theorem State.fabFault_of {t : State} (hfw : t.fw = s.fw) (hrec : t.fab.fault = s.fab.fault) (htg : t.tg = s.tg) {n : Nat}
    (hst : (t.part n).started = (s.part n).started) (port kind src : Nat) (epoch coll : W16) : t.fabFault n port kind src epoch coll .none = { t with
      fab := { t.fab with fault := s.fab.fault.note FabFaultBody.lower s.now { part := n, port := port, kind := kind, src := src, epoch := epoch, coll := coll, at_ := s.now } }
      fw := { s.fw with reports := if (s.part n).started then s.fw.reports ++ [{ part := n, what := .fabric kind port, addr := port }] else s.fw.reports } } := by
  simp only [State.fabFault, State.now, hfw, hrec, htg, hst]

section
variable {k : FabPkt}

theorem State.discards_other {kind : Nat} (h : kind ≠ fkStale) : s.discards p k kind = s.fabFault k.part p kind k.src k.epoch k.coll .none := State.staleFails_other h

theorem State.discards_stale (hk : k.part < 16) : s.discards p k fkStale =
    let t := s.fabFault k.part p fkStale k.src k.epoch k.coll .none
    if (s.part k.part).resharding = true ∧ k.epoch + 1 = (s.part k.part).epoch then t.withPart (.ofNat 16 k.part) (fun x => { x with resharding := false, rs := {} }) else t :=
  State.staleFails_stale hk

theorem State.upPorts_takePacket (n : Nat) (rest : List FabFlit) : (s.withPort p (fun q => q.takePacket k n rest)).upPorts = s.upPorts :=
  State.upPorts_withPort rfl (fun _ => rfl)

/-- A heartbeat is a packet that leaves the buffers of the port that it marks (R270). -/
theorem State.heartbeat_taken (n : Nat) (rest : List FabFlit) (hst : (s.port p).st = .up) :
    let u := s.withPort p (fun q => q.takePacket k n rest)
    let heard := u.withPort p (fun q => { q with lastHb := s.tg.cyc, memberDown := false })
    u.heartbeat p = if (s.port p).eth = false ∧ (s.port p).memberDown = true then (heard.review s.fab.view s.upPorts).floodLinks else heard := by
  intro u heard
  have hport : u.port p = (s.port p).takePacket k n rest := State.port_withPort_self ..
  have h := State.heartbeat_eq (s := u) (p := p) (by rw [hport]; exact hst)
  rw [hport, State.upPorts_takePacket] at h
  exact h

/-- The payload of a packet that passes joins the digest of its contribution (R252). -/
theorem State.updPart_takeContrib (hk : k.part < 16) (hc : k.coll ≠ 0) : s.updPart k.part (fun x => x.takeContrib p k) =
    s.withPart (.ofNat 16 k.part) (fun x => { x with contribs := (k.contrib p,
      crc64More ((s.part k.part).digestOf (k.contrib p)) (k.payload.flatMap (fun w => bytesLE w.toNat 4))) :: x.contribs.filter (fun c => c.1 ≠ k.contrib p) }) := by
  have hval : (Fin.ofNat 16 k.part).val = k.part := Nat.mod_eq_of_lt hk
  rw [State.updPart_eq_ofNat s hk]
  refine State.withPart_congr ?_
  rw [hval, Part.takeContrib, if_neg hc]

theorem State.updPart_takeContrib_none (hk : k.part < 16) (hc : k.coll = 0) : s.updPart k.part (fun x => x.takeContrib p k) = s := by
  rw [State.updPart_eq_ofNat s hk]
  exact State.withPart_same (if_pos hc)

/-- A trailer ends its contribution: the digest that it names is the one formed, or the fabric's fault is recorded (R252). -/
theorem State.acceptTrailer_ends (hk : k.part < 16) (h : k.dst = s.fab.addr) (hj : s.judgePacket k = none) :
    let clear := s.withPart (.ofNat 16 k.part) (fun x => { x with contribs := x.contribs.filter (fun c => c.1 ≠ k.contrib p) })
    s.acceptTrailer p k = if BitVec.ofNat 64 (fieldLE (k.payload.flatMap (fun w => bytesLE w.toNat 4)) 0 8) = (s.part k.part).digestOf (k.contrib p) then clear
      else { clear with
        fab := { clear.fab with fault := s.fab.fault.note FabFaultBody.lower s.now { part := k.part, port := p, kind := fkContrib, src := k.src, epoch := k.epoch, coll := k.coll, at_ := s.now } }
        fw := { s.fw with reports := if (s.part k.part).started then s.fw.reports ++ [{ part := k.part, what := .fabric fkContrib p, addr := p }] else s.fw.reports } } := by
  intro clear
  have hval : (Fin.ofNat 16 k.part).val = k.part := Nat.mod_eq_of_lt hk
  have hread : clear.part (Fin.ofNat 16 k.part) = _ := State.part_withPart_self ..
  have hkeeps : (clear.part k.part).started = (s.part k.part).started := by
    rw [hval] at hread
    rw [hread]
  rw [State.acceptTrailer_passes h hj, State.updPart_eq_ofNat s hk]
  exact if_congr Iff.rfl rfl (State.fabFault_of (s := s) (t := clear) rfl rfl rfl hkeeps ..)

end

/-! ### Result digests (R253) -/

section
variable {q : PartIx} {coll : W16} {ds : List (Nat × W64)}

theorem State.resultDigests_closed (h : (s.part q).started = false) : s.resultDigests q coll ds = s.fabFault q 0 fkClosed s.fab.addr (s.part q).epoch coll .none :=
  if_pos (by simp [h])

theorem State.resultDigests_unknown (h : (s.part q).started = true) (hc : (s.part q).compares.find? (fun c => c.coll = coll.toNat) = none) :
    s.resultDigests q coll ds = s.fabFault q 0 fkColl s.fab.addr (s.part q).epoch coll .none := by
  rw [State.resultDigests, if_neg (by simp [h]), hc]

/-- The digest of a known instance goes to the other members, and theirs are compared with it. -/
theorem State.resultDigests_known {c : Collective} (h : (s.part q).started = true) (hc : (s.part q).compares.find? (fun c => c.coll = coll.toNat) = some c) :
    let d := s.resultDigest c
    let told := { s with out := ((s.others (s.part q).members).map (fun a => Output.module_ a (.resultDigest q coll d))).reverse ++ s.out }
    s.resultDigests q coll ds = if ∀ e ∈ ds, e.2 = d then told.withPart q (fun y => { y with digests := (coll.toNat, d) :: y.digests.filter (fun e => e.1 ≠ coll.toNat) })
      else (told.fabFault q 0 fkResult s.fab.addr (s.part q).epoch coll .none).withPart q (fun y => { y with digestBad := true }) := by
  intro d told
  rw [State.resultDigests, if_neg (by simp [h]), hc]
  simp only [State.updPart_eq_withPart]
  exact if_congr (by simp [d]) rfl rfl

end

/-! ### Heartbeats and the view (R242, R270) -/

theorem State.hbLostAt_late (hst : (s.port p).st = .up) (heth : (s.port p).eth = false) (hm : (s.port p).memberDown = false)
    (hlate : (s.port p).lastHb.toNat + 4 * s.hbCycles ≤ s.tg.cyc.toNat) :
    s.hbLostAt p = ((s.withPort p (fun q => { q with hbLost := true, memberDown := true })).review s.fab.view s.upPorts).floodLinks := by
  have hroutes : (s.port p).routes = true := (FabPort.routes_iff _).2 ⟨hst, heth, hm⟩
  rw [State.hbLostAt, if_pos (by simp [hst, heth, hm, hlate])]
  exact State.onLinks_updPort_flip (by rw [hroutes]; simp [FabPort.routes])

theorem State.hbLostAt_none (h : ¬((s.port p).st = .up ∧ (s.port p).eth = false ∧ (s.port p).memberDown = false ∧ (s.port p).lastHb.toNat + 4 * s.hbCycles ≤ s.tg.cyc.toNat)) :
    s.hbLostAt p = s := if_neg (by simpa [and_assoc] using h)

/-- A view under which no job loses a member and none rejoins: the table of routes follows it, and nothing else. -/
theorem State.review_unshared (links : List (Nat × Nat × Nat × Nat)) (hspans : ∀ p, p < 16 → (s.part p).started = false ∨ (s.part p).members.length < 2)
    (hrejoin : ∀ p, p < 16 → (s.part p).rejoin = []) : s.review links s.upPorts = { s with fab := { s.fab with
      view := links, viewAt := if links = s.fab.view then s.fab.viewAt else s.tg.cyc, fwd := forwarding s.fab.addr s.upPorts links } } := by
  have hlost : ∀ lost : Nat → List FaultReport, (List.range 16).flatMap (fun p => if (s.part p).started && (s.part p).spans then lost p else []) = [] := by
    intro lost
    refine List.flatMap_eq_nil_iff.2 (fun p hp => if_neg ?_)
    rcases hspans p (List.mem_range.1 hp) with h | h
    · simp [h]
    · simp [Part.spans]
      omega
  have hjoin : ∀ (t : State) (old : Tab Nat), t.parts = s.parts → t.sendJoins old = t := by
    intro t old ht
    have hnone : ∀ l : List Output, l = [] → t.emit l = t := by
      rintro l rfl
      rfl
    refine hnone _ (List.filterMap_eq_nil_iff.2 (fun p hp => ?_))
    rw [State.part_congr ht, hrejoin p (List.mem_range.1 hp)]
    rfl
  show State.sendJoins (State.report _ ((List.range 16).flatMap _)) _ = _
  rw [hlost]
  refine Eq.trans (hjoin _ _ ?_) ?_
  · rfl
  · simp only [State.report, List.append_nil, decide_true, Bool.and_true, decide_eq_true_eq]

end Sys2Proof.Machine

open Sys2Proof Sys2Proof.Machine

/-- Settles O45: a packet that stands whole leaves the buffers, and is relayed, discarded or taken as its judgement says. -/
theorem fabricCommandsComplete : Obligations.FabricCommandsComplete := by
  unfold Obligations.FabricCommandsComplete
  refine ⟨fun p s => ?_, fun p coll ds s => ?_, fun s => ?_⟩
  · intro q
    refine ⟨fun h => ⟨next_congr (State.popPacket_none h _), next_congr (State.popPacket_none h _)⟩, fun k n rest hst hk => ?_⟩
    intro u x key bs formed fault meshed lost old known
    have hpart : k.part < 16 := FabPort.firstPacket_part hk
    have hpacket : ∀ {t : State}, u.acceptPacket p k = t → exec (.fabricPacket p) s = .next (t.pumpPort p) :=
      fun h => next_congr ((State.popPacket_some hst hk _).trans (congrArg (fun t : State => t.pumpPort p) h))
    have htrailer : ∀ {t : State}, u.acceptTrailer p k = t → exec (.contribTrailer p) s = .next (t.pumpPort p) :=
      fun h => next_congr ((State.popPacket_some hst hk _).trans (congrArg (fun t : State => t.pumpPort p) h))
    have hjudged : ∀ kind, kind ≠ fkStale → k.dst = s.fab.addr → u.judgePacket k = some kind →
        exec (.fabricPacket p) s = .next ((fault u kind).pumpPort p) ∧ exec (.contribTrailer p) s = .next ((fault u kind).pumpPort p) := by
      intro kind hkind hdst hj
      exact ⟨hpacket ((State.acceptPacket_judged (s := u) hdst hj).trans (State.discards_other hkind)), htrailer ((State.acceptTrailer_judged (s := u) hdst hj).trans (State.discards_other hkind))⟩
    refine ⟨fun m hm => State.mem_flitsIn hm, fun hdst => ⟨hpacket (State.acceptPacket_elsewhere hdst), htrailer (State.acceptTrailer_elsewhere hdst)⟩,
      fun hdst h3 hrun => hjudged _ (by decide) hdst (State.judgePacket_closed h3 hrun), fun hdst h3 hrun hold => ?_,
      fun hdst h3 hrun hold hknown => hjudged _ (by decide) hdst (State.judgePacket_unknown h3 hrun hold hknown), fun hdst h3 hrun hold hknown => ⟨fun hc => ?_, fun hc => ?_⟩,
      fun hdst hpass => ?_, fun hdst h3 hvc => ?_, fun hdst h3 hvc => ?_⟩
    · have hj : u.judgePacket k = some fkStale := State.judgePacket_stale h3 hrun hold
      exact ⟨hpacket ((State.acceptPacket_judged (s := u) hdst hj).trans (State.discards_stale hpart)), htrailer ((State.acceptTrailer_judged (s := u) hdst hj).trans (State.discards_stale hpart))⟩
    · refine hpacket ((State.acceptPacket_passes (s := u) hdst (State.judgePacket_passes (s := u) (.inr ⟨hrun, hold, hknown⟩))).trans ((if_neg h3).trans ?_))
      rw [State.updPart_takeContrib_none hpart hc]
      rfl
    · refine hpacket ((State.acceptPacket_passes (s := u) hdst (State.judgePacket_passes (s := u) (.inr ⟨hrun, hold, hknown⟩))).trans ((if_neg h3).trans ?_))
      rw [State.updPart_takeContrib hpart hc]
      rfl
    · exact htrailer (State.acceptTrailer_ends (s := u) hpart hdst (State.judgePacket_passes (s := u) hpass))
    · exact hpacket ((State.acceptPacket_passes (s := u) hdst (State.judgePacket_passes (s := u) (.inl h3))).trans ((if_pos h3).trans (if_neg hvc)))
    · exact hpacket ((State.acceptPacket_passes (s := u) hdst (State.judgePacket_passes (s := u) (.inl h3))).trans ((if_pos h3).trans ((if_pos hvc).trans (State.heartbeat_taken n rest hst))))
  · intro x fault
    refine ⟨fun h => next_congr (State.resultDigests_closed h), fun h hc => next_congr (State.resultDigests_unknown h hc), fun c h hc => ?_⟩
    intro d told
    refine ⟨fun hall => next_congr ((State.resultDigests_known h hc).trans (if_pos hall)), fun hdiff => next_congr ((State.resultDigests_known h hc).trans (if_neg ?_))⟩
    obtain ⟨e, he, hne⟩ := hdiff
    exact fun hall => hne (hall e he)
  · refine ⟨next_congr ?_, fun p => ?_, fun _ => rfl, fun links hspans hrejoin => next_congr (State.review_unshared links hspans hrejoin)⟩
    · simp only [State.heartbeatSend, State.emit, Bool.decide_and, Bool.decide_eq_false]
    · intro q late
      exact ⟨fun ⟨hst, heth, hm, hlate⟩ => next_congr (State.hbLostAt_late hst heth hm hlate), fun h => next_congr (State.hbLostAt_none h)⟩
end

section
/-! Membership and re-sharding (R261 to R266, R271 to R273): lists that are adopted, joiners, fences, and the units on their way. -/

namespace Sys2Proof.Machine

open Sys2Proof

variable {s : State} {p : PartIx}

/-! ### Stops and lists -/

theorem State.sendStop_eq (s : State) (p : PartIx) : s.sendStop p =
    s.withPart p (fun y => { y with stopAt := if (s.part p).started = true ∧ (s.part p).stopAt = none then some (s.edgeAfter p 4096) else (s.part p).stopAt }) := by
  unfold State.sendStop
  split
  · next h =>
    have hstands : ¬((s.part p).started = true ∧ (s.part p).stopAt = none) := by
      rintro ⟨hrun, hstop⟩
      simp [hrun, hstop] at h
    rw [if_neg hstands, State.withPart_same rfl]
  · next h =>
    rw [if_pos (by simpa using h), State.updPart_eq_withPart]
    rfl

/-- The plan carries a list of members, and the staging areas hold what then arrives (R262, R265). -/
def State.listFits (s : State) (x : Part) (l : List Member) : Bool := x.carries l.length && s.stagingFits x l

/-- The partition, where `x` is what it was, as the re-shard to a new list begins (R264 step 1). -/
def Part.begins (own : Nat) (x : Part) (l : List Member) (y : Part) : Part := { y with
  resharding := false
  rs := { stage := 1, fences := if x.rs.stage = 0 then x.rs.fences else [], newList := l, oldList := x.members, expected := x.arriving own x.members l }
  hold := if x.hold.contains .reshard then x.hold else .reshard :: x.hold }

theorem State.adopt_fits {l : List Member} (h : s.listFits (s.part p) l = true) : s.adopt p l = s.withPart p (Part.begins s.fab.addr (s.part p) l) := by
  obtain ⟨hc, hf⟩ := Bool.and_eq_true_iff.1 h
  rw [State.adopt, if_neg (by simp [hc, hf]), State.updPart_eq_withPart]
  rfl

theorem State.adopt_beyond {l : List Member} (h : s.listFits (s.part p) l = false) : s.adopt p l = s.beyondLists p := by
  have hcases := Bool.and_eq_false_iff.1 h
  exact if_pos (by rcases hcases with hc | hf <;> simp [*])

/-- A list that the plan does not carry: the job holds, and the host is asked (R262). -/
theorem State.beyondLists_eq (s : State) (p : PartIx) : s.beyondLists p = { s.withPart p (fun y => { y with
    rs := {}, resharding := false, stopStatus := 0x0504#16, hold := if (s.part p).hold.contains .reshard then (s.part p).hold else .reshard :: (s.part p).hold }) with
    out := .event s.host.owner 0x0504 [p.val] :: s.out } := by
  simp only [State.beyondLists, State.updPart_eq_withPart]
  rfl

/-! ### MEMBERSHIP_DECISION (R271, R272) -/

theorem State.decideMembers_waits (h : (s.part p).on = false ∨ (s.part p).members.length < 2 ∨ s.component (s.part p).members = (s.part p).members ∨
    ¬s.fab.viewAt.toNat + 8 * s.hbCycles ≤ s.tg.cyc.toNat) : s.decideMembers p = s := by
  have hspans : (s.part p).members.length < 2 ↔ (s.part p).spans = false := by
    simp [Part.spans]
  rw [hspans, Nat.not_le] at h
  exact if_pos (by simpa only [Bool.or_eq_true, Bool.not_eq_true', decide_eq_true_eq, or_assoc] using h)

section
variable (hon : (s.part p).on = true) (hspans : 1 < (s.part p).members.length) (hcomp : s.component (s.part p).members ≠ (s.part p).members)
  (hstable : s.fab.viewAt.toNat + 8 * s.hbCycles ≤ s.tg.cyc.toNat)
include hon hspans hcomp hstable

theorem State.decideMembers_decides : s.decideMembers p = if continues (s.part p).members (s.component (s.part p).members) then s.adopt p (s.component (s.part p).members)
    else (s.sendStop p).updPart p (fun y => y.discardJob (s.component (s.part p).members)) := by
  refine if_neg ?_
  simp [Part.spans, hon, hspans, hcomp, hstable]

theorem State.decideMembers_lost (hc : continues (s.part p).members (s.component (s.part p).members) = false) :
    s.decideMembers p = s.withPart p (fun y => { y with
      stopAt := if (s.part p).started = true ∧ (s.part p).stopAt = none then some (s.edgeAfter p 4096) else (s.part p).stopAt
      quorumLost := true, stopStatus := 0x0500#16, rs := {}, resharding := false, rcv := {}, retraces := [], past := [], suspects := [], committed := none
      intake := {}, snap := { (s.part p).snap with gens := [], taking := none, announced := none, wanted := false }
      rejoin := (s.part p).members.filter (fun m => !(s.component (s.part p).members).contains m) }) := by
  rw [State.decideMembers_decides hon hspans hcomp hstable, if_neg (by simp [hc]), State.sendStop_eq, State.updPart_eq_withPart, State.withPart_withPart]
  exact State.withPart_congr rfl

end

/-! ### JOIN (R273) -/

section
variable {m : Member}

theorem State.join_refused (h : ¬((s.part p).started = true ∧ ∀ y ∈ (s.part p).members ++ (s.part p).joins, y.addr ≠ m.addr)) : s.join p m = s := by
  refine if_pos ?_
  by_contra hc
  simp only [Bool.or_eq_true, Bool.not_eq_true', List.any_eq_true, decide_eq_true_eq, not_or, Bool.not_eq_false, not_exists, not_and] at hc
  exact h hc

theorem State.join_fresh (h : (s.part p).started = true ∧ ∀ y ∈ (s.part p).members ++ (s.part p).joins, y.addr ≠ m.addr) :
    s.join p m = (s.withPart p (fun y => { y with joins := m :: y.joins })).takeJoins p := by
  obtain ⟨hrun, hnew⟩ := h
  rw [← State.updPart_eq_withPart]
  refine if_neg ?_
  simp only [hrun, Bool.not_true, Bool.false_or, List.any_eq_true, decide_eq_true_eq, not_exists, not_and]
  exact hnew

/-- A joiner waits where a step is open or a re-shard runs. -/
theorem State.takeJoins_waits (h : (s.part p).stepOpen = true ∨ (s.part p).rs.stage ≠ 0) : s.takeJoins p = s := by
  refine if_pos ?_
  rcases h with h | h <;> simp [h]

/-- What the lowest-ranked member sends as it takes a joiner in. -/
def State.joinNews (s : State) (p : PartIx) (m : Member) : List Output :=
  if (s.part p).members.head?.map Member.addr = some s.fab.addr then
    (Output.module_ m.addr (.params m.part ((s.captureRegions p).filter (fun g => g.kind = 1))) :: (s.others (s.part p).members).map (fun a => .module_ a (.join p m))).reverse
  else []

section
variable (hjoins : (s.part p).joins = []) (hrun : (s.part p).started = true) (hstep : (s.part p).stepOpen = false) (hstage : (s.part p).rs.stage = 0)
include hjoins hrun hstep hstage

/-- One joiner at a commit boundary. -/
theorem State.takeJoins_one : (s.withPart p (fun y => { y with joins := m :: y.joins })).takeJoins p =
    if (s.part p).carries ((s.part p).members.length + 1) = false then
      { s with out := (if (s.part p).members.head?.map Member.addr = some s.fab.addr then [.module_ m.addr (.joinRefused m.part)] else []) ++ s.out }
    else State.adopt { s with out := s.joinNews p m ++ s.out } p ((s.part p).members ++ [m]) := by
  have hback : (s.withPart p (fun y => { y with joins := m :: y.joins })).updPart p (fun y => { y with joins := [] }) = s := by
    rw [State.updPart_eq_withPart, State.withPart_withPart]
    exact State.withPart_same (congrArg (fun l => { s.part p with joins := l }) hjoins.symm)
  unfold State.takeJoins
  rw [State.part_withPart_self, hback, hjoins]
  refine (if_neg (by simp [insertMember, hrun, hstep, hstage])).trans ?_
  simp only [List.foldr_cons, List.foldr_nil, insertMember, List.length_append, List.length_singleton, Bool.not_eq_true']
  refine if_congr Iff.rfl ?_ ?_
  · by_cases hlow : (s.part p).members.head?.map Member.addr = some s.fab.addr <;> simp [State.emit, hlow]
  · by_cases hlow : (s.part p).members.head?.map Member.addr = some s.fab.addr
    · simp [State.emit, State.joinNews, hlow, ← List.map_eq_flatMap]
      rfl
    · simp [State.emit, State.joinNews, hlow]

end
end

end Sys2Proof.Machine
end

section
/-! The steps of a re-shard: its drain and fences, the units that arrive, and the list that comes into force (R264 to R266). -/

namespace Sys2Proof.Machine

open Sys2Proof

variable {s : State} {p : PartIx}

/-! ### The drain (R264 step 2) -/

/-- A re-shard whose drain is over: no step is open, and no flit of the epoch waits at a port. -/
def State.drained (s : State) (p : PartIx) : Prop :=
  (s.part p).started = true ∧ (s.part p).rs.stage = 1 ∧ (s.part p).stepOpen = false ∧ (s.part p).rcv.active = false ∧ s.undrained (s.part p).epoch = false

theorem State.drain_waits (h : ¬s.drained p) : s.drain p = s := by
  refine if_pos ?_
  by_contra hc
  simp only [Bool.or_eq_true, Bool.not_eq_true', decide_eq_true_eq, not_or, Bool.not_eq_false, Bool.not_eq_true, not_not, ne_eq, and_assoc] at hc
  exact h hc

/-- The state with FENCE on its way to every other member and the fence col armed. -/
def State.fencing (s : State) (p : PartIx) : State := { s.withPart p (fun y => { y with rs := { y.rs with stage := 2, sentFence := true } }) with
  out := ((s.others (s.part p).rs.newList).map (fun a => Output.module_ a (.fence (s.part p).epoch))).reverse ++ s.out
  cols := Tab.set {} s.cols (fenceCol p) { en := true, part := p, target := (s.paramFields p).length, st := .armed, dl := some (s.stampIn 1200000000) } }

theorem State.drain_fences (h : s.drained p) : s.drain p = (s.paramFields p).foldl (fun u f => u.fenceArrive p f) (s.fencing p) := by
  obtain ⟨hrun, hstage, hstep, hrcv, hports⟩ := h
  rw [State.drain, if_neg (by simp [hrun, hstage, hstep, hrcv, hports]), State.updPart_eq_withPart]
  rfl

/-! ### FENCE (R264 step 3, R266) -/

section
variable {f : FieldIx} {src : BitVec 12} {e : W16}

/-- A controller holds FENCE from every other member and has not arrived yet, with its partition in COLLECT. -/
def State.fenceComplete (s : State) (p : PartIx) (f : FieldIx) : Prop :=
  (s.part p).rs.stage = 2 ∧ (f.val, 0xFFFF) ∉ (s.part p).rs.fences ∧ (∀ a ∈ s.others (s.part p).rs.newList, (f.val, a) ∈ (s.part p).rs.fences) ∧ (s.field f).upe.phase[p] = .collect

theorem State.fenceArrive_arrives (h : s.fenceComplete p f) : s.fenceArrive p f =
    { s.withPart p (fun y => { y with rs := { y.rs with fences := (f.val, 0xFFFF) :: y.rs.fences } }) with
      arrivals := queueArrival s.arrivals { col := fenceCol p, count := 1, router := 16 * f.val, from_ := 8 } } := by
  obtain ⟨hstage, hnew, hall, hphase⟩ := h
  rw [State.fenceArrive, if_neg (by simp [hstage, hnew]), if_pos, State.updPart_eq_withPart]
  simp only [Bool.and_eq_true, List.all_eq_true, List.contains_iff_mem, decide_eq_true_eq, getD_toList_fin]
  exact ⟨hall, hphase⟩

theorem State.fenceArrive_waits (h : ¬s.fenceComplete p f) : s.fenceArrive p f = s := by
  unfold State.fenceArrive
  extract_lets x
  split
  · rfl
  · next hopen =>
    refine if_neg (fun hc => h ?_)
    simp only [Bool.or_eq_true, decide_eq_true_eq, not_or, not_not, ne_eq, List.contains_iff_mem] at hopen
    simp only [Bool.and_eq_true, List.all_eq_true, List.contains_iff_mem, decide_eq_true_eq, getD_toList_fin] at hc
    exact ⟨hopen.1, hopen.2, hc⟩

/-- With the FENCE of one more member, a controller holds them all where the others' stand already. -/
theorem State.fenceComplete_noted :
    (s.withPart p (fun y => { y with rs := { y.rs with fences := (f.val, src.toNat) :: y.rs.fences } })).fenceComplete p f ↔
      (s.part p).rs.stage = 2 ∧ (f.val, 0xFFFF) ∉ (s.part p).rs.fences ∧ (∀ a ∈ s.others (s.part p).rs.newList, a = src.toNat ∨ (f.val, a) ∈ (s.part p).rs.fences) ∧
        (s.field f).upe.phase[p] = .collect := by
  have hmarker : 0xFFFF ≠ src.toNat := (Nat.lt_trans src.isLt (by decide)).ne'
  unfold State.fenceComplete
  rw [State.part_withPart_self]
  simp only [List.mem_cons, Prod.mk.injEq, true_and, hmarker, false_or]
  rfl

theorem State.fence_closed (h : (s.part p).started = false) : s.fence p f src.toNat e = s.fabFault p 0 fkClosed src.toNat e 0 .none := if_pos (by simp [h])

theorem State.fence_stale (h : (s.part p).started = true) (he : e ≠ (s.part p).epoch) : s.fence p f src.toNat e =
    if (s.part p).resharding = true ∧ e + 1 = (s.part p).epoch then (s.fabFault p 0 fkStale src.toNat e 0 .none).withPart p (fun y => { y with resharding := false, rs := {} })
    else s.fabFault p 0 fkStale src.toNat e 0 .none := by
  rw [State.fence, if_neg (by simp [h]), if_pos he, State.staleFails, State.updPart_eq_withPart]
  exact if_congr (by simp; rfl) rfl rfl

theorem State.fence_noted (h : (s.part p).started = true) (he : e = (s.part p).epoch) : s.fence p f src.toNat e =
    (s.withPart p (fun y => { y with rs := { y.rs with fences := (f.val, src.toNat) :: y.rs.fences } })).fenceArrive p f := by
  rw [State.fence, if_neg (by simp [h]), if_neg (not_not.2 he), State.updPart_eq_withPart]

end

/-! ### Units and PERMUTE_DONE (R264 steps 5 to 7) -/

section
variable {u : Nat} {bs : List Byte} {sent : W64}

/-- A unit that the re-shard still waits for. -/
def Part.awaits (x : Part) (u : Nat) : Prop := (x.rs.stage = 4 ∨ x.rs.stage = 5) ∧ u ∈ x.rs.expected ∧ ∀ e ∈ x.rs.arrived, e.1 ≠ u

theorem Part.awaits_iff (x : Part) (u : Nat) : x.awaits u ↔
    ¬(!(x.rs.stage = 4 || x.rs.stage = 5) || !x.rs.expected.contains u || x.rs.arrived.any (fun e => e.1 = u)) = true := by
  simp only [Part.awaits, Bool.or_eq_true, Bool.not_eq_true', Bool.not_eq_false, decide_eq_true_eq, List.any_eq_true, List.contains_iff_mem, not_or, not_exists, not_and, and_assoc, ne_eq]

theorem State.unitArrival_undue (h : ¬(s.part p).awaits u) : s.unitArrival p u bs sent = s := by
  rw [Part.awaits_iff, not_not] at h
  exact if_pos h

theorem State.unitArrival_differs (h : (s.part p).awaits u) (hd : sent ≠ crc64 bs) : s.unitArrival p u bs sent =
    (s.fabFault p 0 fkContrib 0 ((s.part p).epoch + (if (s.part p).rs.stage = 4 then 1 else 0)) 0 .none).withPart p (fun y => { y with resharding := false, rs := {} }) := by
  rw [State.unitArrival, if_neg ((Part.awaits_iff _ _).1 h), if_pos hd, State.failReshard, State.updPart_eq_withPart]
  exact State.withPart_congr rfl

/-- The state with an arriving unit in its staging area. -/
def State.staged (s : State) (p : PartIx) (u : Nat) (bs : List Byte) : State :=
  State.withPart ((s.stageAt (s.part p) u).elim s (fun a => s.withField a.1 (fun f => f.hbmWrite a.2 bs))) p
    (fun y => { y with rs := { y.rs with arrived := (u, bs.length) :: y.rs.arrived } })

theorem State.staged_eq (s : State) (p : PartIx) (u : Nat) (bs : List Byte) :
    ∃ fs, s.staged p u bs = { s.withPart p (fun y => { y with rs := { y.rs with arrived := (u, bs.length) :: y.rs.arrived } }) with fields := fs } := by
  unfold State.staged
  cases s.stageAt (s.part p) u with
  | none => exact ⟨_, rfl⟩
  | some a => exact ⟨_, rfl⟩

theorem State.unitArrival_lands (h : (s.part p).awaits u) (hd : sent = crc64 bs) : s.unitArrival p u bs sent = (s.staged p u bs).settle p := by
  rw [State.unitArrival, if_neg ((Part.awaits_iff _ _).1 h), if_neg (not_not.2 hd)]
  rw [State.staged, ← State.updPart_eq_withPart]
  cases s.stageAt (s.part p) u with
  | none => rfl
  | some a => rfl

theorem State.part_staged (s : State) (p : PartIx) (u : Nat) (bs : List Byte) :
    (s.staged p u bs).part p = { s.part p with rs := { (s.part p).rs with arrived := (u, bs.length) :: (s.part p).rs.arrived } } := by
  rw [State.staged, State.part_withPart_self]
  cases s.stageAt (s.part p) u with
  | none => rfl
  | some a => rfl

theorem State.settle_waits (h : (s.part p).rs.stage ≠ 5 ∨ ∃ v ∈ (s.part p).rs.expected, ∀ e ∈ (s.part p).rs.arrived, e.1 ≠ v) : s.settle p = s := by
  refine if_neg ?_
  simp only [Bool.and_eq_true, decide_eq_true_eq, List.all_eq_true, List.any_eq_true]
  rintro ⟨hstage, hall⟩
  obtain ⟨v, hv, hnone⟩ := h.resolve_left (not_not.2 hstage)
  obtain ⟨e, he, heq⟩ := hall v hv
  exact hnone e he heq

theorem State.settleUnits_out (s : State) (p : Nat) : (s.settleUnits p).out = s.out := by
  unfold State.settleUnits
  extract_lets x t
  have hshift : t.out = s.out := by
    refine foldl_keeps State.out (fun t u => ?_) _ s
    split <;> rfl
  rw [← hshift]
  refine foldl_keeps State.out (fun t e => ?_) _ _
  split <;> rfl

theorem State.settleUnits_fab (s : State) (p : Nat) : (s.settleUnits p).fab = s.fab := by
  unfold State.settleUnits
  extract_lets x t
  have hshift : t.fab = s.fab := by
    refine foldl_keeps State.fab (fun t u => ?_) _ s
    split <;> rfl
  rw [← hshift]
  refine foldl_keeps State.fab (fun t e => ?_) _ _
  split <;> rfl

/-- With every unit staged the units move into their slots, and PERMUTE_DONE goes out. -/
theorem State.settle_moves (hstage : (s.part p).rs.stage = 5) (hall : ∀ v ∈ (s.part p).rs.expected, ∃ e ∈ (s.part p).rs.arrived, e.1 = v) : s.settle p =
    ({ (s.settleUnits p).withPart p (fun y => { y with rs := { y.rs with stage := 6 } }) with
      out := ((s.others (s.part p).rs.newList).map (fun a => Output.module_ a .permuteDone)).reverse ++ s.out }).tryResume p := by
  refine (if_pos ?_).trans ?_
  · simp only [hstage, Bool.and_eq_true, decide_eq_true_eq, List.all_eq_true, List.any_eq_true, true_and]
    exact hall
  · rw [State.updPart_eq_withPart, State.emit, State.withPart_out, State.settleUnits_out]

theorem State.tryResume_waits (h : (s.part p).rs.stage ≠ 6 ∨ ¬∀ a ∈ s.others (s.part p).rs.newList, a ∈ (s.part p).rs.doneFrom) : s.tryResume p = s := by
  refine if_neg ?_
  simp only [Bool.and_eq_true, decide_eq_true_eq, List.all_eq_true, List.contains_iff_mem]
  rintro ⟨hstage, hall⟩
  exact h.elim (fun hne => hne hstage) (fun hnot => hnot hall)

theorem State.tryResume_resumes (hstage : (s.part p).rs.stage = 6) (hall : ∀ a ∈ s.others (s.part p).rs.newList, a ∈ (s.part p).rs.doneFrom) :
    let t := s.withPart p (fun y => { y with
      members := y.rs.newList, plan := y.plan.map (fun pl => pl.sized y.rs.newList.length), memberGen := y.memberGen + 1, resharding := false, rs := {}, lift := .reshard :: y.lift })
    s.tryResume p = t.loadPlacement p (t.part p).placement := by
  rw [State.tryResume, if_pos (by simpa [hstage, List.all_eq_true] using hall), State.updPart_eq_withPart]

end

end Sys2Proof.Machine
end

section
/-! Membership and re-sharding together: O46. -/

open Sys2Proof Sys2Proof.Machine

/-- Settles O46: a view is adopted, refused or fatal by Table 8.10, and a re-shard goes from its drain to the last PERMUTE_DONE. -/
theorem membershipCommandsComplete : Obligations.MembershipCommandsComplete := by
  unfold Obligations.MembershipCommandsComplete
  intro p s x comp own stable fault begin_ fits beyond
  have hadopt : ∀ (l : List Member) (o : List Output), fits l = true → State.adopt { s with out := o ++ s.out } p l = { s.withPart p (begin_ l) with out := o ++ s.out } :=
    fun l o h => State.adopt_fits (s := { s with out := o ++ s.out }) h
  have hbeyond : ∀ (l : List Member) (o : List Output), fits l = false → State.adopt { s with out := o ++ s.out } p l = beyond o :=
    fun l o h => (State.adopt_beyond (s := { s with out := o ++ s.out }) h).trans (State.beyondLists_eq ..)
  refine ⟨fun h => next_congr (State.decideMembers_waits h), fun hon hspans hcomp hstable => ?_, fun m => ?_, ?_, fun f src e => ?_, fun u bs sent => ?_, fun src => ?_⟩
  · have hd := State.decideMembers_decides hon hspans hcomp hstable
    refine ⟨fun hc hf => next_congr ?_, fun hc hf => next_congr ?_, fun hc => next_congr (State.decideMembers_lost hon hspans hcomp hstable hc)⟩
    · exact hd.trans ((if_pos hc).trans (hadopt comp [] hf))
    · exact hd.trans ((if_pos hc).trans (hbeyond comp [] hf))
  · intro low fresh ps tell
    have htell : s.joinNews p m = tell := by
      simp only [State.joinNews, tell, low, decide_eq_true_eq]
      rfl
    refine ⟨fun h => next_congr (State.join_refused h), fun h hw => next_congr ?_, fun h hj hstep hstage => ?_⟩
    · refine (State.join_fresh h).trans (State.takeJoins_waits ?_)
      rw [State.part_withPart_self]
      exact hw
    · have hone := (State.join_fresh h).trans (State.takeJoins_one (m := m) hj h.1 hstep hstage)
      rw [htell] at hone
      refine ⟨fun hc => next_congr ?_, fun hc hf => next_congr ?_, fun hc hf => next_congr ?_⟩
      · refine hone.trans ((if_pos hc).trans ?_)
        simp only [low, decide_eq_true_eq]
        rfl
      · exact hone.trans ((if_neg (by simpa using hc)).trans (hadopt _ tell hf))
      · exact hone.trans ((if_neg (by simpa using hc)).trans (hbeyond _ tell hf))
  · intro quiet t
    have ht : quiet → s.drain p = (s.paramFields p).foldl (fun u f => u.fenceArrive p f) t := State.drain_fences
    refine ⟨fun h => next_congr (ht h), fun h hnone => next_congr ?_, fun h => next_congr (State.drain_waits h)⟩
    rw [ht h, hnone, List.foldl_nil]
  · intro noted ready
    refine ⟨fun h => next_congr ?_, fun h he => next_congr ?_, fun h he hw => next_congr ?_, fun h he hr => next_congr ?_⟩
    · exact (State.fence_closed h).trans (State.fabFault_of rfl rfl rfl rfl ..)
    · refine (State.fence_stale h he).trans ?_
      split
      · exact ((congrArg (fun u : State => u.withPart p _) (State.fabFault_of (s := s) rfl rfl rfl rfl ..))).trans rfl
      · exact State.fabFault_of rfl rfl rfl rfl ..
    · exact (State.fence_noted h he).trans (State.fenceArrive_waits (mt State.fenceComplete_noted.1 hw))
    · refine (State.fence_noted h he).trans ((State.fenceArrive_arrives (State.fenceComplete_noted.2 hr)).trans ?_)
      rw [State.withPart_withPart]
      rfl
  · intro due put t
    have ht : s.staged p u bs = t := by
      unfold State.staged
      simp only [t, put]
      cases s.stageAt x u <;> rfl
    have hpart : t.part p = { x with rs := { x.rs with arrived := (u, bs.length) :: x.rs.arrived } } := ht ▸ s.part_staged p u bs
    have hland : due → sent = crc64 bs → s.unitArrival p u bs sent = t.settle p := fun h hd => (State.unitArrival_lands h hd).trans (congrArg (fun u : State => u.settle p) ht)
    refine ⟨fun h => next_congr (State.unitArrival_undue h), fun h hd => next_congr ?_, fun h hd hstage => next_congr ?_, fun h hd hstage hmore => next_congr ?_,
      fun h hd hstage hall => next_congr ?_⟩
    · refine (State.unitArrival_differs h hd).trans (congrArg (fun u : State => u.withPart p _) ?_)
      exact State.fabFault_of rfl rfl rfl rfl ..
    · refine (hland h hd).trans (State.settle_waits (.inl ?_))
      rw [hpart]
      exact hstage ▸ (by decide)
    · obtain ⟨v, hv, hne, hnone⟩ := hmore
      refine (hland h hd).trans (State.settle_waits (.inr ?_))
      rw [hpart]
      exact ⟨v, hv, List.forall_mem_cons.2 ⟨hne.symm, hnone⟩⟩
    · refine (hland h hd).trans ((State.settle_moves ?_ ?_).trans ?_)
      · rw [hpart]
        exact hstage
      · rw [hpart]
        exact fun v hv => (hall v hv).elim (fun hvu => ⟨_, List.mem_cons_self, hvu.symm⟩) (fun ⟨e, he, hev⟩ => ⟨e, List.mem_cons_of_mem _ he, hev⟩)
      · obtain ⟨fs, hfs⟩ := s.staged_eq p u bs
        rw [hpart, ← ht, hfs]
        rfl
  · intro noted all t
    have hall : all ↔ ∀ a ∈ noted.others (noted.part p).rs.newList, a ∈ (noted.part p).rs.doneFrom := by
      rw [State.part_withPart_self]
      simp only [List.mem_cons]
      rfl
    refine ⟨fun h => next_congr (if_pos h), fun h2 hw => next_congr ?_, fun h6 hdone => next_congr ?_⟩
    · refine (if_neg (Nat.not_lt.2 h2)).trans ?_
      rw [State.updPart_eq_withPart]
      refine State.tryResume_waits (hw.imp (fun h => ?_) (mt hall.2))
      rw [State.part_withPart_self]
      exact h
    · have h2 : 2 ≤ x.rs.stage := by omega
      refine (if_neg (Nat.not_lt.2 h2)).trans ?_
      rw [State.updPart_eq_withPart]
      refine (State.tryResume_resumes (s := noted) ?_ (hall.1 hdone)).trans ?_
      · rw [State.part_withPart_self]
        exact h6
      · rw [State.withPart_withPart]
end

section
/-! The intake of training data (R246, R247): the reads that shards take, and the shards that land. -/

namespace Sys2Proof.Machine

open Sys2Proof

variable {s : State} {p : PartIx} {n : W64}

/-! ### Reads (R243, R247) -/

/-- A shard is asked for in state `u`, with the storage targets and the paused ports of `s`. -/
def State.asks (s u : State) (e : IntakeEntry) : State :=
  let port := (s.fab.targets.toList.getD e.target {}).port
  let op : RoceOp := { target := e.target, addr := e.remote, len := e.len, packets := (e.len + 4095) / 4096 }
  if (s.port port).pfcPaused = true then u.withPort (.ofNat 28 port) (fun q => { q with roceq := q.roceq ++ [op] }) else { u with out := .roce port op :: u.out }

/-- Two states with the same storage targets, and the same ports paused by PFC. -/
def State.asksAlike (s u : State) : Prop := u.fab.targets = s.fab.targets ∧ ∀ j, (u.port j).pfcPaused = (s.port j).pfcPaused

theorem State.asksAlike_of_fab {u : State} (h : u.fab = s.fab) : s.asksAlike u := by
  refine ⟨congrArg Fab.targets h, fun j => ?_⟩
  rw [State.port, State.port, h]

/-- A port that PFC pauses is one of the 28. -/
theorem State.lt_of_pfcPaused {j : Nat} (h : (s.port j).pfcPaused = true) : j < 28 := by
  by_contra hge
  have hnone : s.port j = {} := List.getD_eq_default _ _ (by simpa using hge)
  rw [hnone] at h
  exact absurd h (by decide)

theorem State.readShard_eq {u : State} (h : s.asksAlike u) (e : IntakeEntry) : u.readShard e = s.asks u e := by
  obtain ⟨htargets, hpaused⟩ := h
  rw [State.readShard, State.sendRoce, htargets, hpaused]
  refine if_ctx_congr Iff.rfl (fun hp => ?_) (fun _ => rfl)
  have hport := State.lt_of_pfcPaused hp
  rw [← State.updPort_eq_withPort, Fin.val_ofNat, Nat.mod_eq_of_lt hport]
  rfl

theorem State.asksAlike_asks {u : State} (h : s.asksAlike u) (e : IntakeEntry) : s.asksAlike (s.asks u e) := by
  obtain ⟨htargets, hpaused⟩ := h
  unfold State.asks
  extract_lets port op
  split
  · refine ⟨htargets, fun j => ?_⟩
    rw [State.port_withPort]
    split
    · next hj => rw [hj, ← hpaused]
    · exact hpaused j
  · exact ⟨htargets, hpaused⟩

theorem State.foldl_readShard {α : Type} {u : State} (h : s.asksAlike u) (entry : α → IntakeEntry) (l : List α) :
    l.foldl (fun t i => t.readShard (entry i)) u = l.foldl (fun t i => s.asks t (entry i)) u := by
  induction l generalizing u with
  | nil => rfl
  | cons i l ih => exact (congrArg (l.foldl _) (State.readShard_eq h (entry i))).trans (ih (State.asksAlike_asks h (entry i)))

/-! ### INTAKE_FETCH, INTAKE_RETRY and SHARD_LANDED -/

theorem State.intake_none (h : (s.part p).plan.bind Plan.intake = none) :
    s.intakeFetch p n = s ∧ s.intakeRetry p = s ∧ ∀ i bs e, s.shardLanded p n i bs e = s := by
  refine ⟨?_, ?_, fun i bs e => ?_⟩
  · rw [State.intakeFetch, h]
  · rw [State.intakeRetry, h]
  · rw [State.shardLanded, h]

section
variable {it : Intake} (hit : (s.part p).plan.bind Plan.intake = some it)
include hit

/-- The entry of shard `i` of step `n`. -/
def Part.entry (x : Part) (it : Intake) (n : W64) (i : Nat) : IntakeEntry := (it.entries[x.entryIx it n i]?).getD {}

/-- The shards of a step that are neither in nor under way. -/
def Part.unasked (x : Part) (it : Intake) (n : W64) : List Nat :=
  (List.range it.shards).filter (fun i => !x.intake.landed.contains (n, i) && !x.intake.fetching.any (fun f => f.1 = n && f.2.1 = i))

theorem State.intakeFetch_outside (h : it.slots ≤ (n - (s.part p).step).toNat) : s.intakeFetch p n = s := by
  rw [State.intakeFetch, hit]
  exact if_pos (by simpa [Part.inWindow] using h)

theorem State.intakeFetch_asks (h : (n - (s.part p).step).toNat < it.slots) : s.intakeFetch p n =
    ((s.part p).unasked it n).foldl (fun t i => s.asks t ((s.part p).entry it n i))
      (s.withPart p (fun x => { x with intake := { x.intake with fetching := x.intake.fetching ++ ((s.part p).unasked it n).map (fun i => (n, i, 0)) } })) := by
  rw [State.intakeFetch, hit]
  refine (if_neg (by simpa [Part.inWindow] using h)).trans (Eq.trans ?_ (State.foldl_readShard ?_ _ _))
  · simp only [State.updPart_eq_withPart]
    rfl
  · exact State.asksAlike_of_fab rfl

theorem State.intakeRetry_runs (h : (s.part p).intake.stalled = false) : s.intakeRetry p = s := by
  rw [State.intakeRetry, hit]
  exact if_pos (by simp [h])

theorem State.intakeRetry_asks (h : (s.part p).intake.stalled = true) : s.intakeRetry p =
    ((s.part p).intake.fetching.filter (fun f => 3 ≤ f.2.2)).foldl (fun t f => s.asks t ((s.part p).entry it f.1 f.2.1)) s := by
  rw [State.intakeRetry, hit]
  refine (if_neg (by simp [h])).trans ?_
  exact State.foldl_readShard (State.asksAlike_of_fab rfl) _ _

section
variable {i : Nat} {bs : List Byte}

theorem State.shardLanded_unasked (h : (s.part p).intake.fetching.find? (fun f => f.1 = n && f.2.1 = i) = none) (err : Bool) : s.shardLanded p n i bs err = s := by
  rw [State.shardLanded, hit, h]

variable {f : W64 × Nat × Nat} (hf : (s.part p).intake.fetching.find? (fun f => f.1 = n && f.2.1 = i) = some f)
include hf

/-- The bytes of a read in the step's slot of the stack (R246). -/
def State.landed (s : State) (it : Intake) (e : IntakeEntry) (n : W64) (bs : List Byte) : State :=
  s.withField e.field (fun y => y.hbmWrite (64 * (((s.field e.field).region it.region).base + n.toNat % max 1 it.slots * it.slotSize + e.ofs)) (bs.take e.len))

/-- A shard with the length and the CRC-64 of its entry counts as in. -/
theorem State.shardLanded_good (hlen : bs.length = ((s.part p).entry it n i).len) (hcrc : crc64 bs = ((s.part p).entry it n i).crc) :
    s.shardLanded p n i bs false = (s.landed it ((s.part p).entry it n i) n bs).withPart p (fun x => { x with intake := { x.intake with
      landed := (n, i) :: x.intake.landed
      fetching := (s.part p).intake.fetching.filter (· ≠ f)
      stalled := x.intake.stalled && ((s.part p).intake.fetching.filter (· ≠ f)).any (fun g => 3 ≤ g.2.2) } }) := by
  rw [State.shardLanded, hit, hf]
  refine (if_pos ?_).trans ?_
  · simpa only [Bool.not_false, Bool.true_and, Bool.and_eq_true, decide_eq_true_eq] using ⟨hlen, hcrc⟩
  · rw [State.updPart_eq_withPart]
    rfl

/-- The state in which shard `i` of step `n`, which has failed `f.2.2` times, has failed once more, from the state `u` with the bytes that came. -/
def State.failedShard (s u : State) (p : PartIx) (it : Intake) (n : W64) (i : Nat) (f : W64 × Nat × Nat) (crc : Bool) : State :=
  u.withPart p (fun x => { x with intake := { x.intake with
    fetching := (s.part p).intake.fetching.filter (· ≠ f) ++ [(n, i, f.2.2 + 1)], crcBad := x.intake.crcBad || crc, stalled := x.intake.stalled || decide (2 ≤ f.2.2)
    entry := if 2 ≤ f.2.2 then (s.part p).entryIx it n i else x.intake.entry } })

/-- A read that brought nothing good is made again; the third failure alerts the hosts. -/
theorem State.shardLanded_bad {err : Bool} (hbad : err = false → bs.length ≠ ((s.part p).entry it n i).len ∨ crc64 bs ≠ ((s.part p).entry it n i).crc) :
    s.shardLanded p n i bs err =
      let t := s.failedShard (if err then s else s.landed it ((s.part p).entry it n i) n bs) p it n i f (!err)
      if f.2.2 = 2 then { t with out := .msix 0 1 :: .msix 1 1 :: s.out } else if f.2.2 < 2 then s.asks t ((s.part p).entry it n i) else t := by
  have hthird : ∀ k : Nat, (3 ≤ k + 1) = (2 ≤ k) ∧ (k + 1 = 3) = (k = 2) ∧ (k + 1 < 3) = (k < 2) := fun k => by simp; omega
  obtain ⟨hle, heq, hlt⟩ := hthird f.2.2
  rw [State.shardLanded, hit, hf]
  refine (if_neg (?_ : ¬(!err && decide (bs.length = ((s.part p).entry it n i).len) && decide (crc64 bs = ((s.part p).entry it n i).crc)) = true)).trans ?_
  · cases err with
    | true => simp
    | false => simpa [imp_iff_not_or] using hbad rfl
  · simp only [hle, heq, hlt, State.updPart_eq_withPart]
    cases err with
    | true => exact if_congr Iff.rfl rfl (if_congr Iff.rfl (State.readShard_eq (State.asksAlike_of_fab rfl) _) rfl)
    | false => exact if_congr Iff.rfl rfl (if_congr Iff.rfl (State.readShard_eq (State.asksAlike_of_fab rfl) _) rfl)

end
end

end Sys2Proof.Machine
end

section
/-! Pairing with a holder (R267, R269, R287, Table 8.9), and O47. -/

namespace Sys2Proof.Machine

open Sys2Proof

variable {s : State} {p : PartIx}

/-! ### The long command in front of those in flight (R392) -/

section
variable {f : Fetched} {kind : LongKind} {rest : List Long} {q : LongKind → Bool} (hfl : s.fw.flight = ⟨f, kind⟩ :: rest) (hq : q kind = true)
include hfl hq

theorem State.long?_head : s.long? q = some ⟨f, kind⟩ := by
  rw [State.long?, hfl]
  exact List.find?_cons_of_pos hq

theorem State.endLong_head (st : W16) (r : W64) (n : Nat) : s.endLong q st r n = { s with fw := { s.fw with flight := rest } }.finish f st r n := by
  simp only [State.endLong, State.long?_head hfl hq, hfl, List.erase_cons_head]

end

/-! ### Folds -/

/-- A fold whose every step leaves a state as it is leaves it as it is. -/
theorem foldl_stays {α β : Type} {g : β → α → β} {b : β} {l : List α} (h : ∀ x ∈ l, g b x = b) : l.foldl g b = b := by
  induction l with
  | nil => rfl
  | cons x l ih => rw [List.foldl_cons, h x List.mem_cons_self, ih (fun y hy => h y (List.mem_cons_of_mem x hy))]

/-- Of a fold whose step for `j` touches entry `j` alone, entry `n` is what its own step makes of it. -/
theorem foldl_once {β γ : Type} {N : Nat} {read : β → Nat → γ} {g : β → Nat → β} {own : Nat → γ → γ} (hown : ∀ u j, j < N → read (g u j) j = own j (read u j))
    (hother : ∀ u j k, j < N → k ≠ j → read (g u j) k = read u k) {l : List Nat} (hl : l.Nodup) (hlt : ∀ j ∈ l, j < N) {n : Nat} (hn : n < N) (u : β) :
    read (l.foldl g u) n = if n ∈ l then own n (read u n) else read u n := by
  induction l generalizing u with
  | nil => rfl
  | cons j l ih =>
    obtain ⟨hj, hl⟩ := List.nodup_cons.1 hl
    obtain ⟨hjN, hlt⟩ := List.forall_mem_cons.1 hlt
    rw [List.foldl_cons, ih hl hlt]
    by_cases hnj : n = j
    · subst hnj
      rw [if_neg hj, if_pos List.mem_cons_self, hown u n hn]
    · simp only [List.mem_cons, hnj, false_or, hother u j n hjN hnj]

/-! ### PAIRING_REQUEST and PAIRING_REPLY -/

/-- The answer of a holder to a request. -/
def State.pairingAnswer (s : State) (src : Nat) (st : W16) : State := { s with out := .module_ src (.pairingReply s.fab.feedId st) :: s.out }

theorem State.pairingRequest_refused {src feed r : Nat} {force : Bool} {st : W16} (hv : s.pairingVerdict src feed r force = st) (hst : st ≠ stOk) :
    s.pairingRequest src feed r force = s.pairingAnswer src st := by
  subst hv
  exact if_pos hst

theorem State.pairingRequest_reserves {src feed r : Nat} {force : Bool} (hv : s.pairingVerdict src feed r force = stOk) : s.pairingRequest src feed r force =
    { s.pairingAnswer src stOk with fab := { s.fab with held := src, reserve := r, cofed := cofedIds feed s.fab.feedId, forced := cofedIds feed s.fab.feedId } } := by
  rw [State.pairingRequest, hv]
  exact if_neg (not_not.2 rfl)

section
variable {src feed r : Nat} {force : Bool}

theorem State.pairingVerdict_busy (h : ¬(s.fab.held = 0xFFF ∨ s.fab.held = src)) : s.pairingVerdict src feed r force = stPartnerBusy :=
  if_pos (by simpa [not_or] using h)

theorem State.pairingVerdict_ours (h : s.fab.held = 0xFFF ∨ s.fab.held = src) : s.pairingVerdict src feed r force =
    if !s.reserveOk r then stPartnerReserve else if cofedIds feed s.fab.feedId && !force then stPartnerCofed else stOk :=
  if_neg (by simpa [or_iff_not_imp_left] using h)

end

/-- No request of this module is out. -/
theorem State.pairingReply_none (h : ∀ l ∈ s.fw.flight, ∀ a r b, l.kind ≠ .partner a r b) (feed : Nat) (st : W16) : s.pairingReply feed st = s := by
  unfold State.pairingReply
  split
  · rfl
  · next l hl =>
    split
    · next a r b hk => exact absurd hk (h l (List.mem_of_find?_eq_some hl) a r b)
    · rfl

section
variable {f : Fetched} {a r : Nat} {force : Bool} {rest : List Long} (hfl : s.fw.flight = ⟨f, .partner a r force⟩ :: rest)
include hfl

theorem State.pairingReply_refused {st : W16} (hst : st ≠ stOk) (feed : Nat) : s.pairingReply feed st = { s with fw := { s.fw with flight := rest } }.finish f st 0 0 := by
  rw [State.pairingReply, State.long?_head hfl rfl]
  exact (congrArg (fun t : State => t.endLong _ st 0 0) (if_pos hst)).trans (State.endLong_head (q := fun k => k = .partner a r force) hfl (decide_eq_true rfl) ..)

/-- The verdict OK pairs this module; the copies of another holder, or of one that was lost, are out of reach. -/
theorem State.pairingReply_pairs (feed : Nat) : s.pairingReply feed stOk =
    { (if s.fab.holder = a ∧ s.fab.unprotected = false then s else s.dropCopies) with
      fab := { s.fab with holder := a, reserve := r, holderFeed := feed, unprotected := false, room := none, cofed := cofedIds feed s.fab.feedId, forced := cofedIds feed s.fab.feedId }
      fw := { s.fw with flight := rest } }.finish f stOk 0 0 := by
  rw [State.pairingReply, State.long?_head hfl rfl]
  refine (congrArg (fun t : State => t.endLong _ stOk 0 0) (if_neg (not_not.2 rfl))).trans ?_
  by_cases hkept : s.fab.holder = a ∧ s.fab.unprotected = false
  · have hk : (decide (s.fab.holder = a) && !s.fab.unprotected) = true := by simp [hkept]
    simp only [if_pos hkept, if_pos hk]
    refine State.endLong_head (kind := .partner a r force) ?_ ?_ ..
    · exact hfl
    · exact decide_eq_true rfl
  · have hk : ¬(decide (s.fab.holder = a) && !s.fab.unprotected) = true := by simpa using hkept
    simp only [if_neg hkept, if_neg hk]
    refine State.endLong_head (kind := .partner a r force) ?_ ?_ ..
    · exact hfl
    · exact decide_eq_true rfl

end

/-! ### HOLDER_LOST (R269, R287) -/

/-- A snapshot of the partition is on its way to the holder. -/
def Part.copiesOut (x : Part) : Bool := (x.snap.phase = .copying || x.snap.phase = .confirming) && !x.snap.ownFlash

theorem Part.copiesOut_iff (x : Part) : x.copiesOut = true ↔ (x.snap.phase = .copying ∨ x.snap.phase = .confirming) ∧ x.snap.ownFlash = false := by
  simp [Part.copiesOut]

/-- The partition after its snapshot failed. -/
def Part.snapFailed (x : Part) : Part := { x with
  lift := .snapshot :: x.lift, snap := { x.snap with phase := .idle, taking := none, rebase := false, nowIn := false, rebaseIn := false } }

/-- The step of the loss of the holder for one partition. -/
def State.loseCopy (u : State) (p : Nat) : State := if (u.part p).copiesOut then u.failSnap p else u

theorem State.failSnap_frame (s : State) (p : PartIx) : ∃ fw host out, s.failSnap p = { s.withPart p Part.snapFailed with fw := fw, host := host, out := out } := by
  rw [State.failSnap, State.updPart_eq_withPart]
  exact State.endLong_frame ..

/-- Without a snapshot to the holder the module is unprotected, and the host is told. -/
def State.unprotected (s : State) : State :=
  { s with fab := { s.fab with unprotected := true }, out := .event s.host.owner 0x0503 [s.fab.holder] :: s.out }

theorem State.holderLost_fold (h : s.fab.holder ≠ 0xFFF) (hu : s.fab.unprotected = false) : s.holderLost = (List.range 16).foldl State.loseCopy s.unprotected :=
  if_neg (by simp [h, hu])

/-- The loss of the holder for one partition touches that partition alone, and neither the fabric nor a core. -/
theorem State.loseCopy_frame (u : State) (p : PartIx) :
    ∃ fw host out, u.loseCopy p = { u.withPart p (fun x => if x.copiesOut then x.snapFailed else x) with fw := fw, host := host, out := out } := by
  unfold State.loseCopy
  split
  · next hout =>
    obtain ⟨fw, host, out, h⟩ := u.failSnap_frame p
    exact ⟨fw, host, out, by rw [h, State.withPart_congr (h := fun x => if x.copiesOut then x.snapFailed else x) (if_pos hout).symm]⟩
  · next hout => exact ⟨u.fw, u.host, u.out, (State.withPart_same (if_neg hout)).symm⟩

theorem State.part_loseCopy (u : State) {j : Nat} (hj : j < 16) (k : Nat) :
    (u.loseCopy j).part k = if k = j then (if (u.part j).copiesOut then (u.part j).snapFailed else u.part j) else u.part k := by
  obtain ⟨fw, host, out, h⟩ := u.loseCopy_frame ⟨j, hj⟩
  rw [h]
  exact (State.part_congr (s := u.withPart ⟨j, hj⟩ _) rfl k).trans (State.part_withPart ..)

theorem State.loseCopy_keeps (u : State) (j : Nat) : (u.loseCopy j).fab = u.fab ∧ (u.loseCopy j).cores = u.cores ∧ (u.loseCopy j).fields = u.fields := by
  unfold State.loseCopy
  split
  · obtain ⟨fw, host, out, h⟩ := State.endLong_frame (u.updPart j Part.snapFailed) (fun k => k = .snapNow j) stNoSnapshot 0 0
    rw [show u.failSnap j = _ from h]
    exact ⟨rfl, rfl, rfl⟩
  · exact ⟨rfl, rfl, rfl⟩

section
variable (hh : s.fab.holder ≠ 0xFFF) (hu : s.fab.unprotected = false)
include hh hu

theorem State.holderLost_quiet (hq : ∀ n < 16, (s.part n).copiesOut = false) : s.holderLost = s.unprotected := by
  rw [State.holderLost_fold hh hu]
  refine foldl_stays (fun n hn => if_neg ?_)
  rw [State.part_congr (s := s) (t := s.unprotected) rfl, hq n (List.mem_range.1 hn)]
  exact Bool.false_ne_true

theorem State.holderLost_keeps : s.holderLost.fab = s.unprotected.fab ∧ s.holderLost.cores = s.cores ∧ s.holderLost.fields = s.fields := by
  rw [State.holderLost_fold hh hu]
  exact ⟨foldl_keeps State.fab (fun u n => (u.loseCopy_keeps n).1) _ _, foldl_keeps State.cores (fun u n => (u.loseCopy_keeps n).2.1) _ s.unprotected,
    foldl_keeps State.fields (fun u n => (u.loseCopy_keeps n).2.2) _ s.unprotected⟩

/-- The loss ends the snapshots that are on their way to the holder, and touches no other partition. -/
theorem State.part_holderLost (p : PartIx) : s.holderLost.part p = if (s.part p).copiesOut then (s.part p).snapFailed else s.part p := by
  rw [State.holderLost_fold hh hu, foldl_once (read := State.part) (own := fun _ x => if x.copiesOut then x.snapFailed else x)
    (fun u j hj => (u.part_loseCopy hj j).trans (if_pos rfl)) (fun u j k hj hk => (u.part_loseCopy hj k).trans (if_neg hk)) List.nodup_range (fun n hn => List.mem_range.1 hn) p.isLt]
  exact if_pos (List.mem_range.2 p.isLt)

end

/-! ### PARTNER_SET (R267) -/

section
variable {k : Pkt} {h r rsv : Nat} {force : Bool}

theorem Pkt.partnerRange_iff : (rsv ≠ 0 || 64 < r || !k.noPart) = true ↔ ¬(rsv = 0 ∧ r ≤ 64 ∧ k.part = 0xFF) := by
  simp only [Bool.or_eq_true, decide_eq_true_eq, Bool.not_eq_true', Pkt.noPart, decide_eq_false_iff_not, ← not_le]
  tauto

theorem State.partnerSet_bad (hbad : ¬(rsv = 0 ∧ r ≤ 64 ∧ k.part = 0xFF)) : s.taken.partnerSet ⟨k, true⟩ h force r rsv = s.answers k true stBadParam :=
  if_pos (Pkt.partnerRange_iff.2 hbad)

variable (hgood : rsv = 0 ∧ r ≤ 64 ∧ k.part = 0xFF)
include hgood

theorem State.partnerSet_good : s.taken.partnerSet ⟨k, true⟩ h force r rsv =
    if h = 0xFFF then { s.taken.dropCopies with
      fab := { s.fab with holder := 0xFFF, reserve := 0, holderFeed := 0, cofed := false, forced := false, unprotected := false, room := none } }.finish ⟨k, true⟩ stOk 0 0
    else if 28 ≤ Tab.get 28 s.fab.fwd h then s.answers k true stFabUnreachable
    else if !s.reserveOk r then s.answers k true stPartnerReserve
    else { s.taken with
      fw := { s.taken.fw with flight := s.fw.flight ++ [⟨⟨k, true⟩, .partner h r force⟩] }
      out := .module_ h (.pairing s.fab.feedId r force) :: s.out } := by
  exact if_neg (fun hc => Pkt.partnerRange_iff.1 hc hgood)

end

end Sys2Proof.Machine

open Sys2Proof Sys2Proof.Machine

/-- Settles O47: the shards are asked for, land or are asked for again, and a holder is paired, refused or lost. -/
theorem intakeAndPairingComplete : Obligations.IntakeAndPairingComplete := by
  unfold Obligations.IntakeAndPairingComplete
  refine ⟨fun p n s => ?_, fun s => ?_⟩
  · intro x read
    refine ⟨fun hnone => ?_, fun it hit => ?_⟩
    · obtain ⟨hfetch, hretry, hland⟩ := State.intake_none (n := n) hnone
      exact ⟨next_congr hfetch, next_congr hretry, fun i bs e => next_congr (hland i bs e)⟩
    · intro e todo
      refine ⟨fun h => next_congr (State.intakeFetch_outside hit h), fun h => next_congr (State.intakeFetch_asks hit h), fun h => next_congr (State.intakeRetry_runs hit h),
        fun h => next_congr (State.intakeRetry_asks hit h), fun i bs hf err => next_congr (State.shardLanded_unasked hit hf err), fun i bs f hf => ?_⟩
      intro rest put again
      exact ⟨fun hlen hcrc => next_congr (State.shardLanded_good hit hf hlen hcrc), fun hbad => next_congr (State.shardLanded_bad hit hf (fun _ => hbad)),
        next_congr (State.shardLanded_bad hit hf (fun h => Bool.noConfusion h))⟩
  · intro cofed away
    refine ⟨fun src feed r force => ?_, fun feed st => ?_, fun h => next_congr (if_pos (by simpa using h)), fun hh hu => ?_, fun k h force r rsv hfront hfree => ?_⟩
    · intro answer ours
      refine ⟨fun h => next_congr (State.pairingRequest_refused (State.pairingVerdict_busy h) (by decide)), fun h hr => ?_, fun h hr hc hf => ?_, fun h hr hc => ?_⟩
      · exact next_congr (State.pairingRequest_refused ((State.pairingVerdict_ours h).trans (if_pos (by simp [hr]))) (by decide))
      · have hco : (cofedIds feed.toNat s.fab.feedId && !force) = true := by rw [hf]; exact (Bool.and_true _).trans hc
        exact next_congr (State.pairingRequest_refused ((State.pairingVerdict_ours h).trans ((if_neg (by simp [hr])).trans (if_pos hco))) (by decide))
      · have hco : ¬(cofedIds feed.toNat s.fab.feedId && !force) = true := by
          rw [show cofedIds feed.toNat s.fab.feedId = cofed feed.toNat from rfl]
          rcases hc with hc | hc <;> simp [hc]
        exact next_congr (State.pairingRequest_reserves ((State.pairingVerdict_ours h).trans ((if_neg (by simp [hr])).trans (if_neg hco))))
    · refine ⟨fun h => next_congr (State.pairingReply_none h _ _), fun f a r force rest hfl => ?_⟩
      intro landed kept
      refine ⟨fun hst => next_congr (State.pairingReply_refused hfl hst _), fun hst => ?_⟩
      subst hst
      exact next_congr (State.pairingReply_pairs hfl _)
    · intro t
      refine ⟨fun hq => next_congr (State.holderLost_quiet hh hu (fun n hn => ?_)), s.holderLost, rfl, ?_⟩
      · rw [← Bool.not_eq_true, Part.copiesOut_iff]
        rintro ⟨hphase, hown⟩
        exact (hq n hn).elim (fun h => h hphase) (fun h => Bool.noConfusion (h.symm.trans hown))
      · obtain ⟨hfab, hcores, hfields⟩ := State.holderLost_keeps hh hu
        refine ⟨hfab, hcores, hfields, fun p => ⟨fun hout => ?_, fun hout => ?_⟩⟩
        · exact (State.part_holderLost hh hu p).trans (if_pos ((Part.copiesOut_iff _).2 hout))
        · exact (State.part_holderLost hh hu p).trans (if_neg (mt (Part.copiesOut_iff _).1 hout))
    · intro good routed
      have hrun : exec (.partnerSet k h force r rsv) s = .next (s.taken.partnerSet ⟨k, true⟩ h.toNat force r.toNat rsv) := next_congr (State.command_front hfront (fun _ => rfl) hfree)
      have hnone : h ≠ 0xFFF → h.toNat ≠ 0xFFF := fun hne hn => hne (BitVec.eq_of_toNat_eq hn)
      refine ⟨fun hbad => hrun.trans (next_congr (State.partnerSet_bad hbad)), fun hg hh => ?_, fun hg hh hr => ?_, fun hg hh hr hres => ?_, fun hg hh hr hres => ?_⟩
      all_goals refine hrun.trans (next_congr ((State.partnerSet_good hg).trans ?_))
      · subst hh
        rfl
      · exact (if_neg (hnone hh)).trans (if_pos (Nat.le_of_not_lt hr))
      · exact (if_neg (hnone hh)).trans ((if_neg (Nat.not_le.2 hr)).trans (if_pos (by simp [hres])))
      · exact (if_neg (hnone hh)).trans ((if_neg (Nat.not_le.2 hr)).trans (if_neg (by simp [hres])))
end

section
/-! The order and the refusals of PART_CREATE, PART_DESTROY, PLAN_LOAD, PLAN_START and PLAN_STOP (R257, R258, R395, R397, R398), and what a partition leaves
behind. -/

namespace Sys2Proof.Machine

open Sys2Proof

variable {s : State} {k : Pkt} {rsv : Nat}

/-! ### PART_CREATE (R257) -/

section
variable {p : Nat} {diag : Bool} {ts : BitVec 96} {ps : W32}

theorem Pkt.createRange_iff : (16 ≤ p || rsv ≠ 0 || 2 ^ 28 ≤ ps.toNat || ts = 0 || !k.names p) = true ↔ ¬((p < 16 ∧ k.part = p) ∧ rsv = 0 ∧ ts ≠ 0 ∧ ps.toNat < 2 ^ 28) := by
  simp only [Bool.or_eq_true, decide_eq_true_eq, Bool.not_eq_true', Pkt.names, decide_eq_false_iff_not, ← not_lt]
  tauto

theorem State.partCreate_bad (h : ¬((p < 16 ∧ k.part = p) ∧ rsv = 0 ∧ ts ≠ 0 ∧ ps.toNat < 2 ^ 28)) : s.taken.partCreate ⟨k, true⟩ p diag ts ps rsv = s.answers k true stBadParam :=
  if_pos (Pkt.createRange_iff.2 h)

theorem State.partCreate_good (h : (p < 16 ∧ k.part = p) ∧ rsv = 0 ∧ ts ≠ 0 ∧ ps.toNat < 2 ^ 28) : s.taken.partCreate ⟨k, true⟩ p diag ts ps rsv =
    if (s.part p).on then s.answers k true stPartExists
    else if s.partTaken ts (ps.setWidth 28) then s.answers k true stPartOverlap
    else (s.setPart p { on := true, diag := diag, terraces := ts, ports := ps.setWidth 28 }).answers k true stOk :=
  if_neg (fun hc => Pkt.createRange_iff.1 hc h)

theorem State.partTaken_iff : s.partTaken ts (ps.setWidth 28) = true ↔
    (∃ q, q < 16 ∧ (s.part q).on = true ∧ ((s.part q).terraces &&& ts ≠ 0 ∨ (s.part q).ports &&& ps.setWidth 28 ≠ 0)) ∨
      ∃ i, i < 28 ∧ ps.getLsbD i = true ∧ (s.port i).eth = true := by
  simp only [State.partTaken, Bool.or_eq_true, List.any_eq_true, List.mem_range, Bool.and_eq_true, decide_eq_true_eq]
  refine or_congr Iff.rfl (exists_congr (fun i => and_congr_right (fun hi => ?_)))
  simp [hi]

theorem State.setPart_eq_withPart (s : State) (p : PartIx) (x : Part) : s.setPart p x = s.withPart p (fun _ => x) := by
  rw [State.setPart, dif_pos p.isLt]
  rfl

end

/-! ### PART_DESTROY (R258) -/

theorem foldl_erase_filter {α : Type} [BEq α] [LawfulBEq α] (q : α → Bool) (l : List α) : (l.filter q).foldl List.erase l = l.filter (fun a => !q a) := by
  have hskip : ∀ (m : List α) (a : α) (l : List α), q a = false → (∀ b ∈ m, q b = true) → m.foldl List.erase (a :: l) = a :: m.foldl List.erase l := by
    intro m
    induction m with
    | nil => intro _ _ _ _; rfl
    | cons b m ih =>
      intro a l ha hm
      obtain ⟨hb, hm⟩ := List.forall_mem_cons.1 hm
      have hne : ¬(a == b) = true := by
        rw [beq_iff_eq]
        rintro rfl
        exact Bool.false_ne_true (ha.symm.trans hb)
      rw [List.foldl_cons, List.foldl_cons, List.erase_cons_tail hne, ih a _ ha hm]
  induction l with
  | nil => rfl
  | cons a l ih =>
    cases ha : q a with
    | true => rw [List.filter_cons_of_pos ha, List.filter_cons_of_neg (by simp [ha]), List.foldl_cons, List.erase_cons_head, ih]
    | false => rw [List.filter_cons_of_neg (by simp [ha]), List.filter_cons_of_pos (by simp [ha]), hskip _ a l ha (fun b hb => (List.mem_filter.1 hb).2), ih]

/-- The step of the end of a partition's commands for one command. -/
def State.endFlight (st : W16) (t : State) (l : Long) : State := { t with fw := { t.fw with flight := t.fw.flight.erase l } }.done l.f st

theorem State.endFlights_eq (s : State) (p : Nat) (st : W16) : s.endFlights p st = (s.fw.flight.filter (fun l => l.kind.target = .part p)).foldl (State.endFlight st) s := rfl

theorem State.flight_foldl_endFlight (st : W16) (m : List Long) (t : State) : (m.foldl (State.endFlight st) t).fw.flight = m.foldl List.erase t.fw.flight := by
  induction m generalizing t with
  | nil => rfl
  | cons l m ih =>
    rw [List.foldl_cons, List.foldl_cons, ih, State.endFlight, State.done, State.finish_flight]

theorem State.endFlights_flight (s : State) (p : Nat) (st : W16) : (s.endFlights p st).fw.flight = s.fw.flight.filter (fun l => l.kind.target ≠ .part p) := by
  rw [State.endFlights_eq, State.flight_foldl_endFlight, foldl_erase_filter]
  simp only [decide_not]

/-- The end of the commands in flight is firmware's and the ports' own. -/
theorem State.endFlights_keeps (s : State) (p : Nat) (st : W16) : (s.endFlights p st).parts = s.parts ∧ (s.endFlights p st).tg = s.tg ∧ (s.endFlights p st).sites = s.sites ∧
    (s.endFlights p st).cols = s.cols ∧ (s.endFlights p st).fields = s.fields := by
  have h := foldl_keeps (fun t : State => (t.parts, t.tg, t.sites, t.cols, t.fields)) (f := State.endFlight st) (fun _ _ => rfl) (s.fw.flight.filter (fun l => l.kind.target = .part p)) s
  simp only [Prod.mk.injEq] at h
  exact h

section
variable {p : Nat}

theorem State.partDestroy_bad (h : ¬(p < 16 ∧ k.part = p)) : s.taken.partDestroy ⟨k, true⟩ p = s.answers k true stBadParam := by
  rw [not_and_or, not_lt] at h
  exact if_pos (by simpa [Pkt.names] using h)

theorem State.partDestroy_good (h : p < 16 ∧ k.part = p) : s.taken.partDestroy ⟨k, true⟩ p =
    if (s.part p).on = false then s.answers k true stPartUnknown
    else if (s.part p).started = true ∨ (s.part p).startAt ≠ none then s.answers k true stPartRunning
    else (s.taken.destroy p).done ⟨k, true⟩ stOk := by
  obtain ⟨hp, hpart⟩ := h
  refine (if_neg (by simp [Pkt.names, hp, hpart])).trans (if_congr ?_ rfl (if_congr ?_ rfl rfl))
  · simp only [State.partOn, hp, decide_true, Bool.true_and, Bool.not_eq_true']
    rfl
  · simp only [State.running, Bool.or_eq_true, Option.isSome_iff_ne_none]
    rfl

/-- A partition that ceases to exist: its record and its commands are gone, with its cols and its regions. -/
theorem State.destroy_part (hp : p < 16) (q : Nat) : (s.destroy p).part q = if q = p then {} else s.part q := by
  rw [State.destroy, State.part_congr (State.endFlights_keeps ..).1, State.part_setPart _ _ _ _ hp]
  refine if_ctx_congr Iff.rfl (fun _ => rfl) (fun hq => ?_)
  exact (State.part_setPart s p q { s.part p with plan := none } hp).trans (if_neg hq)

theorem State.mem_destroy_cols (s : State) (p : Nat) (c : Nat × Col) : c ∈ (s.destroy p).cols ↔ c ∈ s.cols ∧ ¬(c.2.en = true ∧ c.2.part = p) := by
  rw [State.destroy, (State.endFlights_keeps ..).2.2.2.1]
  show c ∈ s.cols.filter _ ↔ _
  simp [List.mem_filter, not_and, imp_iff_or_not, or_comm]

theorem State.destroy_regions {f : Nat × Field} {r : Nat × Region} (hf : f ∈ (s.destroy p).fields) (hr : r ∈ f.2.regions) : ¬(r.2.en = true ∧ r.2.part = p) := by
  rw [State.destroy, (State.endFlights_keeps ..).2.2.2.2] at hf
  obtain ⟨e, -, rfl⟩ := List.mem_map.1 (List.mem_filter.1 hf).1
  rintro ⟨hen, hpart⟩
  have hkept := (List.mem_filter.1 hr).2
  simp [hen, hpart] at hkept

end

end Sys2Proof.Machine
end

section
/-! PLAN_LOAD, PLAN_START and PLAN_STOP where their checks pass (R395, R397, R398), and O52. -/

namespace Sys2Proof.Machine

open Sys2Proof

variable {s : State} {k : Pkt} {rsv : Nat} {p : PartIx}

/-- The range check that PLAN_LOAD and PLAN_START make alike, with `b` the check of an operand of their own. -/
theorem Pkt.planRange_iff {b : Bool} {c : Prop} (hb : b = true ↔ ¬c) {n : Nat} :
    (16 ≤ n || rsv ≠ 0 || b || !k.names n) = true ↔ ¬((n < 16 ∧ k.part = n) ∧ rsv = 0 ∧ c) := by
  simp only [Bool.or_eq_true, decide_eq_true_eq, Bool.not_eq_true', Pkt.names, decide_eq_false_iff_not, hb, ← not_lt]
  tauto

/-! ### PLAN_LOAD (R395) -/

section
variable {rep : Bool} {a : W64} {len hash : Nat} {i : PlanImage}

theorem State.planLoad_card (h : k.agent = 2) (n : Nat) : s.taken.planLoad ⟨k, true⟩ n rep rsv a len hash i = s.answers k true stPortUnsuited :=
  if_pos (congrArg Fin.val h)

theorem State.planLoad_bad (hag : k.agent ≠ 2) {n : Nat} (h : ¬((n < 16 ∧ k.part = n) ∧ rsv = 0 ∧ a.toNat % 64 = 0)) :
    s.taken.planLoad ⟨k, true⟩ n rep rsv a len hash i = s.answers k true stBadParam := by
  exact (if_neg (fun hc => hag (Fin.ext hc))).trans (if_pos ((Pkt.planRange_iff decide_eq_true_iff).2 h))

theorem State.planLoad_good (hag : k.agent ≠ 2) {n : Nat} (h : (n < 16 ∧ k.part = n) ∧ rsv = 0 ∧ a.toNat % 64 = 0) :
    s.taken.planLoad ⟨k, true⟩ n rep rsv a len hash i = if s.planStatus n rep len hash i ≠ stOk then s.answers k true (s.planStatus n rep len hash i)
      else (s.taken.install n { i.content with hash := i.sha }).finish ⟨k, true⟩ stOk (BitVec.ofNat 64 i.content.snapSize) 0 := by
  exact (if_neg (fun hc => hag (Fin.ext hc))).trans (if_neg (fun hc => (Pkt.planRange_iff decide_eq_true_iff).1 hc h))

end

/-- The partition with a plan just loaded. -/
def Part.planned (x : Part) (pl : Plan) : Part := { x with
  plan := some pl, fresh := true, seed := 0, step := 0, nextStep := 0, committed := none, detour := (0, 0), level := 0, nextLevel := none, remap := []
  members := (pl.job.map JobList.members).getD [], memberGen := 0, digests := [], intake := {}, past := [], stopStatus := 0
  rcv := { x.rcv with detour := none, spares := [] }, snap := { x.snap with size := pl.snapSize } }

/-- A fold whose every step changes fields alone changes fields alone. -/
theorem State.foldl_onlyFields {α : Type} {g : State → α → State} (hg : ∀ t x, ∃ fs, g t x = { t with fields := fs }) {l : List α} {t : State}
    (ht : ∃ fs, t = { s with fields := fs }) : ∃ fs, l.foldl g t = { s with fields := fs } := by
  induction l generalizing t with
  | nil => exact ht
  | cons x l ih =>
    obtain ⟨fs, rfl⟩ := ht
    obtain ⟨fs', h⟩ := hg { s with fields := fs } x
    exact ih ⟨fs', h⟩

theorem State.loadUnits_frame (s : State) (p : Nat) (pl : Plan) : ∃ fs, s.loadUnits p pl = { s with fields := fs } := by
  unfold State.loadUnits
  iterate 5 refine State.foldl_onlyFields (fun _ _ => ⟨_, rfl⟩) ?_
  exact ⟨s.fields, rfl⟩

theorem State.part_unloadPlan (s : State) (p : PartIx) (q : Nat) : (s.unloadPlan p).part q = (s.withPart p (fun x => { x with plan := none })).part q :=
  State.part_congr (vset_fin ..) q

/-- A plan in place: its partition is as it was loaded, the others and firmware are as they were. -/
theorem State.install_keeps (s : State) (p : PartIx) (pl : Plan) : (s.install p pl).fw = s.fw ∧ ∀ q, (s.install p pl).part q = (s.withPart p (fun x => x.planned pl)).part q := by
  obtain ⟨fs, hunits⟩ := State.loadUnits_frame (((s.unloadPlan p).updPart p (fun x => x.planned pl)).loadPlacement p pl.base) p pl
  have hinstall : s.install p pl = _ := hunits
  rw [hinstall]
  refine ⟨rfl, fun q => ?_⟩
  show ((s.unloadPlan p).updPart p (fun x => x.planned pl)).part q = _
  rw [State.updPart_eq_withPart, State.part_withPart, State.part_withPart, State.part_unloadPlan, State.part_unloadPlan, State.part_withPart_self]
  refine if_ctx_congr Iff.rfl (fun _ => rfl) (fun hne => ?_)
  exact (State.part_withPart ..).trans (if_neg hne)

/-! ### PLAN_START (R397) -/

section
variable {seed step tick : W64}

theorem State.planStart_bad {n : Nat} (h : ¬((n < 16 ∧ k.part = n) ∧ rsv = 0 ∧ tick.toNat < 2 ^ 48)) : s.taken.planStart ⟨k, true⟩ n rsv seed step tick = s.answers k true stBadParam :=
  if_pos ((Pkt.planRange_iff (decide_eq_true_iff.trans not_lt.symm)).2 h)

/-- The partition with the seed and the step of a start. -/
def Part.seeded (seed step : W64) (x : Part) : Part :=
  { x with seed := seed, step := step, nextStep := step, fresh := true, committed := none, begun := [], rcv := {}, stopStatus := 0, restartWanted := x.spans }

/-- The state whose tick a start takes: its own, or with the period that the plan sets. -/
def State.startTick (s : State) (p : Nat) : State :=
  if (List.range 16).any (fun q => (s.part q).started) then s else s.tickPeriod (((s.part p).plan.map Plan.period).getD 0)

/-- The state in which the period of the tick is set and the seed and the step of a start stand. -/
def State.starting (s : State) (p : PartIx) (f : Fetched) (seed step : W64) : State :=
  ((s.startTick p).withPart p (Part.seeded seed step)).fly f (.planStart p)

theorem State.planStart_good (h : ((p : Nat) < 16 ∧ k.part = p) ∧ rsv = 0 ∧ tick.toNat < 2 ^ 48) : s.taken.planStart ⟨k, true⟩ p rsv seed step tick =
    if s.startStatus p tick.toNat ≠ stOk then s.answers k true (s.startStatus p tick.toNat)
    else if (s.part p).spans then (s.taken.starting p ⟨k, true⟩ seed step).reportReady p
    else (s.taken.starting p ⟨k, true⟩ seed step).withPart p (fun y => { y with
      startAt := some (if tick = 0 then (s.taken.starting p ⟨k, true⟩ seed step).waferEdgeAfter 4096 else tick.setWidth 48) }) := by
  refine (if_neg (fun hc => (Pkt.planRange_iff (decide_eq_true_iff.trans not_lt.symm)).1 hc h)).trans (if_congr Iff.rfl rfl ?_)
  simp only [State.updPart_eq_withPart]
  rfl

theorem State.tickPeriod_frame (s : State) (us : Nat) : ∃ tg, s.tickPeriod us = { s with tg := tg } := by
  unfold State.tickPeriod
  split
  · exact ⟨_, rfl⟩
  · split
    · exact ⟨_, rfl⟩
    · split
      · exact ⟨_, rfl⟩
      · exact ⟨_, rfl⟩

theorem State.tickPeriod_of_taken (s : State) (us : Nat) : s.taken.tickPeriod us = (s.tickPeriod us).taken := by
  simp only [State.tickPeriod, apply_ite State.taken]
  rfl

theorem State.startTick_of_taken (s : State) (p : Nat) : s.taken.startTick p = (s.startTick p).taken := by
  simp only [State.startTick, apply_ite State.taken, State.tickPeriod_of_taken]
  rfl

theorem State.startTick_frame (s : State) (p : Nat) : ∃ tg, s.startTick p = { s with tg := tg } := by
  unfold State.startTick
  split
  · exact ⟨_, rfl⟩
  · exact s.tickPeriod_frame _

/-- A start touches its own partition, the tick and the commands in flight. -/
theorem State.starting_frame (s : State) (p : PartIx) (f : Fetched) (seed step : W64) : ∃ tg, s.starting p f seed step =
    { s.withPart p (Part.seeded seed step) with
      tg := tg, fw := { s.fw with flight := s.fw.flight ++ [⟨f, .planStart p⟩] } } := by
  obtain ⟨tg, h⟩ := s.startTick_frame p
  rw [State.starting, h]
  exact ⟨tg, rfl⟩

theorem State.starting_edge (s : State) (p : PartIx) (f : Fetched) (seed step : W64) (lead : Nat) :
    (s.taken.starting p f seed step).waferEdgeAfter lead = (s.startTick p).waferEdgeAfter lead := by
  have hstart : (s.taken.starting p f seed step).waferEdgeAfter lead = (s.taken.startTick p).waferEdgeAfter lead := rfl
  rw [hstart, State.startTick_of_taken]
  rfl

end

/-! ### READY of a member (R279) -/

/-- A change of a partition that leaves the seed, the step and the wish for a restart, and gives it the readiness `r`. -/
def keepsStart (r : Part → Bool) (g : Part → Part) : Prop :=
  ∀ x, (g x).seed = x.seed ∧ (g x).step = x.step ∧ (g x).restartWanted = x.restartWanted ∧ (g x).rcv.ready = r x

theorem State.tryRestart_frame (s : State) (p : PartIx) : ∃ g out, s.tryRestart p = { s.withPart p g with out := out } ∧ keepsStart (fun x => x.rcv.ready) g := by
  unfold State.tryRestart
  extract_lets x os
  split
  · rw [State.startSoon, State.updPart_eq_withPart, State.updPart_eq_withPart]
    refine ⟨fun y => { y with ready := [], startAt := some (s.waferEdgeAfter msgLead) }, (os.map (fun a => Output.module_ a .restart)).reverse ++ s.out, ?_, fun _ => ⟨rfl, rfl, rfl, rfl⟩⟩
    exact congrArg (fun u : State => { u with out := (os.map (fun a => Output.module_ a .restart)).reverse ++ s.out })
      (State.withPart_withPart s p (fun y => { y with ready := [] }) (fun y => { y with startAt := some (s.waferEdgeAfter msgLead) }))
  · exact ⟨id, s.out, (State.withPart_same rfl).symm, fun _ => ⟨rfl, rfl, rfl, rfl⟩⟩

/-- The partition of a member that stands ready. -/
def Part.readied (x : Part) : Part := { x with rcv := { x.rcv with ready := true } }

theorem State.reportReady_frame (s : State) (p : PartIx) : ∃ g out, s.reportReady p = { s.withPart p g with out := out } ∧ keepsStart (fun _ => true) g := by
  unfold State.reportReady
  rw [State.updPart_eq_withPart]
  extract_lets t
  split
  · obtain ⟨g, out, h, hg⟩ := t.tryRestart_frame p
    refine ⟨fun x => g x.readied, out, h.trans ?_, fun x => hg x.readied⟩
    exact congrArg (fun u : State => { u with out := out }) (State.withPart_withPart s p Part.readied g)
  · split
    · exact ⟨Part.readied, _, rfl, fun _ => ⟨rfl, rfl, rfl, rfl⟩⟩
    · exact ⟨Part.readied, t.out, rfl, fun _ => ⟨rfl, rfl, rfl, rfl⟩⟩

/-- A start that passes its checks: a partition of one module has its edge named, a member of a job stands ready. -/
theorem State.planStart_starts {seed step tick : W64} (h : ((p : Nat) < 16 ∧ k.part = p) ∧ rsv = 0 ∧ tick.toNat < 2 ^ 48) (hst : s.startStatus p tick.toNat = stOk) :
    ∃ t g, s.taken.planStart ⟨k, true⟩ p rsv seed step tick = t ∧ t.parts = (s.withPart p g).parts ∧ t.cores = s.cores ∧ t.fields = s.fields ∧
      t.fw.flight = s.fw.flight ++ [⟨⟨k, true⟩, .planStart p⟩] ∧
      ((s.part p).spans = false → g (s.part p) = { s.part p with
        seed := seed, step := step, nextStep := step, fresh := true, committed := none, begun := [], rcv := {}, stopStatus := 0, restartWanted := false
        startAt := some (if tick = 0 then (s.startTick p).waferEdgeAfter 4096 else tick.setWidth 48) }) ∧
      ((s.part p).spans = true → (g (s.part p)).seed = seed ∧ (g (s.part p)).step = step ∧ (g (s.part p)).restartWanted = true ∧ (g (s.part p)).rcv.ready = true) := by
  have hgood : s.taken.planStart ⟨k, true⟩ p rsv seed step tick = _ := (State.planStart_good h).trans (if_neg (not_not.2 hst))
  obtain ⟨tg, hframe⟩ := s.taken.starting_frame p ⟨k, true⟩ seed step
  cases hspan : (s.part p).spans with
  | false =>
    rw [hgood, if_neg (by simp [hspan]), State.starting_edge, hframe]
    let edge : BitVec 48 := if tick = 0 then (s.startTick p).waferEdgeAfter 4096 else tick.setWidth 48
    refine ⟨_, fun x => { x.seeded seed step with startAt := some edge }, rfl, ?_, rfl, rfl, rfl, fun _ => ?_, fun hc => Bool.noConfusion hc⟩
    · have hparts := congrArg State.parts (State.withPart_withPart s p (Part.seeded seed step) (fun x => { x with startAt := some edge }))
      exact hparts
    · exact congrArg (fun b => { s.part p with
      seed := seed, step := step, nextStep := step, fresh := true, committed := none, begun := [], rcv := {}, stopStatus := 0, restartWanted := b
      startAt := some (if tick = 0 then (s.startTick p).waferEdgeAfter 4096 else tick.setWidth 48) }) hspan
  | true =>
    obtain ⟨g, out, hready, hg⟩ := (s.taken.starting p ⟨k, true⟩ seed step).reportReady_frame p
    rw [hgood, if_pos hspan, hready, hframe]
    have hparts := congrArg State.parts (State.withPart_withPart s p (Part.seeded seed step) g)
    refine ⟨_, fun x => g (x.seeded seed step), rfl, hparts, rfl, rfl, rfl, fun hc => Bool.noConfusion hc, fun _ => ?_⟩
    obtain ⟨hseed, hstep, hwant, hrdy⟩ := hg _
    exact ⟨hseed, hstep, hwant.trans hspan, hrdy⟩

/-! ### PLAN_STOP (R398) -/

section
variable {m : Nat}

theorem Pkt.stopRange_iff {n : Nat} : (16 ≤ n || 1 < m || !k.names n) = true ↔ ¬((n < 16 ∧ k.part = n) ∧ m ≤ 1) := by
  simp only [Bool.or_eq_true, decide_eq_true_eq, Bool.not_eq_true', Pkt.names, decide_eq_false_iff_not, ← not_lt]
  tauto

theorem State.planStop_bad {n : Nat} (h : ¬((n < 16 ∧ k.part = n) ∧ m ≤ 1)) : s.taken.planStop ⟨k, true⟩ n m = s.answers k true stBadParam :=
  if_pos (Pkt.stopRange_iff.2 h)

/-- The stop tick message of a running partition, after JOB_STOP to the other members of its job (R277, R279). -/
theorem State.tellStop_sendStop (s : State) (p : PartIx) (h : (s.part p).started = true) : (s.tellStop p).sendStop p =
    { s.withPart p (fun y => { y with stopAt := if (s.part p).stopAt = none then some (s.edgeAfter p 4096) else (s.part p).stopAt }) with
      out := (if 1 < (s.part p).members.length then ((s.others (s.part p).members).map (fun a => Output.module_ a .jobStop)).reverse else []) ++ s.out } := by
  have htell : s.tellStop p = { s with
      out := (if 1 < (s.part p).members.length then ((s.others (s.part p).members).map (fun a => Output.module_ a .jobStop)).reverse else []) ++ s.out } := by
    unfold State.tellStop
    by_cases hs : 1 < (s.part p).members.length
    · rw [if_pos (by simpa [Part.spans] using hs), if_pos hs]
      rfl
    · rw [if_neg (by simpa [Part.spans] using hs), if_neg hs]
      rfl
  rw [htell, State.sendStop_eq]
  refine congrArg (fun v : Option (BitVec 48) => ({ s.withPart p (fun y => { y with stopAt := v }) with out := _ } : State)) (if_congr ?_ rfl rfl)
  exact and_iff_right h

/-- The partition as its stop at the next commit is asked for. -/
def Part.stopHeld (x : Part) : Part := { x with hold := .stop :: x.hold, stopAtCommit := true }

theorem State.edgeAfter_withPart (s : State) (p : PartIx) {g : Part → Part} (hg : ∀ x, (g x).plan = x.plan ∧ (g x).edgeIn = x.edgeIn) (lead : Nat) :
    (s.withPart p g).edgeAfter p lead = s.edgeAfter p lead := by
  obtain ⟨hplan, hedge⟩ := hg (s.part p)
  simp only [State.edgeAfter, State.part_withPart_self, hplan, hedge]
  rfl

section
variable (hat : ((p : Nat) < 16 ∧ k.part = p) ∧ m ≤ 1)
include hat

theorem State.planStop_good : s.taken.planStop ⟨k, true⟩ p m =
    if (s.part p).on = false then s.answers k true stPartUnknown
    else if (s.part p).plan = none then s.answers k true stPlanAbsent
    else if (s.part p).started = false then s.answers k true stPlanStopped
    else
      let t := s.taken.fly ⟨k, true⟩ (.planStop p)
      if m = 1 then (t.tellStop p).sendStop p else if (s.part p).stepOpen then t.withPart p Part.stopHeld else ((t.withPart p Part.stopHeld).tellStop p).sendStop p := by
  refine (if_neg (fun hc => Pkt.stopRange_iff.1 hc hat)).trans (if_congr ?_ rfl (if_congr ?_ rfl (if_congr ?_ rfl (if_congr Iff.rfl rfl ?_))))
  · simp only [State.partOn, p.isLt, decide_true, Bool.true_and, Bool.not_eq_true']
    rfl
  · exact Option.isNone_iff_eq_none
  · exact Bool.not_eq_true' _ ▸ Iff.rfl
  · rw [State.updPart_eq_withPart]
    rfl

variable (hon : (s.part p).on = true) (hplan : (s.part p).plan.isSome = true) (hrun : (s.part p).started = true)
include hon hplan hrun

/-- A plan that runs stops: at the edge that is named, or at the next commit, which names it where no step is open. -/
theorem State.planStop_stops :
    let told : List Output := if 1 < (s.part p).members.length then ((s.others (s.part p).members).map (fun a => Output.module_ a .jobStop)).reverse else []
    let stop := if (s.part p).stopAt = none then some (s.edgeAfter p 4096) else (s.part p).stopAt
    let flying := fun g : Part → Part => (s.taken.withPart p g).fly ⟨k, true⟩ (.planStop p)
    s.taken.planStop ⟨k, true⟩ p m =
      if m = 1 then { flying (fun x => { x with stopAt := stop }) with out := told ++ s.out }
      else if (s.part p).stepOpen then flying Part.stopHeld
      else { flying (fun x => { x.stopHeld with stopAt := stop }) with out := told ++ s.out } := by
  intro told stop flying
  have hnone : (s.part p).plan ≠ none := Option.isSome_iff_ne_none.1 hplan
  refine (State.planStop_good hat).trans ((if_neg (by simp [hon])).trans ((if_neg hnone).trans ((if_neg (by simp [hrun])).trans (if_congr Iff.rfl ?_ (if_congr Iff.rfl rfl ?_)))))
  · exact State.tellStop_sendStop (s.taken.fly ⟨k, true⟩ (.planStop p)) p hrun
  · have hself := (s.taken.fly ⟨k, true⟩ (.planStop p)).part_withPart_self p Part.stopHeld
    have htold := State.tellStop_sendStop ((s.taken.fly ⟨k, true⟩ (.planStop p)).withPart p Part.stopHeld) p (by rw [hself]; exact hrun)
    rw [hself, State.edgeAfter_withPart _ _ (g := Part.stopHeld) (fun _ => ⟨rfl, rfl⟩), State.withPart_withPart] at htold
    exact htold

end

end

end Sys2Proof.Machine

open Sys2Proof Sys2Proof.Machine

/-- Settles O52: each command of partitions and plans is refused by its first failed check, and else takes effect. -/
theorem partitionCommandsComplete : Obligations.PartitionCommandsComplete := by
  unfold Obligations.PartitionCommandsComplete
  intro k p rsv s x ix named free
  have hix : named → ix.val = p.toNat := fun h => Nat.mod_eq_of_lt h.1
  have hother : ∀ {t : State} {g : Part → Part}, named → t.parts = (s.withPart ix g).parts → t.part p.toNat = g x ∧ ∀ q, q < 16 → q ≠ p.toNat → t.part q = s.part q := by
    intro t g h ht
    refine ⟨?_, fun q _ hq => ?_⟩
    · rw [State.part_congr ht, State.part_withPart, if_pos (hix h).symm, hix h]
    · rw [State.part_congr ht, State.part_withPart, if_neg (hix h ▸ hq)]
  refine ⟨fun hfront diag ts ps => ?_, fun hfront => ?_, fun hfront hfree rep a len hash i => ?_, fun hfront hfree seed step tick => ?_, fun hfront hfree m => ?_⟩
  · intro run good taken
    have hrun : run = .next (s.taken.partCreate ⟨k, true⟩ p.toNat diag ts ps rsv) := next_congr (State.command_front hfront (fun _ => rfl) State.busyOn_none)
    have hgood := fun h : good => hrun.trans (next_congr (State.partCreate_good h))
    refine ⟨fun h => hrun.trans (next_congr (State.partCreate_bad h)), fun h hon => (hgood h).trans (next_congr (if_pos hon)), fun h hon ht => (hgood h).trans (next_congr ?_),
      fun h hon ht => (hgood h).trans (next_congr ?_)⟩
    · exact (if_neg (Bool.eq_false_iff.1 hon)).trans (if_pos (State.partTaken_iff.2 ht))
    · refine (if_neg (Bool.eq_false_iff.1 hon)).trans ((if_neg (mt State.partTaken_iff.1 ht)).trans ?_)
      rw [← State.setPart_eq_withPart, hix h.1]
  · intro run
    have hrun : run = .next (s.taken.partDestroy ⟨k, true⟩ p.toNat) := next_congr (State.command_front hfront (fun _ => rfl) State.busyOn_none)
    have hgood := fun h : named => hrun.trans (next_congr (State.partDestroy_good h))
    refine ⟨fun h => hrun.trans (next_congr (State.partDestroy_bad h)), fun h hon => (hgood h).trans (next_congr (if_pos hon)),
      fun h hon hr => (hgood h).trans (next_congr ((if_neg (by simpa using hon)).trans (if_pos hr))), fun h hon hs ha => ?_⟩
    have hgone : run = .next ((s.taken.destroy p.toNat).done ⟨k, true⟩ stOk) :=
      (hgood h).trans (next_congr ((if_neg (by simpa using hon)).trans (if_neg (not_or.2 ⟨Bool.eq_false_iff.1 hs, not_not.2 ha⟩))))
    obtain ⟨-, htg, hsites, -, -⟩ := State.endFlights_keeps ((s.taken.unloadPlan p.toNat).setPart p.toNat {}) p.toNat stPartUnknown
    refine ⟨_, hgone, (State.destroy_part h.1 _).trans (if_pos rfl), fun q _ hq => (State.destroy_part (s := s.taken) h.1 q).trans (if_neg hq), htg, hsites, ?_,
      State.mem_destroy_cols s.taken p.toNat, fun f r hf hr => State.destroy_regions (s := s.taken) hf hr⟩
    exact (State.finish_flight ..).trans (State.endFlights_flight ..)
  · intro run good st
    have hrun : run = .next (s.taken.planLoad ⟨k, true⟩ p.toNat rep rsv a len.toNat hash i) := next_congr (State.command_front hfront (fun _ => rfl) hfree)
    have hgood := fun (hag : k.agent ≠ 2) (h : good) => hrun.trans (next_congr (State.planLoad_good hag h))
    refine ⟨fun hag => hrun.trans (next_congr (State.planLoad_card hag _)), fun hag h => hrun.trans (next_congr (State.planLoad_bad hag h)),
      fun hag h hst => (hgood hag h).trans (next_congr (if_pos hst)), fun hag h hst => ?_⟩
    have hloaded := (hgood hag h).trans (next_congr (if_neg (not_not.2 hst)))
    obtain ⟨hfw, hpart⟩ := s.taken.install_keeps ix { i.content with hash := i.sha }
    rw [hix h.1] at hfw hpart
    have hparts := fun q => (hpart q).trans (State.part_withPart ..)
    refine ⟨_, _, hloaded, rfl, hfw, ?_, fun q _ hq => ?_⟩
    · refine (hparts _).trans ((if_pos (hix h.1).symm).trans ?_)
      rw [hix h.1]
      rfl
    · exact (hparts q).trans (if_neg ((hix h.1).symm ▸ hq))
  · intro run good st
    have hrun : run = .next (s.taken.planStart ⟨k, true⟩ p.toNat rsv seed step tick) := next_congr (State.command_front hfront (fun _ => rfl) hfree)
    have hat : good → ((ix : Nat) < 16 ∧ k.part = ix) ∧ rsv = 0 ∧ tick.toNat < 2 ^ 48 := fun h => by
      rw [hix h.1]
      exact h
    refine ⟨fun h => hrun.trans (next_congr (State.planStart_bad h)), fun h hst => ?_, fun h hst => ?_⟩
    · have hgood := State.planStart_good (s := s) (seed := seed) (step := step) (hat h)
      rw [hix h.1] at hgood
      exact hrun.trans (next_congr (hgood.trans (if_pos hst)))
    · have hok : s.startStatus ix tick.toNat = stOk := by
        rw [hix h.1]
        exact hst
      obtain ⟨t, g, ht, hparts, hcores, hfields, hflight, hone, hmany⟩ := State.planStart_starts (s := s) (seed := seed) (step := step) (hat h) hok
      rw [hix h.1] at ht hflight hone hmany
      obtain ⟨hself, hrest⟩ := hother h.1 hparts
      refine ⟨t, hrun.trans (next_congr ht), hflight, hcores, hfields, hrest, fun hlen => ?_, fun hlen => ?_⟩
      · exact hself.trans (hone (by simpa [Part.spans] using hlen))
      · rw [hself]
        exact hmany (by simpa [Part.spans] using hlen)
  · intro run good fly told stop
    have hrun : run = .next (s.taken.planStop ⟨k, true⟩ p.toNat m.toNat) := next_congr (State.command_front hfront (fun _ => rfl) hfree)
    have hat : good → ((ix : Nat) < 16 ∧ k.part = ix) ∧ m.toNat ≤ 1 := fun h => by
      rw [hix h.1]
      exact h
    have hmode : m = 1 ↔ m.toNat = 1 := ⟨fun h => h ▸ rfl, fun h => BitVec.eq_of_toNat_eq h⟩
    have hgood := fun h : good => State.planStop_good (s := s) (hat h)
    have hstops := fun h : good => State.planStop_stops (s := s) (hat h)
    refine ⟨fun h => hrun.trans (next_congr (State.planStop_bad h)), fun h hon => ?_, fun h hon hplan => ?_, fun h hon hplan hst => ?_, fun h hon hplan hst => ?_⟩
    · have hg := hgood h
      rw [hix h.1] at hg
      exact hrun.trans (next_congr (hg.trans (if_pos hon)))
    · have hg := hgood h
      rw [hix h.1] at hg
      exact hrun.trans (next_congr (hg.trans ((if_neg (by simpa using hon)).trans (if_pos hplan))))
    · have hg := hgood h
      rw [hix h.1] at hg
      exact hrun.trans (next_congr (hg.trans ((if_neg (by simpa using hon)).trans ((if_neg (Option.isSome_iff_ne_none.1 hplan)).trans (if_pos hst)))))
    · have hs := hstops h
      rw [hix h.1] at hs
      have hstop := hrun.trans (next_congr (hs hon hplan hst))
      refine ⟨fun hm => hstop.trans (next_congr (if_pos (hmode.1 hm))), fun hm hopen => hstop.trans (next_congr ?_), fun hm hopen => hstop.trans (next_congr ?_)⟩
      · exact (if_neg (by simp [hm])).trans (if_pos hopen)
      · exact (if_neg (by simp [hm])).trans (if_neg (Bool.eq_false_iff.1 hopen))
end

section
/-! TELEMETRY windows (R400) and FAB_CONFIG (R244): O54. -/

namespace Sys2Proof.Machine

open Sys2Proof

variable {s : State} {k : Pkt} {rsv : Nat}

/-! ### TELEMETRY (R400) -/

section
variable {own : Bool} {p mask len : Nat} {start : W64}

theorem State.telemetry_busy (h : 16 ≤ s.windowsOf k.agent) : s.taken.telemetry ⟨k, own⟩ p mask len start rsv = s.answers k own stBusy := if_pos h

/-- The tick at which a window starts: the one that is named, or the next. -/
def State.windowStart (s : State) (start : W64) : Nat := if start = 0 then s.tg.tick.toNat + 1 else start.toNat

/-- A window of a partition, or of the module, whose parameters are in range. -/
def State.windowFits (s : State) (k : Pkt) (p mask len : Nat) (start : W64) (rsv : Nat) : Prop :=
  rsv = 0 ∧ mask < 32 ∧ len ≠ 0 ∧ len ≤ 1000000 ∧ (p < 16 ∨ p = 0xFF) ∧ k.part = p ∧ s.windowStart start < 2 ^ 48

theorem State.telemetry_eq (h : s.windowsOf k.agent < 16) : s.taken.telemetry ⟨k, own⟩ p mask len start rsv =
    if (rsv ≠ 0 || 32 ≤ mask || len = 0 || 1000000 < len || (16 ≤ p && p ≠ 0xFF) || !k.names p || 2 ^ 48 ≤ s.windowStart start) = true then s.answers k own stBadParam
    else if (p ≠ 0xFF && !s.partOn p) = true then s.answers k own stPartUnknown
    else if s.windowStart start ≤ s.tg.tick.toNat then s.answers k own stStartPassed
    else s.taken.fly ⟨k, own⟩ (.telemetry { part := p, mask := mask, start := BitVec.ofNat 48 (s.windowStart start), len := len }) := if_neg (Nat.not_le.2 h)

theorem State.windowFits_iff : s.windowFits k p mask len start rsv ↔
    ¬(rsv ≠ 0 || 32 ≤ mask || len = 0 || 1000000 < len || (16 ≤ p && p ≠ 0xFF) || !k.names p || 2 ^ 48 ≤ s.windowStart start) = true := by
  simp only [State.windowFits, Pkt.names, Bool.or_eq_true, Bool.and_eq_true, decide_eq_true_eq, Bool.not_eq_true', decide_eq_false_iff_not, not_or, not_and, not_not, not_le, not_lt, ne_eq, and_assoc]
  refine and_congr_right (fun _ => and_congr_right (fun _ => and_congr_right (fun _ => and_congr_right (fun _ => and_congr_left (fun _ => ?_)))))
  rw [or_iff_not_imp_left, not_lt]

section
variable (hw : s.windowsOf k.agent < 16)
include hw

theorem State.telemetry_bad (h : ¬s.windowFits k p mask len start rsv) : s.taken.telemetry ⟨k, own⟩ p mask len start rsv = s.answers k own stBadParam :=
  (State.telemetry_eq hw).trans (if_pos (not_not.1 (mt State.windowFits_iff.2 h)))

variable (hfits : s.windowFits k p mask len start rsv)
include hfits

theorem State.telemetry_unknown (hp : p < 16) (hon : (s.part p).on = false) : s.taken.telemetry ⟨k, own⟩ p mask len start rsv = s.answers k own stPartUnknown :=
  (State.telemetry_eq hw).trans ((if_neg (State.windowFits_iff.1 hfits)).trans (if_pos (by simp [State.partOn, hon]; omega)))

theorem State.telemetry_known (h : p = 0xFF ∨ (s.part p).on = true) : s.taken.telemetry ⟨k, own⟩ p mask len start rsv =
    if s.windowStart start ≤ s.tg.tick.toNat then s.answers k own stStartPassed
    else s.taken.fly ⟨k, own⟩ (.telemetry { part := p, mask := mask, start := BitVec.ofNat 48 (s.windowStart start), len := len }) := by
  have hrange := State.windowFits_iff.1 hfits
  obtain ⟨-, -, -, -, hp, -, -⟩ := hfits
  refine (State.telemetry_eq hw).trans ((if_neg hrange).trans (if_neg ?_))
  rcases h with rfl | hon
  · simp
  · rcases hp with hp | rfl
    · simp [State.partOn, hon, hp]
    · simp

end
end

/-! ### The end of a window -/

section
variable {seq : W32} {agent : Fin 3} {a b c : Nat}

theorem State.teleEnd_none (h : ∀ l ∈ s.fw.flight, ¬(l.f.pkt.seq = seq ∧ l.f.pkt.agent = agent ∧ ∃ w, l.kind = .telemetry w ∧ w.closed = true)) : s.teleEnd seq agent a b c = s := by
  unfold State.teleEnd
  split
  · rfl
  · next l hl =>
    have hdue := List.find?_some hl
    split
    · next w hw =>
      rw [hw] at hdue
      simp only [Bool.and_eq_true, decide_eq_true_eq] at hdue
      exact absurd ⟨hdue.1.1, Fin.ext hdue.1.2, w, hw, hdue.2⟩ (h l (List.mem_of_find?_eq_some hl))
    · rfl

theorem State.teleEnd_head {f : Fetched} {w : TeleWin} {rest : List Long} (hfl : s.fw.flight = ⟨f, .telemetry w⟩ :: rest) (hseq : f.pkt.seq = seq) (hag : f.pkt.agent = agent)
    (hclosed : w.closed = true) : s.teleEnd seq agent a b c =
      ({ s with freeCtr := s.freeCtr + 28, fw := { s.fw with flight := rest } } : State).finishData f stOk (s.teleRecord w a b c) := by
  rw [State.teleEnd, hfl, List.find?_cons_of_pos (by simp [hseq, hag, hclosed])]
  simp only [List.erase_cons_head]

end

/-- The record of a window of the power section alone (Table 12.13). -/
theorem State.teleRecord_power {w : TeleWin} (h : w.mask = 4) (a b c : Nat) : s.teleRecord w a b c =
    bytesLE w.start.toNat 8 ++ bytesLE (w.start.toNat + w.len) 8 ++ bytesLE w.part 1 ++ bytesLE 4 1 ++ bytesLE (if w.partial_ then 1 else 0) 1 ++ bytesLE 0 13 ++
      bytesLE a 4 ++ bytesLE b 4 ++ bytesLE c 8 := by
  have hsec : ∀ i, Nat.testBit 4 i = decide (i = 2) := by
    intro i
    rw [show 4 = 2 ^ 2 from rfl, Nat.testBit_two_pow]
    exact decide_eq_decide.2 eq_comm
  simp [State.teleRecord, h, hsec, bit]

end Sys2Proof.Machine
end

section
/-! FAB_CONFIG (R244), and O54. -/

namespace Sys2Proof.Machine

open Sys2Proof

variable {s : State}

/-! ### The mode of one port -/

/-- The settings of the fabric that no link touches. -/
def Fab.settings (f : Fab) : Nat × Nat × Vector StoreTarget 16 := (f.addr, f.hb, f.targets)

theorem State.linkLost_settings (s : State) (p : PortIx) : (s.linkLost p).fab.settings = s.fab.settings := by
  by_cases hst : (s.port p).st = .up
  · obtain ⟨fab, more, out, h, -, haddr, hhb, htargets⟩ := s.onLinks_frame (fun t => t.linkDown p)
    have hdown : (s.linkDown p).fab.settings = s.fab.settings := by
      rw [State.linkDown_up hst]
      exact foldl_keeps (fun u : State => u.fab.settings) (f := State.losesLink p (s.port p).peer) (fun _ _ => rfl) _ (s.withPort p FabPort.lost)
    rw [State.linkLost, h, ← hdown]
    exact Prod.ext haddr (Prod.ext hhb htargets)
  · rw [State.linkLost_notUp hst]
    rfl

/-- The port whose link is lost. -/
def FabPort.unlinked (q : FabPort) : FabPort := if q.st = .up then q.lost else q.dropped

theorem State.linkLost_frame (s : State) (p : PortIx) : (s.linkLost p).port p = (s.port p).unlinked ∧ (∀ j : Nat, j ≠ p.val → (s.linkLost p).port j = s.port j) ∧
    (s.linkLost p).cores = s.cores ∧ (s.linkLost p).fields = s.fields := by
  unfold FabPort.unlinked
  by_cases hst : (s.port p).st = .up
  · obtain ⟨hself, hother, hcores, hfields, -, -⟩ := State.linkLost_up hst
    exact ⟨hself.trans (if_pos hst).symm, hother, hcores, hfields⟩
  · rw [State.linkLost_notUp hst, if_neg hst]
    exact ⟨State.port_withPort_self .., fun j hj => State.port_withPort_other _ _ hj, rfl, rfl⟩

/-- The port with a mode and an enable. -/
def FabPort.moded (en eth : Bool) (q : FabPort) : FabPort :=
  let link := if q.link = .failed then DomSt.failed else if en then .on else .off
  { q with en := en, eth := eth, link := link, st := if en && link = .on && !q.lowPower then .training else .down }

/-- The port after FAB_CONFIG names its mode and its enable. -/
def FabPort.configured (en eth : Bool) (q : FabPort) : FabPort := if q.en = en ∧ q.eth = eth then q else q.unlinked.moded en eth

theorem FabPort.configured_modes (en eth : Bool) (q : FabPort) : (q.configured en eth).en = en ∧ (q.configured en eth).eth = eth := by
  unfold FabPort.configured
  split
  · assumption
  · exact ⟨rfl, rfl⟩

/-- A port that was not UP takes its mode as it is. -/
theorem FabPort.configured_notUp {en eth : Bool} {q : FabPort} (hne : ¬(q.en = en ∧ q.eth = eth)) (hst : q.st ≠ .up) : q.configured en eth = { q with
    en := en, eth := eth, link := if q.link = .failed then .failed else if en then .on else .off
    st := if en = true ∧ q.link ≠ .failed ∧ q.lowPower = false then .training else .down } := by
  rw [FabPort.configured, if_neg hne, FabPort.unlinked, if_neg hst]
  have hstarts : (en && (if q.link = .failed then DomSt.failed else if en then .on else .off) = DomSt.on && !q.lowPower) = true ↔ en = true ∧ q.link ≠ .failed ∧ q.lowPower = false := by
    by_cases hfailed : q.link = .failed <;> cases en <;> simp [hfailed]
  exact congrArg (fun v : FabSt => { q with en := en, eth := eth, link := if q.link = DomSt.failed then DomSt.failed else if en then .on else .off, st := v }) (if_congr hstarts rfl rfl)

theorem State.setPortMode_frame (s : State) (p : PortIx) (en eth : Bool) :
    (s.setPortMode p en eth).port p = (s.port p).configured en eth ∧ (∀ j : Nat, j ≠ p.val → (s.setPortMode p en eth).port j = s.port j) ∧
      (s.setPortMode p en eth).cores = s.cores ∧ (s.setPortMode p en eth).fields = s.fields ∧ (s.setPortMode p en eth).fab.settings = s.fab.settings := by
  unfold State.setPortMode FabPort.configured
  by_cases hsame : (s.port p).en = en ∧ (s.port p).eth = eth
  · rw [if_pos (by simpa using hsame), if_pos hsame]
    exact ⟨rfl, fun _ _ => rfl, rfl, rfl, rfl⟩
  · obtain ⟨hself, hother, hcores, hfields⟩ := s.linkLost_frame p
    have hset := s.linkLost_settings p
    rw [if_neg (by simpa using hsame), if_neg hsame, State.updPort_eq_withPort]
    generalize s.linkLost p = t at *
    refine ⟨?_, fun j hj => (State.port_withPort_other _ _ hj).trans (hother j hj), hcores, hfields, hset⟩
    rw [State.port_withPort_self, hself]
    rfl

/-! ### The modes of all ports -/

section
variable (en eth : BitVec 28)

/-- The ports that FAB_CONFIG gives another mode or enable. -/
def State.changedPorts (s : State) : List Nat := (List.range 28).filter (fun i => (s.port i).en ≠ en.getLsbD i || (s.port i).eth ≠ eth.getLsbD i)

theorem State.mem_changedPorts (i : Nat) : i ∈ s.changedPorts en eth ↔ i < 28 ∧ ¬((s.port i).en = en.getLsbD i ∧ (s.port i).eth = eth.getLsbD i) := by
  simp only [State.changedPorts, List.mem_filter, List.mem_range, Bool.or_eq_true, decide_eq_true_eq, not_and_or, ne_eq]

theorem State.nodup_changedPorts (s : State) : (s.changedPorts en eth).Nodup := List.nodup_range.filter _

theorem State.changedPorts_none (h : ∀ i < 28, (s.port i).en = en.getLsbD i ∧ (s.port i).eth = eth.getLsbD i) : s.changedPorts en eth = [] :=
  List.eq_nil_iff_forall_not_mem.2 (fun i hi => ((State.mem_changedPorts en eth i).1 hi).2 (h i ((State.mem_changedPorts en eth i).1 hi).1))

/-- Each changed port takes its mode, one after another. -/
def State.setModes (s : State) (l : List Nat) : State := l.foldl (fun u i => u.setPortMode i (en.getLsbD i) (eth.getLsbD i)) s

theorem State.port_setModes (t : State) (ht : ∀ i, t.port i = s.port i) {i : Nat} (hi : i < 28) :
    (t.setModes en eth (s.changedPorts en eth)).port i = (s.port i).configured (en.getLsbD i) (eth.getLsbD i) := by
  have hstep := fun (u : State) (j : Nat) (hj : j < 28) => u.setPortMode_frame ⟨j, hj⟩ (en.getLsbD j) (eth.getLsbD j)
  rw [State.setModes, foldl_once (read := State.port) (own := fun j q => q.configured (en.getLsbD j) (eth.getLsbD j)) (fun u j hj => (hstep u j hj).1) (fun u j n hj hn => (hstep u j hj).2.1 n hn)
    (s.nodup_changedPorts en eth) (fun j hj => ((State.mem_changedPorts en eth j).1 hj).1) hi, ht]
  by_cases hmem : i ∈ s.changedPorts en eth
  · exact if_pos hmem
  · have hsame : (s.port i).en = en.getLsbD i ∧ (s.port i).eth = eth.getLsbD i := not_not.1 (fun hne => hmem ((State.mem_changedPorts en eth i).2 ⟨hi, hne⟩))
    rw [if_neg hmem, FabPort.configured, if_pos hsame]

theorem State.setModes_keeps (t : State) {l : List Nat} (hl : ∀ i ∈ l, i < 28) :
    (t.setModes en eth l).cores = t.cores ∧ (t.setModes en eth l).fields = t.fields ∧ (t.setModes en eth l).fab.settings = t.fab.settings := by
  refine List.foldlRecOn l _ (motive := fun u : State => u.cores = t.cores ∧ u.fields = t.fields ∧ u.fab.settings = t.fab.settings) ⟨rfl, rfl, rfl⟩ ?_
  rintro u ⟨hcores, hfields, hset⟩ i hi
  obtain ⟨-, -, hc, hf, hs⟩ := u.setPortMode_frame ⟨i, hl i hi⟩ (en.getLsbD i) (eth.getLsbD i)
  exact ⟨hc.trans hcores, hf.trans hfields, hs.trans hset⟩

end

/-! ### FAB_CONFIG -/

section
variable {k : Pkt} {addr hb rsv mac ip pri dscp : Nat} {en eth : BitVec 28} {pfc : Bool} {ts : List StoreTarget}

/-- The state with the settings of FAB_CONFIG. -/
def State.fabSet (s : State) (addr hb mac ip : Nat) (pfc : Bool) (pri dscp : Nat) (ts : List StoreTarget) : State := { s with fab := { s.fab with
  addr := if addr = 0xFFF then s.fab.addr else addr, hb := if hb = 0 then s.fab.hb else hb
  mac := mac, ip := ip, pfcEn := pfc, pfcPri := pri, dscp := dscp, targets := Vector.ofFn (fun i => ts.getD i.val {}) } }

theorem Pkt.fabRange_iff : (rsv ≠ 0 || 1000 < hb || !k.noPart || ts.any (fun t => 28 ≤ t.port && t.port ≠ 0xFF)) = true ↔
    ¬(rsv = 0 ∧ hb ≤ 1000 ∧ k.part = 0xFF ∧ ∀ t ∈ ts, t.port < 28 ∨ t.port = 0xFF) := by
  have hports : (∃ t ∈ ts, 28 ≤ t.port ∧ t.port ≠ 0xFF) ↔ ¬∀ t ∈ ts, t.port < 28 ∨ t.port = 0xFF := by
    push Not
    rfl
  simp only [Bool.or_eq_true, decide_eq_true_eq, Bool.not_eq_true', Pkt.noPart, decide_eq_false_iff_not, List.any_eq_true, Bool.and_eq_true, hports, ← not_le]
  tauto

theorem State.fabConfig_bad (h : ¬(rsv = 0 ∧ hb ≤ 1000 ∧ k.part = 0xFF ∧ ∀ t ∈ ts, t.port < 28 ∨ t.port = 0xFF)) :
    s.taken.fabConfig ⟨k, true⟩ addr hb en eth mac ip pfc pri dscp ts rsv = s.answers k true stBadParam := if_pos (Pkt.fabRange_iff.2 h)

variable (hgood : rsv = 0 ∧ hb ≤ 1000 ∧ k.part = 0xFF ∧ ∀ t ∈ ts, t.port < 28 ∨ t.port = 0xFF)
include hgood

/-- A port of the list is held by a partition. -/
def State.holdsAny (s : State) (l : List Nat) : Bool := l.any (fun i => (List.range 16).any (fun p => (s.part p).on && (s.part p).ports.getLsbD i))

/-- The address changes while a partition runs. -/
def State.movesRunning (s : State) (addr : Nat) : Bool := addr ≠ 0xFFF && addr ≠ s.fab.addr && (List.range 16).any (fun p => (s.part p).started)

theorem State.fabConfig_good : s.taken.fabConfig ⟨k, true⟩ addr hb en eth mac ip pfc pri dscp ts rsv =
    if s.holdsAny (s.changedPorts en eth) then s.answers k true stFabPortBusy
    else if s.movesRunning addr then s.answers k true stFabPortBusy
    else ((s.taken.fabSet addr hb mac ip pfc pri dscp ts).setModes en eth (s.changedPorts en eth)).done ⟨k, true⟩ stOk :=
  if_neg (fun hc => Pkt.fabRange_iff.1 hc hgood)

end

theorem State.holdsAny_iff (en eth : BitVec 28) : s.holdsAny (s.changedPorts en eth) = true ↔
    ∃ (i : PortIx) (p : PartIx), ¬((s.port i).en = en.getLsbD i ∧ (s.port i).eth = eth.getLsbD i) ∧ (s.part p).on = true ∧ (s.part p).ports.getLsbD i = true := by
  simp only [State.holdsAny, List.any_eq_true, List.mem_range, Bool.and_eq_true, State.mem_changedPorts]
  constructor
  · rintro ⟨i, ⟨hi, hne⟩, p, hp, hheld⟩
    exact ⟨⟨i, hi⟩, ⟨p, hp⟩, hne, hheld⟩
  · rintro ⟨i, p, hne, hheld⟩
    exact ⟨i, ⟨i.isLt, hne⟩, p, p.isLt, hheld⟩

theorem State.movesRunning_iff {addr : Nat} : s.movesRunning addr = true ↔ addr ≠ 0xFFF ∧ addr ≠ s.fab.addr ∧ ∃ p : PartIx, (s.part p).started = true := by
  simp only [State.movesRunning, Bool.and_eq_true, decide_eq_true_eq, List.any_eq_true, List.mem_range, and_assoc]
  refine and_congr_right (fun _ => and_congr_right (fun _ => ⟨?_, ?_⟩))
  · rintro ⟨p, hp, hrun⟩
    exact ⟨⟨p, hp⟩, hrun⟩
  · rintro ⟨p, hrun⟩
    exact ⟨p, p.isLt, hrun⟩

end Sys2Proof.Machine

open Sys2Proof Sys2Proof.Machine

/-- Settles O54: a window is refused, or waits and ends with its record, and FAB_CONFIG is refused, or each port that it changes takes its mode. -/
theorem telemetryAndFabConfigComplete : Obligations.TelemetryAndFabConfigComplete := by
  unfold Obligations.TelemetryAndFabConfigComplete
  refine ⟨fun k own p mask len start rsv s hfront => ?_, fun seq agent a b c s => ?_, fun k addr hb en eth mac ip pfc pri dscp ts rsv s hfront hfree => ?_⟩
  · intro run w fits
    have hrun : run = .next (s.taken.telemetry ⟨k, own⟩ p.toNat mask.toNat len.toNat start rsv) := next_congr (State.command_front hfront (fun h => Bool.noConfusion h) State.busyOn_none)
    have hall : p = 0xFF ↔ p.toNat = 0xFF := ⟨fun h => h ▸ rfl, fun h => BitVec.eq_of_toNat_eq h⟩
    have hlen : len = 0 ↔ len.toNat = 0 := ⟨fun h => h ▸ rfl, fun h => BitVec.eq_of_toNat_eq h⟩
    have hfits : fits ↔ s.windowFits k p.toNat mask.toNat len.toNat start rsv := by
      simp only [fits, State.windowFits, hall, hlen, ne_eq]
      tauto
    refine ⟨fun h => hrun.trans (next_congr (State.telemetry_busy h)), fun hw => ⟨fun h => hrun.trans (next_congr (State.telemetry_bad hw (mt hfits.2 h))),
      fun h hp hon => hrun.trans (next_congr (State.telemetry_unknown hw (hfits.1 h) hp hon)), fun h hon ht => ?_, fun h hon ht => ?_⟩⟩
    all_goals refine hrun.trans (next_congr ((State.telemetry_known hw (hfits.1 h) (hon.imp_left hall.1)).trans ?_))
    · exact if_pos ht
    · exact if_neg (Nat.not_le.2 ht)
  · intro run due
    exact ⟨fun h => next_congr (State.teleEnd_none h), fun f w rest hfl hseq hag hclosed => next_congr (State.teleEnd_head hfl hseq hag hclosed), fun w hmask => State.teleRecord_power hmask a b c⟩
  · intro run same good held moved put put2
    have hrun : run = .next (s.taken.fabConfig ⟨k, true⟩ addr.toNat hb.toNat en eth mac ip pfc pri.toNat dscp.toNat ts rsv) := next_congr (State.command_front hfront (fun _ => rfl) hfree)
    have hgood := fun h : good => hrun.trans (next_congr (State.fabConfig_good h))
    have haddr : addr = 0xFFF ↔ addr.toNat = 0xFFF := ⟨fun h => h ▸ rfl, fun h => BitVec.eq_of_toNat_eq h⟩
    have hheld : s.holdsAny (s.changedPorts en eth) = true ↔ held := State.holdsAny_iff en eth
    have hmoved : s.movesRunning addr.toNat = true ↔ moved := State.movesRunning_iff.trans (and_congr_left' (not_congr haddr.symm))
    have hhb : hb = 0 ↔ hb.toNat = 0 := ⟨fun h => h ▸ rfl, fun h => BitVec.eq_of_toNat_eq h⟩
    have hput : s.fabSet addr.toNat hb.toNat mac ip pfc pri.toNat dscp.toNat ts = put := by
      simp only [State.fabSet, put, haddr, hhb]
    have htakes := fun (h : good) (hh : ¬held) (hm : ¬moved) => (hgood h).trans (next_congr ((if_neg (mt hheld.1 hh)).trans (if_neg (mt hmoved.1 hm))))
    refine ⟨fun h => hrun.trans (next_congr (State.fabConfig_bad h)), fun h hbusy => (hgood h).trans (next_congr ?_), fun h hh hm hsame => (htakes h hh hm).trans (next_congr ?_), fun h hh hm => ⟨_, htakes h hh hm, ?_⟩⟩
    · by_cases hh : held
      · exact if_pos (hheld.2 hh)
      · exact (if_neg (mt hheld.1 hh)).trans (if_pos (hmoved.2 (hbusy.resolve_left hh)))
    · rw [State.changedPorts_none en eth hsame, ← hput]
      rfl
    · let u := s.taken.fabSet addr.toNat hb.toNat mac ip pfc pri.toNat dscp.toNat ts
      have hport : ∀ i < 28, (u.setModes en eth (s.changedPorts en eth)).port i = (s.port i).configured (en.getLsbD i) (eth.getLsbD i) :=
        fun i hi => State.port_setModes en eth u (fun _ => rfl) hi
      obtain ⟨hcores, hfields, hset⟩ := u.setModes_keeps en eth (fun i hi => ((State.mem_changedPorts en eth i).1 hi).1)
      have hputs := congrArg (fun v : State => v.fab.settings) hput
      have hkept : (u.setModes en eth (s.changedPorts en eth)).fab.settings = put.fab.settings := hset.trans hputs
      simp only [Fab.settings, Prod.mk.injEq] at hkept
      obtain ⟨haddrs, hhbs, htargets⟩ := hkept
      refine ⟨fun i hi => ?_, fun i hi hsame => (hport i hi).trans (if_pos hsame), fun i hi hne hst => (hport i hi).trans (FabPort.configured_notUp hne hst), haddrs, hhbs, htargets, hcores, hfields⟩
      have hmodes := FabPort.configured_modes (en.getLsbD i) (eth.getLsbD i) (s.port i)
      rwa [← hport i hi] at hmodes
end

section
/-! Snapshots at the protected module (R283 to R287, R291): when a copy begins, and what a confirmation of it leaves. -/

namespace Sys2Proof.Machine

open Sys2Proof

variable {s : State} {p : PartIx}

/-! ### SNAPSHOT_BEGIN (R283, R284) -/

/-- The partition stands held with no step open and in no recovery, and in a forced co-fed pair the shelf holds the newest generation (R268, R283). -/
def State.copyDue (s : State) (p : Nat) : Prop :=
  (s.part p).started = true ∧ (s.part p).snap.phase = .held ∧ (s.part p).stepOpen = false ∧ (s.part p).rcv.active = false ∧
    ¬(s.fab.forced = true ∧ s.holderUp = true ∧ ∃ g r, (s.part p).snap.gens = g :: r ∧ g.near = true ∧ g.shelf = false)

/-- The newest generation has a near copy and none on the shelf. -/
theorem unshelved_iff (gs : List Gen) : (gs.head?.map (fun g => g.near && !g.shelf)).getD false = true ↔ ∃ g r, gs = g :: r ∧ g.near = true ∧ g.shelf = false := by
  cases gs with
  | nil => simp
  | cons g r => simp [and_assoc]

theorem State.copyDue_iff : s.copyDue p ↔
    (!(s.part p).started || (s.part p).snap.phase ≠ .held || (s.part p).stepOpen || (s.part p).rcv.active) = false ∧
      (s.fab.forced && s.holderUp && ((s.part p).snap.gens.head?.map (fun g => g.near && !g.shelf)).getD false) = false := by
  rw [← Bool.not_eq_true (_ && _), Bool.and_eq_true, Bool.and_eq_true, unshelved_iff]
  simp [State.copyDue, and_assoc]

theorem State.snapshotBegin_stays (h : ¬s.copyDue p) : s.snapshotBegin p = s := by
  rw [State.copyDue_iff, not_and_or, Bool.not_eq_false, Bool.not_eq_false] at h
  rcases h with h | h
  · exact if_pos h
  · exact (if_congr Iff.rfl rfl (if_pos h)).trans (ite_self _)

/-- The generation that a snapshot takes, with its near copy or on the module's own flash (R280, R286). -/
def State.genTaken (s : State) (p : Nat) (near : Bool) : Gen :=
  { id := (s.part p).committed.getD ((s.part p).step - 1), near := near, own := !near, regions := s.captureRegions p, rec_ := s.captureRecord p }

/-- The partition as the copy of a generation begins. -/
def Part.copying (g : Gen) (x : Part) : Part :=
  { x with snap := { x.snap with phase := .copying, ownFlash := !g.near, taking := some g, gens := (freeSlot (!g.near) x.snap.gens).filter Gen.kept } }

/-- The partition whose hold lifts until the next commit boundary tries again. -/
def Part.copyPutOff (x : Part) : Part := { x with lift := .snapshot :: x.lift, snap := { x.snap with phase := .idle, wanted := true } }

/-- The messages of a near copy to its holder (R283). -/
def State.copyMessages (s : State) (p : Nat) (g : Gen) : List Output :=
  .module_ s.fab.holder (.snapBegin p g.id (s.part p).snap.size (s.part p).snap.policy) :: .module_ s.fab.holder (.snapRecord p g.id g.rec_) ::
    g.regions.map (fun r => .module_ s.fab.holder (.region p g.id r r.digest))

section
variable (h : s.copyDue p)
include h

theorem State.snapshotBegin_due : s.snapshotBegin p = if !s.fields.all (fun f => f.2.quiet p) then s.withPart p Part.copyPutOff else
    let g := s.genTaken p (s.holderUp && !s.tooLarge p)
    { s.withPart p (Part.copying g) with out := (if g.near then s.copyMessages p g else []).reverse ++ s.out } := by
  obtain ⟨hheld, hshelf⟩ := State.copyDue_iff.1 h
  refine (if_neg (Bool.eq_false_iff.1 hheld)).trans ((if_neg (Bool.eq_false_iff.1 hshelf)).trans ?_)
  simp only [State.updPart_eq_withPart]
  rfl

theorem State.snapshotBegin_busy (hq : ¬∀ f ∈ s.fields, f.2.quiet p = true) : s.snapshotBegin p = s.withPart p Part.copyPutOff :=
  (State.snapshotBegin_due h).trans (if_pos (by simpa using hq))

theorem State.snapshotBegin_quiet (hq : ∀ f ∈ s.fields, f.2.quiet p = true) {g : Gen} (hg : s.genTaken p (s.holderUp && !s.tooLarge p) = g) :
    s.snapshotBegin p = { s.withPart p (Part.copying g) with out := (if g.near then (s.copyMessages p g).reverse else []) ++ s.out } := by
  subst hg
  refine (State.snapshotBegin_due h).trans ((if_neg (by simpa using hq)).trans ?_)
  exact congrArg (fun l : List Output => ({ s.withPart p _ with out := l ++ s.out } : State)) (apply_ite List.reverse _ _ _)

end

/-! ### Confirmations of members (R285) -/

/-- The partition where generation `id` is valid for the job. -/
def Part.jobValidated (id : W64) (x : Part) : Part :=
  { x with snap := { x.snap with gens := x.snap.gens.map (fun (g : Gen) => if g.id = id then { g with jobValid := true } else g) } }

/-- The partition where no confirmation of generation `id` waits any more. -/
def Part.confirmsDone (id : W64) (x : Part) : Part := { x with snap := { x.snap with confirms := x.snap.confirms.filter (fun c => c.1 ≠ id) } }

/-- The partition where module `a` has confirmed generation `id`. -/
def Part.confirmedBy (id : W64) (a : Nat) (x : Part) : Part := { x with snap := { x.snap with confirms := (id, a) :: x.snap.confirms.filter (· ≠ (id, a)) } }

theorem Part.spans_iff (x : Part) : x.spans = true ↔ 1 < x.members.length := decide_eq_true_iff

theorem Part.spans_false (x : Part) : x.spans = false ↔ x.members.length < 2 := by
  rw [← Bool.not_eq_true, Part.spans_iff, Nat.lt_succ_iff, not_lt]

section
variable {id : W64}

theorem Part.lastConfirmed_eq (x : Part) (id : W64) (a : Nat) : ((x.confirmedBy id a).confirmsDone id).jobValidated id = { x with snap := { x.snap with
    confirms := ((id, a) :: x.snap.confirms.filter (· ≠ (id, a))).filter (fun c => c.1 ≠ id), gens := x.snap.gens.map (fun (g : Gen) => if g.id = id then { g with jobValid := true } else g) } } :=
  rfl

theorem State.announceValid_waits (h : ∃ m ∈ (s.part p).members, (id, m.addr) ∉ (s.part p).snap.confirms) : s.announceValid p id = s :=
  if_neg (by simpa using h)

theorem State.announceValid_tells (h : ∀ m ∈ (s.part p).members, (id, m.addr) ∈ (s.part p).snap.confirms) : s.announceValid p id =
    { s.withPart p (fun x => (x.confirmsDone id).jobValidated id) with out := ((s.others (s.part p).members).map (fun b => Output.module_ b (.jobValid p id))).reverse ++ s.out } := by
  refine (if_pos (by simpa using h)).trans ?_
  rw [State.updPart_eq_withPart]
  rfl

/-- A member of the job that this module leads is heard (R285). -/
def State.hears (s : State) (p a : Nat) : Prop := 1 < (s.part p).members.length ∧ s.leads (s.part p).members = true ∧ ∃ m ∈ (s.part p).members, m.addr = a

theorem State.hears_iff {a : Nat} : s.hears p a ↔ (!(s.part p).spans || !s.leads (s.part p).members || !(s.part p).members.any (fun m => m.addr = a)) = false := by
  simp [State.hears, Part.spans, and_assoc]

theorem State.memberConfirms_unheard {a : Nat} (h : ¬s.hears p a) : s.memberConfirms p a id = s :=
  if_pos (Bool.of_not_eq_false (mt State.hears_iff.2 h))

theorem State.memberConfirms_heard {a : Nat} (h : s.hears p a) : s.memberConfirms p a id = (s.withPart p (Part.confirmedBy id a)).announceValid p id := by
  refine (if_neg (Bool.eq_false_iff.1 (State.hears_iff.1 h))).trans ?_
  rw [State.updPart_eq_withPart]
  rfl

theorem State.memberConfirms_waits {a : Nat} (h : s.hears p a) (hw : ∃ m ∈ (s.part p).members, (id, m.addr) ∉ (id, a) :: (s.part p).snap.confirms.filter (· ≠ (id, a))) :
    s.memberConfirms p a id = s.withPart p (Part.confirmedBy id a) := by
  rw [State.memberConfirms_heard h]
  refine State.announceValid_waits ?_
  rw [State.part_withPart_self]
  exact hw

theorem State.memberConfirms_last {a : Nat} (h : s.hears p a) (hall : ∀ m ∈ (s.part p).members, (id, m.addr) ∈ (id, a) :: (s.part p).snap.confirms.filter (· ≠ (id, a)))
    {v : Part → Part} (hv : (((s.part p).confirmedBy id a).confirmsDone id).jobValidated id = v (s.part p)) : s.memberConfirms p a id = { s.withPart p v with
      out := ((s.others (s.part p).members).map (fun b => Output.module_ b (.jobValid p id))).reverse ++ s.out } := by
  rw [State.memberConfirms_heard h, State.announceValid_tells]
  · rw [State.part_withPart_self, State.withPart_withPart, State.withPart_congr hv]
    rfl
  · rw [State.part_withPart_self]
    exact hall

/-! ### JOB_VALID (R285) -/

/-- A confirmed generation `id` is not valid for the job yet. -/
def Part.awaitsJob (x : Part) (id : W64) : Prop := ∃ g ∈ x.snap.gens, g.id = id ∧ g.confirmed = true ∧ g.jobValid = false

theorem State.jobValid_old (h : ¬(s.part p).awaitsJob id) : s.jobValid p id = s :=
  if_pos (by simpa [Part.awaitsJob] using h)

theorem State.jobValid_fresh (h : (s.part p).awaitsJob id) : s.jobValid p id =
    if (s.part p).spans && s.leads (s.part p).members then s.announceValid p id else s.withPart p (Part.jobValidated id) := by
  refine (if_neg (by simpa [Part.awaitsJob] using h)).trans ?_
  rw [State.updPart_eq_withPart]
  rfl

end

end Sys2Proof.Machine
end

section
/-! The protected module's own generation (R283, R285, R287, R313, R314), and the policy and the requests (R312, R313). -/

namespace Sys2Proof.Machine

open Sys2Proof

variable {s : State} {p : PartIx}

/-! ### Stops that a later message sends -/

/-- What the stop tick message of a partition depends on. -/
def State.stopView (s : State) (p : Nat) : TickGen × Bool × Option (BitVec 48) × Option Plan × Nat :=
  (s.tg, (s.part p).started, (s.part p).stopAt, (s.part p).plan, (s.part p).edgeIn)

/-- The partition with the stop edge that the state `s` gives it. -/
def State.stopping (s : State) (p : Nat) (y : Part) : Part :=
  { y with stopAt := if (s.part p).started = true ∧ (s.part p).stopAt = none then some (s.edgeAfter p 4096) else (s.part p).stopAt }

theorem State.sendStop_congr {t : State} (h : t.stopView p = s.stopView p) : t.sendStop p = t.withPart p (s.stopping p) := by
  simp only [State.stopView, Prod.mk.injEq] at h
  obtain ⟨htg, hrun, hstop, hplan, hedge⟩ := h
  have hedgeAt : t.edgeAfter p 4096 = s.edgeAfter p 4096 := by
    have htoEdge : t.toEdge = s.toEdge := by rw [State.toEdge, htg, State.toEdge]
    simp only [State.edgeAfter, htoEdge, htg, hplan, hedge]
  rw [State.sendStop_eq, hrun, hstop, hedgeAt]
  rfl

theorem State.stopView_withPart {g : Part → Part} (hg : ∀ y, (g y).started = y.started ∧ (g y).stopAt = y.stopAt ∧ (g y).plan = y.plan ∧ (g y).edgeIn = y.edgeIn) :
    (s.withPart p g).stopView p = s.stopView p := by
  obtain ⟨hrun, hstop, hplan, hedge⟩ := hg (s.part p)
  simp only [State.stopView, State.part_withPart_self, hrun, hstop, hplan, hedge]
  rfl

theorem State.stopView_endLong (k : LongKind → Bool) (st : W16) (r : W64) (n : Nat) : (s.endLong k st r n).stopView p = s.stopView p := by
  obtain ⟨fw, host, out, h⟩ := s.endLong_frame k st r n
  rw [h]
  rfl

theorem State.stopView_announceValid (id : W64) : (s.announceValid p id).stopView p = s.stopView p := by
  by_cases h : ∀ m ∈ (s.part p).members, (id, m.addr) ∈ (s.part p).snap.confirms
  · rw [State.announceValid_tells h]
    exact State.stopView_withPart (s := s) (g := fun x => (x.confirmsDone id).jobValidated id) (fun _ => ⟨rfl, rfl, rfl, rfl⟩)
  · rw [State.announceValid_waits (by simpa using h)]

theorem State.stopView_memberConfirms (a : Nat) (id : W64) : (s.memberConfirms p a id).stopView p = s.stopView p := by
  by_cases h : s.hears p a
  · rw [State.memberConfirms_heard h, State.stopView_announceValid]
    exact State.stopView_withPart (fun _ => ⟨rfl, rfl, rfl, rfl⟩)
  · rw [State.memberConfirms_unheard h]

/-! ### CONFIRM (R283, R285, R313, R314) -/

/-- The copy of generation `id` is on its way or waits for its confirmation. -/
def Part.takes (x : Part) (id : W64) : Prop := ∃ g, x.snap.taking = some g ∧ g.id = id ∧ (x.snap.phase = .copying ∨ x.snap.phase = .confirming)

theorem State.ownConfirm_other {id : W64} (h : ¬(s.part p).takes id) : s.ownConfirm p id = s := by
  unfold State.ownConfirm
  extract_lets x
  split
  · rfl
  · next g hg => exact if_pos (by simpa [Part.takes, x, hg, imp_iff_not_or] using h)

/-- The partition `y`, which was `x`, once its own generation `g` is confirmed `cyc` cycles after the commit boundary (R283 to R285). -/
def Part.keepsGen (x : Part) (g : Gen) (cyc : Nat) (y : Part) : Part := { y with
  lift := if x.snap.rebaseIn then y.lift else .snapshot :: y.lift
  snap := { y.snap with
    phase := .idle, taking := none, gens := { g with confirmed := true, jobValid := decide (x.members.length < 2) } :: y.snap.gens, since := 0, stopMs := min 0xFFFF (cyc / 1200000)
    rebase := y.snap.rebase && !x.snap.rebaseIn, rebaseIn := false, nowIn := false
    rateB := if g.near = true ∧ 18000000 < cyc then max 1 (x.snap.size * 1200 / (cyc - 18000000)) else y.snap.rateB } }

theorem Part.keepsGen_eq (x : Part) (g : Gen) (cyc : Nat) : x.keepsGen g cyc x = { x with
    lift := if x.snap.rebaseIn then x.lift else .snapshot :: x.lift
    snap := { x.snap with
      phase := .idle, taking := none, gens := { g with confirmed := true, jobValid := !x.spans } :: x.snap.gens, since := 0, stopMs := min 0xFFFF (cyc / 1200000)
      rebase := x.snap.rebase && !x.snap.rebaseIn, rebaseIn := false, nowIn := false
      rateB := if g.near then measuredRate x.snap.size cyc x.snap.rateB else x.snap.rateB } } := by
  have hjob : (!x.spans) = decide (x.members.length < 2) := by
    rw [Part.spans, ← decide_not]
    exact decide_eq_decide.2 (not_lt.trans Nat.lt_succ_iff.symm)
  have hrate : (if g.near then measuredRate x.snap.size cyc x.snap.rateB else x.snap.rateB) =
      if g.near = true ∧ 18000000 < cyc then max 1 (x.snap.size * 1200 / (cyc - 18000000)) else x.snap.rateB := by
    unfold measuredRate
    by_cases hn : g.near = true <;> by_cases hc : cyc ≤ 18000000
    · simp [hn, hc]
    · simp [hn, hc, Nat.lt_of_not_le hc]
    · simp [hn]
    · simp [hn]
  rw [hjob, hrate]
  rfl

/-- The wafer cycles since the commit boundary of the snapshot. -/
def State.copyCyc (s : State) (p : Nat) : Nat := (s.tg.cyc - (s.part p).snap.beganCyc).toNat

/-- In a job of several modules the lowest-ranked DESIGNATED member learns of a confirmation (R285); `t` is the state that keeps the generation. -/
def State.tellsLeader (s t : State) (p : Nat) (id : W64) : State :=
  if (s.part p).spans then
    (match State.leader (s.part p).members with
     | some a => if a = s.fab.addr then t.memberConfirms p a id else t.emit [.module_ a (.confirm p id)]
     | none => t)
  else t

/-- A SNAP_NOW for which the snapshot was taken ends (R313). -/
def State.servesNow (s t : State) (p : Nat) : State := if (s.part p).snap.nowIn then t.endLong (fun k => k = .snapNow p) stOk 0 0 else t

/-- The partition whose re-base goes on with a recovery from the generation just taken (R314). -/
def Part.rebasing (id : W64) (cyc : W64) (y : Part) : Part := { y with rcv := { y.rcv with active := true, path := 8, gen := some id, detour := some (0, 0), startCyc := cyc } }

theorem State.stopView_tellsLeader {t : State} (h : t.stopView p = s.stopView p) (id : W64) : (s.tellsLeader t p id).stopView p = s.stopView p := by
  unfold State.tellsLeader
  split
  · split
    · split
      · exact (State.stopView_memberConfirms ..).trans h
      · exact h
    · exact h
  · exact h

theorem State.stopView_servesNow {t : State} (h : t.stopView p = s.stopView p) : (s.servesNow t p).stopView p = s.stopView p := by
  unfold State.servesNow
  split
  · exact (State.stopView_endLong ..).trans h
  · exact h

/-- What the confirmation of the own generation `g` leaves before a re-base goes on: it is kept, and the leader and a SNAP_NOW learn of it. -/
def State.genKept (s : State) (p : PartIx) (g : Gen) (id : W64) : State :=
  s.servesNow (s.tellsLeader (s.withPart p ((s.part p).keepsGen g (s.copyCyc p))) p id) p

theorem State.stopView_genKept (s : State) (p : PartIx) (g : Gen) (id : W64) : (s.genKept p g id).stopView p = s.stopView p :=
  State.stopView_servesNow (State.stopView_tellsLeader (State.stopView_withPart (g := (s.part p).keepsGen g (s.copyCyc p)) (fun _ => ⟨rfl, rfl, rfl, rfl⟩)) id)

section
variable {g : Gen} {id : W64} (htake : (s.part p).snap.taking = some g) (hid : g.id = id) (hphase : (s.part p).snap.phase = .copying ∨ (s.part p).snap.phase = .confirming)
include htake hid hphase

theorem State.ownConfirm_keeps : s.ownConfirm p id =
    if (s.part p).snap.rebaseIn then ((s.genKept p g id).withPart p (Part.rebasing id s.tg.cyc)).sendStop p else s.genKept p g id := by
  have hkept : s.withPart p ((s.part p).keepsGen g (s.copyCyc p)) = s.withPart p (fun _ => _) := State.withPart_congr (Part.keepsGen_eq ..)
  rw [State.genKept, hkept, State.ownConfirm]
  simp only [htake]
  refine (if_neg (by simpa [hid, or_iff_not_imp_left] using hphase)).trans ?_
  simp only [State.updPart_eq_withPart]
  rfl

theorem State.ownConfirm_rests (h : (s.part p).snap.rebaseIn = false) : s.ownConfirm p id = s.genKept p g id :=
  (State.ownConfirm_keeps htake hid hphase).trans (if_neg (Bool.eq_false_iff.1 h))

theorem State.ownConfirm_rebases (h : (s.part p).snap.rebaseIn = true) :
    s.ownConfirm p id = (s.genKept p g id).withPart p (fun y => s.stopping p (y.rebasing id s.tg.cyc)) := by
  refine (State.ownConfirm_keeps htake hid hphase).trans ((if_pos h).trans ?_)
  have hview := (State.stopView_withPart (g := Part.rebasing id s.tg.cyc) (fun _ => ⟨rfl, rfl, rfl, rfl⟩)).trans (s.stopView_genKept p g id)
  rw [State.sendStop_congr hview, State.withPart_withPart]

end

end Sys2Proof.Machine
end

section
/-! The protected module's policy, requests and losses (R287, R312, R313). -/

namespace Sys2Proof.Machine

open Sys2Proof

variable {s : State} {p : PartIx}

/-! ### GENERATION_LOSS_NOTICE (R287) -/

/-- Without a command in flight that it names, the end of a long command is none. -/
theorem State.endLong_none {q : LongKind → Bool} (h : ∀ l ∈ s.fw.flight, q l.kind = false) (st : W16) (r : W64) (n : Nat) : s.endLong q st r n = s := by
  have hnone : s.long? q = none := List.find?_eq_none.2 (fun l hl => Bool.eq_false_iff.1 (h l hl))
  rw [State.endLong, hnone]

/-- The generations of a partition whose near copies of `ids` are lost. -/
def Part.nearLost (ids : List W64) (x : Part) : Part := { x with snap := { x.snap with
  gens := (x.snap.gens.map (fun (g : Gen) => if ids.contains g.id then { g with near := false } else g)).filter Gen.kept } }

/-- The state that knows of the loss of near copies, and of the room that the holder has left. -/
def State.nearLost (s : State) (p : PartIx) (ids : List W64) (room : Nat) : State := { s.withPart p (Part.nearLost ids) with fab := { s.fab with room := some room } }

section
variable {ids : List W64} {room : Nat}

theorem State.genLoss_kept (h : ∀ g, (s.part p).snap.taking = some g → g.id ∉ ids) : s.genLoss p ids room = s.nearLost p ids room := by
  unfold State.genLoss
  rw [State.updPart_eq_withPart]
  split
  · next g hg => exact if_neg (by simpa using h g hg)
  · rfl

theorem State.genLoss_taking {g : Gen} (hg : (s.part p).snap.taking = some g) (hid : g.id ∈ ids) : s.genLoss p ids room =
    ((s.nearLost p ids room).withPart p Part.snapFailed).endLong (fun k => k = .snapNow p) stNoSnapshot 0 0 := by
  simp only [State.genLoss, hg, State.updPart_eq_withPart, State.failSnap]
  exact if_pos (by simpa using hid)

end

/-! ### SNAP_POLICY and SNAP_NOW (R312, R313) -/

theorem SnapPolicy.ok_iff (q : SnapPolicy) : q.ok = true ↔ q.mode < 3 ∧ 1 ≤ q.k ∧ q.k ≤ 8 ∧ 1 ≤ q.m0 ∧ 1 ≤ q.n ∧ (q.mode = 1 → q.n ≤ q.nMax) ∧ (q.target < 16 ∨ q.target = 0xFF) ∧
    1 ≤ q.storeEvery ∧ q.storeEvery ≤ 255 := by
  simp [SnapPolicy.ok, and_assoc, imp_iff_not_or]

/-- A partition that does not exist. -/
theorem State.partOff_iff {n : Nat} (hn : n < 16) : (!s.partOn n) = true ↔ (s.part n).on = false := by
  rw [State.partOn, decide_eq_true hn, Bool.true_and, Bool.not_eq_true']

section
variable {k : Pkt} {n rsv : Nat} {q : SnapPolicy}

theorem Pkt.names_iff : (16 ≤ n || !k.names n) = true ↔ ¬(n < 16 ∧ k.part = n) := by
  simp only [Bool.or_eq_true, decide_eq_true_eq, Bool.not_eq_true', Pkt.names, decide_eq_false_iff_not, ← not_lt]
  tauto

theorem Pkt.policyRange_iff : (rsv ≠ 0 || 16 ≤ n || !k.names n || !q.ok) = true ↔ ¬(rsv = 0 ∧ n < 16 ∧ k.part = n ∧ q.ok = true) := by
  rw [Bool.or_assoc (decide (rsv ≠ 0)), Bool.or_eq_true, Bool.or_eq_true, Pkt.names_iff]
  simp only [decide_eq_true_eq, Bool.not_eq_true']
  rw [← Bool.not_eq_true]
  tauto

theorem State.snapPolicy_bad (h : ¬(rsv = 0 ∧ n < 16 ∧ k.part = n ∧ q.ok = true)) : s.taken.snapPolicy ⟨k, true⟩ n q rsv = s.answers k true stBadParam :=
  if_pos (Pkt.policyRange_iff.2 h)

theorem State.snapPolicy_good (h : rsv = 0 ∧ n < 16 ∧ k.part = n ∧ q.ok = true) : s.taken.snapPolicy ⟨k, true⟩ n q rsv =
    if (s.part n).on = false then s.answers k true stPartUnknown
    else if s.tooLarge n then s.answers k true stSnapTooLarge
    else (s.withPart (.ofNat 16 n) (fun x => { x with snap := { x.snap with nextPolicy := some q } })).answers k true stOk := by
  have ⟨_, hn, _⟩ := h
  rw [← State.updPart_eq_ofNat s hn]
  exact (if_neg (fun hc => Pkt.policyRange_iff.1 hc h)).trans (if_congr (State.partOff_iff hn) rfl rfl)

theorem State.snapNow_bad (h : ¬(n < 16 ∧ k.part = n)) : s.taken.snapNow ⟨k, true⟩ n = s.answers k true stBadParam := if_pos (Pkt.names_iff.2 h)

theorem State.snapNow_good (h : n < 16 ∧ k.part = n) : s.taken.snapNow ⟨k, true⟩ n =
    if (s.part n).on = false then s.answers k true stPartUnknown
    else if s.tooLarge n then s.answers k true stSnapTooLarge
    else (s.taken.withPart (.ofNat 16 n) (fun x => { x with snap := { x.snap with wanted := true } })).fly ⟨k, true⟩ (.snapNow n) := by
  rw [← State.updPart_eq_ofNat s.taken h.1]
  exact (if_neg (fun hc => Pkt.names_iff.1 hc h)).trans (if_congr (State.partOff_iff h.1) rfl rfl)

end

end Sys2Proof.Machine
end

section
/-! Snapshots at the holder (R283, R285 to R288): the slots, the digests, the shelf and the shared store, and O48. -/

namespace Sys2Proof.Machine

open Sys2Proof

variable {s : State}

/-! ### SNAP_BEGIN and SNAPSHOT_COPY_DONE -/

theorem State.heldBegin_stranger {src : Nat} (h : src ≠ s.fab.held ∨ src = 0xFFF) (p : Nat) (id : W64) (size : Nat) (pol : SnapPolicy) : s.heldBegin src p id size pol = s :=
  if_pos (by simpa using h)

theorem State.heldBegin_held {src : Nat} (h : src = s.fab.held) (hne : src ≠ 0xFFF) (p : Nat) (id : W64) (size : Nat) (pol : SnapPolicy) : s.heldBegin src p id size pol =
    { s with fab := { s.fab with slots := { part := p, id := id, size := size, pol := pol } ::
      (((s.fab.slots.filter (fun h => h.part = p)).find? HeldSlot.valid).toList ++ s.fab.slots.filter (fun h => h.part ≠ p)) } } :=
  if_neg (by simp [h, h ▸ hne])

/-- A slot waits for the regions of a generation. -/
def State.slotWaits (s : State) (p : Nat) (id : W64) : Prop := ∃ h ∈ s.fab.slots, h.part = p ∧ h.id = id ∧ h.valid = false

theorem State.slotWaits_iff {p : Nat} {id : W64} : s.fab.slots.any (fun h => h.part = p && h.id = id && !h.valid) = true ↔ s.slotWaits p id := by
  simp [State.slotWaits, and_assoc]

section
variable {p : Nat} {id : W64} {rs : List (GenRegion × W64)}

theorem State.copyDone_unasked (h : ¬s.slotWaits p id) : s.copyDone p id rs = s :=
  if_pos (by rwa [Bool.not_eq_true', ← Bool.not_eq_true, State.slotWaits_iff])

theorem State.copyDone_asked (h : s.slotWaits p id) : s.copyDone p id rs =
    if rs.any (fun r => r.1.digest ≠ r.2) then s.emit [.module_ s.fab.held (.generationLoss p [id] s.heldRoom)]
    else { s with fab := { s.fab with
        slots := s.fab.slots.map (fun (h : HeldSlot) => if h.part = p && h.id = id then { h with valid := true, regions := rs.map Prod.fst } else h)
        shelf := s.fab.shelf.queue (p, id) } }.emit [.module_ s.fab.held (.confirm p id)] :=
  if_neg (by simp [State.slotWaits_iff.2 h])

theorem State.copyDone_differs (h : s.slotWaits p id) (hd : ∃ r ∈ rs, r.1.digest ≠ r.2) : s.copyDone p id rs =
    { s with out := .module_ s.fab.held (.generationLoss p [id] s.heldRoom) :: s.out } :=
  (State.copyDone_asked h).trans (if_pos (by simpa using hd))

theorem Shelf.queue_eq (h : Shelf) (g : Nat × W64) : h.queue g = if h.writing = none then { h with writing := some g } else { h with waiting := h.waiting ++ [g] } :=
  if_congr Option.isNone_iff_eq_none rfl rfl

theorem State.copyDone_whole (h : s.slotWaits p id) (hd : ∀ r ∈ rs, r.1.digest = r.2) : s.copyDone p id rs = { s with
    out := .module_ s.fab.held (.confirm p id) :: s.out
    fab := { s.fab with
      slots := s.fab.slots.map (fun (h : HeldSlot) => if h.part = p ∧ h.id = id then { h with valid := true, regions := rs.map Prod.fst } else h)
      shelf := if s.fab.shelf.writing = none then { s.fab.shelf with writing := some (p, id) } else { s.fab.shelf with waiting := s.fab.shelf.waiting ++ [(p, id)] } } } := by
  refine (State.copyDone_asked h).trans ((if_neg (by simpa using hd)).trans ?_)
  simp only [Shelf.queue_eq, Bool.and_eq_true, decide_eq_true_eq]
  rfl

end

/-! ### SHELF_WRITE_DONE (R288) -/

theorem Shelf.next_eq (h : Shelf) (forced : Bool) : h.next forced =
    { h with writing := if forced then h.waiting.head? else h.waiting.getLast?, waiting := if forced then h.waiting.tail else [] } := by
  obtain ⟨writing, waiting⟩ := h
  cases forced <;> cases waiting <;> rfl

/-- The slot of a generation at the holder, and the port of the storage target that its policy names. -/
def State.slotOf (s : State) (g : Nat × W64) : HeldSlot := (s.fab.slots.find? (fun x => x.part = g.1 && x.id = g.2)).getD {}
def State.storePort (s : State) (g : Nat × W64) : Nat := (s.fab.targets.toList.getD (s.slotOf g).pol.target {}).port

/-- The complete shelf generations of the partition with `g`. -/
def State.shelfCount (s : State) (g : Nat × W64) : Nat := Tab.get 0 s.fab.shelf.count g.1 + 1

/-- A generation goes from the shelf to the shared store. -/
def State.copiesOn (s : State) (g : Nat × W64) : Bool :=
  (s.slotOf g).pol.rate ≠ 0 ∧ (s.slotOf g).pol.target < 16 ∧ s.shelfCount g % max 1 (s.slotOf g).pol.storeEvery = 0 ∧
    (s.port (s.storePort g)).eth = true ∧ (s.port (s.storePort g)).st = .up

theorem State.copiesOn_eq (s : State) (g : Nat × W64) :
    ((s.slotOf g).pol.stores (s.shelfCount g) && (s.port (s.storePort g)).eth && (s.port (s.storePort g)).st = .up) = s.copiesOn g := by
  rw [Bool.eq_iff_iff]
  simp only [SnapPolicy.stores, State.copiesOn, Bool.and_eq_true, decide_eq_true_eq, and_assoc]

/-- The holder once its shelf holds `g`: the protected module is told, and the next write begins. -/
def State.shelved (s : State) (g : Nat × W64) (copy : Bool) : State := { s with
  out := .module_ s.fab.held (.shelfDone g.1 g.2 copy) :: s.out
  fab := { s.fab with
    slots := s.fab.slots.map (fun (x : HeldSlot) => if x.part = g.1 && x.id = g.2 then { x with shelf := true } else x)
    shelf := { s.fab.shelf with
      complete := Shelf.keep (g :: s.fab.shelf.complete), count := Tab.set 0 s.fab.shelf.count g.1 (s.shelfCount g)
      stored := if copy then g :: s.fab.shelf.stored else s.fab.shelf.stored }.next s.fab.forced } }

theorem State.shelved_eq (s : State) (g : Nat × W64) (copy : Bool) : s.shelved g copy = { s with
    out := .module_ s.fab.held (.shelfDone g.1 g.2 copy) :: s.out
    fab := { s.fab with
      slots := s.fab.slots.map (fun (x : HeldSlot) => if x.part = g.1 ∧ x.id = g.2 then { x with shelf := true } else x)
      shelf := { s.fab.shelf with
        complete := Shelf.keep (g :: s.fab.shelf.complete), count := Tab.set 0 s.fab.shelf.count g.1 (s.shelfCount g), stored := if copy then g :: s.fab.shelf.stored else s.fab.shelf.stored
        writing := if s.fab.forced then s.fab.shelf.waiting.head? else s.fab.shelf.waiting.getLast?, waiting := if s.fab.forced then s.fab.shelf.waiting.tail else [] } } } := by
  simp only [State.shelved, Shelf.next_eq, Bool.and_eq_true, decide_eq_true_eq]

/-- The RDMA operation of a copy to the shared store. -/
def State.storeOp (s : State) (g : Nat × W64) : RoceOp := { target := (s.slotOf g).pol.target, len := (s.slotOf g).size, store := some g, rate := (s.slotOf g).pol.rate }

theorem State.shelfDone_eq (s : State) (g : Nat × W64) :
    s.shelfDone g = if s.copiesOn g then (s.shelved g (s.copiesOn g)).sendRoce (s.storePort g) (s.storeOp g) else s.shelved g (s.copiesOn g) := by
  rw [← State.copiesOn_eq]
  rfl

section
variable {g : Nat × W64} (hw : s.fab.shelf.writing = some g)
include hw

theorem State.shelfWriteDone_writes : s.shelfWriteDone none = s.shelfDone g := by
  rw [State.shelfWriteDone, hw]

theorem State.shelfWriteDone_local (hc : s.copiesOn g = false) : s.shelfWriteDone none = s.shelved g false := by
  rw [State.shelfWriteDone_writes hw, State.shelfDone_eq, hc]
  rfl

theorem State.shelfWriteDone_copies (hc : s.copiesOn g = true) : s.shelfWriteDone none = (s.shelved g true).sendRoce (s.storePort g) (s.storeOp g) := by
  rw [State.shelfWriteDone_writes hw, State.shelfDone_eq, hc]
  rfl

/-- The operation as it leaves, cut into packets of the path MTU (R243). -/
def RoceOp.cut (o : RoceOp) : RoceOp := { o with packets := (o.len + 4095) / 4096 }

theorem State.shelfWriteDone_sends (hc : s.copiesOn g = true) (hp : (s.port (s.storePort g)).pfcPaused = false) :
    s.shelfWriteDone none = { s.shelved g true with out := .roce (s.storePort g) (s.storeOp g).cut :: (s.shelved g true).out } :=
  (State.shelfWriteDone_copies hw hc).trans (if_neg (Bool.eq_false_iff.1 hp))

theorem State.shelfWriteDone_queues (hc : s.copiesOn g = true) (hp : (s.port (s.storePort g)).pfcPaused = true) :
    s.shelfWriteDone none = (s.shelved g true).withPort (.ofNat 28 (s.storePort g)) (fun q => { q with roceq := q.roceq ++ [(s.storeOp g).cut] }) := by
  refine (State.shelfWriteDone_copies hw hc).trans ((if_pos hp).trans ?_)
  rw [← State.updPort_eq_withPort, Fin.val_ofNat, Nat.mod_eq_of_lt (State.lt_of_pfcPaused hp)]
  rfl

end

/-- Of the generations on the shelf the two newest stay there, told by the list of their numbers. -/
theorem unshelve_eq (ids : List W64) : (fun y : Gen => if y.shelf && !ids.contains y.id then { y with shelf := false } else y) =
    fun y => if y.id ∈ ids then y else { y with shelf := false } := by
  funext y
  by_cases hid : y.id ∈ ids
  · simp [hid]
  · cases hs : y.shelf with
    | true => simp [hid]
    | false =>
      have hsame : ({ y with shelf := false } : Gen) = y := by rw [← hs]
      simp [hid, hsame]

theorem State.shelfWriteDone_notice (p : PartIx) (id : W64) (stored : Bool) :
    s.shelfWriteDone (some (p, id, stored)) = if s.holderUp then s.withPart p (fun x => { x with snap := x.snap.shelved id stored }) else s := by
  rw [State.shelfWriteDone, State.updPart_eq_withPart]

end Sys2Proof.Machine

open Sys2Proof Sys2Proof.Machine

/-- Settles O48: a snapshot goes from its held partition to the holder's shelf and store, and every member's confirmation makes it valid for the job. -/
theorem snapshotCommandsComplete : Obligations.SnapshotCommandsComplete := by
  unfold Obligations.SnapshotCommandsComplete
  refine ⟨fun s => ⟨fun p => ?_, fun p id => ?_, fun p a id => ?_, fun p id => ?_, fun p ids room => ?_, fun k p q rsv hfront => ?_, fun k p hfront hfree => ?_⟩, fun s => ?_⟩
  · intro x go quiet near g
    refine ⟨fun h => next_congr (State.snapshotBegin_stays h), fun h hq => next_congr (State.snapshotBegin_busy h hq), fun h hq => next_congr ?_⟩
    exact State.snapshotBegin_quiet h hq rfl
  · intro x mine
    refine ⟨fun h => next_congr (State.ownConfirm_other h), fun g htake hid hphase => ?_⟩
    intro cyc kept told served
    have htold : s.tellsLeader kept p id = told := by
      unfold State.tellsLeader
      by_cases hs : x.members.length < 2
      · exact (if_neg (Bool.eq_false_iff.1 ((Part.spans_false x).2 hs))).trans (if_pos hs).symm
      · refine (if_pos ((Part.spans_iff x).2 (Nat.lt_of_not_le fun hc => hs (Nat.lt_succ_of_le hc)))).trans (Eq.trans ?_ (if_neg hs).symm)
        cases State.leader x.members <;> rfl
    have hserved : s.genKept p g id = served := congrArg (fun t => s.servesNow t p) htold
    rw [← hserved]
    exact ⟨fun h => next_congr (State.ownConfirm_rests htake hid hphase h), fun h => next_congr (State.ownConfirm_rebases htake hid hphase h)⟩
  · intro x heard cs
    refine ⟨fun h => next_congr (State.memberConfirms_unheard h), fun h hw => next_congr ((State.memberConfirms_waits h hw).trans (State.withPart_congr rfl)),
      fun h hall => next_congr ?_⟩
    exact State.memberConfirms_last h hall (x.lastConfirmed_eq id a.toNat)
  · intro x fresh
    have hleads := fun (h : fresh) (hm : 1 < x.members.length) (hl : s.leads x.members = true) =>
      (State.jobValid_fresh h).trans (if_pos (Bool.and_eq_true_iff.2 ⟨(Part.spans_iff x).2 hm, hl⟩))
    refine ⟨fun h => next_congr (State.jobValid_old h), fun h hone => next_congr ((State.jobValid_fresh h).trans (if_neg ?_)),
      fun h hm hl hw => next_congr ((hleads h hm hl).trans (State.announceValid_waits hw)), fun h hm hl hall => next_congr ((hleads h hm hl).trans (State.announceValid_tells hall))⟩
    rw [Bool.and_eq_true, Part.spans_iff, not_and_or, Nat.not_lt, Bool.not_eq_true]
    exact hone.imp_left Nat.le_of_lt_succ
  · intro x t
    refine ⟨fun h => next_congr (State.genLoss_kept h), fun g htake hid => ?_⟩
    intro u
    have hrun : exec (.generationLossNotice p ids room) s = .next (u.endLong (fun k => k = .snapNow p) stNoSnapshot 0 0) := next_congr (State.genLoss_taking htake hid)
    refine ⟨fun h => hrun.trans (next_congr (State.endLong_none (s := u) (fun l hl => decide_eq_false (h l hl)) ..)), fun f rest hfl => hrun.trans (next_congr ?_)⟩
    exact State.endLong_head (s := u) hfl (decide_eq_true rfl) ..
  · intro good
    have hrun : exec (.snapPolicy k p q rsv) s = .next (s.taken.snapPolicy ⟨k, true⟩ p.toNat q rsv) := next_congr (State.command_front hfront (fun _ => rfl) State.busyOn_none)
    have hrange : good ↔ rsv = 0 ∧ p.toNat < 16 ∧ k.part = p.toNat ∧ q.ok = true := by rw [SnapPolicy.ok_iff]
    have hgood := fun h : good => hrun.trans (next_congr (State.snapPolicy_good (hrange.1 h)))
    refine ⟨fun h => hrun.trans (next_congr (State.snapPolicy_bad (mt hrange.2 h))), fun h hon => (hgood h).trans (next_congr (if_pos hon)),
      fun h hon hl => (hgood h).trans (next_congr ?_), fun h hon hl => (hgood h).trans (next_congr ?_)⟩
    · exact (if_neg (by simp [hon])).trans (if_pos hl)
    · exact (if_neg (by simp [hon])).trans (if_neg (Bool.eq_false_iff.1 hl))
  · intro good
    have hrun : exec (.snapNow k p) s = .next (s.taken.snapNow ⟨k, true⟩ p.toNat) := next_congr (State.command_front hfront (fun _ => rfl) hfree)
    have hgood := fun h : good => hrun.trans (next_congr (State.snapNow_good h))
    refine ⟨fun h => hrun.trans (next_congr (State.snapNow_bad h)), fun h hon => (hgood h).trans (next_congr (if_pos hon)),
      fun h hon hl => (hgood h).trans (next_congr ?_), fun h hon hl => (hgood h).trans (next_congr ?_)⟩
    · exact (if_neg (by simp [hon])).trans (if_pos hl)
    · exact (if_neg (by simp [hon])).trans (if_neg (Bool.eq_false_iff.1 hl))
  · intro h
    refine ⟨fun src p id size pol => ?_, fun p id rs => ?_, fun hw => ?_, fun g hw => ?_, fun p id stored => ?_⟩
    · intro mine
      refine ⟨fun hs => next_congr (State.heldBegin_stranger (hs.imp_right (congrArg BitVec.toNat)) ..), fun hs hne => next_congr (State.heldBegin_held hs (fun he => hne (BitVec.eq_of_toNat_eq he)) ..)⟩
    · intro waits
      exact ⟨fun hn => next_congr (State.copyDone_unasked hn), fun ha hd => next_congr (State.copyDone_differs ha hd), fun ha hd => next_congr (State.copyDone_whole ha hd)⟩
    · exact next_congr (by rw [State.shelfWriteDone, hw])
    · intro n slot port copy t op
      have ht : s.shelved g copy = t := s.shelved_eq g copy
      rw [← ht]
      refine ⟨fun hc => next_congr ?_, fun hc hp => next_congr ?_, fun hc hp => next_congr ?_⟩
      all_goals rw [hc]
      · exact State.shelfWriteDone_local hw hc
      · exact State.shelfWriteDone_sends hw hc hp
      · exact State.shelfWriteDone_queues hw hc hp
    · intro gs newest
      refine ⟨fun hu => next_congr ((State.shelfWriteDone_notice ..).trans (if_neg (Bool.eq_false_iff.1 hu))), fun hu => next_congr ((State.shelfWriteDone_notice ..).trans ((if_pos hu).trans ?_))⟩
      refine State.withPart_congr ?_
      rw [← unshelve_eq]
      rfl
end

section
/-! RECOVER (R282, R289, R314, R315): the restart from a generation, the re-base, and the re-test of a terrace. -/

namespace Sys2Proof.Machine

open Sys2Proof

variable {s : State} {k : Pkt} {n : Nat}

/-! ### A command that names its partition -/

section
variable {t u v : State}

/-- A command that names its partition finds it missing, or goes on. -/
theorem State.named_off (h : n < 16 ∧ k.part = n) (hon : (s.part n).on = false) : (if 16 ≤ n || !k.names n then t else if !s.partOn n then u else v) = u :=
  (if_neg (fun hc => Pkt.names_iff.1 hc h)).trans (if_pos ((State.partOff_iff h.1).2 hon))

theorem State.named_on (h : n < 16 ∧ k.part = n) (hon : (s.part n).on = true) : (if 16 ≤ n || !k.names n then t else if !s.partOn n then u else v) = v :=
  (if_neg (fun hc => Pkt.names_iff.1 hc h)).trans (if_neg (fun hc => Bool.false_ne_true (((State.partOff_iff h.1).1 hc).symm.trans hon)))

end

/-! ### RESTART and RESTART_FROM -/

/-- The generation that a restart picks: the newest job-valid one that can be read, or the one named. -/
def State.restartPick (s : State) (n : Nat) (id : Option W64) : Option Gen :=
  (s.part n).snap.gens.find? (fun g => (id = none || id = some g.id) && g.jobValid && (s.genSource g).isSome)

/-- The partition whose recovery has begun from the generation `id`, or from the newest one. -/
def Part.recovering (cyc : W64) (id : Option W64) (x : Part) : Part := { x with rcv := { active := true, startCyc := cyc, gen := id } }

theorem State.chosenGen_recovering (hn : n < 16) (cyc : W64) (id : Option W64) :
    (s.setPart n ((s.part n).recovering cyc id)).chosenGen n = s.restartPick n id := by
  simp only [State.chosenGen, State.restartPick, State.part_setPart _ _ _ _ hn, if_pos]
  cases id with
  | none => exact congrArg (fun q => (s.part n).snap.gens.find? q) (funext fun g => by simp [State.genSource]; rfl)
  | some id => exact congrArg (fun q => (s.part n).snap.gens.find? q) (funext fun g => by simp [eq_comm]; rfl)

/-- The partition that restarts: its recovery has begun and nothing keeps it stopped. -/
def Part.restarting (cyc : W64) (id : Option W64) (x : Part) : Part := { x.recovering cyc id with stopStatus := 0, startAt := none, ready := [] }

section
variable {id : Option W64}

theorem State.recoverFrom_bad (h : ¬(n < 16 ∧ k.part = n)) : s.taken.recoverFrom ⟨k, true⟩ n id = s.answers k true stBadParam := if_pos (Pkt.names_iff.2 h)

variable (h : n < 16 ∧ k.part = n)
include h

theorem State.recoverFrom_unknown (hon : (s.part n).on = false) : s.taken.recoverFrom ⟨k, true⟩ n id = s.answers k true stPartUnknown := State.named_off h hon

variable (hon : (s.part n).on = true)
include hon

theorem State.recoverFrom_absent (hplan : (s.part n).plan = none) : s.taken.recoverFrom ⟨k, true⟩ n id = s.answers k true stPlanAbsent := by
  refine (State.named_on h hon).trans ?_
  simp only [show (s.taken.part n).plan = none from hplan]
  rfl

variable {plan : Plan} (hplan : (s.part n).plan = some plan)
include hplan

/-- The checks of a restart that follow that of its plan. -/
theorem State.recoverFrom_planned : s.taken.recoverFrom ⟨k, true⟩ n id =
    if (s.part n).started then s.answers k true stPartRunning
    else (s.restartPick n id).elim (s.answers k true stNoSnapshot) (fun g =>
      if !g.fits plan (s.part n).placement then s.answers k true stBadParam
      else (s.taken.withPart (.ofNat 16 n) (Part.restarting s.tg.cyc id)).fly ⟨k, true⟩ (.recover n)) := by
  have hpick := State.chosenGen_recovering (s := s.taken) h.1 s.tg.cyc id
  rw [← State.updPart_eq_ofNat s.taken h.1]
  refine (State.named_on h hon).trans ?_
  extract_lets x
  split
  · next hnone => exact absurd (hplan.symm.trans hnone) (by simp)
  · next plan' hsome =>
    obtain rfl : plan' = plan := Option.some.inj (hsome.symm.trans hplan)
    refine if_congr Iff.rfl rfl ?_
    split
    · next hnone =>
      rw [show s.restartPick n id = none from hpick.symm.trans hnone]
      rfl
    · next g hsome =>
      rw [show s.restartPick n id = some g from hpick.symm.trans hsome]
      rfl

end

/-! ### REBASE (R314) -/

/-- The terraces of a placement are lit, and its stacks present. -/
def State.standsWhole (s : State) (n : Nat) (pl : Placement) : Prop :=
  (∀ c ∈ (s.part n).coreSites pl, s.lit (c.2 / 32) = true) ∧ ∀ r ∈ pl.regions, (s.field r.field).pwr.lost = false ∧ (s.field r.field).pwr.mif = .on

theorem State.standsWhole_iff {pl : Placement} : s.standsWhole n pl ↔
    ((((s.part n).coreSites pl).any (fun c => !s.lit (c.2 / 32))) || pl.regions.any (fun r => (s.field r.field).pwr.lost || (s.field r.field).pwr.mif ≠ .on)) = false := by
  simp [State.standsWhole]

theorem State.rebase_bad (h : ¬(n < 16 ∧ k.part = n)) : s.taken.rebase ⟨k, true⟩ n = s.answers k true stBadParam := if_pos (Pkt.names_iff.2 h)

section
variable (h : n < 16 ∧ k.part = n)
include h

theorem State.rebase_unknown (hon : (s.part n).on = false) : s.taken.rebase ⟨k, true⟩ n = s.answers k true stPartUnknown := State.named_off h hon

variable (hon : (s.part n).on = true)
include hon

theorem State.rebase_absent (hplan : (s.part n).plan = none) : s.taken.rebase ⟨k, true⟩ n = s.answers k true stPlanAbsent := by
  refine (State.named_on h hon).trans ?_
  simp only [show (s.taken.part n).plan = none from hplan]
  rfl

theorem State.rebase_planned {plan : Plan} (hplan : (s.part n).plan = some plan) [Decidable (s.standsWhole n plan.base)] : s.taken.rebase ⟨k, true⟩ n =
    if s.standsWhole n plan.base then
      (s.taken.withPart (.ofNat 16 n) (fun x => { x with snap := { x.snap with wanted := true, rebase := true } })).fly ⟨k, true⟩ (.rebase n)
    else s.answers k true stBadParam := by
  rw [← State.updPart_eq_ofNat s.taken h.1]
  refine (State.named_on h hon).trans ?_
  simp only [show (s.taken.part n).plan = some plan from hplan]
  by_cases hwhole : s.standsWhole n plan.base
  · rw [if_pos hwhole]
    exact if_neg (Bool.eq_false_iff.1 (State.standsWhole_iff.1 hwhole))
  · rw [if_neg hwhole]
    exact if_pos (Bool.of_not_eq_false (mt State.standsWhole_iff.2 hwhole))

end

/-! ### RETEST (R315) -/

theorem State.mem_testSites {t j : Nat} : j ∈ s.testSites t ↔ j / 32 = t ∧ s.site j ≠ .fused := by
  simp only [State.testSites, List.mem_filter, List.mem_map, List.mem_range, decide_eq_true_eq]
  refine and_congr_left (fun _ => ⟨?_, fun h => ⟨j % 32, Nat.mod_lt _ (by decide), by omega⟩⟩)
  rintro ⟨i, hi, rfl⟩
  omega

theorem State.testSites_nodup (t : Nat) : (s.testSites t).Nodup := by
  refine List.Nodup.filter _ (List.Nodup.map (fun i j hij => ?_) List.nodup_range)
  omega

/-- A march that starts on an idle bank set. -/
theorem Bank.marchStart_starts {b : Bank} (hrun : b.march.running = false) (hmask : (List.range 32).filter b.march.maskReg.getLsbD ≠ []) :
    (b.marchStart false).march.running = true ∧ (b.marchStart false).march.maskReg = b.march.maskReg ∧ (b.marchStart false).march.runMode = b.march.mode ∧
      (b.marchStart false).march.bank :: (b.marchStart false).march.todo = (List.range 32).filter b.march.maskReg.getLsbD := by
  obtain ⟨j, r, hjr⟩ := List.exists_cons_of_ne_nil hmask
  have hstart : b.marchStart false = { b with
      busy := b.busy ||| bitOf j
      march := { b.march with running := true, fail := false, aborted := false, aborting := false, abortFail := none, element := 0, bank := j, todo := r, runMode := b.march.mode } } := by
    rw [Bank.marchStart, hjr]
    exact if_neg (by simp [hrun])
  rw [hstart, hjr]
  exact ⟨rfl, rfl, rfl, rfl⟩

theorem Bank.marchStart_runs {b : Bank} (hrun : b.march.running = true) (dark : Bool) : b.marchStart dark = b := by
  unfold Bank.marchStart
  split
  · rfl
  · exact if_pos (by simp [hrun])

/-- The banks with a destructive march of all of them asked for (Table 4.5). -/
def Bank.marchAll (b : Bank) : Bank := { b with march := { b.march with mode := false, maskReg := 0xFFFFFFFF#32 } }

theorem Bank.marchAll_mask (b : Bank) : (List.range 32).filter b.marchAll.march.maskReg.getLsbD = List.range 32 := by
  show (List.range 32).filter (0xFFFFFFFF#32).getLsbD = _
  decide

theorem Bank.marchAll_starts {b : Bank} (hrun : b.march.running = false) : (b.marchAll.marchStart false).march.running = true ∧ (b.marchAll.marchStart false).march.runMode = false ∧
    (b.marchAll.marchStart false).march.bank = 0 ∧ (b.marchAll.marchStart false).march.todo = (List.range 32).tail := by
  obtain ⟨hruns, -, hmode, htodo⟩ := Bank.marchStart_starts (b := b.marchAll) hrun (by rw [Bank.marchAll_mask]; decide)
  rw [Bank.marchAll_mask] at htodo
  obtain ⟨hbank, htail⟩ := List.cons.inj (htodo.trans (List.range_succ_eq_map ..))
  exact ⟨hruns, hmode, hbank, htail⟩

theorem Bank.marchAll_runs (b : Bank) : (b.marchAll.marchStart false).march.running = true := by
  cases hrun : b.march.running with
  | false => exact (Bank.marchAll_starts hrun).1
  | true =>
    rw [Bank.marchStart_runs (b := b.marchAll) hrun]
    exact hrun

section
variable {t : Nat} {bad ok : List Nat}

theorem State.retest_bad (h : ¬(t < 96 ∧ k.part = 0xFF)) : s.taken.retest ⟨k, true⟩ t bad ok = s.answers k true stBadParam := by
  rw [not_and_or, not_lt] at h
  exact if_pos (by simpa [Pkt.noPart] using h)

variable (h : t < 96 ∧ k.part = 0xFF)
include h

/-- The status with which the partition of a terrace refuses its re-test. -/
def State.retestStatus (s : State) (t : Nat) : W16 :=
  match s.partOfTer t with
  | none => stOk
  | some p => if !(s.part p).diag then stDiagRequired else if s.running p then stPartRunning else stOk

/-- The marches of a re-test on the sites of its terrace. -/
def State.marchTer (s : State) (t : Nat) : State := s.updCores (s.testSites t) (fun _ c => { c with bank := c.bank.marchAll.marchStart false })

theorem State.retest_good : s.taken.retest ⟨k, true⟩ t bad ok =
    if s.retestStatus t ≠ stOk then s.answers k true (s.retestStatus t)
    else if !s.lit t then s.answers k true stSiteDark
    else ((s.taken.marchTer t).fly ⟨k, true⟩ (.retest t bad ok)).endMarches :=
  if_neg (by simp [Pkt.noPart, h.1, h.2])

end

end Sys2Proof.Machine
end

section
/-! The marches of a re-test, MARCH_RUN, and PROBE_RUN with its chunks (R306, R307, R315, R317, R399). -/

namespace Sys2Proof.Machine

open Sys2Proof

variable {s : State} {k : Pkt} {n rsv : Nat}

/-! ### The marches of a re-test (R315) -/

section
variable {t : Nat} {bad ok : List Nat}

theorem State.core_marchTer (s : State) (t j : Nat) : (s.marchTer t).core j =
    if j ∈ s.testSites t then { s.core j with bank := (s.core j).bank.marchAll.marchStart false } else s.core j :=
  State.core_updCores s _ _ j (State.testSites_nodup t)

/-- The end of marches with one re-test in flight. -/
theorem State.endMarches_retest {f : Fetched} (hfl : s.fw.flight = [⟨f, .retest t bad ok⟩]) : s.endMarches =
    if (s.testSites t).any (fun k => (s.core k).bank.march.running) then s else (s.endRetest t bad ok).endLong (fun x => x = .retest t bad ok) 0 0 0 := by
  rw [State.endMarches, hfl]
  rfl

theorem State.retestFlying (s : State) (hfl : s.fw.flight = []) : ((s.taken.marchTer t).fly ⟨k, true⟩ (.retest t bad ok)).fw.flight = [⟨⟨k, true⟩, .retest t bad ok⟩] := by
  show s.fw.flight ++ _ = _
  rw [hfl]
  rfl

section
variable (hfl : s.fw.flight = [])
include hfl

/-- A re-test runs while a site of its terrace marches. -/
theorem State.retest_marches (hsites : s.testSites t ≠ []) :
    ((s.taken.marchTer t).fly ⟨k, true⟩ (.retest t bad ok)).endMarches = (s.taken.marchTer t).fly ⟨k, true⟩ (.retest t bad ok) := by
  rw [State.endMarches_retest (s.retestFlying hfl)]
  obtain ⟨j, hj⟩ := List.exists_mem_of_ne_nil _ hsites
  refine if_pos (List.any_eq_true.2 ⟨j, hj, ?_⟩)
  have hcore : ((s.taken.marchTer t).fly ⟨k, true⟩ (.retest t bad ok)).core j = _ := (State.core_marchTer s.taken t j).trans (if_pos hj)
  rw [hcore]
  exact Bank.marchAll_runs _

/-- A re-test of a terrace whose sites are all Fused has nothing to test. -/
theorem State.retest_nothing (hsites : s.testSites t = []) : ((s.taken.marchTer t).fly ⟨k, true⟩ (.retest t bad ok)).endMarches = s.answers k true stOk := by
  have hmarch : s.taken.marchTer t = s.taken := by
    rw [State.marchTer, show s.taken.testSites t = [] from hsites]
    rfl
  have hnone : ((s.taken.fly ⟨k, true⟩ (.retest t bad ok))).testSites t = [] := hsites
  have hended : (s.taken.fly ⟨k, true⟩ (.retest t bad ok)).endRetest t bad ok = s.taken.fly ⟨k, true⟩ (.retest t bad ok) := by
    rw [State.endRetest, hnone]
    rfl
  have hflying := s.retestFlying (k := k) (t := t) (bad := bad) (ok := ok) hfl
  rw [State.endMarches_retest hflying]
  rw [hmarch] at hflying ⊢
  rw [hnone, hended]
  refine (State.endLong_head hflying (decide_eq_true rfl) ..).trans ?_
  rw [← hfl]
  rfl

end

end

/-! ### MARCH_RUN (R399) -/

/-- A command for a target that a long command occupies is BUSY (R392). -/
theorem State.command_busy {op : W16} {own owner : Bool} {tg : Target} {run : State → Fetched → State} (h : s.front k op own = true) (ho : owner = true → own = true)
    (hb : s.busyOn tg = true) : s.command k op owner tg run = s.answers k own stBusy := by
  have hrecovery : (s.taken.sec.recovery && !recoveryOps.contains op) = false := by
    have hallowed := (State.front_parts h).2.2
    cases hs : s.sec.recovery <;> simp_all [State.taken]
  have howner : (owner && !own) = false := by cases owner <;> simp_all
  have hbusy : s.taken.busyOn tg = true := hb
  unfold State.command
  rw [State.accept_front h]
  simp only [hrecovery, howner, hbusy]
  rfl

section
variable {f c : Nat} {mode : Bool} {m : W32}

theorem State.marchRun_bad (h : ¬(rsv = 0 ∧ f < 48 ∧ c < 64 ∧ m ≠ 0 ∧ k.part = 0xFF)) : s.taken.marchRun ⟨k, true⟩ f c mode m rsv = s.answers k true stBadParam := by
  refine if_pos ?_
  simp only [Bool.or_eq_true, decide_eq_true_eq, Bool.not_eq_true', Pkt.noPart, decide_eq_false_iff_not, ← not_lt]
  tauto

/-- A plan runs on the terrace of a site. -/
def State.runsAt (s : State) (j : Nat) : Prop := ∃ q, s.partOfSite j = some q ∧ (s.part q).started = true

theorem State.runsAt_iff {j : Nat} : (match s.partOfSite j with | some p => (s.part p).started | none => false) = true ↔ s.runsAt j := by
  unfold State.runsAt
  cases s.partOfSite j with
  | none => simp
  | some p => simp

/-- The banks of a core with the march of a MARCH_RUN. -/
def Bank.marchOf (mode : Bool) (m : W32) (b : Bank) : Bank := { b with march := { b.march with mode := mode, maskReg := m } }.marchStart false

theorem State.marchRun_good (h : rsv = 0 ∧ f < 48 ∧ c < 64 ∧ m ≠ 0 ∧ k.part = 0xFF) [Decidable (s.runsAt (64 * f + c))] : s.taken.marchRun ⟨k, true⟩ f c mode m rsv =
    if !s.lit ((64 * f + c) / 32) then s.answers k true stSiteDark
    else if s.runsAt (64 * f + c) then s.answers k true stPartRunning
    else if (s.core (64 * f + c)).bank.march.running then s.answers k true stBusy
    else (s.taken.onBank (64 * f + c) (Bank.marchOf mode m)).fly ⟨k, true⟩ (.march (64 * f + c)) := by
  refine (if_neg ?_).trans (if_congr Iff.rfl rfl (if_congr State.runsAt_iff rfl rfl))
  simp only [Bool.or_eq_true, decide_eq_true_eq, Bool.not_eq_true', Pkt.noPart, decide_eq_false_iff_not, ← not_lt]
  tauto

theorem mask_banks (hm : m ≠ 0) : (List.range 32).filter m.getLsbD ≠ [] := by
  intro hnone
  refine hm (BitVec.eq_of_getLsbD_eq (fun i hi => ?_))
  have hi' := List.filter_eq_nil_iff.1 hnone i (List.mem_range.2 hi)
  simpa using hi'

theorem Bank.marchOf_starts {b : Bank} (hrun : b.march.running = false) (hm : m ≠ 0) : (b.marchOf mode m).march.running = true ∧ (b.marchOf mode m).march.maskReg = m ∧
    (b.marchOf mode m).march.runMode = mode ∧ (b.marchOf mode m).march.bank :: (b.marchOf mode m).march.todo = (List.range 32).filter m.getLsbD :=
  Bank.marchStart_starts (b := { b with march := { b.march with mode := mode, maskReg := m } }) hrun (mask_banks hm)

end

/-! ### PROBE_RUN (R306) -/

section
variable {ret : Bool} {fs : BitVec 48} {seed : W64}

theorem Pkt.probeRange_iff : (rsv ≠ 0 || 16 ≤ n || !k.names n) = true ↔ ¬(rsv = 0 ∧ n < 16 ∧ k.part = n) := by
  rw [Bool.or_assoc, Bool.or_eq_true, Pkt.names_iff, decide_eq_true_eq]
  tauto

theorem State.probeRun_bad (h : ¬(rsv = 0 ∧ n < 16 ∧ k.part = n)) : s.taken.probeRun ⟨k, true⟩ n ret fs seed rsv = s.answers k true stBadParam :=
  if_pos (Pkt.probeRange_iff.2 h)

/-- The fields of a probe all belong to its partition. -/
def State.holdsFields (s : State) (n : Nat) (fs : BitVec 48) : Prop := ∀ i, i < 48 → fs.getLsbD i = true → i ∈ s.fieldsOf n

theorem State.holdsFields_iff : (List.range 48).any (fun i => fs.getLsbD i && !(s.fieldsOf n).contains i) = true ↔ ¬s.holdsFields n fs := by
  simp [State.holdsFields]

theorem State.probeRun_good (h : rsv = 0 ∧ n < 16 ∧ k.part = n) [Decidable (s.holdsFields n fs)] : s.taken.probeRun ⟨k, true⟩ n ret fs seed rsv =
    if (s.part n).on = false then s.answers k true stPartUnknown
    else if !(s.part n).diag then s.answers k true stDiagRequired
    else if (s.part n).started then s.answers k true stPartRunning
    else if ¬s.holdsFields n fs then s.answers k true stBadParam
    else { s.taken.withPart (.ofNat 16 n) (fun x => { x with checkSites := [] }) with
      fw := { s.taken.fw with regs := { s.fw.regs with prbSites := [] }, flight := s.fw.flight ++ [⟨⟨k, true⟩, .probe n fs ret seed⟩] } } := by
  have ⟨_, hn, _⟩ := h
  rw [← State.updPart_eq_ofNat s.taken hn]
  exact (if_neg (fun hc => Pkt.probeRange_iff.1 hc h)).trans (if_congr (State.partOff_iff hn) rfl (if_congr Iff.rfl rfl (if_congr Iff.rfl rfl (if_congr State.holdsFields_iff rfl rfl))))

end

/-! ### PROBE_CHUNK_COMPARE (R307) -/

/-- The sites that the errors of the three digests of a chunk name. -/
theorem namedFaulty_add (single : Bool) (a b : Nat) (h ea eb ec : W64) : namedFaulty single a b (h + ea) (h + eb) (h + ec) = namedFaulty single a b ea eb ec := by
  simp only [namedFaulty, BitVec.add_right_inj]

section
variable {p : PartIx} {chunk : Nat} {a b : Nat} {ea eb ec : W64} {last : Bool}

theorem State.probeChunk_none (h : ∀ l ∈ s.fw.flight, ∀ fs ret seed, l.kind ≠ .probe p fs ret seed) : s.probeChunk p chunk a b ea eb ec last = s := by
  unfold State.probeChunk
  split
  · rfl
  · next l hl =>
    split
    · next q fs ret seed hk =>
      have hq := List.find?_some hl
      rw [hk] at hq
      exact absurd (hk.trans (congrArg (fun q => LongKind.probe q fs ret seed) (of_decide_eq_true hq))) (h l (List.mem_of_find?_eq_some hl) fs ret seed)
    · rfl

/-- The sites that are named once a chunk is compared. -/
def State.probeNames (s : State) (p a b : Nat) (ea eb ec : W64) (last : Bool) : List Nat :=
  (s.fw.regs.prbSites ++ (namedFaulty (decide ((s.probePairs p (a / 64)).length ≤ 1)) a b ea eb ec ++ (if last then (s.part p).checkSites else []))).dedup

/-- The sites of a probe stand in its register. -/
def State.probeNoted (s : State) (l : List Nat) : State := { s with fw := { s.fw with regs := { s.fw.regs with prbSites := l } } }

/-- A probe has ended with the sites that it named, which RETIRE retires (R307, R317). -/
def State.probeEnded (s : State) (p : PartIx) (ret : Bool) (l : List Nat) : State :=
  let t := if ret then l.foldl (fun (u : State) k => u.retire k) s else s
  { t.withPart p (fun y => { y with checkSites := [] }) with fw := { t.fw with regs := { t.fw.regs with prbDone := true, prbMismatch := !l.isEmpty } } }

variable {f : Fetched} {fs : BitVec 48} {ret : Bool} {seed : W64} {rest : List Long} (hfl : s.fw.flight = ⟨f, .probe p fs ret seed⟩ :: rest)
include hfl

theorem State.probeChunk_other (h : (a, b) ∉ s.probePairs p (a / 64) ∨ fs.getLsbD (a / 64) = false) : s.probeChunk p chunk a b ea eb ec last = s := by
  rw [State.probeChunk, State.long?_head hfl]
  · dsimp only
    split
    · rfl
    · next i hi =>
      obtain ⟨hlt, hpair, -⟩ := List.findIdx?_eq_some_iff_getElem.1 hi
      have hmem : (a, b) ∈ s.probePairs p (a / 64) := of_decide_eq_true hpair ▸ List.getElem_mem hlt
      exact if_pos (by simp [h.resolve_left (not_not.2 hmem)])
  · exact decide_eq_true rfl

theorem State.probeChunk_compares (hpair : (a, b) ∈ s.probePairs p (a / 64)) (hfield : fs.getLsbD (a / 64) = true) : s.probeChunk p chunk a b ea eb ec last =
    let l := s.probeNames p a b ea eb ec last
    if !last then s.probeNoted l else ((s.probeNoted l).probeEnded p ret l).endLong (fun k => k = .probe p fs ret seed) (if l.isEmpty then stOk else stProbeMismatch) 0 0 := by
  rw [State.probeChunk, State.long?_head hfl]
  · dsimp only
    split
    · next hnone => exact absurd (decide_eq_true rfl) (Bool.eq_false_iff.1 (List.findIdx?_eq_none_iff.1 hnone (a, b) hpair))
    · next i hi =>
      rw [if_neg (by simp [hfield]), namedFaulty_add, State.updPart_eq_withPart]
      rfl
  · exact decide_eq_true rfl

end

end Sys2Proof.Machine
end

section
/-! RETRACE (R309, R310, R317): plans that change places, the replay's start and end, and the comparison of its ticks. -/

namespace Sys2Proof.Machine

open Sys2Proof

variable {s t : State} {p : PartIx}

/-! ### What a load of cores, fields and routers leaves alone -/

/-- The partitions, firmware, the fabric and the time to the next wafer tick edge. -/
def State.offWafer (s : State) : Vector Part 16 × Fw × Fab × BitVec 48 × Nat := (s.parts, s.fw, s.fab, s.tg.tick, s.toEdge)

theorem State.offWafer_iff : t.offWafer = s.offWafer ↔ t.parts = s.parts ∧ t.fw = s.fw ∧ t.fab = s.fab ∧ t.tg.tick = s.tg.tick ∧ t.toEdge = s.toEdge := by
  simp only [State.offWafer, Prod.mk.injEq]

theorem State.offWafer_withPart (h : t.offWafer = s.offWafer) (p : PartIx) (g : Part → Part) : (t.withPart p g).offWafer = (s.withPart p g).offWafer := by
  obtain ⟨hparts, hfw, hfab, htick, hedge⟩ := State.offWafer_iff.1 h
  refine State.offWafer_iff.2 ⟨?_, hfw, hfab, htick, hedge⟩
  simp only [State.withPart, State.part, hparts]

theorem State.offWafer_part (h : t.offWafer = s.offWafer) (q : Nat) : t.part q = s.part q := State.part_congr (State.offWafer_iff.1 h).1 q

theorem State.offWafer_edge (h : t.offWafer = s.offWafer) (lead : Nat) : t.waferEdgeAfter lead = s.waferEdgeAfter lead := by
  obtain ⟨-, -, -, htick, hedge⟩ := State.offWafer_iff.1 h
  simp only [State.waferEdgeAfter, htick, hedge]

theorem State.offWafer_loadPlacement (s : State) (p : Nat) (pl : Placement) : (s.loadPlacement p pl).offWafer = s.offWafer := rfl

theorem State.offWafer_loadUnits (s : State) (p : Nat) (pl : Plan) : (s.loadUnits p pl).offWafer = s.offWafer := by
  obtain ⟨fs, h⟩ := s.loadUnits_frame p pl
  rw [h]
  rfl

theorem State.offWafer_loadRoutes (s : State) : s.loadRoutes.offWafer = s.offWafer := by
  have hwrite : ∀ (u : State) x, ∃ fs, u.writeTables x = { u with fields := fs } := fun u x => ⟨_, rfl⟩
  unfold State.loadRoutes
  split
  all_goals
    obtain ⟨fs, h⟩ := hwrite _ _
    rw [h]
    rfl

/-- The partition with the state of a generation (R282). -/
def Part.restored (g : Gen) (x : Part) : Part := { x with
  step := g.id + 1, nextStep := g.id + 1, committed := some g.id, seed := g.rec_.seed, epoch := g.rec_.epoch, fresh := false
  intake := { x.intake with pos := g.rec_.intakePos, landed := [], fetching := [], stalled := false }
  snap := { x.snap with since := 0 } }

theorem State.offWafer_restoreGen (s : State) (p : PartIx) (g : Gen) : (s.restoreGen p g).offWafer = (s.withPart p (Part.restored g)).offWafer := by
  rw [State.restoreGen, State.updPart_eq_withPart]
  rfl

theorem State.offWafer_unloadPlan (s : State) (p : PartIx) : (s.unloadPlan p).offWafer = (s.withPart p (fun x => { x with plan := none })).offWafer :=
  State.offWafer_iff.2 ⟨vset_fin .., rfl, rfl, rfl, rfl⟩

/-- The partition with another plan in place of its own. -/
def Part.swapped (plan : Option Plan) (detour : Nat × Nat) (level : Nat) (remap : List (Nat × Nat)) (members : List Member) (x : Part) : Part :=
  { x with plan := plan, detour := detour, level := level, remap := remap, members := members }

theorem State.offWafer_swapPlan (s : State) (p : PartIx) (plan : Option Plan) (d : Nat × Nat) (l : Nat) (m : List (Nat × Nat)) (ms : List Member) :
    (s.swapPlan p plan d l m ms).offWafer = (s.withPart p (Part.swapped plan d l m ms)).offWafer := by
  have hswap : ((s.unloadPlan p).updPart p (Part.swapped plan d l m ms)).offWafer = (s.withPart p (Part.swapped plan d l m ms)).offWafer := by
    rw [State.updPart_eq_withPart, State.offWafer_withPart (s.offWafer_unloadPlan p), State.withPart_withPart]
    rfl
  unfold State.swapPlan
  extract_lets u
  split
  · exact hswap
  · exact (State.offWafer_loadUnits ..).trans ((State.offWafer_loadPlacement ..).trans hswap)

/-! ### The start of a replay (R309, R310) -/

/-- The partition whose replay begins, where `y` is what it was. -/
def Part.replaying (y : Part) (src : Nat) (g : Gen) (last : W64) (x : Part) : Part := { x with
  stopStatus := 0, rcv := {}, ready := []
  replay := some { plan := y.plan, detour := y.detour, level := y.level, remap := y.remap, members := y.members, gen := g.id, src := src, last := last } }

/-- The target of a replay as it starts: the moved plan, the generation, and what stood loaded before. -/
def State.replayTarget (s : State) (n : Nat) (tp : PartIx) (dx dy : Int) (joint : Bool) (r : Retrace) (g : Gen) (plan : Plan) : Part :=
  { Part.replaying (s.part tp) n g r.step (Part.restored g (Part.swapped (some (plan.moved ((s.part n).recordedPl r) dx dy)) (0, 0) 0 []
      (if joint then (s.part n).members.map (fun (m : Member) => { m with part := tp }) else []) (s.part tp))) with startAt := some (s.waferEdgeAfter 4096) }

theorem State.startReplay_keeps (s : State) (n : Nat) (dx dy : Int) (joint : Bool) (r : Retrace) (g : Gen) (plan : Plan) :
    (s.startReplay n p dx dy joint r g plan).fw = s.fw ∧
      ∀ q, (s.startReplay n p dx dy joint r g plan).part q = if q = p.val then s.replayTarget n p dx dy joint r g plan else s.part q := by
  let ms := if joint then (s.part n).members.map (fun (m : Member) => { m with part := p.val }) else []
  let plan' := plan.moved ((s.part n).recordedPl r) dx dy
  let loads : Part → Part := fun x => Part.replaying (s.part p) n g r.step (Part.restored g (Part.swapped (some plan') (0, 0) 0 [] ms x))
  let t := ((s.swapPlan p (some plan') (0, 0) 0 [] ms).restoreGen p g).withPart p (Part.replaying (s.part p) n g r.step)
  have ht : t.offWafer = (s.withPart p loads).offWafer := by
    refine State.offWafer_withPart ((State.offWafer_restoreGen ..).trans (State.offWafer_withPart (State.offWafer_swapPlan ..) p _)) p _ |>.trans ?_
    rw [State.withPart_withPart, State.withPart_withPart]
  have hstart : s.startReplay n p dx dy joint r g plan = t.withPart p (fun y => { y with startAt := some (s.waferEdgeAfter 4096) }) := by
    have hedge : t.waferEdgeAfter 4096 = s.waferEdgeAfter 4096 := State.offWafer_edge ht 4096
    rw [← hedge, State.startReplay, State.startSoon]
    simp only [State.updPart_eq_withPart]
    rfl
  have hview : (s.startReplay n p dx dy joint r g plan).offWafer = (s.withPart p (fun x => { loads x with startAt := some (s.waferEdgeAfter 4096) })).offWafer := by
    rw [hstart, State.offWafer_withPart ht, State.withPart_withPart]
  refine ⟨(State.offWafer_iff.1 hview).2.1, fun q => ?_⟩
  rw [State.offWafer_part hview, State.part_withPart]
  rfl

end Sys2Proof.Machine
end

section
/-! The end of a probe, and RETRACE with the comparison of its ticks (R307, R309, R310, R317). -/

namespace Sys2Proof.Machine

open Sys2Proof

variable {s : State}

/-! ### The end of a probe (R307) -/

/-- Retiring sites one after the other changes the site map alone. -/
theorem State.foldl_retire (l : List Nat) (s : State) : l.foldl (fun (u : State) k => u.retire k) s =
    { s with sites := l.foldl (fun (t : Tab SiteSt) k => if Tab.get SiteSt.enabled t k = SiteSt.enabled ∨ Tab.get SiteSt.enabled t k = SiteSt.spare then Tab.set SiteSt.enabled t k .retired else t) s.sites } := by
  induction l generalizing s with
  | nil => rfl
  | cons k l ih => rw [List.foldl_cons, List.foldl_cons, ih, State.retire_eq]; rfl

theorem State.probeEnded_eq (p : PartIx) (ret : Bool) (l : List Nat) : s.probeEnded p ret l = { s.withPart p (fun y => { y with checkSites := [] }) with
    sites := if ret then l.foldl (fun (t : Tab SiteSt) k => if Tab.get SiteSt.enabled t k = SiteSt.enabled ∨ Tab.get SiteSt.enabled t k = SiteSt.spare then Tab.set SiteSt.enabled t k .retired else t) s.sites else s.sites
    fw := { s.fw with regs := { s.fw.regs with prbDone := true, prbMismatch := !l.isEmpty } } } := by
  cases ret with
  | false => rfl
  | true =>
    rw [State.probeEnded, if_pos rfl, State.foldl_retire]
    rfl

section
variable {p : PartIx} {chunk : Nat} {a b : Nat} {ea eb ec : W64} {f : Fetched} {fs : BitVec 48} {ret : Bool} {seed : W64} {rest : List Long}

/-- The last chunk ends the probe with the sites that it named. -/
theorem State.probeChunk_last (hfl : s.fw.flight = ⟨f, .probe p fs ret seed⟩ :: rest) (hpair : (a, b) ∈ s.probePairs p (a / 64)) (hfield : fs.getLsbD (a / 64) = true) :
    s.probeChunk p chunk a b ea eb ec true =
      let all := s.probeNames p a b ea eb ec true
      let ended := { (s.probeNoted all).withPart p (fun y => { y with checkSites := [] }) with
        sites := if ret then all.foldl (fun (t : Tab SiteSt) k => if Tab.get SiteSt.enabled t k = SiteSt.enabled ∨ Tab.get SiteSt.enabled t k = SiteSt.spare then Tab.set SiteSt.enabled t k .retired else t) s.sites else s.sites
        fw := { s.fw with flight := rest, regs := { s.fw.regs with prbSites := all, prbDone := true, prbMismatch := !all.isEmpty } } }
      ended.finish f (if all = [] then stOk else stProbeMismatch) 0 0 := by
  refine (State.probeChunk_compares hfl hpair hfield).trans ?_
  extract_lets l
  rw [if_neg (by decide), State.probeEnded_eq]
  refine (State.endLong_head (rest := rest) (f := f) (kind := .probe p fs ret seed) ?_ ?_ ..).trans ?_
  · exact hfl
  · exact decide_eq_true rfl
  · simp only [List.isEmpty_iff]
    rfl

end

/-! ### RETRACE (R309, R310) -/

section
variable {k : Pkt} {p target : Nat} {dx dy : Int} {step : W64} {joint : Bool} {rsv : Nat}

/-- The target of a retrace: the partition itself where the packet names no other. -/
def retraceTarget (p target : Nat) : Nat := if target = 0xFF then p else target

/-- A retrace of a step that can be replayed no more: the result 2 stands in the registers. -/
def State.retraceGone (s : State) (k : Pkt) : State := (s.retraceEnds 2 0 0 0 0 0).answers k true stRetraceGone

/-- The retrace names its partition and its target. -/
def Pkt.namesReplay (k : Pkt) (rsv p target : Nat) : Prop := rsv = 0 ∧ p < 16 ∧ (target < 16 ∨ target = 0xFF) ∧ k.part = p

theorem Pkt.namesReplay_iff : (rsv ≠ 0 || 16 ≤ p || (16 ≤ target && target ≠ 0xFF) || !k.names p) = true ↔ ¬k.namesReplay rsv p target := by
  simp only [Pkt.namesReplay, Pkt.names, Bool.or_eq_true, Bool.and_eq_true, decide_eq_true_eq, Bool.not_eq_true', decide_eq_false_iff_not]
  omega

theorem Pkt.namesReplay_lt (h : k.namesReplay rsv p target) : retraceTarget p target < 16 := by
  obtain ⟨-, hp, htarget, -⟩ := h
  unfold retraceTarget
  split <;> omega

theorem State.retrace_bad (h : ¬k.namesReplay rsv p target) : s.taken.retrace ⟨k, true⟩ p target dx dy step joint rsv = s.answers k true stBadParam :=
  if_pos (Pkt.namesReplay_iff.2 h)

/-- The record that a retrace replays, and the generation of it that can still be read. -/
def State.retraceRec (s : State) (p : Nat) (step : W64) : Option Retrace := ((s.part p).retraces.take 64).find? (fun r => r.step = step)
def State.retraceGen (s : State) (p : Nat) (r : Retrace) : Option Gen := (s.part p).snap.gens.find? (fun g => g.id = r.snapId && g.jobValid && (s.genSource g).isSome)

/-- The recorded sites, moved, are Enabled or Spare sites of the target. -/
def State.replayFits (s : State) (p tp : Nat) (dx dy : Int) (r : Retrace) : Prop :=
  ∀ c ∈ (s.part p).recorded r, ∃ m, moveSite c.2 dx dy = some m ∧ (s.site m = .enabled ∨ s.site m = .spare) ∧ (s.part tp).terraces.getLsbD (m / 32) = true

/-- The target of a replay may be used for it. -/
def State.mayReplay (s : State) (p target : Nat) : Prop :=
  if target = 0xFF then s.running p = false else (s.part (retraceTarget p target)).diag = true ∧ s.running (retraceTarget p target) = false

theorem State.mayReplay_iff : (if target = 0xFF then s.running p else !(s.part (retraceTarget p target)).diag || s.running (retraceTarget p target)) = true ↔ ¬s.mayReplay p target := by
  unfold State.mayReplay
  split
  · simp
  · cases (s.part (retraceTarget p target)).diag <;> simp

theorem State.replayFits_iff {tp : Nat} {r : Retrace} : (!((s.part p).recorded r).all (fun c => match moveSite c.2 dx dy with
    | some m => (s.site m = .enabled || s.site m = .spare) && (s.part tp).terraces.getLsbD (m / 32)
    | none => false)) = true ↔ ¬s.replayFits p tp dx dy r := by
  rw [Bool.not_eq_true', ← Bool.not_eq_true, not_iff_not, List.all_eq_true]
  refine forall₂_congr (fun c _ => ?_)
  cases moveSite c.2 dx dy with
  | none => simp
  | some m => simp

section
variable (h : k.namesReplay rsv p target)
include h

theorem State.replayOn (hp : (s.part p).on = true) (ht : (s.part (retraceTarget p target)).on = true) : ¬(!s.partOn p || !s.partOn (retraceTarget p target)) = true := by
  rw [Bool.or_eq_true, State.partOff_iff h.2.1, State.partOff_iff (Pkt.namesReplay_lt h), hp, ht]
  simp

theorem State.retrace_unknown (hon : (s.part p).on = false ∨ (s.part (retraceTarget p target)).on = false) :
    s.taken.retrace ⟨k, true⟩ p target dx dy step joint rsv = s.answers k true stPartUnknown := by
  refine (if_neg (fun hc => Pkt.namesReplay_iff.1 hc h)).trans (if_pos ?_)
  exact Bool.or_eq_true_iff.2 (hon.imp (State.partOff_iff h.2.1).2 (State.partOff_iff (Pkt.namesReplay_lt h)).2)

section
variable (hp : (s.part p).on = true) (ht : (s.part (retraceTarget p target)).on = true)
include hp ht

theorem State.retrace_lost (hlost : s.retraceRec p step = none ∨ (s.part p).plan = none ∨ ∃ r, s.retraceRec p step = some r ∧ s.retraceGen p r = none) :
    s.taken.retrace ⟨k, true⟩ p target dx dy step joint rsv = s.retraceGone k := by
  refine (if_neg (fun hc => Pkt.namesReplay_iff.1 hc h)).trans ((if_neg (State.replayOn h hp ht)).trans ?_)
  extract_lets x
  split
  · next r plan hr hplan =>
    have hgen : s.retraceGen p r = none := by
      obtain hnone | hnone | ⟨r', hr', hnone⟩ := hlost
      · exact absurd (hr.symm.trans hnone) (by simp)
      · exact absurd (hplan.symm.trans hnone) (by simp)
      · rwa [Option.some.inj (hr.symm.trans hr')]
    split
    · rfl
    · next g hg => exact absurd (hgen.symm.trans hg) (by simp)
  · rfl

/-- The checks of a retrace that follow that of its record: of the target, and of the recorded sites in it. -/
theorem State.retrace_found {r : Retrace} {g : Gen} {plan : Plan} (hr : s.retraceRec p step = some r) (hplan : (s.part p).plan = some plan) (hg : s.retraceGen p r = some g)
    [Decidable (s.mayReplay p target)] [Decidable (s.replayFits p (retraceTarget p target) dx dy r)] : s.taken.retrace ⟨k, true⟩ p target dx dy step joint rsv =
      if ¬s.mayReplay p target then s.answers k true stDiagRequired
      else if ¬s.replayFits p (retraceTarget p target) dx dy r then s.answers k true stBadParam
      else (s.taken.startReplay p (retraceTarget p target) dx dy joint r g plan).fly ⟨k, true⟩ (.retrace (retraceTarget p target) p step) := by
  refine (if_neg (fun hc => Pkt.namesReplay_iff.1 hc h)).trans ((if_neg (State.replayOn h hp ht)).trans ?_)
  extract_lets x
  split
  · next r' plan' hr' hplan' =>
    obtain rfl : r' = r := Option.some.inj (hr'.symm.trans hr)
    obtain rfl : plan' = plan := Option.some.inj (hplan'.symm.trans hplan)
    split
    · next hnone => exact absurd (hg.symm.trans hnone) (by simp)
    · next g' hg' =>
      obtain rfl : g' = g := Option.some.inj (hg'.symm.trans hg)
      exact if_congr State.mayReplay_iff rfl (if_congr State.replayFits_iff rfl rfl)
  · next hnone => exact absurd hplan (fun hplan => hnone r plan hr hplan)

end

end

end

end Sys2Proof.Machine
end

section
/-! RETRACE_TICK_COMPARE (R310), and O53. -/

namespace Sys2Proof.Machine

open Sys2Proof

variable {s : State} {tp : PartIx}

/-! ### The registers through the end of a replay -/

theorem State.finish_regs (f : Fetched) (st : W16) (r : W64) (n : Nat) : (s.finish f st r n).fw.regs = s.fw.regs := by
  simp only [State.finish, State.putReply]
  split <;> rfl

theorem State.endLong_regs (q : LongKind → Bool) (st : W16) (r : W64) (n : Nat) : (s.endLong q st r n).fw.regs = s.fw.regs := by
  unfold State.endLong
  split
  · rfl
  · exact State.finish_regs ..

theorem State.startMarches_fw (p : Nat) : (s.startMarches p).fw = s.fw := by
  unfold State.startMarches
  split <;> rfl

theorem State.endStop_regs (s : State) (p : Nat) : (s.endStop p).fw.regs = s.fw.regs := by
  unfold State.endStop
  extract_lets x cut cleared _ partials ended rebased planned
  have hrebased : rebased.fw.regs = ended.fw.regs := by
    simp only [rebased]
    split
    · exact State.endLong_regs ..
    · rfl
  have hplanned : planned.fw.regs = rebased.fw.regs := by
    simp only [planned]
    split <;> rfl
  rw [State.startMarches_fw, State.endLong_regs, hplanned, hrebased]
  exact State.endLong_regs ..

theorem State.stopPart_regs (s : State) (p : Nat) : (s.stopPart p).fw.regs = s.fw.regs := State.endStop_regs _ p

/-- A replay that has ended left the registers, and is the partition's no longer. -/
theorem State.endReplay_keeps (s : State) (tp : PartIx) : (s.endReplay tp).fw.regs = s.fw.regs ∧ ((s.endReplay tp).part tp).replay = none := by
  unfold State.endReplay
  split
  · next hnone => exact ⟨rfl, hnone⟩
  · next q hq =>
    extract_lets u v
    have hu : u.fw.regs = s.fw.regs ∧ (u.part tp).replay = none := by
      refine ⟨State.stopPart_regs s tp, ?_⟩
      simp only [u, State.updPart_eq_withPart, State.part_withPart_self]
    have hview : v.offWafer = _ := State.offWafer_swapPlan ..
    have hv : v.fw.regs = s.fw.regs ∧ (v.part tp).replay = none := by
      rw [State.offWafer_part hview, State.part_withPart_self, (State.offWafer_iff.1 hview).2.1]
      exact hu
    split
    · next g _ =>
      have hview := State.offWafer_restoreGen v tp g
      rw [State.offWafer_part hview, State.part_withPart_self, (State.offWafer_iff.1 hview).2.1]
      exact hv
    · exact hv

/-! ### The comparison of a tick (R310) -/

theorem State.tickCompare_idle (h : (∀ l ∈ s.fw.flight, ∀ q n, l.kind ≠ .retrace tp q n) ∨ s.replayedTick tp = none) : s.tickCompare tp = s := by
  unfold State.tickCompare
  split
  · next l step n hl hn =>
    split
    · next q p m hk =>
      have hq := List.find?_some hl
      rw [hk] at hq
      obtain h | h := h
      · exact absurd (hk.trans (congrArg (fun q => LongKind.retrace q p m) (of_decide_eq_true hq))) (h l (List.mem_of_find?_eq_some hl) p m)
      · exact absurd (hn.symm.trans h) (by simp)
    · rfl
  · rfl

/-- The partition ticks between two ticks of a target's clock. -/
def Part.tickMult (x : Part) : Nat := max 1 ((x.plan.map Plan.mult).getD 1)

/-- The digests that the cores of a target latched. -/
def State.nowDigests (s : State) (tp : Nat) : List (Nat × W64) := (s.placed tp).map (fun c => (c.1, (s.core c.2).tdig))

/-- The logged tick with which the replayed one is compared. -/
def State.loggedTick (s : State) (tp p : Nat) (r : Retrace) (n : Nat) : Option LogTick :=
  s.fw.log.find? (fun e => e.part = p && e.tick = r.firstTick + BitVec.ofNat 48 ((n + 1) * (s.part tp).tickMult))

/-- The logical cores whose digests differ from the logged ones. -/
def State.tickDiffs (s : State) (tp p : Nat) (r : Retrace) (n : Nat) : List Nat := (s.loggedTick tp p r n).elim [] (fun e => diffs e.digests (s.nowDigests tp))

/-- The compared tick is the last one of the replay. -/
def State.lastTick (s : State) (tp : Nat) (r : Retrace) (step : W64) (n : Nat) : Prop := (∃ q, (s.part tp).replay = some q ∧ q.last = step) ∧ r.ticks ≤ n + 1

section
variable {f : Fetched} {p : PartIx} {n0 step : W64} {n : Nat} {r : Retrace} {rest : List Long}
  (hfl : s.fw.flight = ⟨f, .retrace tp p n0⟩ :: rest) (hn : s.replayedTick tp = some (step, n)) (hr : (s.part p).retraces.find? (fun r => r.step = step) = some r)
include hfl hn hr

/-- The comparison of a replayed tick, by the digests that differ. -/
theorem State.tickCompare_eq {ds : List Nat} (hd : s.tickDiffs tp p r n = ds) [Decidable (s.lastTick tp r step n)] : ∃ site, s.tickCompare tp =
    ds.casesOn (if s.lastTick tp r step n then ((s.retraceEnds 0 0 0 0 0 0).endReplay tp).endLong (fun k => k = .retrace tp p n0) stOk 0 0 else s)
      (fun d ds => ((s.retraceEnds 1 (ds.length + 1) n step site (ds.foldl min d)).endReplay tp).endLong (fun k => k = .retrace tp p n0) stRetraceDiverged 0 0) := by
  have hlog : (s.fw.log.find? fun e => decide (e.part = p.val) && decide (e.tick = r.firstTick + BitVec.ofNat 48 ((n + 1) * max 1 (((s.part tp).plan.map Plan.mult).getD 1)))) =
    s.loggedTick tp p r n := rfl
  rw [State.tickCompare, State.long?_head hfl, hn]
  · dsimp only
    rw [hr]
    dsimp only
    rw [hlog]
    have hlast : ((s.part tp).replay.any (fun q => q.last = step) && decide (r.ticks ≤ n + 1)) = true ↔ s.lastTick tp r step n := by
      simp [State.lastTick, Option.any_eq_true]
    have hds : (s.loggedTick tp p r n).elim [] (fun e => diffs e.digests ((s.placed tp).map (fun c => (c.1, (s.core c.2).tdig)))) = ds := hd
    cases hl : s.loggedTick tp p r n with
    | none =>
      rw [hl] at hds
      obtain rfl : [] = ds := hds
      exact ⟨0, if_congr hlast rfl rfl⟩
    | some e =>
      rw [hl] at hds
      simp only [show diffs e.digests ((s.placed tp).map (fun c => (c.1, (s.core c.2).tdig))) = ds from hds]
      cases ds with
      | nil => exact ⟨0, if_congr hlast rfl rfl⟩
      | cons d ds => exact ⟨_, rfl⟩
  · exact decide_eq_true rfl

theorem State.tickCompare_same (hd : s.tickDiffs tp p r n = []) [Decidable (s.lastTick tp r step n)] : s.tickCompare tp =
    if s.lastTick tp r step n then ((s.retraceEnds 0 0 0 0 0 0).endReplay tp).endLong (fun k => k = .retrace tp p n0) stOk 0 0 else s :=
  (State.tickCompare_eq hfl hn hr hd).choose_spec

theorem State.tickCompare_differs {d : Nat} {ds : List Nat} (hd : s.tickDiffs tp p r n = d :: ds) : ∃ site, s.tickCompare tp =
    ((s.retraceEnds 1 (ds.length + 1) n step site (ds.foldl min d)).endReplay tp).endLong (fun k => k = .retrace tp p n0) stRetraceDiverged 0 0 :=
  have := Classical.propDecidable (s.lastTick tp r step n)
  State.tickCompare_eq hfl hn hr hd

end

end Sys2Proof.Machine
end

section
/-! O53: what a replay's start leaves, and the commands together. -/

namespace Sys2Proof.Machine

open Sys2Proof

variable {s : State} {k : Pkt}

/-! ### A check that fails, and one that holds -/

theorem ite_not_of_true {α : Type} {b : Bool} {x y : α} (h : b = true) : (if !b then x else y) = y := if_neg (by simp [h])
theorem ite_not_of_false {α : Type} {b : Bool} {x y : α} (h : b = false) : (if !b then x else y) = x := if_pos (by simp [h])

/-! ### What the start of a march and of a replay leaves -/

theorem State.endLong_part (q : LongKind → Bool) (st : W16) (r : W64) (n p : Nat) : (s.endLong q st r n).part p = s.part p := by
  obtain ⟨fw, host, out, h⟩ := s.endLong_frame q st r n
  rw [h]
  rfl

theorem State.replayStarts {p : PartIx} (n : Nat) (dx dy : Int) (joint : Bool) (r : Retrace) (g : Gen) (plan : Plan) (kind : LongKind) :
    let t := (s.taken.startReplay n p dx dy joint r g plan).fly ⟨k, true⟩ kind
    t.fw.flight = s.fw.flight ++ [⟨⟨k, true⟩, kind⟩] ∧ t.part p = s.replayTarget n p dx dy joint r g plan ∧ ∀ q ≠ p.val, t.part q = s.part q := by
  obtain ⟨hfw, hparts⟩ := State.startReplay_keeps (s := s.taken) (p := p) n dx dy joint r g plan
  exact ⟨congrArg (fun fw : Fw => fw.flight ++ [⟨⟨k, true⟩, kind⟩]) hfw, (hparts p).trans (if_pos rfl), fun q hq => (hparts q).trans (if_neg hq)⟩

/-! ### The statuses of a re-test -/

theorem State.retestStatus_diag {t q : Nat} (hq : s.partOfTer t = some q) (hd : (s.part q).diag = false) : s.retestStatus t = stDiagRequired := by
  simp only [State.retestStatus, hq, hd, Bool.not_false, if_true]

theorem State.retestStatus_running {t q : Nat} (hq : s.partOfTer t = some q) (hd : (s.part q).diag = true) (hr : s.running q = true) : s.retestStatus t = stPartRunning := by
  simp [State.retestStatus, hq, hd, hr]

theorem State.retestStatus_ok {t : Nat} (h : ∀ q, s.partOfTer t = some q → (s.part q).diag = true ∧ s.running q = false) : s.retestStatus t = stOk := by
  unfold State.retestStatus
  split
  · rfl
  · next q hq =>
    obtain ⟨hd, hr⟩ := h q hq
    simp [hd, hr]

section
variable {t : Nat} {bad ok : List Nat} (h : t < 96 ∧ k.part = 0xFF)
include h

theorem State.retest_refused {st : W16} (hst : s.retestStatus t = st) (hne : st ≠ stOk) : s.taken.retest ⟨k, true⟩ t bad ok = s.answers k true st := by
  subst hst
  exact (State.retest_good h).trans (if_pos hne)

variable (hst : s.retestStatus t = stOk)
include hst

theorem State.retest_dark (hlit : s.lit t = false) : s.taken.retest ⟨k, true⟩ t bad ok = s.answers k true stSiteDark :=
  (State.retest_good h).trans ((if_neg (not_not.2 hst)).trans (if_pos (by simp [hlit])))

theorem State.retest_lit (hlit : s.lit t = true) : s.taken.retest ⟨k, true⟩ t bad ok = ((s.taken.marchTer t).fly ⟨k, true⟩ (.retest t bad ok)).endMarches :=
  (State.retest_good h).trans ((if_neg (not_not.2 hst)).trans (if_neg (by simp [hlit])))

end

/-! ### The names of a chunk -/

theorem namedFaulty_eq (single : Bool) (a b : Nat) (ea eb ec : W64) : namedFaulty single a b ea eb ec =
    if ea = eb then [] else if single = true then [a, b] else if ec = ea then [b] else if ec = eb then [a] else [a, b] := by
  simp only [namedFaulty]

end Sys2Proof.Machine

open Sys2Proof Sys2Proof.Machine

/-- Settles O53: each command of the diagnosis is refused by its first failed check; a re-test and a march start where the banks are idle, a probe names the odd digest out,
and a replay starts from the recorded generation and ends at its first difference. -/
theorem diagnosisCommandsComplete : Obligations.DiagnosisCommandsComplete := by
  unfold Obligations.DiagnosisCommandsComplete
  refine ⟨fun k s => ⟨fun p hfront hfree => ?_, fun w bad ok hfront hfree => ?_, fun f c mode m rsv hfront => ?_⟩,
    fun s => ⟨fun k p ret fs seed rsv hfront hfree => ?_, fun p chunk a b ea eb ec last => ?_, fun k p target dx dy step joint rsv => ?_, fun tp => ?_⟩⟩
  · intro x ix named
    refine ⟨fun id cmd hcmd => ?_, ?_⟩
    · intro pick
      have hrun : exec cmd s = .next (s.taken.recoverFrom ⟨k, true⟩ p.toNat id) := by
        obtain ⟨rfl, rfl⟩ | ⟨j, rfl, rfl⟩ := hcmd <;> exact next_congr (State.command_front hfront (fun _ => rfl) hfree)
      rw [hrun]
      refine ⟨fun h => next_congr (State.recoverFrom_bad h), fun h hon => next_congr (State.recoverFrom_unknown h hon), fun h hon hp => next_congr (State.recoverFrom_absent h hon hp),
        fun plan h hon hp => ?_⟩
      rw [State.recoverFrom_planned h hon hp]
      refine ⟨fun hs => next_congr (if_pos hs), fun hs hpick => next_congr ?_, fun g hs hpick => ⟨fun hf => next_congr ?_, fun hf => next_congr ?_⟩⟩
      all_goals rw [if_neg (Bool.eq_false_iff.1 hs), show s.restartPick p.toNat id = _ from hpick]
      · rfl
      · exact ite_not_of_false hf
      · exact ite_not_of_true hf
    · intro run
      have hrun : run = .next (s.taken.rebase ⟨k, true⟩ p.toNat) := next_congr (State.command_front hfront (fun _ => rfl) hfree)
      refine ⟨fun h => hrun.trans (next_congr (State.rebase_bad h)), fun h hon => hrun.trans (next_congr (State.rebase_unknown h hon)),
        fun h hon hp => hrun.trans (next_congr (State.rebase_absent h hon hp)), fun plan h hon hp => ?_⟩
      intro whole t
      have := Classical.propDecidable (s.standsWhole p.toNat plan.base)
      exact ⟨fun hw => hrun.trans (next_congr ((State.rebase_planned h hon hp).trans (if_neg hw))), fun hw => hrun.trans (next_congr ((State.rebase_planned h hon hp).trans (if_pos hw)))⟩
  · intro run named
    have hrun : run = .next (s.taken.retest ⟨k, true⟩ w.toNat (bad.map Fin.val) (ok.map Fin.val)) := next_congr (State.command_front hfront (fun _ => rfl) hfree)
    refine ⟨fun h => hrun.trans (next_congr (State.retest_bad h)), fun q h hq hd => hrun.trans (next_congr (State.retest_refused h (State.retestStatus_diag hq hd) (by decide))),
      fun q h hq hd hr => hrun.trans (next_congr (State.retest_refused h (State.retestStatus_running hq hd hr) (by decide))), fun h hall => ?_⟩
    have hst := State.retestStatus_ok hall
    refine ⟨fun hl => hrun.trans (next_congr (State.retest_dark h hst hl)), fun hl hfl => ⟨fun hsites => ?_, fun hsites => ?_⟩⟩
    · refine ⟨_, hrun.trans (next_congr ((State.retest_lit h hst hl).trans (State.retest_marches hfl hsites))), State.retestFlying s hfl, rfl, rfl, rfl, fun j hj => ?_, fun j hj => ?_⟩
      · have hcore := (State.core_marchTer s.taken w.toNat j).trans (if_pos hj)
        rw [show State.core ((s.taken.marchTer w.toNat).fly ⟨k, true⟩ _) j = _ from hcore]
        exact ⟨Bank.marchAll_runs _, fun hrun => (Bank.marchAll_starts hrun).2⟩
      · exact (State.core_marchTer s.taken w.toNat j).trans (if_neg (fun hc => hj (State.mem_testSites.1 hc).1))
    · exact hrun.trans (next_congr ((State.retest_lit h hst hl).trans (State.retest_nothing hfl hsites)))
  · intro j run good runs
    refine ⟨fun hb => next_congr (State.command_busy hfront (fun _ => rfl) hb), fun hfree => ?_⟩
    have hrun : run = .next (s.taken.marchRun ⟨k, true⟩ f.toNat c.toNat mode m rsv) := next_congr (State.command_front hfront (fun _ => rfl) hfree)
    have := Classical.propDecidable (s.runsAt j)
    have hgood : good → run = _ := fun h => hrun.trans (next_congr (State.marchRun_good h))
    refine ⟨fun h => hrun.trans (next_congr (State.marchRun_bad h)), fun h hl => (hgood h).trans (next_congr (ite_not_of_false hl)),
      fun h hl hr => (hgood h).trans (next_congr ?_), fun h hl hr hm => (hgood h).trans (next_congr ?_), fun h hl hr hm => ?_⟩
    · exact (ite_not_of_true hl).trans (if_pos hr)
    · exact (ite_not_of_true hl).trans ((if_neg hr).trans (if_pos hm))
    · refine ⟨_, (hgood h).trans (next_congr ((ite_not_of_true hl).trans ((if_neg hr).trans (if_neg (Bool.eq_false_iff.1 hm))))), ?_⟩
      have hcore : ((s.taken.onBank j (Bank.marchOf mode m)).fly ⟨k, true⟩ (.march j)).core j = { s.core j with bank := (s.core j).bank.marchOf mode m } :=
        (State.core_onBank s.taken j j _).trans (if_pos rfl)
      rw [hcore]
      obtain ⟨hruns, hmask, hmode, hbanks⟩ := Bank.marchOf_starts (mode := mode) hm h.2.2.2.1
      exact ⟨hruns, hmask, hmode, hbanks, rfl, rfl, rfl, rfl⟩
  · intro x run named held t
    have hrun : run = .next (s.taken.probeRun ⟨k, true⟩ p.toNat ret fs seed rsv) := next_congr (State.command_front hfront (fun _ => rfl) hfree)
    have := Classical.propDecidable (s.holdsFields p.toNat fs)
    have hgood : named → run = _ := fun h => hrun.trans (next_congr (State.probeRun_good h))
    refine ⟨fun h => hrun.trans (next_congr (State.probeRun_bad h)), fun h hon => (hgood h).trans (next_congr (if_pos hon)), fun h hon hd => ?_, fun h hon hd hs => ?_, fun h hon hd hs hh => ?_,
      fun h hon hd hs hh => ?_⟩
    all_goals refine (hgood h).trans (next_congr ((if_neg (fun hc => Bool.false_ne_true (hc.symm.trans hon))).trans ?_))
    · exact ite_not_of_false hd
    · exact (ite_not_of_true hd).trans (if_pos hs)
    · exact (ite_not_of_true hd).trans ((if_neg (Bool.eq_false_iff.1 hs)).trans (if_pos hh))
    · exact (ite_not_of_true hd).trans ((if_neg (Bool.eq_false_iff.1 hs)).trans (if_neg (not_not.2 hh)))
  · intro run pairs named
    refine ⟨fun h => next_congr (State.probeChunk_none h), fun f fs ret seed rest hfl => ?_⟩
    intro all noted
    have hnames : s.probeNames p a.val b.val ea eb ec last = all := by
      simp only [State.probeNames, namedFaulty_eq, decide_eq_true_eq, ← List.append_assoc]
      rfl
    refine ⟨fun h => next_congr (State.probeChunk_other hfl h), fun hpair hfield hl => next_congr ?_, fun hpair hfield hl => ?_⟩
    · exact (State.probeChunk_compares hfl hpair hfield).trans ((ite_not_of_false hl).trans (congrArg s.probeNoted hnames))
    · subst hl
      rw [← hnames]
      exact next_congr (State.probeChunk_last hfl hpair hfield)
  · intro tp hfront hfree x run named rec_ gone gen may fits
    have hrun : run = .next (s.taken.retrace ⟨k, true⟩ p.toNat target.toNat dx dy step joint rsv) := next_congr (State.command_front hfront (fun _ => rfl) hfree)
    have htp : retraceTarget p.toNat target.toNat = tp := if_congr ⟨fun h => BitVec.eq_of_toNat_eq h, congrArg BitVec.toNat⟩ rfl rfl
    have h255 : target.toNat = 0xFF ↔ target = 0xFF := ⟨fun h => BitVec.eq_of_toNat_eq h, congrArg BitVec.toNat⟩
    have hnamed : named ↔ k.namesReplay rsv p.toNat target.toNat := by simp only [named, Pkt.namesReplay, h255]
    have hmay : may = s.mayReplay p.toNat target.toNat := by simp only [may, State.mayReplay, h255, htp]
    refine ⟨fun h => hrun.trans (next_congr (State.retrace_bad (mt hnamed.2 h))), fun h hon => hrun.trans (next_congr (State.retrace_unknown (hnamed.1 h) (htp.symm ▸ hon))),
      fun h hp ht hlost => hrun.trans (next_congr (State.retrace_lost (hnamed.1 h) hp (htp.symm ▸ ht) hlost)), fun r g plan h hp ht hr hplan hg => ?_⟩
    have := Classical.propDecidable (s.mayReplay p.toNat target.toNat)
    have := Classical.propDecidable (s.replayFits p.toNat (retraceTarget p.toNat target.toNat) dx dy r)
    have hfound := hrun.trans (next_congr (State.retrace_found (dx := dx) (dy := dy) (joint := joint) (hnamed.1 h) hp (htp.symm ▸ ht) hr hplan hg))
    rw [hmay]
    refine ⟨fun hm => hfound.trans (next_congr (if_pos hm)), fun hm hf => hfound.trans (next_congr ((if_neg (not_not.2 hm)).trans (if_pos (htp.symm ▸ hf)))), fun hm hf => ?_⟩
    refine ⟨_, hfound.trans (next_congr ((if_neg (not_not.2 hm)).trans (if_neg (not_not.2 (htp.symm ▸ hf))))), ?_⟩
    obtain ⟨tq, htq⟩ : ∃ tq : PartIx, tq.val = retraceTarget p.toNat target.toNat := ⟨⟨_, Pkt.namesReplay_lt (hnamed.1 h)⟩, rfl⟩
    rw [← htp, ← htq]
    obtain ⟨hflight, htarget, hother⟩ := State.replayStarts (s := s) (k := k) (p := tq) p.toNat dx dy joint r g plan (.retrace tq p.toNat step)
    refine ⟨hflight, ?_⟩
    rw [htarget]
    exact ⟨rfl, rfl, rfl, rfl, rfl, rfl, rfl, fun q hq hne => hother q hne⟩
  · intro run y mult now
    refine ⟨fun h => next_congr (State.tickCompare_idle (.inl h)), fun h => next_congr (State.tickCompare_idle (.inr h)), fun f p n0 step n r rest hfl hn hr => ?_⟩
    intro at_ last none_
    have hnone (h : none_) : s.tickDiffs tp p r n = [] := by
      unfold State.tickDiffs
      cases hlog : s.loggedTick tp p r n with
      | none => rfl
      | some e => exact h e hlog
    have := Classical.propDecidable (s.lastTick tp r step n)
    refine ⟨fun h hl => next_congr ((State.tickCompare_same hfl hn hr (hnone h)).trans (if_neg hl)), fun h hl => next_congr ((State.tickCompare_same hfl hn hr (hnone h)).trans (if_pos hl)),
      fun e d ds hlog hd => ?_⟩
    have hdiffs : s.tickDiffs tp p r n = d :: ds := by
      rw [State.tickDiffs, show s.loggedTick tp p r n = some e from hlog]
      exact hd
    obtain ⟨site, hdiffer⟩ := State.tickCompare_differs hfl hn hr hdiffs
    obtain ⟨hmem, hleast⟩ := List.min?_eq_some_iff.1 (List.min?_cons' (x := d) (xs := ds))
    obtain ⟨hregs, hended⟩ := State.endReplay_keeps (s.retraceEnds 1 (ds.length + 1) n step site (ds.foldl min d)) tp
    refine ⟨_, next_congr hdiffer, ?_⟩
    rw [State.endLong_regs, hregs, State.endLong_part]
    exact ⟨rfl, rfl, rfl, rfl, rfl, hmem, hleast, hended⟩
end

section
/-! JOB_STOP, READY and RESTART of a job's members (R279), and the restore of a generation (R282, R289, R297). -/

namespace Sys2Proof.Machine

open Sys2Proof

variable {s : State} {p : PartIx}

/-! ### JOB_STOP, READY and RESTART (R279) -/

/-- The partition runs, recovers, or is a member of a job with a named start edge. -/
def Part.hearsStop (x : Part) : Prop := x.started = true ∨ x.rcv.active = true ∨ (1 < x.members.length ∧ x.startAt.isSome = true)

theorem Part.hearsStop_iff (x : Part) : (!(x.started || x.rcv.active || (x.spans && x.startAt.isSome))) = true ↔ ¬x.hearsStop := by
  simp only [Bool.not_eq_true', ← Bool.not_eq_true, Bool.or_eq_true, Bool.and_eq_true, Part.spans_iff, Part.hearsStop, or_assoc]

theorem State.jobStop_ignored (h : staysStopped (s.part p).stopStatus = true ∨ ¬(s.part p).hearsStop) : s.jobStop p = s :=
  if_pos (Bool.or_eq_true_iff.2 (h.imp_right (Part.hearsStop_iff _).2))

/-- The partition whose recovery a member's stop begins, and whose start edge it takes back. -/
def Part.stopped (cyc : W64) (x : Part) : Part := { x with
  startAt := none, ready := []
  rcv := { x.rcv with active := true, ready := false, startCyc := if x.rcv.active then x.rcv.startCyc else cyc } }

theorem State.jobStop_joins (h : staysStopped (s.part p).stopStatus = false) (hj : (s.part p).hearsStop) : s.jobStop p = s.withPart p (fun x => s.stopping p (x.stopped s.tg.cyc)) := by
  have hstop : (s.withPart p (Part.stopped s.tg.cyc)).sendStop p = _ := State.sendStop_congr (State.stopView_withPart (fun _ => ⟨rfl, rfl, rfl, rfl⟩))
  rw [State.withPart_withPart] at hstop
  rw [← hstop, ← State.updPart_eq_withPart]
  refine if_neg ?_
  rw [h, Bool.false_or]
  exact fun hc => (Part.hearsStop_iff _).1 hc hj

/-- The members of the job are all ready, and this one starts them. -/
def State.startsJob (s : State) (p : Nat) : Prop :=
  s.leads (s.part p).listNow = true ∧ (s.part p).rcv.ready = true ∧ ∀ a ∈ s.others (s.part p).listNow, a ∈ (s.part p).ready

theorem State.startsJob_iff : (s.leads (s.part p).listNow && (s.part p).rcv.ready && (s.others (s.part p).listNow).all (s.part p).ready.contains) = true ↔ s.startsJob p := by
  simp [State.startsJob, and_assoc]

theorem State.tryRestart_waits (h : ¬s.startsJob p) : s.tryRestart p = s := if_neg (mt State.startsJob_iff.1 h)

theorem State.tryRestart_starts (h : s.startsJob p) : s.tryRestart p = { s.withPart p (fun x => { x with ready := [], startAt := some (s.waferEdgeAfter 4096) }) with
    out := ((s.others (s.part p).listNow).map (fun a => Output.module_ a .restart)).reverse ++ s.out } := by
  refine (if_pos (State.startsJob_iff.2 h)).trans ?_
  rw [State.startSoon, State.updPart_eq_withPart, State.updPart_eq_withPart]
  have hcompose := State.withPart_withPart s p (fun x => { x with ready := [] }) (fun x => { x with startAt := some (s.waferEdgeAfter 4096) })
  exact congrArg (fun t : State => { t with out := ((s.others (s.part p).listNow).map (fun a => Output.module_ a .restart)).reverse ++ s.out }) hcompose

/-- A READY of a member counts: the partition waits for its restart, and this member leads it. -/
def State.hearsReady (s : State) (p src : Nat) : Prop :=
  (s.part p).started = false ∧ ((s.part p).rcv.active = true ∨ (s.part p).restartWanted = true) ∧ s.leads (s.part p).listNow = true ∧ ∃ m ∈ (s.part p).listNow, m.addr = src

/-- The members that stand ready, with one more. -/
def Part.withReady (x : Part) (src : Nat) : List Nat := if src ∈ x.ready then x.ready else src :: x.ready

section
variable {src : Nat}

theorem State.hearsReady_iff : ((s.part p).started || !((s.part p).rcv.active || (s.part p).restartWanted) || !s.leads (s.part p).listNow || !(s.part p).listNow.any (fun m => m.addr = src)) = true ↔
    ¬s.hearsReady p src := by
  rw [← Bool.not_eq_false, not_iff_not]
  simp only [Bool.or_eq_false_iff, Bool.not_eq_false', Bool.or_eq_true, List.any_eq_true, decide_eq_true_eq, State.hearsReady, and_assoc]

theorem State.memberReady_unheard (h : ¬s.hearsReady p src) : s.memberReady p src = s := if_pos (State.hearsReady_iff.2 h)

theorem State.memberReady_heard (h : s.hearsReady p src) : s.memberReady p src = (s.withPart p (fun x => { x with ready := (s.part p).withReady src })).tryRestart p := by
  refine (if_neg (fun hc => State.hearsReady_iff.1 hc h)).trans (congrArg (fun t : State => t.tryRestart p) ?_)
  rw [State.updPart_eq_withPart]
  refine State.withPart_congr ?_
  simp only [Part.withReady, List.contains_iff_mem]

/-- Every member of the job stands ready with one more. -/
def State.allReady (s : State) (p src : Nat) : Prop := (s.part p).rcv.ready = true ∧ ∀ a ∈ s.others (s.part p).listNow, a ∈ (s.part p).withReady src

theorem State.startsJob_withReady (h : s.hearsReady p src) : (s.withPart p (fun x => { x with ready := (s.part p).withReady src })).startsJob p ↔ s.allReady p src := by
  obtain ⟨-, -, hleads, -⟩ := h
  simp only [State.startsJob, State.part_withPart_self, State.allReady]
  exact and_iff_right hleads

theorem State.memberReady_waits (h : s.hearsReady p src) (ha : ¬s.allReady p src) : s.memberReady p src = s.withPart p (fun x => { x with ready := (s.part p).withReady src }) :=
  (State.memberReady_heard h).trans (State.tryRestart_waits (mt (State.startsJob_withReady h).1 ha))

theorem State.memberReady_starts (h : s.hearsReady p src) (ha : s.allReady p src) : s.memberReady p src =
    { s.withPart p (fun x => { x with ready := [], startAt := some (s.waferEdgeAfter 4096) }) with
      out := ((s.others (s.part p).listNow).map (fun a => Output.module_ a .restart)).reverse ++ s.out } := by
  rw [State.memberReady_heard h, State.tryRestart_starts ((State.startsJob_withReady h).2 ha), State.withPart_withPart, State.part_withPart_self]
  rfl

end

theorem State.restart_starts (hrun : (s.part p).started = false) (hat : (s.part p).startAt = none) (hready : (s.part p).rcv.ready = true) :
    s.restart p = s.withPart p (fun x => { x with startAt := some (s.waferEdgeAfter 4096) }) :=
  (if_pos (by simp [hrun, hat, hready])).trans (State.updPart_eq_withPart ..)

theorem State.restart_ignored (h : (s.part p).started = true ∨ (s.part p).startAt ≠ none ∨ (s.part p).rcv.ready = false) : s.restart p = s := by
  refine if_neg ?_
  rcases h with h | h | h <;> simp [h]

end Sys2Proof.Machine
end

section
/-! The restore of a generation (R282, R289, R292, R297). -/

namespace Sys2Proof.Machine

open Sys2Proof

variable {s : State} {p : PartIx}

/-! ### A partition that stays stopped (R289, R297) -/

/-- The partition that stays stopped with a status, where `ms` is the time since its recovery began. -/
def Part.staying (st : W16) (path ms : Nat) (y : Part) : Part := { y with
  stopStatus := st, rcv := {}, startAt := none
  snap := { y.snap with phase := .idle, rcvValid := true, rcvPath := path, rcvMs := min ms 131071, rcvCount := satAdd y.snap.rcvCount 1 } }

theorem State.endLong_reports (q : LongKind → Bool) (st : W16) (r : W64) (n : Nat) : (s.endLong q st r n).fw.reports = s.fw.reports := by
  unfold State.endLong
  split
  · rfl
  · exact State.finish_reports ..

theorem State.stayStopped_keeps (s : State) (p : PartIx) (st : W16) (path : Nat) : ∃ ms, (s.stayStopped p st path).part p = (s.part p).staying st path ms ∧
    (s.stayStopped p st path).cores = s.cores ∧ (s.stayStopped p st path).fields = s.fields ∧ (s.stayStopped p st path).fw.reports = s.fw.reports := by
  let ms := (s.tg.cyc - (s.part p).rcv.startCyc).toNat / 1200000
  have hstay : s.stayStopped p st path = ((s.withPart p (Part.staying st path ms)).emit [.event s.host.owner st.toNat [p]]).endLong (fun k => k = .recover p) st 0 0 := by
    rw [← State.updPart_eq_withPart]
    rfl
  obtain ⟨fw, host, out, hend⟩ := State.endLong_frame ((s.withPart p (Part.staying st path ms)).emit [.event s.host.owner st.toNat [p]]) (fun k => k = .recover p) st 0 0
  refine ⟨ms, ?_, ?_, ?_, ?_⟩
  · rw [hstay, State.endLong_part]
    exact State.part_withPart_self ..
  · rw [hstay, hend]
    rfl
  · rw [hstay, hend]
    rfl
  · rw [hstay, State.endLong_reports]
    rfl

/-! ### The job goes on (R279) -/

/-- A single-module job starts at the next wafer edge it can, a job of members once all of them are ready. -/
def State.startsAt (s : State) (p : Nat) : Option (BitVec 48) :=
  if (s.part p).listNow.length ≤ 1 ∨ (s.leads (s.part p).listNow = true ∧ ∀ a ∈ s.others (s.part p).listNow, a ∈ (s.part p).ready) then some (s.waferEdgeAfter 4096) else (s.part p).startAt

theorem State.tryRestart_part (h : s.startsJob p) : (s.tryRestart p).part p = { s.part p with ready := [], startAt := some (s.waferEdgeAfter 4096) } := by
  rw [State.tryRestart_starts h]
  exact State.part_withPart_self s p (fun x => { x with ready := [], startAt := some (s.waferEdgeAfter 4096) })

theorem State.goOn_part (s : State) (p : PartIx) : ∃ ready acts, (s.goOn p).part p = { s.part p with startAt := s.startsAt p, ready := ready, rcv := { (s.part p).rcv with ready := acts } } := by
  unfold State.goOn State.startsAt
  by_cases hone : (s.part p).listNow.length ≤ 1
  · rw [if_pos hone, if_pos (.inl hone), State.startSoon, State.updPart_eq_withPart, State.part_withPart_self]
    exact ⟨_, _, rfl⟩
  · rw [if_neg hone]
    let t := s.withPart p (fun y => { y with rcv := { y.rcv with ready := true } })
    have htold : s.reportReady p = if s.leads (s.part p).listNow then t.tryRestart p else (State.leader (s.part p).listNow).elim t (fun a => t.emit [.module_ a .ready]) := by
      simp only [State.reportReady, State.updPart_eq_withPart]
      refine if_congr Iff.rfl rfl ?_
      cases State.leader (s.part p).listNow <;> rfl
    have ht : t.part p = { s.part p with rcv := { (s.part p).rcv with ready := true } } := State.part_withPart_self ..
    rw [htold]
    by_cases hleads : s.leads (s.part p).listNow = true
    · rw [if_pos hleads]
      have hstarts : t.startsJob p ↔ ∀ a ∈ s.others (s.part p).listNow, a ∈ (s.part p).ready := by
        rw [State.startsJob, ht]
        exact ⟨fun h => h.2.2, fun h => ⟨hleads, rfl, h⟩⟩
      by_cases hall : ∀ a ∈ s.others (s.part p).listNow, a ∈ (s.part p).ready
      · rw [if_pos (.inr ⟨hleads, hall⟩), State.tryRestart_part (hstarts.2 hall), ht]
        exact ⟨[], true, rfl⟩
      · rw [if_neg (not_or.2 ⟨hone, fun h => hall h.2⟩), State.tryRestart_waits (mt hstarts.1 hall), ht]
        exact ⟨_, _, rfl⟩
    · rw [if_neg hleads, if_neg (not_or.2 ⟨hone, fun h => hleads h.1⟩)]
      refine ⟨(s.part p).ready, true, Eq.trans ?_ ht⟩
      cases State.leader (s.part p).listNow <;> rfl

/-! ### RESTORE_DONE (R282, R289, R292) -/

/-- The placement that a recovery restores: that of the detour state it chose, or the one in force. -/
def Part.restorePl (x : Part) : Placement := match x.rcv.detour with | some d => x.placementOf d | none => x.placement

theorem State.restoreDone_waits (h : s.mayRestore p = false) (avail : List (BitVec 12 × List W64)) : s.restoreDone p avail = s := if_pos (by simp [h])

/-- The partition placed for its restore from generation `g`. -/
def State.placing (s : State) (g : Gen) (x y : Part) : Part := { y with
  detour := x.rcv.detour.getD x.detour, level := if y.rcv.detour.isSome then 0 else y.level, past := (y.past ++ x.rcv.reports.map s.pastOf).filter y.inWindowPast
  rcv := { y.rcv with source := (s.genSource g).getD 0 } }

/-- The partition whose state is restored. -/
def Part.restoring (y : Part) : Part := { y with
  members := if y.rs.stage ≠ 0 then y.rs.oldList else y.members
  snap := { y.snap with phase := .restoring } }

/-- The restored partition, where `x` is what it was. -/
def State.restoredPart (s : State) (g : Gen) (x : Part) : Part := Part.restoring (Part.restored g (s.placing g x x))

/-- The restored partition keeps the list of members in force. -/
theorem Part.listNow_restoring (x : Part) : x.restoring.listNow = x.listNow := by
  unfold Part.listNow Part.restoring
  by_cases h : x.rs.stage ≠ 0
  · simp only [if_pos h]
  · simp only [if_neg h]

theorem State.startsAt_restored {u : State} {g : Gen} (hu : u.offWafer = (s.withPart p (s.restoredPart g)).offWafer) : u.startsAt p = s.startsAt p := by
  have hpart : u.part p = s.restoredPart g (s.part p) := (State.offWafer_part hu p).trans (State.part_withPart_self ..)
  have hfab : u.fab = s.fab := (State.offWafer_iff.1 hu).2.2.1
  have hedge : u.waferEdgeAfter 4096 = s.waferEdgeAfter 4096 := State.offWafer_edge hu 4096
  have hlist : (u.part p).listNow = (s.part p).listNow := by
    rw [hpart]
    exact Part.listNow_restoring _
  have hleads (ms : List Member) : u.leads ms = s.leads ms := by rw [State.leads, hfab, State.leads]
  have hothers (ms : List Member) : u.others ms = s.others ms := by rw [State.others, hfab, State.others]
  unfold State.startsAt
  rw [hlist, hedge, hleads, hothers, hpart]
  rfl

section
variable {avail : List (BitVec 12 × List W64)} (hmay : s.mayRestore p = true)
include hmay

theorem State.restoreDone_lost (hg : s.chosenGen p (s.commonGen p avail) = none) : s.restoreDone p avail = s.stayStopped p stNoSnapshot 7 := by
  refine (ite_not_of_true hmay).trans ?_
  extract_lets x
  split
  · next g plan hsome _ => exact absurd (hg.symm.trans hsome) (by simp)
  · rfl

variable {g : Gen} {plan : Plan} (hg : s.chosenGen p (s.commonGen p avail) = some g) (hplan : (s.part p).plan = some plan)
include hg hplan

theorem State.restoreDone_unfit (hf : g.fits plan (s.part p).restorePl = false) : s.restoreDone p avail = s := by
  refine (ite_not_of_true hmay).trans ?_
  extract_lets x
  split
  · next g' plan' hg' hplan' =>
    obtain rfl : g' = g := Option.some.inj (hg'.symm.trans hg)
    obtain rfl : plan' = plan := Option.some.inj (hplan'.symm.trans hplan)
    exact ite_not_of_false hf
  · next hnone => exact absurd hplan (fun h => hnone g plan hg h)

/-- A generation that fits is restored into the placement, and the job goes on. -/
theorem State.restoreDone_fits (hf : g.fits plan (s.part p).restorePl = true) : ∃ u : State, s.restoreDone p avail = u.goOn p ∧ u.offWafer = (s.withPart p (s.restoredPart g)).offWafer := by
  let core := s.mapCores (fun k => (s.part p).terraces.getLsbD (k / 32)) Core.discard
  let placed := (core.withPart p (s.placing g (s.part p))).loadPlacement p (s.part p).restorePl
  let routed := if (s.part p).rcv.detour.isSome then placed.loadRoutes else placed
  refine ⟨(routed.restoreGen p g).withPart p Part.restoring, (ite_not_of_true hmay).trans ?_, ?_⟩
  · extract_lets x
    split
    · next g' plan' hg' hplan' =>
      obtain rfl : g' = g := Option.some.inj (hg'.symm.trans hg)
      obtain rfl : plan' = plan := Option.some.inj (hplan'.symm.trans hplan)
      refine (ite_not_of_true hf).trans ?_
      simp only [State.updPart_eq_withPart]
      rfl
    · next hnone => exact absurd hplan (fun h => hnone g plan hg h)
  · have hplaced : placed.offWafer = (s.withPart p (s.placing g (s.part p))).offWafer :=
      (State.offWafer_loadPlacement ..).trans (State.offWafer_withPart (s := s) (t := core) rfl p _)
    have hrouted : routed.offWafer = (s.withPart p (s.placing g (s.part p))).offWafer := by
      simp only [routed]
      split
      · exact (State.offWafer_loadRoutes _).trans hplaced
      · exact hplaced
    rw [State.offWafer_withPart ((State.offWafer_restoreGen ..).trans (State.offWafer_withPart hrouted p _)), State.withPart_withPart, State.withPart_withPart]
    exact congrArg State.offWafer (State.withPart_congr rfl)

theorem State.restoreDone_part (hf : g.fits plan (s.part p).restorePl = true) : ∃ ready acts, (s.restoreDone p avail).part p =
    { s.restoredPart g (s.part p) with startAt := s.startsAt p, ready := ready, rcv := { (s.restoredPart g (s.part p)).rcv with ready := acts } } := by
  obtain ⟨u, hrun, hu⟩ := State.restoreDone_fits hmay hg hplan hf
  obtain ⟨ready, acts, hpart⟩ := u.goOn_part p
  refine ⟨ready, acts, ?_⟩
  rw [hrun, hpart, State.startsAt_restored hu, State.offWafer_part hu p, State.part_withPart_self]

end

theorem State.mayRestore_startAt (h : s.mayRestore p = true) : (s.part p).startAt = none := by
  simp only [State.mayRestore, Bool.and_eq_true, Option.isNone_iff_eq_none] at h
  tauto

end Sys2Proof.Machine
end

section
/-! Arbitration (R299 to R302, Table 9.6): the replays of a captured event, and the verdict. -/

namespace Sys2Proof.Machine

open Sys2Proof

variable {s : State} {p : PartIx}

/-! ### CHECK_ARBITRATION (R300, R302) -/

/-- A partition may arbitrate: at the boundary of its step, or in a recovery, with no arbitration of it on its way. -/
def State.mayArbitrate (s : State) (p : Nat) : Prop :=
  (s.part p).arb = [] ∧ (if (s.part p).started = true then (s.part p).stepOpen = true ∧ s.tg.ofs = 0 ∧ s.enginesIn p = true else (s.part p).rcv.active = true)

theorem State.mayArbitrate_iff : (!(if (s.part p).started then (s.part p).stepOpen && s.tg.ofs = 0 && s.enginesIn p else (s.part p).rcv.active) || !(s.part p).arb.isEmpty) = true ↔
    ¬s.mayArbitrate p := by
  unfold State.mayArbitrate
  rw [← Bool.not_eq_false, not_iff_not, Bool.or_eq_false_iff, and_comm]
  refine and_congr (by simp) ?_
  cases (s.part p).started <;> simp [and_assoc]

theorem State.checkArbitration_waits (h : ¬s.mayArbitrate p ∨ (s.part p).checkSites = []) : s.checkArbitration p = s := by
  unfold State.checkArbitration
  extract_lets x ready
  split
  · rfl
  · next hmay =>
    rw [h.resolve_left (not_not.2 (not_not.1 (mt State.mayArbitrate_iff.2 hmay)))]

section
variable {k : Nat} {rest : List Nat} (h : s.mayArbitrate p) (hk : (s.part p).checkSites = k :: rest)
include h hk

theorem State.checkArbitration_dark (hd : s.lit (k / 32) = false ∨ (s.core k).chk.cap.captured = false) :
    s.checkArbitration p = s.withPart p (fun y => { y with checkSites := rest, rollBack := y.rollBack || y.started }) := by
  rw [← State.updPart_eq_withPart]
  refine (if_neg (fun hc => State.mayArbitrate_iff.1 hc h)).trans ?_
  rw [hk]
  exact if_pos (by rcases hd with hd | hd <;> simp [hd])

/-- The partition whose arbitration of core `k` begins with a peer. -/
def State.arbitrating (s : State) (p k : Nat) (rest : List Nat) (y : Part) : Part := { y with
  arb := [(k, (s.peerOf p k).getD k)], hold := if y.hold.contains .arbitration then y.hold else .arbitration :: y.hold
  rollBack := y.rollBack || !rest.isEmpty || (s.core k).chk.record.more }

theorem State.checkArbitration_begins (hl : s.lit (k / 32) = true) (hc : (s.core k).chk.cap.captured = true) :
    s.checkArbitration p = (s.withPart p (s.arbitrating p k rest)).updCores (k :: (s.peerOf p k).toList) (fun _ c => c.beginReplay (s.core k).chk.cap) := by
  refine (if_neg (fun hc => State.mayArbitrate_iff.1 hc h)).trans ?_
  rw [hk]
  refine (if_neg (by simp [hl, hc])).trans ?_
  extract_lets peer cap t
  have hmore : decide (1 < (s.part p).checkSites.length) = !rest.isEmpty := by
    rw [hk]
    cases rest <;> simp
  have ht : t = s.withPart p (s.arbitrating p k rest) := by
    refine (State.updPart_eq_withPart ..).trans (State.withPart_congr ?_)
    rw [hmore]
    rfl
  rw [ht]

end

/-! ### The verdict (Table 9.6, R301, R302) -/

/-- The partition once a verdict on core `k` has fallen. -/
def Part.judged (k : Nat) (v : Verdict) (x : Part) : Part := { x with
  arb := [], checkSites := x.checkSites.filter (· ≠ k)
  suspects := if v = .suspect then (k, x.step) :: x.suspects else x.suspects
  rollBack := x.rollBack || v = .array || v = .arrayTransient || v = .suspect }

/-- A verdict retires an array, and a core that it suspects again. -/
def Part.retires (x : Part) (k : Nat) (v : Verdict) : Bool := v = .array || (v = .suspect && x.suspects.any (fun e => e.1 = k))

/-- The core whose lane failed checks no more. -/
def State.laneOff (s : State) (k : Nat) (v : Verdict) : State := if v = .lane then s.setCore k { s.core k with chk := { (s.core k).chk with off := true } } else s

/-- The state with what a verdict says of the partition, the core and its site. -/
def State.judged (s : State) (p : PartIx) (k : Nat) (v : Verdict) : State :=
  let t := (s.laneOff k v).withPart p (Part.judged k v)
  if (s.part p).retires k v then t.retire k else t

theorem State.applyVerdict_judged (s : State) (p : PartIx) (k : Nat) (v : Verdict) : ∃ fw l, s.applyVerdict p k v = { (s.judged p k v).withPart p (fun y => { y with lift := l }) with fw := fw } := by
  have hrests (t : State) : ∃ fw l, t = { t.withPart p (fun y => { y with lift := l }) with fw := fw } :=
    ⟨t.fw, (t.part p).lift, by rw [State.withPart_same rfl]⟩
  have hreports (t : State) (f : Fw) : ∃ fw l, ({ t with fw := f } : State) = { t.withPart p (fun y => { y with lift := l }) with fw := fw } :=
    ⟨f, (t.part p).lift, by rw [State.withPart_same rfl]⟩
  unfold State.applyVerdict
  extract_lets x again retire _ _ core u w y
  have hw : w = s.judged p k v := by
    simp only [w, u, State.updPart_eq_withPart]
    rfl
  rw [← hw]
  split
  · split
    · exact hreports ..
    · exact hrests _
  · split
    · split
      · exact hreports ..
      · exact hrests _
    · split
      · have hlift : w.withPart p (fun z => { z with lift := .arbitration :: z.lift }) = w.withPart p (fun z => { z with lift := .arbitration :: (w.part p).lift }) := State.withPart_congr rfl
        rw [State.updPart_eq_withPart, hlift]
        exact ⟨w.fw, _, rfl⟩
      · exact hrests _

/-- The site of core `k` is retired by a verdict that retires it, and no other site changes. -/
theorem State.judged_sites (s : State) (p : PartIx) (k : Nat) (v : Verdict) : (s.judged p k v).sites =
    if (s.part p).retires k v ∧ (s.site k = .enabled ∨ s.site k = .spare) then Tab.set .enabled s.sites k .retired else s.sites := by
  have hsites : (s.laneOff k v).sites = s.sites := by
    unfold State.laneOff
    split <;> rfl
  unfold State.judged
  extract_lets t
  have ht : t.sites = s.sites := hsites
  cases (s.part p).retires k v with
  | true =>
    rw [if_pos rfl, State.retire_eq, State.site, ht]
    simp [State.site]
  | false => simpa using ht

theorem State.judged_parts (s : State) (p : PartIx) (k : Nat) (v : Verdict) : (s.judged p k v).part p = Part.judged k v (s.part p) := by
  have hparts : (s.laneOff k v).part p = s.part p := by
    unfold State.laneOff
    split <;> rfl
  have hpart : ((s.laneOff k v).withPart p (Part.judged k v)).part p = Part.judged k v (s.part p) := by rw [State.part_withPart_self, hparts]
  unfold State.judged
  extract_lets t
  split
  · rw [State.retire_eq]
    exact hpart
  · exact hpart

theorem State.judged_keeps (s : State) (p : PartIx) (k : Nat) (v : Verdict) : (s.judged p k v).fields = s.fields ∧ (s.judged p k v).cores = (s.laneOff k v).cores := by
  have hfields : (s.laneOff k v).fields = s.fields := by
    unfold State.laneOff
    split <;> rfl
  unfold State.judged
  extract_lets t
  split
  · rw [State.retire_eq]
    exact ⟨hfields, rfl⟩
  · exact ⟨hfields, rfl⟩

theorem State.laneOff_off (s : State) (k : Nat) (v : Verdict) : ((s.laneOff k v).core k).chk.off = ((s.core k).chk.off || v = .lane) := by
  unfold State.laneOff
  by_cases hv : v = .lane
  · rw [if_pos hv, State.core_setCore, if_pos rfl]
    simp [hv]
  · rw [if_neg hv]
    simp [hv]

/-- What a verdict leaves: the partition with it, and the sites and the core that it says. -/
theorem State.applyVerdict_effects (s : State) (p : PartIx) (k : Nat) (v : Verdict) : let u := s.applyVerdict p k v
    u.fields = s.fields ∧ (∃ l, u.part p = { Part.judged k v (s.part p) with lift := l }) ∧
      u.sites = (if (s.part p).retires k v ∧ (s.site k = .enabled ∨ s.site k = .spare) then Tab.set .enabled s.sites k .retired else s.sites) ∧ (u.core k).chk.off = ((s.core k).chk.off || v = .lane) := by
  obtain ⟨fw, l, hu⟩ := s.applyVerdict_judged p k v
  obtain ⟨hfields, hcores⟩ := s.judged_keeps p k v
  extract_lets u
  have hpart : u.part p = { (s.judged p k v).part p with lift := l } := by
    simp only [u, hu]
    exact State.part_withPart_self (s.judged p k v) p (fun y => { y with lift := l })
  have hcore : u.core k = (s.laneOff k v).core k := by
    simp only [u, hu]
    exact congrArg (fun t => Tab.get {} t k) hcores
  rw [hpart, hcore, State.judged_parts, State.laneOff_off, ← State.judged_sites]
  refine ⟨?_, ⟨l, rfl⟩, ?_, rfl⟩
  · rw [show u = _ from hu]
    exact hfields
  · rw [show u = _ from hu]
    rfl

/-! ### REPLAY_DONE (R300, R318) -/

section
variable {k on : Nat} {ups : List Upset} {lane : W32}

theorem State.replayDone_other (h : ¬∃ a ∈ (s.part p).arb, a.1 = k ∧ (on = k ∨ on = a.2) ∧ (s.core on).chk.cap.replaying = true) : s.replayDone p k on ups lane = s := by
  unfold State.replayDone
  split
  · rfl
  · next a ha =>
    refine if_pos (Bool.of_not_eq_false fun hc => h ⟨a, List.mem_of_find?_eq_some ha, ?_, ?_⟩)
    · simpa using List.find?_some ha
    · simpa [or_iff_not_imp_left] using hc

/-- The capture buffer of a core whose replay has finished. -/
def Capture.replayed (x : Capture) (ups : List Upset) (lane : W32) : Capture :=
  let r := x.src.run ups lane
  { x with replaying := false, rdone := true, rchk := !r.skip && disagrees x.src.isInt r, replay := r.vals }

/-- The state with a finished replay in a core's buffer. -/
def State.replayed (s : State) (on : Nat) (ups : List Upset) (lane : W32) : State :=
  s.withCore on (fun c => { c with chk := { c.chk with cap := (s.core on).chk.cap.replayed ups lane } })

/-- The verdict of an arbitration whose replays have finished. -/
def State.verdict (s : State) (k peer : Nat) : Verdict :=
  verdictOf (s.core k).chk.cap (s.core k).chk.cap.rchk (if peer = k then none else some (s.core peer).chk.cap)

section
variable {peer : Nat} (harb : (s.part p).arb = [(k, peer)]) (hon : on = k ∨ on = peer) (hrep : (s.core on).chk.cap.replaying = true)
include harb hon hrep

theorem State.replayDone_due : s.replayDone p k on ups lane =
    let t := s.replayed on ups lane
    if (t.core k).chk.cap.replaying || (t.core peer).chk.cap.replaying then t else t.applyVerdict p k (t.verdict k peer) := by
  rw [State.replayDone, harb, List.find?_cons_of_pos (by simp)]
  exact if_neg (by rcases hon with rfl | rfl <;> simp [hrep])

theorem State.replayDone_half (h : (if on = k then peer else k) ≠ on) (hother : (s.core (if on = k then peer else k)).chk.cap.replaying = true) :
    s.replayDone p k on ups lane = s.replayed on ups lane := by
  have hcore : (s.replayed on ups lane).core (if on = k then peer else k) = s.core (if on = k then peer else k) := (State.core_withCore ..).trans (if_neg h)
  refine (State.replayDone_due harb hon hrep).trans (if_pos ?_)
  rw [← hcore] at hother
  split at hother
  · simp [hother]
  · simp [hother]

theorem State.replayDone_both (h : (if on = k then peer else k) = on ∨ (s.core (if on = k then peer else k)).chk.cap.replaying = false) :
    s.replayDone p k on ups lane = (s.replayed on ups lane).applyVerdict p k ((s.replayed on ups lane).verdict k peer) := by
  have hdone : ((s.replayed on ups lane).core on).chk.cap.replaying = false := by rw [State.replayed, State.core_withCore, if_pos rfl]; rfl
  have hother : ((s.replayed on ups lane).core (if on = k then peer else k)).chk.cap.replaying = false := by
    by_cases hsame : (if on = k then peer else k) = on
    · rw [hsame, hdone]
    · rw [State.replayed, State.core_withCore, if_neg hsame, h.resolve_left hsame]
  refine (State.replayDone_due harb hon hrep).trans (if_neg ?_)
  split at hother
  · next hk =>
    subst hk
    simp [hdone, hother]
  · next hk =>
    obtain rfl : on = peer := hon.resolve_left hk
    simp [hdone, hother]

end

end

end Sys2Proof.Machine
end

section
/-! FAULT_REPORT (R277, R278, R293): a report that is taken up, the loss of a link that recurs, and the judgement. -/

namespace Sys2Proof.Machine

open Sys2Proof

variable {s t u : State} {p : PartIx}

/-! ### A report is taken up (R278, R279) -/

/-- A report starts nothing: its partition does not exist, stays stopped, or neither runs nor loses anything. -/
def State.deadReport (s : State) (r : FaultReport) : Prop :=
  (s.part r.part).on = false ∨ staysStopped (s.part r.part).stopStatus = true ∨ ((s.part r.part).started = false ∧ (s.part r.part).rcv.active = false ∧ r.loss = .none ∧ r.what ≠ .lost)

theorem State.deadReport_iff (r : FaultReport) : (!(s.part r.part).on || staysStopped (s.part r.part).stopStatus ||
    !((s.part r.part).started || (s.part r.part).rcv.active || r.loss ≠ .none || r.what = .lost)) = true ↔ s.deadReport r := by
  simp [State.deadReport, or_assoc, and_assoc]

/-- The partition whose recovery a report starts, or starts again. -/
def Part.gathering (r : FaultReport) (cyc : W64) (y : Part) : Part := { y with
  startAt := if y.rcv.active then none else y.startAt, ready := [], stopAtCommit := false
  rcv := { y.rcv with
    active := true, reports := r :: y.rcv.reports, losses := (r.loss :: y.rcv.losses).filter (· ≠ .none), ready := false
    startCyc := if y.rcv.active then y.rcv.startCyc else cyc } }

/-- JOB_STOP to the other members of the job as its recovery begins (R279). -/
def State.stopsTold (s : State) (p : Nat) : List Output :=
  if 1 < (s.part p).members.length ∧ (s.part p).rcv.active = false then ((s.others (s.part p).members).map (fun a => Output.module_ a .jobStop)).reverse else []

theorem State.tellStop_eq (s : State) (n : Nat) : s.tellStop n = { s with
    out := (if 1 < (s.part n).members.length then ((s.others (s.part n).members).map (fun a => Output.module_ a .jobStop)).reverse else []) ++ s.out } := by
  unfold State.tellStop
  by_cases h : 1 < (s.part n).members.length
  · rw [if_pos ((Part.spans_iff _).2 h), if_pos h]
    rfl
  · rw [if_neg (fun hc => h ((Part.spans_iff _).1 hc)), if_neg h]
    rfl

/-- The partition taken up with a report: its recovery, and its stop. -/
def State.gathered (s : State) (p : PartIx) (r : FaultReport) : State :=
  { s.withPart p (fun y => s.stopping p (y.gathering r s.tg.cyc)) with out := s.stopsTold p ++ s.out }

theorem State.gather_eq {r : FaultReport} (hp : r.part = p.val) : s.gather r = s.gathered p r := by
  let u := s.withPart p (Part.gathering r s.tg.cyc)
  let v : State := { u with out := s.stopsTold p ++ s.out }
  have hview : v.stopView p = s.stopView p := State.stopView_withPart (s := s) (g := Part.gathering r s.tg.cyc) (fun _ => ⟨rfl, rfl, rfl, rfl⟩)
  have hpart : u.part p = (s.part p).gathering r s.tg.cyc := State.part_withPart_self ..
  have hmembers : (u.part p).members = (s.part p).members := (congrArg Part.members hpart).trans rfl
  have htold : (if (s.part p).rcv.active then u else u.tellStop p) = v := by
    cases ha : (s.part p).rcv.active with
    | true =>
      rw [if_pos rfl]
      simp only [v, State.stopsTold, ha, Bool.true_eq_false, and_false, if_false]
      rfl
    | false =>
      rw [if_neg (by decide), State.tellStop_eq, hmembers]
      simp only [v, State.stopsTold, ha, and_true]
      rfl
  have hstop : v.sendStop p = s.gathered p r := by
    rw [State.sendStop_congr hview]
    have hcompose := State.withPart_withPart s p (Part.gathering r s.tg.cyc) (s.stopping p)
    exact congrArg (fun w : State => { w with out := s.stopsTold p ++ s.out }) hcompose
  rw [← hstop, ← htold]
  unfold State.gather
  rw [hp]
  simp only [State.updPart_eq_withPart]
  rfl

/-! ### What the loss of a link leaves of a report's recovery (R278) -/

/-- What the judgement of a fault does not change: the fields, and of a partition its stop, its ready members, and its recovery. -/
def Part.faultView (x : Part) : Option (BitVec 48) × List Nat × Recovery × W16 := (x.stopAt, x.ready, x.rcv, x.stopStatus)
def State.faultView (s : State) (p : Nat) : Tab Field × Option (BitVec 48) × List Nat × Recovery × W16 := (s.fields, (s.part p).faultView)

theorem State.faultView_updPart (n : Nat) {g : Part → Part} (hg : ∀ y, (g y).faultView = y.faultView) (q : Nat) : (s.updPart n g).faultView q = s.faultView q := by
  refine congrArg (Prod.mk s.fields) ?_
  by_cases hn : n < 16
  · rw [State.part_updPart s n q g hn]
    split
    · next h => rw [hg, h]
    · rfl
  · have hsame : (s.updPart n g).parts = s.parts := dif_neg hn
    rw [State.part_congr hsame]

/-- The reports of `t` are those of `s`, with more. -/
def State.moreReports (s t : State) : Prop := ∃ more, t.fw.reports = s.fw.reports ++ more

theorem State.moreReports_trans (h : s.moreReports t) (h' : t.moreReports u) : s.moreReports u := by
  obtain ⟨a, ha⟩ := h
  obtain ⟨b, hb⟩ := h'
  exact ⟨a ++ b, by rw [hb, ha, List.append_assoc]⟩

theorem State.moreReports_same (h : t.fw.reports = s.fw.reports) : s.moreReports t := ⟨[], by rw [h, List.append_nil]⟩

theorem State.fabFault_reports (part port kind src : Nat) (epoch coll : W16) (loss : Loss) : s.moreReports (s.fabFault part port kind src epoch coll loss) := by
  unfold State.moreReports State.fabFault
  cases (s.part part).started with
  | true => exact ⟨_, rfl⟩
  | false => exact State.moreReports_same rfl

theorem foldl_moreReports {α : Type} {f : State → α → State} (h : ∀ (u : State) x, u.moreReports (f u x)) (l : List α) (s : State) : s.moreReports (l.foldl f s) := by
  induction l generalizing s with
  | nil => exact State.moreReports_same rfl
  | cons x l ih => exact State.moreReports_trans (h s x) (ih _)

/-- A user of a lost link faults with LINK_DOWN, whatever the number of its port. -/
def State.faultsLink (n peer : Nat) (u : State) (x : Nat) : State := (u.fabFault x n fkLink peer (u.part x).epoch 0 .none).updPart x (fun y => { y with resharding := false, rs := {} })

theorem State.faultsLink_reports (n peer : Nat) (u : State) (x : Nat) : u.moreReports (u.faultsLink n peer x) := u.fabFault_reports x n fkLink peer (u.part x).epoch 0 .none

theorem State.faultsLink_faultView (n peer : Nat) (u : State) (x q : Nat) : (u.faultsLink n peer x).faultView q = u.faultView q :=
  State.faultView_updPart (s := u.fabFault x n fkLink peer (u.part x).epoch 0 .none) x (g := fun y => { y with resharding := false, rs := {} }) (fun _ => rfl) q

theorem State.linkDown_reports (s : State) (n : Nat) : s.moreReports (s.linkDown n) := by
  unfold State.linkDown
  extract_lets q users t
  split
  · exact State.moreReports_same rfl
  · split
    · exact State.moreReports_same rfl
    · exact State.moreReports_trans (t := t) (State.moreReports_same rfl) (foldl_moreReports (State.faultsLink_reports n q.peer) users t)

theorem State.linkDown_faultView (s : State) (n q : Nat) : (s.linkDown n).faultView q = s.faultView q := by
  unfold State.linkDown
  extract_lets port users t
  split
  · rfl
  · split
    · rfl
    · exact foldl_keeps (fun u : State => u.faultView q) (fun u x => State.faultsLink_faultView n port.peer u x q) users t

theorem State.linkLost_reports (s : State) (n : Nat) : s.moreReports (s.linkLost n) := State.moreReports_trans (s.linkDown_reports n) (State.onLinks_reports s (fun t => t.linkDown n))

theorem State.linkLost_faultView (s : State) (n q : Nat) : (s.linkLost n).faultView q = s.faultView q := by
  rw [← s.linkDown_faultView n q, State.faultView, State.linkLost, State.onLinks_fields, State.part_congr (State.onLinks_parts ..)]
  rfl

end Sys2Proof.Machine
end

section
/-! The judgement of a fault (R278, R295, R296, Table 9.4), and FAULT_REPORT with it. -/

namespace Sys2Proof.Machine

open Sys2Proof

variable {s t u : State} {p : PartIx}

/-! ### The judgement -/

/-- What a judgement of partition `p` leaves: the fields, the reports and the stop, and the partition recovers or stays stopped. -/
structure State.JudgedFrom (s : State) (p : PartIx) (t : State) : Prop where
  fields : t.fields = s.fields
  reports : t.fw.reports = s.fw.reports
  stopAt : (t.part p).stopAt = (s.part p).stopAt
  ready : (t.part p).ready = (s.part p).ready
  stands : (t.part p).rcv.active = true ∨ staysStopped (t.part p).stopStatus = true

theorem State.judgedFrom_stayStopped {st : W16} (hst : staysStopped st = true) (path : Nat) : s.JudgedFrom p (s.stayStopped p st path) := by
  obtain ⟨ms, hpart, -, hfields, hreports⟩ := s.stayStopped_keeps p st path
  exact ⟨hfields, hreports, by rw [hpart]; rfl, by rw [hpart]; rfl, .inr (by rw [hpart]; exact hst)⟩

/-- The partition whose recovery takes a path, with a detour and spares. -/
def Part.routed (path : Nat) (d : Recovery → Option (Nat × Nat)) (spares : List (Nat × Nat)) (y : Part) : Part := { y with rcv := { y.rcv with path := path, detour := d y.rcv, spares := spares } }

/-- A recovery that has its path, while the spares of it wake. -/
theorem State.judgedFrom_routed (h : (s.part p).rcv.active = true) (path : Nat) (d : Recovery → Option (Nat × Nat)) (spares : List (Nat × Nat)) (ks : List Nat) (g : Nat → Core → Core) :
    s.JudgedFrom p ((s.updPart p (Part.routed path d spares)).updCores ks g) := by
  have hpart : ((s.updPart p (Part.routed path d spares)).updCores ks g).part p = Part.routed path d spares (s.part p) := by
    rw [State.updPart_eq_withPart]
    exact State.part_withPart_self s p _
  exact ⟨rfl, rfl, by rw [hpart]; rfl, by rw [hpart]; rfl, .inl (by rw [hpart]; exact h)⟩

theorem State.judgedFrom_judge (h : (s.part p).rcv.active = true) : s.JudgedFrom p (s.judge p) := by
  unfold State.judge
  extract_lets x cores v units members places now bare
  have hv : v = { s with sites := v.sites } := by
    simp only [v, State.foldl_retire]
  have hjudged (w : State) (hw : v.JudgedFrom p w) : s.JudgedFrom p w := by
    rw [hv] at hw
    exact ⟨hw.fields, hw.reports, hw.stopAt, hw.ready, hw.stands⟩
  have hactive : (v.part p).rcv.active = true := by
    rw [hv]
    exact h
  refine hjudged _ ?_
  split
  · exact State.judgedFrom_routed hactive _ (fun q => if q.path = 8 then q.detour else none) _ _ _
  · split
    · exact State.judgedFrom_stayStopped rfl 6
    · next d _ =>
      extract_lets there spares path w
      split
      · exact State.judgedFrom_stayStopped rfl 6
      · exact State.judgedFrom_routed hactive path (fun _ => some d) spares _ _
  · exact State.judgedFrom_stayStopped rfl 6

theorem State.judgedFrom_startMarches (h : s.JudgedFrom p t) (n : Nat) : s.JudgedFrom p (t.startMarches n) := by
  unfold State.startMarches
  split
  · exact h
  · exact ⟨h.fields, h.reports, h.stopAt, h.ready, h.stands⟩

theorem State.assignSpares_enabled (s : State) (p : Nat) {cs : List (Nat × Nat)} (h : ∀ c ∈ cs, s.site c.2 = .enabled) (l : List Nat) : s.assignSpares p cs l = [] := by
  induction cs with
  | nil => rfl
  | cons c cs ih =>
    obtain ⟨hc, hcs⟩ := List.forall_mem_cons.1 h
    exact (if_pos hc).trans (ih hcs)

/-- No loss, no cut, and every site Enabled: the recovery restarts on the placement in force. -/
theorem State.judge_whole (hloss : (s.part p).rcv.losses = []) (hdraw : s.tg.detourDraw = none) (hsites : ∀ c ∈ (s.part p).coreSites (s.part p).placement, s.site c.2 = .enabled)
    (hports : ∀ c ∈ s.placed p, s.portLost c.2 = false) : s.judge p = s.withPart p (Part.routed 0 (fun q => if q.path = 8 then q.detour else none) []) := by
  have hcut : s.cutOff p = [] := by
    simp only [State.cutOff, hdraw]
    have hnone : ((s.placed p).map Prod.snd).filter (fun k => s.portLost k) = [] := by
      rw [List.filter_eq_nil_iff]
      simpa using fun b a hab => hports (a, b) hab
    simp [hnone]
  rw [← State.updPart_eq_withPart]
  unfold State.judge
  simp only [hloss, List.filterMap_nil, List.foldl_nil, hcut, State.assignSpares_enabled s p hsites]
  rfl

theorem State.startMarches_none (n : Nat) (h : (s.part n).rcv.march = []) : s.startMarches n = s := by
  unfold State.startMarches
  rw [h]
  split <;> rfl

/-! ### FAULT_REPORT (R277, R278, R293) -/

/-- The oldest report is taken up. -/
def State.reportTaken (s : State) (rest : List FaultReport) : State := { s with fw := { s.fw with reports := rest } }

/-- The loss of a report, or that which its recurrence adds. -/
def State.reportLoss (s : State) (r : FaultReport) : Loss := if r.loss = .none then s.recurLoss r else r.loss

/-- The partition with more sites to march before its restart. -/
def Part.marching (ks : List Nat) (y : Part) : Part := { y with rcv := { y.rcv with march := (y.rcv.march ++ ks).dedup } }

/-- A digest error that recurs takes its link with it. -/
def State.digestLost (s : State) (r : FaultReport) (t : State) : State :=
  match s.classOf r with
  | .digest port => if s.recurs r then t.linkLost port else t
  | _ => t

section
variable {r : FaultReport} {rest : List FaultReport} (hrep : s.fw.reports = r :: rest)
include hrep

theorem State.faultReport_dead (h : s.deadReport r) : s.faultReport = s.reportTaken rest := by
  unfold State.faultReport
  rw [hrep]
  exact if_pos ((s.reportTaken rest).deadReport_iff r |>.2 h)

/-- The state as a report of a partition that recovers is taken up. -/
def State.reportGathered (s : State) (p : PartIx) (r : FaultReport) (rest : List FaultReport) : State :=
  (s.reportTaken rest).gathered p { r with loss := s.reportLoss r }

theorem State.faultReport_live (hp : r.part = p.val) (h : ¬s.deadReport r) : s.faultReport =
    if s.recurs r && s.classOf r = .plan then (s.reportGathered p r rest).stayStopped p stPlanFault 5
    else ((s.digestLost r ((s.reportGathered p r rest).withPart p (Part.marching (s.marchSites r)))).judge p).startMarches p := by
  have hgather : (s.reportTaken rest).gather { r with loss := s.reportLoss r } = s.reportGathered p r rest := State.gather_eq hp
  rw [← hgather, ← State.updPart_eq_withPart, ← hp]
  unfold State.faultReport
  rw [hrep]
  exact if_neg (fun hc => h ((s.reportTaken rest).deadReport_iff r |>.1 hc))

end

end Sys2Proof.Machine
end

section
/-! O49: the effects of FAULT_REPORT, and the commands together. -/

namespace Sys2Proof.Machine

open Sys2Proof

variable {s : State} {p : PartIx} {r : FaultReport} {rest : List FaultReport}

/-! ### What a report that is taken up leaves (R277, R278) -/

theorem State.reportGathered_part (s : State) (p : PartIx) (r : FaultReport) (rest : List FaultReport) :
    (s.reportGathered p r rest).part p = s.stopping p ((s.part p).gathering { r with loss := s.reportLoss r } s.tg.cyc) :=
  State.part_withPart_self (s.reportTaken rest) p (fun y => (s.reportTaken rest).stopping p (y.gathering { r with loss := s.reportLoss r } s.tg.cyc))

/-- The stop of a partition that its firmware sends, or has sent. -/
def State.stopEdge (s : State) (p : Nat) : Option (BitVec 48) := if (s.part p).started = true ∧ (s.part p).stopAt = none then some (s.edgeAfter p 4096) else (s.part p).stopAt

/-- The partition taken up with a report that loses nothing, where none was lost before. -/
theorem Part.gathering_whole {x : Part} (hloss : r.loss = .none) (hlosses : x.rcv.losses = []) (hmarch : x.rcv.march = []) (cyc : W64) (stop : Option (BitVec 48)) :
    Part.routed 0 (fun q => if q.path = 8 then q.detour else none) [] (Part.marching [] { x.gathering r cyc with stopAt := stop }) = { x with
      startAt := if x.rcv.active then none else x.startAt, ready := [], stopAtCommit := false, stopAt := stop
      rcv := { x.rcv with active := true, reports := r :: x.rcv.reports, ready := false, startCyc := if x.rcv.active then x.rcv.startCyc else cyc
                          path := 0, spares := [], detour := if x.rcv.path = 8 then x.rcv.detour else none } } := by
  simp only [Part.routed, Part.marching, Part.gathering, hloss, hlosses, hmarch]
  rfl

/-- A report changes nothing of the placement. -/
theorem Part.coreSites_gathering (x : Part) (cyc : W64) (stop : Option (BitVec 48)) :
    (Part.marching [] { x.gathering r cyc with stopAt := stop }).coreSites (Part.marching [] { x.gathering r cyc with stopAt := stop }).placement = x.coreSites x.placement := rfl

theorem Part.losses_gathering {x : Part} (hloss : r.loss = .none) (hlosses : x.rcv.losses = []) (cyc : W64) (stop : Option (BitVec 48)) :
    (Part.marching [] { x.gathering r cyc with stopAt := stop }).rcv.losses = [] := by
  simp only [Part.marching, Part.gathering, hloss, hlosses]
  rfl

theorem Part.march_routed {x : Part} (hmarch : x.rcv.march = []) (path : Nat) (d : Recovery → Option (Nat × Nat)) (cyc : W64) (stop : Option (BitVec 48)) :
    (Part.routed path d [] (Part.marching [] { x.gathering r cyc with stopAt := stop })).rcv.march = [] := by
  simp only [Part.routed, Part.marching, Part.gathering, hmarch]
  rfl

section
variable (hrep : s.fw.reports = r :: rest) (hp : r.part = p.val) (h : ¬s.deadReport r)
include hrep hp h

/-- A fault of the plan that comes back in the same step leaves the partition stopped with PLAN_FAULT. -/
theorem State.faultReport_plan (hagain : s.recurs r = true) (hplan : s.classOf r = .plan) :
    (s.faultReport.part p).stopStatus = stPlanFault ∧ (s.faultReport.part p).stopAt = s.stopEdge p ∧ (s.faultReport.part p).ready = [] ∧ (s.faultReport.part p).rcv = {} ∧
      (s.faultReport.part p).snap.rcvPath = 5 ∧ s.faultReport.fw.reports = rest ∧ s.faultReport.cores = s.cores ∧ s.faultReport.fields = s.fields := by
  obtain ⟨ms, hpart, hcores, hfields, hreports⟩ := (s.reportGathered p r rest).stayStopped_keeps p stPlanFault 5
  have hrun : s.faultReport = (s.reportGathered p r rest).stayStopped p stPlanFault 5 := (State.faultReport_live hrep hp h).trans (if_pos (by simp [hagain, hplan]))
  rw [hrun, hpart, State.reportGathered_part, hreports, hcores, hfields]
  exact ⟨rfl, rfl, rfl, rfl, rfl, rfl, rfl, rfl⟩

/-- Any other fault is judged: the partition recovers, or stays stopped where no placement covers the losses. -/
theorem State.faultReport_judged (hother : ¬(s.recurs r && s.classOf r = .plan) = true) : ∃ more, s.faultReport.fw.reports = rest ++ more ∧ (s.faultReport.part p).stopAt = s.stopEdge p ∧
    (s.faultReport.part p).ready = [] ∧ s.faultReport.fields = s.fields ∧ ((s.faultReport.part p).rcv.active = true ∨ staysStopped (s.faultReport.part p).stopStatus = true) := by
  let t := (s.reportGathered p r rest).withPart p (Part.marching (s.marchSites r))
  have hpart : t.part p = Part.marching (s.marchSites r) (s.stopping p ((s.part p).gathering { r with loss := s.reportLoss r } s.tg.cyc)) := by
    rw [← State.reportGathered_part s p r rest]
    exact State.part_withPart_self ..
  have hlost : t.moreReports (s.digestLost r t) ∧ (s.digestLost r t).faultView p = t.faultView p := by
    unfold State.digestLost
    split
    · split
      · exact ⟨t.linkLost_reports _, t.linkLost_faultView _ p⟩
      · exact ⟨State.moreReports_same rfl, rfl⟩
    · exact ⟨State.moreReports_same rfl, rfl⟩
  obtain ⟨⟨more, hmore⟩, hview⟩ := hlost
  simp only [State.faultView, Part.faultView, Prod.mk.injEq, hpart] at hview
  obtain ⟨hfields, hstop, hready, hrcv, -⟩ := hview
  have hjudged : (s.digestLost r t).JudgedFrom p s.faultReport := by
    rw [State.faultReport_live hrep hp h, if_neg hother]
    exact State.judgedFrom_startMarches (State.judgedFrom_judge (by rw [hrcv]; rfl)) p
  exact ⟨more, hjudged.reports.trans hmore, hjudged.stopAt.trans hstop, hjudged.ready.trans hready, hjudged.fields.trans hfields, hjudged.stands⟩

/-- A fault that loses nothing restarts the partition on the placement in force. -/
theorem State.faultReport_whole (hagain : s.recurs r = false) (hplan : s.classOf r = .plan) (hdraw : s.tg.detourDraw = none) (hloss : r.loss = .none) (hlosses : (s.part p).rcv.losses = [])
    (hmarch : (s.part p).rcv.march = []) (hsites : ∀ c ∈ (s.part p).coreSites (s.part p).placement, s.site c.2 = .enabled) (hports : ∀ c ∈ s.placed p, s.portLost c.2 = false) :
    s.faultReport = { (s.reportTaken rest).withPart p (fun y => { y with
      startAt := if y.rcv.active then none else y.startAt, ready := [], stopAtCommit := false, stopAt := s.stopEdge p
      rcv := { y.rcv with active := true, reports := r :: y.rcv.reports, ready := false, startCyc := if y.rcv.active then y.rcv.startCyc else s.tg.cyc
                          path := 0, spares := [], detour := if y.rcv.path = 8 then y.rcv.detour else none } }) with out := s.stopsTold p ++ s.out } := by
  have hreport : ({ r with loss := s.reportLoss r } : FaultReport) = r := by
    have hnone : s.reportLoss r = r.loss := by
      rw [State.reportLoss, if_pos hloss, State.recurLoss, hagain, hloss]
      rfl
    rw [hnone]
  have hnoMarch : s.marchSites r = [] := by rw [State.marchSites, hplan]
  let t := (s.reportGathered p r rest).withPart p (Part.marching [])
  have hpart : t.part p = Part.marching [] { (s.part p).gathering r s.tg.cyc with stopAt := s.stopEdge p } := by
    have hgathered : (s.reportGathered p r rest).part p = { (s.part p).gathering r s.tg.cyc with stopAt := s.stopEdge p } := by
      rw [State.reportGathered_part, hreport]
      rfl
    rw [← hgathered]
    exact State.part_withPart_self (s.reportGathered p r rest) p (Part.marching [])
  have hplaced : t.placed p = s.placed p := by
    rw [State.placed, hpart]
    exact Part.coreSites_gathering ..
  have hjudge : t.judge p = t.withPart p (Part.routed 0 (fun q => if q.path = 8 then q.detour else none) []) := by
    refine State.judge_whole ?_ hdraw (fun c hc => hsites c ?_) (fun c hc => hports c (hplaced ▸ hc))
    · rw [hpart]
      exact Part.losses_gathering hloss hlosses ..
    · exact (show c ∈ s.placed p from hplaced ▸ hc)
  have hnoMarches : ((t.judge p).part p).rcv.march = [] := by
    rw [hjudge, State.part_withPart_self, hpart]
    exact Part.march_routed hmarch 0 (fun q => if q.path = 8 then q.detour else none) s.tg.cyc (s.stopEdge p)
  have hlost : s.digestLost r ((s.reportGathered p r rest).withPart p (Part.marching (s.marchSites r))) = t := by
    rw [hnoMarch, State.digestLost, hplan]
  have hrun : s.faultReport = t.withPart p (Part.routed 0 (fun q => if q.path = 8 then q.detour else none) []) :=
    ((State.faultReport_live hrep hp h).trans (if_neg (by simp [hagain]))).trans
      ((congrArg (fun u : State => (u.judge p).startMarches p) hlost).trans ((State.startMarches_none p hnoMarches).trans hjudge))
  let taken := s.reportTaken rest
  let taking : Part → Part := fun y => taken.stopping p (y.gathering { r with loss := s.reportLoss r } s.tg.cyc)
  let routing : Part → Part := Part.routed 0 (fun q => if q.path = 8 then q.detour else none) []
  have hcompose : ((taken.withPart p taking).withPart p (Part.marching [])).withPart p routing = taken.withPart p (fun y => routing (Part.marching [] (taking y))) := by
    rw [State.withPart_withPart, State.withPart_withPart]
  refine hrun.trans (congrArg (fun u : State => { u with out := s.stopsTold p ++ s.out }) (hcompose.trans (State.withPart_congr ?_)))
  simp only [taking, hreport]
  exact Part.gathering_whole hloss hlosses hmarch s.tg.cyc (s.stopEdge p)

end

end Sys2Proof.Machine
end

section
/-! O49: recovery and arbitration together. -/

namespace Sys2Proof.Machine

open Sys2Proof

variable {s : State} {p : PartIx}

theorem State.classOf_colFault {r : FaultReport} (h : ∃ c, r.what = .colFault c) : s.classOf r = .plan := by
  obtain ⟨c, hc⟩ := h
  rw [State.classOf, hc]

theorem State.startsAt_eq (h : (s.part p).startAt = none) : s.startsAt p =
    if (s.part p).listNow.length ≤ 1 then some (s.waferEdgeAfter 4096)
    else if s.leads (s.part p).listNow = true ∧ (∀ a ∈ s.others (s.part p).listNow, a ∈ (s.part p).ready) then some (s.waferEdgeAfter 4096) else none := by
  rw [State.startsAt, h]
  by_cases hone : (s.part p).listNow.length ≤ 1
  · rw [if_pos (.inl hone), if_pos hone]
  · rw [if_neg hone]
    exact if_congr (or_iff_right hone) rfl rfl

/-! ### The cores of an arbitration -/

theorem State.updCores_one (t : State) (k : Nat) (g : Core → Core) : t.updCores [k] (fun _ => g) = t.withCore k g := rfl
theorem State.updCores_two (t : State) (k j : Nat) (g : Core → Core) : t.updCores [k, j] (fun _ => g) = (t.withCore k g).withCore j g := rfl

theorem State.replayed_off (s : State) (on k : Nat) (ups : List Upset) (lane : W32) : ((s.replayed on ups lane).core k).chk.off = (s.core k).chk.off := by
  rw [State.replayed, State.core_withCore]
  split
  · next h => rw [h]
  · rfl

theorem Part.retires_iff {x : Part} {k : Nat} {v : Verdict} : x.retires k v = true ↔ v = .array ∨ (v = .suspect ∧ ∃ e ∈ x.suspects, e.1 = k) := by
  simp [Part.retires]

/-- A site that a verdict retires is Retired, unless it was Fused (Table 0.4). -/
theorem State.site_retired {t : State} {k : Nat} (h : t.sites = if s.site k = .enabled ∨ s.site k = .spare then Tab.set .enabled s.sites k .retired else s.sites) :
    t.site k = .retired ∨ s.site k = .fused := by
  rw [State.site, h]
  split
  · exact .inl ((Tab.get_set ..).trans (if_pos rfl))
  · next hnot =>
    change s.site k = _ ∨ _
    cases hs : s.site k <;> simp_all

/-- What a report leaves of a partition that exists: a recurring fault of the plan stops it, any other is judged. -/
theorem State.faultReport_effects {r : FaultReport} {rest : List FaultReport} (hrep : s.fw.reports = r :: rest) (hp : r.part = p.val) (h : ¬s.deadReport r) :
    ∃ more, s.faultReport.fw.reports = rest ++ more ∧ (s.faultReport.part p).stopAt = s.stopEdge p ∧ (s.faultReport.part p).ready = [] ∧ s.faultReport.fields = s.fields ∧
      ((s.faultReport.part p).rcv.active = true ∨ staysStopped (s.faultReport.part p).stopStatus = true) := by
  by_cases hplan : (s.recurs r && s.classOf r = .plan) = true
  · obtain ⟨hagain, hclass⟩ := Bool.and_eq_true_iff.1 hplan
    obtain ⟨hstatus, hstop, hready, -, -, hreports, -, hfields⟩ := State.faultReport_plan hrep hp h hagain (of_decide_eq_true hclass)
    exact ⟨[], by rw [hreports, List.append_nil], hstop, hready, hfields, .inr (by rw [hstatus]; rfl)⟩
  · exact State.faultReport_judged hrep hp h hplan

end Sys2Proof.Machine

open Sys2Proof Sys2Proof.Machine

/-- Settles O49: a report starts a recovery that a judgement of its losses routes, a restore puts a common generation in place, the members of a job restart together,
and an arbitration replays one captured event on two cores until its verdict falls. -/
theorem recoveryCommandsComplete : Obligations.RecoveryCommandsComplete := by
  unfold Obligations.RecoveryCommandsComplete
  refine ⟨fun s => ⟨fun hrep => ?_, fun r rest hrep h16 => ?_, fun p avail => ?_, fun p => ?_⟩, fun p s => ?_⟩
  · exact next_congr (by rw [State.faultReport, hrep])
  · intro x taken dead stop told
    let p : PartIx := ⟨r.part, h16⟩
    have hix : Fin.ofNat 16 r.part = p := Fin.ext (Nat.mod_eq_of_lt h16)
    refine ⟨fun h => next_congr (State.faultReport_dead hrep h), fun h hagain hdraw hloss hlosses hmarch hcol hsites hports => ?_, fun h hagain hcol => ?_, fun h => ?_⟩
    · rw [hix]
      exact next_congr (State.faultReport_whole (p := p) hrep rfl h hagain (State.classOf_colFault hcol) hdraw hloss hlosses hmarch hsites hports)
    · obtain ⟨hstatus, hstop, -, hrcv, hpath, hreports, hcores, hfields⟩ := State.faultReport_plan (p := p) hrep rfl h hagain (State.classOf_colFault hcol)
      exact ⟨_, rfl, hstatus, hstop, hrcv, hpath, hreports, hcores, hfields⟩
    · obtain ⟨more, hreports, hstop, hready, hfields, hstands⟩ := State.faultReport_effects (p := p) hrep rfl h
      exact ⟨_, more, rfl, hreports, hstop, hready, fun f => congrArg (fun t : Tab Field => (Tab.get ({} : Field) t f).hbm) hfields.symm, hstands⟩
  · intro x common pl
    refine ⟨fun h => next_congr (State.restoreDone_waits h avail), fun h hg => ?_, fun g plan h hg hplan => ⟨fun hf => next_congr (State.restoreDone_unfit h hg hplan hf), fun hf => ?_⟩⟩
    · obtain ⟨ms, hpart, hcores, hfields, -⟩ := s.stayStopped_keeps p stNoSnapshot 7
      refine ⟨_, next_congr (State.restoreDone_lost h hg), ?_⟩
      rw [hpart]
      exact ⟨rfl, rfl, rfl, rfl, rfl, hcores, hfields⟩
    · obtain ⟨ready, acts, hpart⟩ := State.restoreDone_part h hg hplan hf
      refine ⟨_, rfl, ?_⟩
      rw [hpart]
      exact ⟨rfl, rfl, rfl, rfl, rfl, rfl, rfl, rfl, rfl, State.startsAt_eq (State.mayRestore_startAt h)⟩
  · intro x joins stop
    refine ⟨fun h => next_congr (State.jobStop_ignored h), fun h hj => next_congr ((State.jobStop_joins h hj).trans (State.withPart_congr rfl)), fun src => ?_,
      fun hrun hat hready => next_congr (State.restart_starts hrun hat hready), fun h => next_congr (State.restart_ignored h)⟩
    intro waits rs all
    exact ⟨fun h => next_congr (State.memberReady_unheard h), fun h ha => next_congr (State.memberReady_waits h ha), fun h ha => next_congr (State.memberReady_starts h ha)⟩
  · intro x ready began
    refine ⟨fun h => next_congr (State.checkArbitration_waits h), fun k rest h hk => ⟨fun hd => next_congr (State.checkArbitration_dark h hk hd), fun hl hc => ?_⟩, fun k on ups lane => ?_⟩
    · intro peer t
      have hbegins := State.checkArbitration_begins h hk hl hc
      have hbegan : began (s.core k).chk.cap = Core.beginReplay (s.core k).chk.cap := rfl
      have ht : s.withPart p (s.arbitrating p k rest) = t := rfl
      rw [hbegan, ← ht]
      refine ⟨fun hn => next_congr (hbegins.trans ?_), fun j hj hne => next_congr (hbegins.trans ?_)⟩
      · rw [show s.peerOf p k = none from hn]
        exact State.updCores_one ..
      · rw [show s.peerOf p k = some j from hj]
        exact State.updCores_two ..
    · intro due
      refine ⟨fun _ h => next_congr (State.replayDone_other (mt (fun ⟨a, ha, hk, hon, hr⟩ => ⟨a, ha, hk, hon.imp_left Fin.ext, hr⟩) h)), fun peer harb hon hrep => ?_⟩
      intro src r cap t other v
      have honk : (if on.val = k.val then peer else k.val) = other := if_congr Fin.ext_iff.symm rfl rfl
      have hon' : on.val = k.val ∨ on.val = peer := hon.imp_left (congrArg Fin.val)
      have ht : s.replayed on ups lane = t := rfl
      refine ⟨fun hne hrun => next_congr (State.replayDone_half harb hon' hrep (honk.symm ▸ hne) (honk.symm ▸ hrun)), fun hdone => ?_⟩
      have hv : (s.replayed on ups lane).verdict k peer = v := rfl
      have hboth := State.replayDone_both (ups := ups) (lane := lane) harb hon' hrep (honk.symm ▸ hdone)
      obtain ⟨hfields, ⟨l, hpart⟩, hsites, hoff⟩ := (s.replayed on ups lane).applyVerdict_effects p k v
      rw [hv] at hboth
      refine ⟨_, next_congr hboth, hfields, ?_⟩
      rw [hpart, hoff, State.replayed_off]
      refine ⟨rfl, rfl, rfl, rfl, fun hr => State.site_retired (hsites.trans ?_), fun harray hsuspect => hsites.trans (if_neg ?_), rfl⟩
      · exact if_congr (and_iff_right (Part.retires_iff.2 hr)) rfl rfl
      · exact fun hc => (Part.retires_iff.1 hc.1).elim harray (fun hs => hsuspect hs.1)
end
